-- ==== Sys2Proof/Word.lean ====
section
/-! DEFINITION. The word types of the FZ9800 (spec/02 R38: sample, gain, coefficient and accumulator words;
spec/15 R454: 32-bit registers) and the sparse-map type the state is written with. -/

namespace Sys2Proof

/-- One byte. -/
abbrev Byte := BitVec 8
/-- A register of the register space (15 R454). -/
abbrev W32 := BitVec 32
/-- A sample word, Q7.56 (02 R38). -/
abbrev S64 := BitVec 64
/-- A gain word, Q4.19 (02 R38). -/
abbrev G24 := BitVec 24
/-- A coefficient word, Q3.36 (02 R38). -/
abbrev C40 := BitVec 40

/-- A finite map from keys to values: keys rise, and a key whose value is the map's default is not listed, so that
equal maps are equal lists. The default belongs to the reader (`smGet`) and writer (`smSet`) of the map. -/
abbrev SMap (α : Type) := List (Nat × α)

end Sys2Proof
end

