-- ==== Sys2Proof/Syntax.lean ====
section
/-! DEFINITION. The commands: one constructor per row of spec/opcode_table.json, in its order. An operand is what the
row's step takes from outside the engine: a unit, the word written to a register, a frame, what a read found. -/

namespace Sys2Proof

/-- 01 R12: the rate domains. -/
inductive Dom
  | A
  | B
  | C
  deriving DecidableEq, Repr

/-- 20 R581: the supplies that may be absent, and the fuse-programming supply. -/
inductive Supply
  | vddqDram
  | vddSds
  | vddhSds
  | vddio0
  | vddio1
  | vddio2
  | vddio3
  | vddio4
  | vddio5
  | vppFuse
  deriving DecidableEq, Repr

/-- 13 R406, R407: a codeword that has changed since it was written: the memory region (13 R412), the word (Atrium address / 8,
or the array's word index), the bits of the codeword that have turned over, the array that holds it and the physical column of
the lowest of them. Words that are not listed are read as they were written. -/
structure Finding where
  region : Fin 32
  word : Nat
  flips : BitVec 80
  array : BitVec 16
  column : BitVec 10
  deriving DecidableEq, Repr

/-- 01 R10: the kind of tick buffer that is late: a D-slot's word of a Gallery tile, a stage of an input or output strip, the
outputs of an Atelier core, a port side's frame, a network receive channel, a Daxesh link's frame. -/
inductive LateKind
  | column
  | inStrip
  | outStrip
  | core
  | side
  | net
  | link
  deriving DecidableEq, Repr

/-- 16 R481: LR, SC and the AMO instructions. -/
inductive AmoOp
  | lr
  | sc
  | swap
  | add
  | and
  | or
  | xor
  | min
  | max
  | minu
  | maxu
  deriving DecidableEq, Repr

/-- 04 R107: the two ways a commit command arrives: a command entry, or a word written to SCN_CMT_CTRL. -/
inductive CmtSrc
  | entry (e : BitVec 512)
  | port (w : W32)
  deriving DecidableEq, Repr

/-- 08 R262: the AES3 preambles. -/
inductive Preamble
  | X
  | Y
  | Z
  deriving DecidableEq, Repr

/-- 08 R261, R262: a frame on the pins of a port side. Serial: the word select and the data at each bit clock, from the most
significant bit of the left slot on. AES3: the preambles and time slots 4 to 31 of both subframes (slot 4 is bit 0), and
whether the biphase code was intact. -/
inductive PortWave
  | serial (bits : List (Bool × Bool))
  | aes (p0 p1 : Preamble) (s0 s1 : BitVec 28) (intact : Bool)
  deriving DecidableEq, Repr

/-- 08 R260 to R268: a frame at a local receive side, and the latch instant within the tick in units of 2^-32 Ts. -/
structure RxFrame where
  wave : PortWave
  at_ : BitVec 32
  deriving DecidableEq, Repr

/-- 10 R305: a block of a Daxesh link: sync header and body. What a link receives comes as the blocks of its four lanes,
scrambled, lane 0 to lane 3 and again, MARKER blocks among them (R306). -/
structure Block66 where
  sync : BitVec 2
  body : BitVec 64
  deriving DecidableEq, Repr

/-- 10 R307: a MARKER block seen on a lane: how many blocks of the lane came before it, the body before it and the block
itself, scrambled. -/
structure MarkerSeen where
  at_ : Nat
  prev : BitVec 64
  marker : Block66
  deriving DecidableEq, Repr

/-- 10 R307: the MARKER blocks that a link has seen, lane 0 first. -/
structure LinkMarkers where
  link : Fin 2
  seen : List MarkerSeen
  deriving DecidableEq, Repr

/-- 11 R351: a period that a reference input misses, and whether the one before was missing too. -/
structure MissedPeriod where
  input : Fin 9
  again : Bool
  deriving DecidableEq, Repr

/-- 11 R360, R363: what a DPLL has measured in a second: its mean frequency, and the phase error at its end. -/
structure DpllSecond where
  freq : BitVec 32
  phase : BitVec 32
  deriving DecidableEq, Repr

/-- 12 R393: one item of a Conservation pass: kind, instance, result, first failing word, ageing margin. -/
structure ConsItem where
  kind : Fin 7
  unit : BitVec 16
  result : Fin 3
  failAt : BitVec 32
  margin : BitVec 32
  deriving DecidableEq, Repr

/-- The commands (spec/opcode_table.json). -/
inductive Instr
  /-- TICK_EVENT (R17): A domain's tick generator begins tick n and sends every bound island a tick event carrying the 64-bit sample index. -/
  | tickEvent (x : Dom) (skip : Nat)
  /-- TICK_BUFFER_LATE (R10): A producer's tick buffer entry is not complete when the consumer's next tick begins, so the lateness is counted and the substitute value is used. -/
  | tickBufferLate (kind : LateKind) (x : Dom) (entry : Fin 4096) (stage : Fin 3)
  /-- COLUMN_JOB (R69): A tile completes the 520-cycle column job of a bound D-slot for one sample and stores the column sum to S64. -/
  | columnJob (d : Fin 4096) (ue : List (Fin 4096))
  /-- ZC_TIMEOUT_FALLBACK (R79): An armed node reaches its generation's deadline and starts a fallback ramp, or steps at once when no ramp slot is free. -/
  | zcTimeoutFallback (d i : Fin 4096)
  /-- RAMP_END (R80): A ramping node reaches step k = L, takes its pending gain, settles, releases its slot and lands any deferred staging write. -/
  | rampEnd (d i : Fin 4096)
  /-- COLUMN_JOB_ABANDON (R98): A column job unfinished at its deadline is abandoned, the D-slot stores zero, and the late event is counted and recorded. -/
  | columnJobAbandon (d : Fin 4096)
  /-- STAGE_NODE (R100): A write of 1 to GAL_STG_CMD.stage stages one node or linked pair from the staging registers and reports its status. -/
  | stageNode (w : W32)
  /-- STAGING_STALL_RELEASE (R90): A staging write stalled by a full deferral table proceeds once an entry lands. -/
  | stagingStallRelease
  /-- GEN_CLAIM (R104): A write of 1 to SCN_GEN_CLAIM.claim claims the next open generation of a domain, or claims nothing. -/
  | genClaim (w : W32)
  /-- STAGE_RECORD (R116): A write of 1 to SCN_REC_CMD.stage checks one record and stages it, lands it at once, or refuses it with a status. -/
  | stageRecord (w : W32)
  /-- PATCH_STALL_RELEASE (R123): A record stalled by a full patch deferral table proceeds once an entry lands. -/
  | patchStallRelease
  /-- COMMIT (R107): A commit command, issued as command code 0x0102 or through SCN_CMT_CTRL.commit, is checked, queued and given a ticket. -/
  | commit (iss : Fin 256) (src : CmtSrc)
  /-- COMMIT_APPLY (R109): At a tick event at or past its target, a queued and ready commit with no earlier uncommitted generation sets C_x, and its records land. -/
  | commitApply (x : Dom)
  /-- PATCH_XFADE_END (R122): An output patch crossfade reaches k = L, toggles live_select, becomes STEADY and lands any deferred record. -/
  | patchXfadeEnd (e : Fin 16384)
  /-- RECALL (R131): Command code 0x0101 recalls a scene: it is checked, claims its generations and queues for the Vault loader. -/
  | recall (iss : Fin 256) (e : BitVec 512)
  /-- RECALL_LOAD_START (R132): The Vault loader starts staging a waiting recall when the earlier recall has finished its CRC step. -/
  | recallLoadStart
  /-- RECALL_STAGED (R133): The loader finishes staging a recall, checks the CRC and expire flag, and queues its commits or completes it EXPIRED or CORRUPT. -/
  | recallStaged (read : List Finding)
  /-- STRIP_STAGE_LATE (R139): A strip stage misses its deadline, so its consumer takes zero, and the lateness is counted and recorded. -/
  | stripStageLate (out : Bool) (strip : Fin 4096) (stage : Fin 4)
  /-- COEFFICIENT_INTERP_END (R143): A section's 64-sample coefficient interpolation completes on the new set. -/
  | coefficientInterpEnd (strip : Fin 8192) (key : Fin 65536)
  /-- ENABLE_XFADE_END (R145): A section's 64-sample enable crossfade ends, and a held enable record lands on the next index. -/
  | enableXfadeEnd (strip : Fin 8192) (key : Fin 65536)
  /-- GAIN_RAMP_END (R146): A trim, output gain or polarity ramp reaches its target after 64 samples. -/
  | gainRampEnd (strip : Fin 8192) (key : Fin 65536)
  /-- SWITCH_FADE_END (R147): A process, mute or insert-mode switch fade ends, and a held switch record lands on the next index. -/
  | switchFadeEnd (strip : Fin 8192) (key : Fin 65536)
  /-- INSERT_LATENCY_CHANGE (R148): At c + 32 of an insert dip, the strip latency changes and the fade-in begins. -/
  | insertLatencyChange (strip : Fin 8192)
  /-- INSERT_DIP_END (R148): At c + 64 the insert dip ends, and the send follows the new mode. -/
  | insertDipEnd (strip : Fin 8192)
  /-- GATE_HOLD_EXPIRE (R151): A gate or ducker hold counter reaches zero, and the processor closes. -/
  | gateHoldExpire (strip : Fin 8192) (key : Fin 65536)
  /-- DELAY_READ_LATE (R155): A DRAM delay read arrives late, so the previous delay output repeats and the event is counted. -/
  | delayReadLate (strip : Fin 8192)
  /-- DELAY_XFADE_END (R156): A 64-sample delay crossfade ends, and a held delay record lands on the next index. -/
  | delayXfadeEnd (strip : Fin 8192)
  /-- METER_FRAME_CLOSE (R164): The meter writer closes a frame at a multiple of the frame period and writes its body and sequence number. -/
  | meterFrameClose
  /-- LOUDNESS_BLOCK (R163): A 100 ms loudness block ends, the member table is read again and the group's loudness values are updated. -/
  | loudnessBlock (g : Fin 512)
  /-- LOUDNESS_GROUP_RESET (R163): A write of 1 to STR_LG_RESET.reset resets the integrated loudness of a group at its next block. -/
  | loudnessGroupReset (w : W32)
  /-- ARCHIVE_BLOCK_DROP (R167): A block not written within 256 Ts is discarded, counted and recorded, and the first captured index moves on. -/
  | archiveBlockDrop (slot : Fin 4096)
  /-- PLAYBACK_ARM (R168): A write of 1 to STR_PB_CTRL.arm arms a playback channel or refuses it with a code. -/
  | playbackArm (ch : Fin 64) (w : W32)
  /-- PLAYBACK_STOP (R169): A write of 1 to STR_PB_CTRL.stop makes a playback channel yield zero from the next tick. -/
  | playbackStop (ch : Fin 64) (w : W32)
  /-- PLAYBACK_START (R168): An armed playback channel reaches its start_index and begins yielding archived values. -/
  | playbackStart (ch : Fin 64)
  /-- PLAYBACK_END (R168): A playback channel has played its length and yields zero from the next tick. -/
  | playbackEnd (ch : Fin 64)
  /-- PLAYBACK_READ_LATE (R168): A playback read arrives late, so the previous sample repeats and the event is counted. -/
  | playbackReadLate (ch : Fin 64)
  /-- FRAME_OVERRUN (R190): A tick event reaches a core before FEND, so the frame is abandoned with zero outputs and the overrun is counted. -/
  | frameOverrun (c : Fin 68)
  /-- COMPARE_INTERRUPT (R197): The frame cycle reaches cmp_cycle, and the compare interrupt becomes pending. -/
  | compareInterrupt (c : Fin 68)
  /-- INTERRUPT_TAKE (R198): A pending Atelier interrupt is taken at an eligible boundary, switching to the shadow bank at its vector. -/
  | interruptTake (c : Fin 68)
  /-- LM_ANSWER (R203): The answer words of a long-memory read arrive and are placed in the answer words of the next frame. -/
  | lmAnswer (c : Fin 68) (read : List Finding)
  /-- LM_ANSWER_LATE (R204): A read answer has not arrived by the next frame entry, so it reads as zero and is counted. -/
  | lmAnswerLate (c : Fin 68)
  /-- P_QUEUE_DRAIN (R210): After FEND, or when the core stops running, queued posted P writes are written one per cycle. -/
  | pQueueDrain (c : Fin 68)
  /-- ATELIER_WINDOW_ACCESS (R209): An Atrium access to an Atelier core window is served or refused according to the core's condition. -/
  | atelierWindowAccess (m : Fin 21) (addr : Nat) (size : Fin 4) (wr : Option (BitVec 64))
  /-- ATELIER_MEMORY_FILL (R179): After reset or a return from OFF, a core finishes zero-filling P, X, Y and E, and stalled window accesses proceed. -/
  | atelierMemoryFill (c : Fin 68)
  /-- XMAP_WRITE (R182): A write to ATL_XMAP sets an exchange map word, or is ignored when it names an entry below 4,256. -/
  | xmapWrite (l : Fin 64) (j : Fin 64) (w : W32)
  /-- XMAP_APPLY (R182): An exchange map write takes effect at the first frame whose tick begins after the write reaches the island. -/
  | xmapApply (l : Fin 64)
  /-- NOP (R217): The instruction does nothing. -/
  | nop (c : Fin 68)
  /-- FEND (R189): The instruction ends the frame, and the core issues nothing until the next tick event. -/
  | fend (c : Fin 68)
  /-- RTI (R200): The instruction returns from the interrupt handler to the main bank after its delay slot. -/
  | rti (c : Fin 68)
  /-- WAIT (R240): The instruction stalls issue until the frame cycle reaches c. -/
  | wait (c : Fin 68) (cyc : Fin 65536)
  /-- WAIT_END (R240): The frame cycle count reaches the WAIT target, and issue resumes. -/
  | waitEnd (c : Fin 68)
  /-- BR (R237): The instruction branches to the target after one delay slot when the condition holds. -/
  | br (c : Fin 68) (cc : Fin 16) (t : Fin 16384)
  /-- BRL (R237): The instruction branches and links, setting Pk to the address after its delay slot. -/
  | brl (c : Fin 68) (pk : Fin 8) (t : Fin 16384)
  /-- BRR (R237): The instruction branches to Pk[13:0] when the condition holds. -/
  | brr (c : Fin 68) (cc : Fin 16) (pk : Fin 8)
  /-- LOOP (R238): The instruction starts a hardware loop with an immediate count. -/
  | loop (c : Fin 68) (n : Fin 65536) (e : Fin 16384)
  /-- LOOPR (R238): The instruction starts a hardware loop with its count taken from Da[15:0]. -/
  | loopr (c : Fin 68) (ra : Fin 16) (e : Fin 16384)
  /-- LOOP_EXIT (R238): The count of the innermost loop level reaches 1 at its end address, and the level pops. -/
  | loopExit (c : Fin 68)
  /-- ILLEGAL_INSTRUCTION (R217): An illegal instruction, or one that breaks a loop rule, halts the core for the rest of the frame and is recorded. -/
  | illegalInstruction (c : Fin 68)
  /-- MOV (R226): The instruction copies Da to Dd. -/
  | mov (c : Fin 68) (rd ra : Fin 16)
  /-- ADD (R226): The instruction forms a wrapping sum. -/
  | add (c : Fin 68) (rd ra rb : Fin 16)
  /-- ADDS (R226): The instruction forms a saturating sum. -/
  | adds (c : Fin 68) (rd ra rb : Fin 16)
  /-- SUB (R226): The instruction forms a wrapping difference. -/
  | sub (c : Fin 68) (rd ra rb : Fin 16)
  /-- SUBS (R226): The instruction forms a saturating difference. -/
  | subs (c : Fin 68) (rd ra rb : Fin 16)
  /-- NEG (R226): The instruction forms a wrapping negation. -/
  | neg (c : Fin 68) (rd ra : Fin 16)
  /-- ABS (R226): The instruction forms a saturating magnitude. -/
  | abs (c : Fin 68) (rd ra : Fin 16)
  /-- MIN (R226): The instruction forms the signed minimum. -/
  | min (c : Fin 68) (rd ra rb : Fin 16)
  /-- MAX (R226): The instruction forms the signed maximum. -/
  | max (c : Fin 68) (rd ra rb : Fin 16)
  /-- AND (R226): The instruction forms a bitwise AND. -/
  | and (c : Fin 68) (rd ra rb : Fin 16)
  /-- OR (R226): The instruction forms a bitwise OR. -/
  | or (c : Fin 68) (rd ra rb : Fin 16)
  /-- XOR (R226): The instruction forms a bitwise XOR. -/
  | xor (c : Fin 68) (rd ra rb : Fin 16)
  /-- SHL (R226): The instruction performs a wrapping left shift. -/
  | shl (c : Fin 68) (rd ra : Fin 16) (sh : Fin 64)
  /-- SHLS (R226): The instruction performs a saturating left shift. -/
  | shls (c : Fin 68) (rd ra : Fin 16) (sh : Fin 64)
  /-- SHR (R226): The instruction performs an arithmetic right shift. -/
  | shr (c : Fin 68) (rd ra : Fin 16) (sh : Fin 64)
  /-- SHRL (R226): The instruction performs a logical right shift. -/
  | shrl (c : Fin 68) (rd ra : Fin 16) (sh : Fin 64)
  /-- CMP (R227): The instruction compares Da with Db and sets N and Z. -/
  | cmp (c : Fin 68) (ra rb : Fin 16)
  /-- MOVI (R226): The instruction loads a sign-extended immediate. -/
  | movi (c : Fin 68) (rd : Fin 16) (imm : BitVec 32)
  /-- MOVIH (R226): The instruction loads an immediate into bits [63:32]. -/
  | movih (c : Fin 68) (rd : Fin 16) (imm : BitVec 32)
  /-- ADDI (R226): The instruction adds an immediate with wrapping. -/
  | addi (c : Fin 68) (rd ra : Fin 16) (imm : BitVec 32)
  /-- MOVK (R228): The instruction moves D bits [39:0] to K. -/
  | movk (c : Fin 68) (rd : Fin 8) (ra : Fin 16)
  /-- MOVDK (R228): The instruction moves K, sign-extended, to D. -/
  | movdk (c : Fin 68) (rd : Fin 16) (ra : Fin 8)
  /-- MOVR (R228): The instruction moves D to a P, M, B or L register. -/
  | movr (c : Fin 68) (file : Fin 4) (rd : Fin 8) (ra : Fin 16)
  /-- MOVD (R228): The instruction moves a P, M, B or L register to D. -/
  | movd (c : Fin 68) (file : Fin 4) (rd : Fin 16) (ra : Fin 8)
  /-- MOVSW (R228): The instruction moves SW to D. -/
  | movsw (c : Fin 68) (rd : Fin 16)
  /-- CLRSW (R228): The instruction clears the selected sticky bits of SW. -/
  | clrsw (c : Fin 68) (bits : Fin 8)
  /-- SETR (R228): The instruction writes a 16-bit immediate to a P, M, B or L register. -/
  | setr (c : Fin 68) (file : Fin 4) (rd : Fin 8) (imm : BitVec 16)
  /-- LD (R229): The instruction loads a word from X, Y or E into D. -/
  | ld (c : Fin 68) (rd : Fin 16) (sp : Fin 3) (nm : Bool) (px mx : Fin 8)
  /-- LDK (R229): The instruction loads a word into K. -/
  | ldk (c : Fin 68) (rd : Fin 8) (sp : Fin 3) (nm : Bool) (px mx : Fin 8)
  /-- ST (R229): The instruction stores D to memory. -/
  | st (c : Fin 68) (ra : Fin 16) (sp : Fin 3) (nm : Bool) (px mx : Fin 8)
  /-- STK (R229): The instruction stores K to memory. -/
  | stk (c : Fin 68) (ra : Fin 8) (sp : Fin 3) (nm : Bool) (px mx : Fin 8)
  /-- XCH (R230): The instruction exchanges D with a memory word in one cycle. -/
  | xch (c : Fin 68) (rd : Fin 16) (e : Bool) (nm : Bool) (px mx : Fin 8)
  /-- MAC (R231): The instruction accumulates D × K. -/
  | mac (c : Fin 68) (rd : Fin 4) (ra : Fin 16) (rb : Fin 8)
  /-- MSU (R231): The instruction subtracts D × K from the accumulator. -/
  | msu (c : Fin 68) (rd : Fin 4) (ra : Fin 16) (rb : Fin 8)
  /-- MPY (R231): The instruction loads D × K into the accumulator. -/
  | mpy (c : Fin 68) (rd : Fin 4) (ra : Fin 16) (rb : Fin 8)
  /-- MACG (R231): The instruction accumulates D × G24. -/
  | macg (c : Fin 68) (rd : Fin 4) (ra rb : Fin 16)
  /-- MPYG (R231): The instruction loads D × G24 into the accumulator. -/
  | mpyg (c : Fin 68) (rd : Fin 4) (ra rb : Fin 16)
  /-- MACY (R231): The instruction accumulates D × Y. -/
  | macy (c : Fin 68) (rd : Fin 4) (ra : Fin 16) (nm : Bool) (py my : Fin 8)
  /-- MSUY (R231): The instruction subtracts D × Y from the accumulator. -/
  | msuy (c : Fin 68) (rd : Fin 4) (ra : Fin 16) (nm : Bool) (py my : Fin 8)
  /-- MPYY (R231): The instruction loads D × Y into the accumulator. -/
  | mpyy (c : Fin 68) (rd : Fin 4) (ra : Fin 16) (nm : Bool) (py my : Fin 8)
  /-- TAP (R232): The instruction performs one filter tap with a load of the next history word. -/
  | tap (c : Fin 68) (rd : Fin 4) (ra : Fin 16) (nmx : Bool) (px mx : Fin 8) (nmy : Bool) (py my : Fin 8)
  /-- TAPW (R232): The instruction performs a filter tap and writes the held value back. -/
  | tapw (c : Fin 68) (rd : Fin 4) (ra : Fin 16) (nmx : Bool) (px mx : Fin 8) (nmy : Bool) (py my : Fin 8)
  /-- TAP2 (R233): The instruction performs two taps with one X pair read. -/
  | tap2 (c : Fin 68) (pair : Bool) (h : Fin 8) (nmx : Bool) (px mx : Fin 8) (nmy : Bool) (py my : Fin 8)
  /-- CLRA (R234): The instruction clears an accumulator. -/
  | clra (c : Fin 68) (rd : Fin 4)
  /-- LDA (R234): The instruction loads an S64 value onto the A128 binary point. -/
  | lda (c : Fin 68) (rd : Fin 4) (ra : Fin 16)
  /-- MOVA (R234): The instruction copies an accumulator with its E8, lost and direction bits. -/
  | mova (c : Fin 68) (rd ra : Fin 4)
  /-- NEGA (R234): The instruction negates an accumulator. -/
  | nega (c : Fin 68) (rd ra : Fin 4)
  /-- ADDA (R234): The instruction adds two accumulators. -/
  | adda (c : Fin 68) (rd ra rb : Fin 4)
  /-- SUBA (R234): The instruction subtracts one accumulator from another. -/
  | suba (c : Fin 68) (rd ra rb : Fin 4)
  /-- SHA (R234): The instruction arithmetically shifts an accumulator. -/
  | sha (c : Fin 68) (rd ra : Fin 4) (sh : BitVec 8)
  /-- STA (R234): The instruction stores an accumulator to S64 and counts a saturation. -/
  | sta (c : Fin 68) (rd : Fin 16) (ra : Fin 4)
  /-- LMR (R236): The instruction issues a long-memory read request, or has it refused. -/
  | lmr (c : Fin 68) (ra : Fin 16) (len : Fin 9) (imm : BitVec 32)
  /-- LMW (R236): The instruction issues a long-memory write request, or has it refused. -/
  | lmw (c : Fin 68) (ra rb : Fin 16) (imm : BitVec 32)
  /-- CORE_STATE_COPY (R212): At a qualifying FEND of the active core, the rotation engine copies a core's state to the spare. -/
  | coreStateCopy
  /-- ROTATION_NO_GAP (R212): No qualifying FEND occurs within 4,096 frames, so the core rotation fails with NO_GAP. -/
  | rotationNoGap
  /-- SHADOW_BLOCK_COMPARE (R395): A block of 64 samples or frames ends, and the comparator checks the shadow unit's words against the active unit's. -/
  | shadowBlockCompare (x : Dom) (same : Bool)
  /-- ROTATION_SWITCH (R395): After matching blocks, the spare becomes ACTIVE at the chosen tick, and consumers read its words. -/
  | rotationSwitch
  /-- ROTATION_COPY_DONE (R395): The rotation engine finishes copying the active unit's memory to the spare, which then runs in SHADOW. -/
  | rotationCopyDone
  /-- ROTATION_RELEASE (R395): The old unit finishes its work and self-test and becomes SPARE or OFF, and the ROTATE ticket completes. -/
  | rotationRelease (pass : Bool)
  /-- DOMAIN_START (R244): A write of 1 to TIM_DOM_CTRL.start starts a stopped tick generator at its first index, or is refused. -/
  | domainStart (x : Dom) (w : W32)
  /-- DOMAIN_STOP (R245): A write of 1 to TIM_DOM_CTRL.stop stops the generator, or is refused while units are bound. -/
  | domainStop (x : Dom) (w : W32)
  /-- BRIDGE_START (R255): A write of 1 to PRT_BR_CTRL.start latches PRT_BR_CFG and starts a bridge, or refuses the start. -/
  | bridgeStart (b : Fin 256) (w : W32)
  /-- BRIDGE_OUTPUT_START (R255): A locked bridge reaches index s + Lo and begins fading its output in. -/
  | bridgeOutputStart (b : Fin 256)
  /-- BRIDGE_STOP (R256): A write of 1 to PRT_BR_CTRL.stop fades the bridge output to zero over 64 samples. -/
  | bridgeStop (b : Fin 256) (w : W32)
  /-- BRIDGE_STOPPED (R256): The stop fade ends, and the bridge becomes STOPPED. -/
  | bridgeStopped (b : Fin 256)
  /-- BRIDGE_BLOCK (R251): An asynchronous bridge starts output block j with increment r_j, taking r_(j−1) when the ratio word is late. -/
  | bridgeBlock (b : Fin 256)
  /-- BRIDGE_RUNNING (R252): The position error has stayed below one input sample for 64 blocks, so a waiting asynchronous bridge becomes RUNNING and fades in. -/
  | bridgeRunning (b : Fin 256)
  /-- SIDE_ENABLE (R257): PRT_SIDE_CFG.enable changes from 0 to 1, the side latches its configuration and enters STARTING. -/
  | sideEnable (i : Fin 160) (w : W32)
  /-- SIDE_DISABLE (R274): Clearing PRT_SIDE_CFG.enable takes effect at the end of the frame in progress, and the side's pins go high-impedance. -/
  | sideDisable (i : Fin 160) (w : W32)
  /-- PORT_FRAME_RECEIVED (R260): A receive side latches a complete frame and assigns it an index for delivery. -/
  | portFrameReceived (i : Fin 160) (f : RxFrame)
  /-- PORT_FRAME_TRANSMIT (R260): A transmit side begins a frame, at its tick or at a slave word-select edge, and shifts out its words. -/
  | portFrameTransmit (i : Fin 160) (good : Bool) (at_ : BitVec 32)
  /-- MISSING_FRAME (R267): A tick of a slave side passes with no frame, which is counted as a glitch. -/
  | missingFrame (i : Fin 160)
  /-- CLOCK_ABSENT (R266): No clock edge is seen for 4 Ts, so the side enters CLOCK_ABSENT and fades out. -/
  | clockAbsent (i : Fin 160)
  /-- SIDE_LOCKED (R269): After 8 consecutive good frames the side returns to LOCKED and starts its fade-in. -/
  | sideLocked (i : Fin 160)
  /-- SIDE_FADE_END (R271): A side's 64-sample mute or unmute fade reaches its target gain. -/
  | sideFadeEnd (i : Fin 160)
  /-- SIDE_MASK_WRITE (R273): A write to PRT_SIDE_MASK sets the channel enables of a side. -/
  | sideMaskWrite (i : Fin 160) (w : W32)
  /-- MASK_APPLY (R273): A channel mask write applies from the first whole frame that starts after it reaches the island. -/
  | maskApply (i : Fin 160)
  /-- GP_SCENE_TRIGGER (R275): An active edge on a scene-trigger pin issues a recall at the next tick plus the lead. -/
  | gpSceneTrigger (g : Fin 32)
  /-- SENTINEL_OUTPUT_CLEAR (R275): Writing bit g of PRT_GP_SENT_CLR releases sentinel output GPg. -/
  | sentinelOutputClear (w : W32)
  /-- PORT_GROUP_ENABLE (R276): NET_GRP_CFG.enable changes, and the group latches its mode or is disabled. -/
  | portGroupEnable (g : Fin 2) (w : W32)
  /-- PORT_UP (R278): Block lock and FEC alignment with no fault for 10 ms make a network port UP. -/
  | portUp (p : Fin 8)
  /-- PORT_DOWN (R278): A port loses lock or sees a fault, becomes DOWN, and the change is counted. -/
  | portDown (p : Fin 8)
  /-- NET_FRAME_RECEIVED (R280): A received Ethernet frame is checked and dropped, answered, timestamped, matched to a flow leg, or sent to the control queue. -/
  | netFrameReceived (p : Fin 8) (bytes : List Byte) (fcsOk : Bool) (t : Nat)
  /-- RTP_PACKET_RECEIVED (R294): A packet matching an enabled receive leg passes the format, duplicate, late and early checks and is written into the playout buffer. -/
  | rtpPacketReceived (f : Fin 1024) (leg : Fin 2) (rtp : List Byte)
  /-- RECEIVING_TIMEOUT (R296): No packet is written for 64 packet times, so NET_RXF_STATUS.receiving clears and the window empties. -/
  | receivingTimeout (f : Fin 1024)
  /-- LEG_TIMEOUT (R296): A leg has not been seen for 16 packet times, so its leg_up bit clears. -/
  | legTimeout (f : Fin 1024) (leg : Fin 2)
  /-- RX_FLOW_START (R284): A write of 1 to NET_RXF_CTRL.start latches a receive flow and starts it, or refuses it with a code. -/
  | rxFlowStart (f : Fin 1024) (w : W32)
  /-- RX_FLOW_STOP (R296): A write of 1 to NET_RXF_CTRL.stop stops delivery at the next tick and leaves the flow's groups. -/
  | rxFlowStop (f : Fin 1024) (w : W32)
  /-- TX_FLOW_START (R300): A write of 1 to NET_TXF_CTRL.start latches a transmit flow and starts it, or refuses it. -/
  | txFlowStart (f : Fin 1024) (w : W32)
  /-- TX_FLOW_STOP (R300): A write of 1 to NET_TXF_CTRL.stop lets the packet in progress go out, and no packet follows. -/
  | txFlowStop (f : Fin 1024) (w : W32)
  /-- TX_PACKET_SEND (R299): At tick n + S a transmit flow sends the packet for indices n to n + S − 1 on its enabled legs, or drops it. -/
  | txPacketSend (f : Fin 1024)
  /-- MEMBERSHIP_REPORT (R301): A multicast membership state change sends an IGMPv3 or MLDv2 report, repeated 1 s later. -/
  | membershipReport (p : Fin 8) (grp : BitVec 128) (v6 : Bool)
  /-- MEMBERSHIP_QUERY (R301): A received general or group query schedules a response after a random delay. -/
  | membershipQuery (p : Fin 8) (grp : BitVec 128) (v6 : Bool) (ver : Fin 4)
  /-- QUERY_RESPONSE (R301): The random response delay ends, and the membership report is sent. -/
  | queryResponse (p : Fin 8) (grp : BitVec 128) (v6 : Bool)
  /-- MANAGEMENT_MESSAGE (R304): A management message is checked, answered with an error or a repeated acknowledgement, or executed as a command with an acknowledgement. -/
  | managementMessage (p : Fin 8) (src : BitVec 128) (udp : BitVec 16) (msg : List Byte)
  /-- LINK_ENABLE (R330): DAX_LINK_CFG.enable changes, and a link latches the engine ID and enters SIGNAL or DISABLED. -/
  | linkEnable (l : Fin 2) (w : W32)
  /-- LANE_SIGNAL_LOCK (R330): All four lanes detect a signal and lock clock recovery, and the link enters BLOCK. -/
  | laneSignalLock (l : Fin 2)
  /-- BLOCK_LOCK (R330): Every lane has seen 64 consecutive valid sync headers, and the link enters ALIGN. -/
  | blockLock (l : Fin 2)
  /-- LANE_ALIGN (R307): MARKER blocks of all lanes lie within the skew tolerance, and the link enters IDENT. -/
  | laneAlign (m : LinkMarkers)
  /-- LINK_LOSS (R330): A loss condition returns the link to SIGNAL, and a departure from UP is counted and recorded. -/
  | linkLoss (l : Fin 2) (bad : BitVec 16)
  /-- IDENT_SEND (R331): In IDENT the link sends an IDENT message every 10 µs. -/
  | identSend (l : Fin 2)
  /-- IDENT_MESSAGE (R331): A received IDENT is checked against peer_id, yields the delay measurement, and moves the link to UP when it echoes one sent. -/
  | identMessage (l : Fin 2) (hdr body fin : List Block66)
  /-- TICK_FRAME_RECEIVED (R312): A received tick frame is checked for CRC, domain, lateness and index, and is accepted or discarded. -/
  | tickFrameReceived (l : Fin 2) (rx : List Block66)
  /-- MESSAGE_SEND (R325): A waiting message goes out in a gap between tick frames, in type priority order. -/
  | messageSend (l : Fin 2)
  /-- FIRMWARE_MESSAGE (R329): A received FIRMWARE message is delivered to the control queue, forwarded, or dropped. -/
  | firmwareMessage (l : Fin 2) (hdr body fin : List Block66)
  /-- PROVENANCE_MESSAGE (R376): Received provenance words are compared with the engine's own, counting mismatches and raising or clearing TWIN_DIVERGE. -/
  | provenanceMessage (l : Fin 2) (hdr body fin : List Block66)
  /-- RATIO_MESSAGE (R254): A received RATIO message supplies ratio words for the non-owner's asynchronous bridges. -/
  | ratioMessage (l : Fin 2) (hdr body fin : List Block66)
  /-- TWIN_MESSAGE (R379): A received TWIN message updates the peer's state, which can return a withdrawn twin A to air. -/
  | twinMessage (l : Fin 2) (hdr body fin : List Block66)
  /-- TXMAP_WRITE (R319): A write to DAX_TXMAP sets a transmit map entry, or is ignored when it exceeds the budget or breaks a rule. -/
  | txmapWrite (l : Fin 2) (j : Fin 8192) (w : W32)
  /-- TXMAP_APPLY (R318): A transmit map write takes effect in the first frame whose tick begins after the write reaches the link's island. -/
  | txmapApply (l : Fin 2)
  /-- PS_TABLE_WRITE (R322): A write to DAX_PS sets a partial-sum entry, or is ignored with a refusal code. -/
  | psTableWrite (l : Fin 2) (j : Fin 4096) (w : W32)
  /-- WAKE_PATTERN_SEND (R333): A write of 1 to DAX_WAKE.send while the link is not UP sends the wake pattern for duration_us. -/
  | wakePatternSend (l : Fin 2) (w : W32)
  /-- WAKE_PATTERN_END (R333): The wake pattern duration ends, and the link returns to DISABLED or enters SIGNAL according to enable. -/
  | wakePatternEnd (l : Fin 2)
  /-- WAKE_PATTERN_DETECT (R334): The lane 0 detector sees the wake pattern for 1.5 µs and reports it. -/
  | wakePatternDetect (l : Fin 2)
  /-- SERVO_UPDATE (R342): A write of 1 to TIM_SERVO_CTRL.update applies or refuses the offset in TIM_SERVO_OFFSET. -/
  | servoUpdate (w : W32)
  /-- MASTER_CHANGE (R344): A write of 1 to TIM_SERVO_CTRL.master_change reloads fed_timer. -/
  | masterChange (w : W32)
  /-- FED_TIMER_EXPIRE (R344): fed_timer runs out with no accepted update, so fed clears and PTP is disqualified. -/
  | fedTimerExpire
  /-- TIME_STEP (R346): Command code 0x0201 requests a time step, which is accepted or refused. -/
  | timeStep (iss : Fin 256) (e : BitVec 512)
  /-- STEP_APPLY (R347): At the next tick event of the chosen domain, an accepted step updates Δ_x, ρ_x and Freiz time and completes its ticket. -/
  | stepApply
  /-- REF_QUALIFY (R352): A reference input has stayed in tolerance for 2 s and qualifies, which can trigger a selection. -/
  | refQualify (i : Fin 9) (freq : BitVec 32)
  /-- REF_MISSING_PERIOD (R351): A reference misses a nominal period, which disqualifies it after three in a row. -/
  | refMissingPeriod (p : MissedPeriod)
  /-- REF_DISQUALIFY (R352): A reference input is disqualified, counted and recorded, and the DPLL enters HOLDOVER if it was selected. -/
  | refDisqualify (i : Fin 9) (freq : BitVec 32)
  /-- HOLD_OFF_EXPIRE (R357): The hold-off after a disqualification ends, and a selection runs. -/
  | holdOffExpire
  /-- WTR_EXPIRE (R355): In revertive mode, a better-ranked input has stayed qualified for wtr_s, and a selection runs. -/
  | wtrExpire (i : Fin 9)
  /-- RANK_CONFLICT_RETRY (R355): Once per second while RANK_CONFLICT is raised, a selection runs again. -/
  | rankConflictRetry
  /-- PRIORITY_WRITE (R355): A write to TIM_PRIO or TIM_SEL_CFG updates the setting and triggers a selection. -/
  | priorityWrite (j : Fin 9) (w : W32)
  /-- DPLL_LOCK (R362): The phase error has stayed within ±1,000 ns for 1 s, and the DPLL enters LOCKED. -/
  | dpllLock (aux : Bool) (freq phase : BitVec 32)
  /-- BANDWIDTH_HALVE (R361): At the end of each second in LOCKED, the DPLL bandwidth halves down to track_bw. -/
  | bandwidthHalve (aux : Bool)
  /-- HOLDOVER_SAMPLE (R363): Each second in LOCKED, the DPLL records the mean output frequency for the holdover estimate. -/
  | holdoverSample (aux : Bool) (m : DpllSecond)
  /-- HOLDOVER_EXPIRE (R358): HOLDOVER has lasted max_s, and the DPLL enters LOST. -/
  | holdoverExpire (aux : Bool)
  /-- SYSREF_LOSS (R353): SYSREF stops or leaves ±1,000 ppm, sysref_ok clears, and both DPLLs become LOST. -/
  | sysrefLoss
  /-- SYSREF_RETURN (R353): SYSREF has been in range for 2 s, and both DPLLs enter FREE RUN. -/
  | sysrefReturn
  /-- PPS_OUT_PULSE (R368): At each whole second of Freiz time, PPS_OUT rises for width_ms. -/
  | ppsOutPulse
  /-- PPS_IN_EDGE (R369): A rising edge on PPS_IN is timestamped and counted. -/
  | ppsInEdge (t : Nat)
  /-- PROVENANCE_BLOCK (R375): Block j ends, and the engine forms and sends the CRC-64 provenance word of each bound D-slot. -/
  | provenanceBlock (x : Dom)
  /-- PROVENANCE_MISSING (R376): No peer word arrives within 16 blocks for an own word, which is counted as missing. -/
  | provenanceMissing (x : Dom) (d : Fin 4096) (j : Nat)
  /-- TWIN_MESSAGE_SEND (R378): Every millisecond, and at once on a state change, an engine sends a TWIN message. -/
  | twinMessageSend
  /-- PEER_LOST (R379): No TWIN message has arrived for 3 ms, or the twin link leaves UP, so the peer becomes LOST. -/
  | peerLost
  /-- WITHDRAW (R380): From tick t + 1 an accused engine withdraws: it stops its legs, releases the outputs and sends a TWIN message. -/
  | withdraw
  /-- HOST_WITHDRAW (R380): A write of 1 to TWN_CTRL.withdraw accuses the engine with cause 8. -/
  | hostWithdraw (w : W32)
  /-- REJOIN (R383): A write of 1 to TWN_CTRL.rejoin returns a withdrawn engine to air, or is refused with a code. -/
  | rejoin (w : W32)
  /-- RELEASE_OWNERSHIP (R387): A write of 1 to TWN_CTRL.release, a withdrawal or a mode change releases TWIN_OWN_OUT at the next tick of the ownership domain. -/
  | releaseOwnership (w : W32)
  /-- OWNERSHIP_SAMPLE (R386): Ts / 2 after each tick of the ownership domain, TWIN_OWN_IN is sampled, and ownership may be taken. -/
  | ownershipSample (high : Bool)
  /-- CONSERVE (R391): Command code 0x0501 starts self-tests of units that are not in service. -/
  | conserve (iss : Fin 256) (e : BitVec 512)
  /-- CONSERVE_PASS_END (R392): A Conservation pass ends, writes its health report, and completes or starts another pass. -/
  | conservePassEnd (items : List ConsItem)
  /-- ROTATE (R394): Command code 0x0502 starts a rotation of a logical unit onto a spare, or refuses it. -/
  | rotate (iss : Fin 256) (e : BitVec 512)
  /-- SCHEDULED_ROTATION (R397): Every period_h hours, the rotation engine starts the next scheduled rotation. -/
  | scheduledRotation
  /-- RETIRE_CHANNEL (R448): Command code 0x0401 starts retiring a DRAM channel, or refuses it. -/
  | retireChannel (iss : Fin 256) (e : BitVec 512)
  /-- READMIT_CHANNEL (R450): Command code 0x0402 trains a retired or faulty channel and migrates the interleave back. -/
  | readmitChannel (iss : Fin 256) (e : BitVec 512)
  /-- MIGRATION_DONE (R449): Every chunk of a retirement or readmission has moved, and the ticket completes. -/
  | migrationDone (trained : Bool)
  /-- ATRIUM_READ (R407): A master's read of an Atrium memory target returns data after decoding and correcting errors, or returns an error. -/
  | atriumRead (m : Fin 21) (addr size : Nat) (found : List Finding)
  /-- ATRIUM_WRITE (R409): A master's write of an Atrium memory target writes a whole word or allocates or merges into a merge buffer entry. -/
  | atriumWrite (m : Fin 21) (addr : Nat) (bytes : List Byte) (found : List Finding)
  /-- SET_ALIAS_WRITE (R403): A write to the Storeroom SET alias ORs data into a word as one locked bank operation. -/
  | setAliasWrite (m : Fin 21) (addr : Nat) (data : BitVec 64) (strb : BitVec 8) (found : List Finding)
  /-- CLR_ALIAS_WRITE (R403): A write to the Storeroom CLR alias clears bits of a word as one locked bank operation. -/
  | clrAliasWrite (m : Fin 21) (addr : Nat) (data : BitVec 64) (strb : BitVec 8) (found : List Finding)
  /-- STOREROOM_AMO (R481): A control core's LR, SC or AMO is performed on the Storeroom normal view as a single bank operation. -/
  | storeroomAmo (c : Fin 8) (op : AmoOp) (dbl : Bool) (addr : Nat) (data : BitVec 64) (found : List Finding)
  /-- MERGE_ENTRY_COMPLETE (R410): A merge buffer entry held for 64 cycles, or evicted for room, is completed by read-modify-write. -/
  | mergeEntryComplete (port : Fin 256) (found : List Finding)
  /-- CORRECTED_WRITEBACK (R408): A corrected word is written back in the first idle cycle of its memory. -/
  | correctedWriteback
  /-- BUCKET_LEAK (R413): Every leak_ms, a leaky bucket level decreases by one. -/
  | bucketLeak (r : Fin 32)
  /-- BUCKET_CONFIG_WRITE (R413): A write to MEM_BKT_CFG sets a bucket and restarts its leak timing. -/
  | bucketConfigWrite (r : Fin 32) (w : W32)
  /-- PATROL (R417): A unit reads its memory in unused cycles and corrects words. -/
  | patrol (f : Finding)
  /-- SCRUB (R418): Command code 0x0301 starts a scrub of an address range, or refuses it. -/
  | scrub (iss : Fin 256) (e : BitVec 512)
  /-- SCRUB_DONE (R420): The scrubber finishes the range, writes its summary and completes the ticket. -/
  | scrubDone (found : List Finding)
  /-- BANK_FILL_DONE (R421): A bank returning from OFF finishes its zero fill, and stalled accesses proceed. -/
  | bankFillDone (b : Fin 65)
  /-- REPAIR (R424): Command code 0x0302 programs a field column-repair entry in OTP, or refuses it. -/
  | repair (iss : Fin 256) (e : BitVec 512)
  /-- DRAM_INIT (R445): A write of 1 to DRC_CTRL.init trains the enabled channels and starts the controller, or refuses the start. -/
  | dramInit (w : W32)
  /-- TRAINING_DONE (R445): Training ends, failed channels become TRAIN_FAILED, and the interleave comes into force. -/
  | trainingDone (ok : BitVec 4)
  /-- DRAM_COMMAND_ISSUE (R434): A subchannel chooses and issues its next DRAM command in priority order. -/
  | dramCommandIssue (sub : Fin 8) (skip : Nat)
  /-- REFRESH_DUE (R440): A refresh interval ends, and a same-bank refresh becomes due. -/
  | refreshDue (sub : Fin 8)
  /-- TEMPERATURE_POLL (R440): Every 32 ms the module temperature is read, and the refresh interval is set. -/
  | temperaturePoll (ch : Fin 4) (hot : Bool)
  /-- PERIODIC_RETRAIN (R447): Every 100 ms each subchannel's read and write timing is retrained. -/
  | periodicRetrain (sub : Fin 8)
  /-- WRITE_DRAIN_START (R436): The write queue reaches hi_wm, or a deadline write ages past dl_age_us, and a write drain starts. -/
  | writeDrainStart (sub : Fin 8) (aged : Bool)
  /-- WRITE_DRAIN_END (R436): The queue falls to lo_wm with no aged deadline write, and the drain ends. -/
  | writeDrainEnd (sub : Fin 8)
  /-- BACKGROUND_PROMOTE (R434): A background read that has waited 1 ms is treated as a normal read. -/
  | backgroundPromote (sub : Fin 8)
  /-- COMMAND_PARITY_ALERT (R441): ALERT_n signals a command parity error, and the channel replays its retry buffer or becomes FAULTY. -/
  | commandParityAlert (ch : Fin 4) (sameWindow : Bool)
  /-- THROTTLE_END (R444): 32 ms pass without a further offence, and the requester's token rate is restored. -/
  | throttleEnd (m : Fin 21)
  /-- ROW_WINDOW_END (R443): The 32 ms activation window ends, and row tracking restarts. -/
  | rowWindowEnd (sub : Fin 8)
  /-- REGISTER_WRITE (R460): A write to a register that has no row of its own updates each field under its type, or is captured as narrow, unaligned, unmapped or sealed. -/
  | registerWrite (m : Fin 21) (off : BitVec 24) (size : Fin 4) (data : BitVec 64)
  /-- ISLAND_TIMEOUT (R459): An island has not answered a register access within 10 µs, so the access ends with an error and is recorded. -/
  | islandTimeout (m : Fin 21) (off : BitVec 24) (wr : Option W32)
  /-- ERROR_CAPTURE_REARM (R476): A write of 1 to ATR_ERR_REARM.rearm frees the error capture. -/
  | errorCaptureRearm (w : W32)
  /-- MSIX_REARM (R466): Writing bit v of SYS_INT_REARM resends vector v's message if it is still pending. -/
  | msixRearm (w : W32)
  /-- SOFTWARE_RESET (R584): A keyed write to SYS_SW_RESET resets the engine as RESET_N does. -/
  | softwareReset (w : W32)
  /-- DIE_IDENTIFIER (R470): Reading Room target 0x01 returns the 64-bit die identifier. -/
  | dieIdentifier (mb : Fin 16) (arg : BitVec 24)
  /-- SAMPLE_INDEX (R470): Reading Room target 0x02 returns a domain's sample index. -/
  | sampleIndex (mb : Fin 16) (arg : BitVec 24)
  /-- FREIZ_TIME (R336): Reading Room target 0x03 returns all 128 bits of Freiz time. -/
  | freizTime (mb : Fin 16) (arg : BitVec 24)
  /-- STEP_OFFSETS (R470): Reading Room target 0x04 returns Δ_x and ρ_x of a domain. -/
  | stepOffsets (mb : Fin 16) (arg : BitVec 24)
  /-- PPS_IN_TIMESTAMP (R470): Reading Room target 0x05 returns the latest PPS_IN timestamp. -/
  | ppsInTimestamp (mb : Fin 16) (arg : BitVec 24)
  /-- PTP_TRANSMIT_TIMESTAMP (R340): Reading Room target 0x06 takes the oldest entry of a port's transmit-timestamp FIFO, or returns EMPTY. -/
  | ptpTransmitTimestamp (mb : Fin 16) (arg : BitVec 24)
  /-- NODE_WORD (R102): Reading Room target 0x07 returns a node word. -/
  | nodeWord (mb : Fin 16) (arg : BitVec 24)
  /-- OUTPUT_PATCH_ENTRY (R470): Reading Room target 0x08 returns an output patch entry's values, state and step. -/
  | outputPatchEntry (mb : Fin 16) (arg : BitVec 24)
  /-- STRIP_VALUE (R470): Reading Room target 0x09 returns a strip parameter or state word. -/
  | stripValue (mb : Fin 16) (arg : BitVec 24)
  /-- ATELIER_REGISTER (R470): Reading Room target 0x0A returns an Atelier register as held after the last FEND. -/
  | atelierRegister (mb : Fin 16) (arg : BitVec 24)
  /-- BRIDGE_COEFFICIENT (R250): Reading Room target 0x0B returns a bridge ROM coefficient. -/
  | bridgeCoefficient (mb : Fin 16) (arg : BitVec 24)
  /-- NETWORK_COUNTER (R470): Reading Room target 0x0C returns a 64-bit packet or byte counter. -/
  | networkCounter (mb : Fin 16) (arg : BitVec 24)
  /-- CORRECTION_ADDRESS (R414): Reading Room target 0x0D returns the address of the latest correction. -/
  | correctionAddress (mb : Fin 16) (arg : BitVec 24)
  /-- ERROR_CAPTURE_ADDRESS (R470): Reading Room target 0x0E returns the address held in the error capture. -/
  | errorCaptureAddress (mb : Fin 16) (arg : BitVec 24)
  /-- LEDGER_ENTRY (R555): Reading Room target 0x10 returns one 16-byte piece of a Ledger entry, or EMPTY. -/
  | ledgerEntry (mb : Fin 16) (arg : BitVec 24) (bad : Option (BitVec 32))
  /-- LEDGER_SEQUENCE_NUMBER (R555): Reading Room target 0x11 returns the sequence number of the next Ledger entry. -/
  | ledgerSequenceNumber (mb : Fin 16) (arg : BitVec 24)
  /-- UNKNOWN_TARGET (R469): A Reading Room request names a code that is not in the target table, and result TARGET is returned. -/
  | unknownTarget (mb : Fin 16) (target : BitVec 7) (arg : BitVec 24)
  /-- COMMAND_RING_TAIL (R488): A write to CTL_CMD_TAIL makes the engine accept host command ring entries in order and write their tickets. -/
  | commandRingTail (w : W32)
  /-- FIRMWARE_COMMAND_ISSUE (R489): A write of 1 to CTL_FCMD_CTRL.issue issues the command held in a core's CTL_FCMD words. -/
  | firmwareCommandIssue (c : Fin 8) (w : W32)
  /-- TICKET_STALL_RELEASE (R487): A ticket frees while 1,024 are outstanding, and stalled command acceptance resumes. -/
  | ticketStallRelease
  /-- UNKNOWN_COMMAND (R494): A command with a reserved code completes UNKNOWN. -/
  | unknownCommand (iss : Fin 256) (e : BitVec 512)
  /-- COMPLETION_RECORD_WRITE (R493): A completion record is written to its ring with its phase bit, and any requested Docent signal follows. -/
  | completionRecordWrite
  /-- COMPLETION_RING_ROOM (R494): A full completion ring gains room, and held completions are written in order. -/
  | completionRingRoom (fw : Bool) (w : W32)
  /-- SET_STATE (R530): Command code 0x0601 sets the host's keys to a device state map and starts a drop or raise. -/
  | setState (iss : Fin 256) (e : BitVec 512)
  /-- FREEZE (R562): Command code 0x0701 stops Ledger writing once its queue drains. -/
  | freeze (iss : Fin 256) (e : BitVec 512)
  /-- FREEZE_COMPLETE (R562): The writer's queue empties after a FREEZE, frozen sets and the ticket completes. -/
  | freezeComplete
  /-- UNFREEZE (R563): Command code 0x0702 resumes Ledger writing. -/
  | unfreeze (iss : Fin 256) (e : BitVec 512)
  /-- FREEZE_TIMEOUT (R563): A freeze has lasted freeze_max_s and ends as an UNFREEZE would, setting thawed. -/
  | freezeTimeout
  /-- LOAD_CATALOGUE (R522): Command code 0x0801 loads or programs a catalogue image from Atrium memory. -/
  | loadCatalogue (iss : Fin 256) (e : BitVec 512)
  /-- LOAD_CATALOGUE_DONE (R523): The flash programming and read-back of a LOAD_CATALOGUE finish, and the ticket completes OK or FAILED. -/
  | loadCatalogueDone (ok : Bool)
  /-- COPY (R491): Command code 0x0901 queues a DMA copy, or is refused BUSY. -/
  | copy (iss : Fin 256) (e : BitVec 512)
  /-- COPY_START (R491): A DMA engine becomes idle and starts its next queued copy. -/
  | copyStart (eng : Fin 4)
  /-- COPY_DONE (R491): A copy finishes or fails on an error response, and its ticket completes. -/
  | copyDone (eng : Fin 4) (found : List Finding)
  /-- ABORT (R492): Command code 0x0A01 aborts the background work of an outstanding ticket, or completes NOT_ABORTABLE. -/
  | abort (iss : Fin 256) (e : BitVec 512)
  /-- BACKGROUND_DISABLE (R501): Clearing a bit of CTL_BG_EN stops that background unit within 10 µs and aborts its tickets. -/
  | backgroundDisable (w : W32)
  /-- CORE_RUN (R478): A write to CTL_CORE_RUN releases cores to start at CTL_BOOT, or resets cleared cores at once. -/
  | coreRun (w : W32)
  /-- MACHINE_TIMER_INTERRUPT (R482): mtime reaches mtimecmp, and the core's machine timer interrupt becomes pending. -/
  | machineTimerInterrupt (c : Fin 8)
  /-- DOCENT_CONFIG (R495): A write to CTL_DOC_CFG makes a descriptor valid or invalid, or is ignored. -/
  | docentConfig (t : Fin 4096) (w : W32)
  /-- DOCENT_SIGNAL (R496): A write to CTL_DOC_SIGNAL queues one completion for a thread. -/
  | docentSignal (w : W32)
  /-- DOCENT_TICK_SOURCE (R496): Every divider ticks of its domain, a CTL_DOC_TICK entry gives a completion. -/
  | docentTickSource (x : Dom)
  /-- DOCENT_IRQ_SOURCE (R496): A rising edge of a bound interrupt source gives a completion. -/
  | docentIrqSource (src : Fin 32)
  /-- DOCENT_COMPLETION (R497): The Docent applies a completion from its FIFO, decrementing a counter and readying the thread or counting an overrun or underflow. -/
  | docentCompletion
  /-- DOCENT_TAKE (R499): A write of 1 to CTL_DOC_TAKE.take gives a core a ready thread, possibly stolen, or none. -/
  | docentTake (c : Fin 8) (w : W32)
  /-- DOCENT_DONE (R500): A write to CTL_DOC_DONE ends a thread's run, making it READY again or WAITING. -/
  | docentDone (w : W32)
  /-- PCIE_RESET (R585): PCIE_PERST_N low resets only the host port's PCIe logic. -/
  | pcieReset
  /-- POWER_ON_RESET (R580): The supplies come up, or a core supply dips below 90 %, and the engine resets and sets power_on. -/
  | powerOnReset
  /-- RESET_PIN (R584): RESET_N held low for 1 µs resets the engine, and start-up begins at the rising edge. -/
  | resetPin (level : Bool)
  /-- OPTIONAL_SUPPLY_LOSS (R581): An optional supply is removed, and its pins go high-impedance while their units react. -/
  | optionalSupplyLoss (v : Supply)
  /-- SELECTING (R517): The boot ROM checks itself, reads SFDP, validates both slots and selects one or enters CONFIG_HALT. -/
  | selecting (romOk : Bool) (unread : BitVec 2)
  /-- PHASE1 (R514): The loader reads the firmware and DRAM setup sections and jumps to the entry point. -/
  | phase1
  /-- CATALOGUE_CONTINUE (R514): A write of 1 to CTL_CAT_CTRL.continue in WAIT_DRAM starts PHASE2. -/
  | catalogueContinue (w : W32)
  /-- PHASE2_DONE (R514): The phase 2 sections have been applied and the initial commits queued, so the loader reaches DONE and runs any requested Conservation pass. -/
  | phase2Done
  /-- OPEN_OUTPUTS (R525): A write of 1 to CTL_CAT_CTRL.open is accepted or refused with a code. -/
  | openOutputs (w : W32)
  /-- OUTPUTS_OPENED (R525): At the next tick of the first running domain, the seal list applies and all outputs open together. -/
  | outputsOpened
  /-- FIRMWARE_KEY_WRITE (R533): A write to PWR_FW_KEY takes or withdraws firmware keys, which can start a raise or a drop. -/
  | firmwareKeyWrite (k : Fin 7) (w : W32)
  /-- QUIESCE_TIMEOUT (R535): A unit asked in the quiesce phase does not answer within 100 µs and is taken as refusing. -/
  | quiesceTimeout (unit : BitVec 16)
  /-- DROP_COMMIT (R536): At the commit tick, the audio units of the dropping domains stop and the domains enter their low states. -/
  | dropCommit
  /-- DROP_REFUSE (R537): A unit refuses a drop, so paused units resume and the withdrawn keys are restored. -/
  | dropRefuse
  /-- DROP_RETRY (R539): Every 10 ms, a refused drop not started by SET_STATE is started again. -/
  | dropRetry
  /-- RAISE (R541): A key taken in a domain that is not ON raises it, and its units restart. -/
  | raise
  /-- LOOK (R544): Every period_ms in WATCH, the sequencer powers the look units, measures sentinels and detectors, and wakes the engine on a hit. -/
  | look (peaks : List (Fin 32 × BitVec 24)) (lanes : BitVec 16) (links : BitVec 2)
  /-- LINK_SIGNAL_DETECT (R546): With detect_always set, a lane detects a signal in WATCH and wakes the engine. -/
  | linkSignalDetect (lane : Fin 16)
  /-- WAKE_PIN (R547): WAKE_N low for 1 µs, or a set GP pin low for 100 µs, wakes the engine. -/
  | wakePin (pin : Option (Fin 32))
  /-- WAKE (R549): On a wake cause, AON powers CTL, and the engine resets and resumes or starts up. -/
  | wake
  /-- SENTINEL_PEAK_UPDATE (R545): Every 64 frames in RUN or QUIET, an enabled sentinel updates its peak and held bit. -/
  | sentinelPeakUpdate (n : Fin 32)
  /-- LEDGER_OCCURRENCE (R559): An event occurrence reaches the Ledger writer and is queued or suppressed. -/
  | ledgerOccurrence (code : Fin 1024) (src : BitVec 16) (det : List W32)
  /-- LEDGER_ENTRY_WRITE (R553): The writer takes a queued occurrence and writes its entry with detail and snapshot words. -/
  | ledgerEntryWrite (bad : Option (BitVec 32))
  /-- LEDGER_TOKEN_ADD (R559): Every period_ms, a code's bucket gains one token. -/
  | ledgerTokenAdd (code : Fin 1024)
  /-- LEDGER_ENABLE (R556): Setting LDG_CFG.enable starts writing and fills every code's bucket. -/
  | ledgerEnable (w : W32)
  /-- CODE_CONFIG_WRITE (R559): A write to LDG_CODE_CFG configures a code and refills its bucket. -/
  | codeConfigWrite (code : Fin 1024) (w : W32)
  /-- SOFTWARE_EVENT (R558): A write to LDG_SW_EVENT with go = 1 raises firmware code 0x3E0 + n. -/
  | softwareEvent (w : W32)
  /-- BYPASS (R597): JTAG instruction BYPASS selects the bypass register. -/
  | bypass (tdi : Bool)
  /-- IDCODE (R597): JTAG instruction IDCODE shifts out 0x1980_0A97. -/
  | idcode
  /-- SAMPLE_PRELOAD (R597): JTAG instruction SAMPLE/PRELOAD captures and preloads the boundary scan. -/
  | samplePreload (cells preload : Nat)
  /-- EXTEST (R597): JTAG instruction EXTEST drives the pins from the boundary scan. -/
  | extest
  /-- CLAMP (R597): JTAG instruction CLAMP holds the pins and selects bypass. -/
  | clamp
  /-- HIGHZ (R597): JTAG instruction HIGHZ places the pins in high-impedance. -/
  | highz
  /-- FUSE_KEY (R598): JTAG instruction FUSE_KEY programs the key-hash fuses at Update-DR while reset is held and VPP is present. -/
  | fuseKey (bits : BitVec 256)
  /-- FUSE_READ (R598): JTAG instruction FUSE_READ shifts out the programmed key hash. -/
  | fuseRead
  /-- PCIE_PERST_RISE (R585): PCIE_PERST_N rises and the host port's PCIe link trains again. -/
  | pciePerstRise
  /-- OPTIONAL_SUPPLY_RETURN (R581): An optional supply such as VDDQ_DRAM, VDD_SDS, VDDH_SDS or VDDIO0 to VDDIO5 is applied again, and its pins leave high-impedance and work again. -/
  | optionalSupplyReturn (v : Supply)
  /-- STATE_CHANGE_REPORT_REPEAT (R301): One second after a membership state change, the IGMPv3 or MLDv2 state-change report is sent the second time. -/
  | stateChangeReportRepeat (p : Fin 8) (grp : BitVec 128) (v6 : Bool)
  /-- PPS_OUT_PULSE_END (R368): PPS_OUT falls when width_ms has passed since its rising edge, and a pulse in progress completes its width across a time step. -/
  | ppsOutPulseEnd
  /-- REPAIR_DONE (R424): OTP programming of a field-repair entry and its read-back finish, repair_busy clears, and the REPAIR ticket completes OK or FAILED with the entry marked void. -/
  | repairDone (ok : Bool)
  /-- RAISE_COMPLETE (R542): Every raised domain reaches ON within the times of R527, and a raising SET_STATE ticket completes OK. -/
  | raiseComplete
  /-- GP_INPUT_CHANGE (R275): The level of a GP pin with the input function changes and, after the debounce time, is shown in PRT_GP_IN. -/
  | gpInputChange (g : Fin 32) (v : Bool)
  deriving DecidableEq, Repr

end Sys2Proof
end

