-- ==== Sys2Proof/Decode.lean ====
section
/-! DEFINITION. The command a word spells by the table's bits. No row of spec/opcode_table.json gives bits: commands reach
the engine as register writes, frames, pin events and entries, never as words of one table. -/

namespace Sys2Proof

/-- The command that the `nbits` bits of `w` spell: none, since the table gives no row any bits
(log 16, DESIGN CHOICE). -/
def decodeTableWord (_nbits _w : Nat) : Option Instr := none

end Sys2Proof
end

