-- ==== Sys2Proof/Config.lean ====
section
/-! DEFINITION. What a part or the source leaves open: constants without a body, so that no proof sees a value. -/

namespace Sys2Proof

/-- 16 R470 target 0x01: the die identifier (log 3, DESIGN CHOICE). -/
opaque Config.dieId : BitVec 64

/-- 15 R451: the boot ROM image, which the source does not publish (log 3, DESIGN CHOICE). -/
opaque Config.bootRom : Nat → Byte

/-- The values the source leaves open while the engine goes on: number of the draw, then the value (log 2, DESIGN CHOICE). -/
opaque Config.freeValue : Nat → BitVec 64

/-- 08 R250: bridge coefficient of input rate code, output rate code, asynchronous table, phase and tap; the ROM is not
printed (log 3, DESIGN CHOICE). -/
opaque Config.bridgeCoef : Nat → Nat → Bool → Nat → Nat → C40

/-- 08 R252: the proportional and the integral gain of the ratio servo by input and output rate code, in units of 2^-48 per
block; the source gives the loop's bandwidth and no gain (log 81, DESIGN CHOICE). -/
opaque Config.servoKp : Nat → Nat → Int
opaque Config.servoKi : Nat → Nat → Int

/-- 09 R299: octets that the transmit queue of a network port holds; the source does not state it (log 155, DESIGN CHOICE). -/
opaque Config.portQueue : Nat

/-- 10 R332: how many IDLE blocks a link has sent between two frames or messages, by link and number of the gap: a matter of
time that the model leaves open (log 157, DESIGN CHOICE). -/
opaque Config.idleBlocks : Nat → Nat → Nat

/-- 01 R22: sample n of the test generator with index i, which the source does not describe (log 3, DESIGN CHOICE). -/
opaque Config.testGen : Nat → Nat → S64

/-- 13 R423: spare columns the factory fuses have used, by array identifier: a mask of 4 (log 3, DESIGN CHOICE). -/
opaque Config.factorySpares : BitVec 16 → BitVec 4

/-- 13 R414: the identifier of the array that holds a word of a region; the source does not number arrays (log 3, DESIGN CHOICE). -/
opaque Config.arrayOf : Nat → Nat → BitVec 16

/-- 15 R459, 19 R557: the number of the island that holds the registers at a BAR0 offset; the source does not number
islands (log 3, DESIGN CHOICE). -/
opaque Config.islandNo : Nat → BitVec 16

/-- 05 R149: the dB word of a dynamics value that 32 bits cannot hold; the source does not state one (log 61, DESIGN CHOICE). -/
opaque Config.dbOver : Int → BitVec 32

end Sys2Proof
end

