-- ==== Sys2Proof/Machine/State.lean ====
section
/-! DEFINITION. The state of the engine as plain data, what stops a step, and the state after reset. A map of type
SMap lists its keys in rising order and lists no entry equal to the map's default value. -/

namespace Sys2Proof.Machine

/-- No step of this block stops in a fault: 15 R456 and the status codes of the chapters make every error a value. -/
inductive Fault
  /-- Raised by no meaning: the spec gives the engine no condition that stops it. Safe. -/
  | none_
  deriving DecidableEq, Repr

/-- Why a command has no outcome. -/
inductive Refusal
  /-- Raised by Machine/Dispatch.lean for a row whose meaning is not written yet. Safe: nothing is claimed of it. -/
  | notModelled (mnemonic : String)
  deriving DecidableEq, Repr

/-- One value for each domain. -/
structure PerDom (α : Type) where
  a : α
  b : α
  c : α
  deriving DecidableEq, Repr
/-! ## Atelier cores (spec/06, spec/07) -/

/-- 02 R45: an accumulator: the 128-bit word, the excursion counter E8, the lost bit and its direction. -/
structure Acc where
  a : BitVec 128
  e8 : Int
  lost : Bool
  dir : Bool
  deriving DecidableEq, Repr

/-- 06 R192: one level of the loop state. -/
structure LoopLvl where
  start : Nat
  stop : Nat
  count : Nat
  deriving DecidableEq, Repr

/-- 06 R193: what a result in flight does when it becomes visible. -/
inductive WbAct
  /-- a value into D -/
  | d (r : Nat) (v : S64)
  /-- a value into K -/
  | k (r : Nat) (v : C40)
  /-- a value into P -/
  | p (r : Nat) (v : BitVec 16)
  /-- a value into M -/
  | m (r : Nat) (v : BitVec 16)
  /-- a value into B (shared by the banks) -/
  | b (r : Nat) (v : BitVec 16)
  /-- a value into L (shared by the banks) -/
  | l (r : Nat) (v : BitVec 16)
  /-- N and Z -/
  | nz (n z : Bool)
  /-- set a sticky bit of SW (2 V, 3 X, 4 S) -/
  | sticky (bit : Nat)
  /-- clear sticky bits by mask -/
  | clear (mask : BitVec 5)
  /-- add an exact value into an accumulator (07 R222) -/
  | accAdd (r : Nat) (v : Int)
  /-- load an accumulator; the flag says that forming the value lost an excursion (02 R48) -/
  | accSet (r : Nat) (v : Acc) (lossNow : Bool)
  /-- a saturating accumulator store is counted (07 R234) -/
  | satCount
  deriving DecidableEq, Repr

/-- A result in flight: visible to the instruction whose issue number in the bank is `due` or later. -/
structure Wb where
  due : Nat
  act : WbAct
  deriving DecidableEq, Repr

/-- 06 R192: one register bank; unlisted registers are zero. -/
structure Bank where
  d : SMap S64
  a : SMap Acc
  p : SMap (BitVec 16)
  m : SMap (BitVec 16)
  k : SMap C40
  sw : BitVec 5
  /-- active loop levels, innermost first -/
  loops : List LoopLvl
  /-- results in flight, in issue order -/
  wb : List Wb
  /-- instructions issued in this bank -/
  issued : Nat
  /-- registers loaded by the last issued instruction when it is of the TAP family (07 R223) -/
  tapLoad : SMap S64
  deriving DecidableEq, Repr

/-- Where issue stands in the frame. -/
inductive CorePhase
  /-- no frame (not running, or after FEND) -/
  | idle
  /-- issuing -/
  | run
  /-- the frame has issued FEND -/
  | ended
  /-- halted under 07 R217 -/
  | halted
  /-- abandoned by an uncorrectable P word (06 R178) -/
  | abandoned
  deriving DecidableEq, Repr

/-- What follows the delay slot that issues next (07 R237). -/
inductive DelaySlot
  /-- branch not taken -/
  | fallThrough
  /-- taken to an address -/
  | taken (t : Nat)
  /-- RTI -/
  | rti
  deriving DecidableEq, Repr

/-- A long-memory read of a frame (06 R202, R203): its answer position, and the words it returns once served. -/
structure LmRead where
  pos : Nat
  len : Nat
  /-- Atrium addresses of the words (none: refused with an error response) and their values at issue -/
  addrs : List Nat
  words : List S64
  deriving DecidableEq, Repr

/-- One physical Atelier core. -/
structure Core where
  main : Bank
  shadow : Bank
  b : SMap (BitVec 16)
  l : SMap (BitVec 16)
  phase : CorePhase
  pc : Nat
  /-- frame cycle of the next issue -/
  cyc : Nat
  /-- frame index n -/
  frame : Nat
  /-- this is the first frame since binding (06 R184 bit 35) -/
  first : Bool
  inHandler : Bool
  /-- main-bank address held for RTI -/
  rtiPc : Nat
  /-- a WAIT stalls until this frame cycle; the flag says that it stands in a delay slot -/
  wait : Option (Nat × Bool)
  delay : Option DelaySlot
  /-- the innermost loop's last pass has issued its end address; the level pops next (07 R238) -/
  loopDue : Bool
  landPend : Bool
  cmpPend : Bool
  /-- the compare interrupt of this frame has become pending -/
  cmpRaised : Bool
  /-- vectors and sources latched at frame entry (06, ATL_CORE_VEC and ATL_CORE_CMP) -/
  landVec : Nat
  cmpVec : Nat
  cmpCycle : Nat
  landEn : Bool
  cmpEn : Bool
  /-- P, X, Y by word address; E by physical word: bank 0 at 0-383, bank 1 at 384-767, frame record 768-783, mailbox 784-1023 -/
  pm : SMap (BitVec 64)
  xm : SMap S64
  ym : SMap (BitVec 64)
  em : SMap S64
  /-- words with an uncorrectable error or a parity error, by 65,536 × (0 P, 1 X, 2 Y, 3 E) + word -/
  bad : List Nat
  /-- posted P write queue: word address and word (06 R210) -/
  pq : List (Nat × BitVec 64)
  /-- requests issued, answer positions used, whether one was refused, reads not yet answered, in this frame -/
  lmIssued : Nat
  lmPos : Nat
  lmRefused : Bool
  lmReads : List LmRead
  /-- an answer word of the next frame reads zero under 06 R204 -/
  lmZero : Bool
  /-- frame n - 1 overran; its output words read as zero -/
  overran : Bool
  /-- FEND cycle of the last frame -/
  lastFend : Nat
  /-- the banks after the last FEND (15 R470 target 0x0A) -/
  fendMain : Bank
  fendShadow : Bank
  deriving DecidableEq, Repr

/-- Things an instruction does outside its core. -/
inductive CoreEv
  | xlost
  | sat
  | ue (space word : Nat)
  | lmRead (off : Nat) (len : Nat)
  | lmWrite (off : Nat) (v : S64)
  | fend (cyc : Nat)
  | halt (cause addr : Nat)
  deriving DecidableEq, Repr
/-! ## Gallery tiles (spec/03) -/

/-- 03 R79, R82, R87, R88: a ramp slot: its start sample (unset while only reserved), its length, the number of nodes that
name it and how many of them are STAGED, and the domain index and sample of its last release. -/
structure RampSlot where
  start : Option Nat
  len : Nat
  users : Nat
  staged : Nat
  relDom : Option Dom
  relIdx : Nat
  deriving DecidableEq, Repr

/-- 03 R78: one entry of the generation table. -/
structure GenEntry where
  commit : Nat
  deadline : Nat
  fallbackLen : Nat
  xfadeLen : Nat
  deriving DecidableEq, Repr

/-- 03 R89: one deferral entry. -/
structure DeferEntry where
  tile : Nat
  node : Nat
  gain : G24
  gen : Nat
  committed : Bool
  deriving DecidableEq, Repr

/-- 03 R69, R70, R93: a released column job; `sum` is the exact sum of the products of the first `upTo` nodes, which have
been read. -/
structure ColJob where
  d : Nat
  n : Nat
  dom : Option Dom
  resolving : Bool
  sum : Int
  upTo : Nat
  deriving DecidableEq, Repr

/-- 03 R100: a staging write with the values it took at launch; `port` is true for the record port of 04. -/
structure StgWrite where
  d : Nat
  s : Nat
  gain : G24
  gen : Nat
  linked : Bool
  partner : Nat
  partnerGain : G24
  deriving DecidableEq, Repr

structure GalSt where
  /-- node words by 262,144 × physical tile + 4,096 × (d mod 64) + s; unlisted: the reset word of 03 R76 -/
  nodes : SMap (BitVec 64)
  /-- nodes whose word has an uncorrectable error (03 R95) -/
  badNodes : List Nat
  /-- ramp slots by 512 × physical tile + slot -/
  slots : SMap RampSlot
  /-- generation table by 16 × domain + tag -/
  genTab : SMap GenEntry
  defer : List DeferEntry
  /-- 03 R84: GAL_RAMP_SPLIT as each domain (by `domNo`) uses it since its last tick -/
  split : SMap (BitVec 32)
  stgWait : Option StgWrite
  jobs : List ColJob
  /-- source buffer: values and zero-crossing flags of the last tick of each S-slot's domain (unlisted: 0 and set) -/
  srcX : SMap S64
  srcZc : SMap Bool
  /-- value each D-slot stored last -/
  dval : SMap S64
  /-- by 4 × tile + domain: last late sample and how many consecutive ones -/
  lateRun : SMap (Nat × Nat)
  deriving DecidableEq, Repr

/-! ## Staging, commit and scenes (spec/04) -/

/-- A staged record that has not landed (04 R116). -/
structure StagedRec where
  w0 : BitVec 64
  w1 : BitVec 64
  gen : Nat
  dom : Dom
  deriving DecidableEq, Repr

/-- 04 R107: a queued commit. `target` is none for an at once commit until its first tick event. -/
structure Commit where
  dom : Dom
  gen : Nat
  target : Option Nat
  expire : Bool
  ticket : Nat
  /-- the recall it belongs to -/
  ofRecall : Option Nat
  deriving DecidableEq, Repr

/-- 04 R122: a value of an output patch entry. -/
inductive PatchVal
  | nothing
  | dslot (d : Nat)
  | sslot (s : Nat)
  deriving DecidableEq, Repr

inductive PatchState
  | steady
  | staged
  | fading
  deriving DecidableEq, Repr

/-- 04 R122: an output patch entry; `recDom` is the domain of the record that staged it, `toZero` says that the record named
no bound slot (04 R603). -/
structure PatchEntry where
  valA : PatchVal
  valB : PatchVal
  live : Bool
  state : PatchState
  gen : Nat
  len : Nat
  k : Nat
  recDom : Option Dom
  toZero : Bool
  deriving DecidableEq, Repr

/-- 04 R123: a deferred output patch record. -/
structure PatchDefer where
  e : Nat
  val : PatchVal
  len : Nat
  gen : Nat
  dom : Option Dom
  committed : Bool
  toZero : Bool
  deriving DecidableEq, Repr

inductive RecallPhase
  /-- accepted, waiting for the loader -/
  | waiting
  /-- its records are being staged -/
  | staging
  /-- its commits are queued -/
  | committing
  deriving DecidableEq, Repr

/-- 04 R131 to R135: an accepted recall. -/
structure Recall where
  id : Nat
  scene : Nat
  mode : Nat
  /-- target of each touched domain; none for the at once mode -/
  targets : PerDom (Option Nat)
  expire : Bool
  ticket : Nat
  phase : RecallPhase
  /-- directory entry as read at acceptance: record address, count, CRC, domain mask -/
  addr : Nat
  count : Nat
  crc : Nat
  mask : Nat
  /-- tags claimed for domains A, B, C -/
  tags : PerDom (Option Nat)
  staged : Nat
  refused : Nat
  /-- CRC register over the words read so far, and whether the next record has stalled -/
  crcAcc : BitVec 32
  stalled : Bool
  firstRefused : Option (Nat × Nat)
  /-- commits not yet applied, largest lateness and its domain -/
  left : Nat
  late : Nat
  lateDom : Option Dom
  deriving DecidableEq, Repr

/-- 04 R107: a commit as it is asked for: domain, generation, mode, expire, sample index or seconds, nanoseconds. -/
structure CmtReq where
  dom : Option Dom
  gen : Nat
  mode : Nat
  expire : Bool
  t : Nat
  ns : Nat
  deriving DecidableEq, Repr

/-- Log 5, DESIGN CHOICE: bindings and occupants after reset: none. -/
structure ScnSt where
  /-- binding of S-slots and D-slots (unlisted: unbound) -/
  sDom : SMap (Option Dom)
  dDom : SMap (Option Dom)
  /-- occupant kind and index of S-slots by 65,536 × kind + index (unlisted: none) -/
  occ : SMap Nat
  recs : List StagedRec
  /-- tags claimed by recalls: domain, tag, recall -/
  owned : List (Dom × Nat × Nat)
  commits : List Commit
  patch : SMap PatchEntry
  patchDefer : List PatchDefer
  /-- flow map entries whose commit has been applied and that wait for their flow's first packet at or after the commit
  index (04 R121): entry, channel, flow + 1,024 when it transmits, index -/
  mapWait : List (Nat × Nat × Nat × Nat)
  /-- by map entry: the first indices of the packets with which a record landed in a running flow, oldest first, each with the
  channel the entry named before it -/
  mapOld : SMap (List (Nat × Nat))
  /-- a record stalled at the port (words and tag), and whether the stall has been counted -/
  recWait : Option (BitVec 64 × BitVec 64 × Nat)
  /-- a commit whose acceptance stalls under 16 R487, with its issuer -/
  cmtWait : Option (Nat × CmtReq)
  recalls : List Recall
  nextRecall : Nat
  deriving DecidableEq, Repr
/-! ## Channel strips, meters and the Archive (spec/05) -/

/-- A ramp, fade, interpolation or crossfade in progress: the parameter it moves (05 R159 index, or a code of
Machine/Strips.lean for a switch), the value it left, and the steps done. -/
structure Fade where
  key : Nat
  old : Int
  k : Nat
  deriving DecidableEq, Repr

/-- 05 R148: the dip of an insert latency change: old mode and steps done. -/
structure Dip where
  oldMode : Nat
  newMode : Nat
  k : Nat
  deriving DecidableEq, Repr

/-- 05 R141: the running state of one strip. -/
structure StripRun where
  /-- x1, x2, y1, y2 of section k at 4k … 4k+3; the key filter is section 16 -/
  sec : SMap S64
  /-- gain states of dynamics A, dynamics B and the limiter, dB words -/
  gA : Int
  gB : Int
  gL : Int
  gateOpen : Bool
  hold : Nat
  /-- keys of the last 512 samples of dynamics A and B, newest first -/
  winA : List S64
  winB : List S64
  fades : List Fade
  /-- records held under R145, R147, R156: key and value -/
  held : SMap (BitVec 64)
  dip : Option Dip
  /-- newest samples of the delay line, newest first, at most 64 -/
  line : List S64
  /-- index on which the slot became bound, and the last output of the delay -/
  since : Nat
  lastDelay : S64
  /-- insert mode in force, and the fixed delay of two samples that keeps its latency -/
  mode : Nat
  ins1 : S64
  ins2 : S64
  /-- stages that miss their deadline on the coming tick (R139), and a delay read that does (R155) -/
  lateStages : List Nat
  dlyLate : Bool
  deriving DecidableEq, Repr

/-- 05 R160: what a meter point has gathered in the interval: peak, sum of squares, samples. -/
structure MeterAcc where
  peak : Nat
  sumSq : Nat
  cnt : Nat
  deriving DecidableEq, Repr

/-- 05 R162, R163: a loudness group. -/
structure LoudGroup where
  /-- filter states of member words 0 to 15: x1, x2, y1, y2 of two sections each, at 8 × member + i -/
  flt : SMap S64
  /-- member words read at the start of the block -/
  members : List Nat
  /-- weighted sum of squares and samples of the current block -/
  sum : Nat
  n : Nat
  /-- sums of the last 30 blocks, newest first -/
  blocks : List Nat
  /-- histogram of 0.01 LU bins of the 400 ms windows -/
  hist : SMap Nat
  count : Nat
  resetReq : Bool
  /-- momentary, short-term, integrated, as 32-bit words -/
  momentary : W32
  short : W32
  integrated : W32
  deriving DecidableEq, Repr

/-- 05 R168: a playback channel. -/
structure Playback where
  src : Nat
  dom : Dom
  idxFrom : Nat
  start : Nat
  len : Nat
  stopReq : Bool
  late : Bool
  prev : S64
  /-- the read for the coming tick arrives late -/
  lateRead : Bool
  deriving DecidableEq, Repr

/-- 10 R317, 04 R122: how an output patch entry forms the word of a tick: entry domain, live value, pending value, step
(0: no crossfade) and length of the crossfade. -/
structure Formed where
  dom : Dom
  live : PatchVal
  pend : PatchVal
  k : Nat
  len : Nat
  deriving DecidableEq, Repr

structure StrSt where
  /-- live parameters by 65,536 × strip + index (inputs 0-4095, outputs 4096-8191); unlisted: 05 R602 -/
  live : SMap (BitVec 64)
  run : SMap StripRun
  /-- pipeline registers by 8,192 × stage + slot (stages in Machine/Strips.lean) -/
  pipe : SMap S64
  /-- how the word of Daxesh transmit channel `c` of link `l` is formed on the tick in progress of its domain, by
  8,192 × l + c (10 R317) -/
  formed : SMap (Option Formed)
  /-- x[n-1] of the zero-crossing flag per S-slot (02 R62) -/
  zcPrev : SMap S64
  meters : SMap MeterAcc
  /-- newest samples of the true-peak filter per output strip, and its peak -/
  tpHist : SMap (List S64)
  tpPeak : SMap Nat
  groups : SMap LoudGroup
  /-- insert sends of each domain's last tick in S-slot order, and the words of free output patch entries, each with the
  domain (1 A, 2 B, 3 C) on whose last tick it was formed: both reach
  the exchange inputs of the coming frame (06 R181) -/
  sends : List (Dom × Nat × S64)
  freeOut : SMap (Nat × S64)
  meterSeq : Nat
  /-- Freiz time of the last frame close -/
  meterAt : Nat
  /-- Archive: domain and first captured index per S-slot (05 R167) -/
  arcFirst : SMap (Option (Dom × Nat))
  /-- occupant codes of the last five ticks per S-slot, newest first (01 R29) -/
  arcHist : SMap (List Nat)
  /-- the blocks in progress per S-slot: the words captured, by block number and position; blocks that are complete and wait
  for their write: S-slot, domain, first index, words -/
  arcBuf : SMap (SMap (SMap Nat))
  arcPend : List (Nat × Dom × Nat × SMap Nat)
  pb : SMap (Option Playback)
  /-- words of strip state with an uncorrectable error, by strip -/
  badState : List Nat
  deriving DecidableEq, Repr
/-! ## Tick generators, bridges, local port sides (spec/08) -/

/-- 08 R242 to R245, 01 R13, R14: a tick generator. -/
structure Gen where
  running : Bool
  /-- rate code of TIM_DOM_CFG latched at start -/
  rate : Nat
  /-- domain C from the auxiliary DPLL -/
  indep : Bool
  /-- index of the next tick event -/
  next : Nat
  /-- index of the last tick event of this run, if one has been sent -/
  last : Option Nat
  /-- 01 R14: the instant, in time since reset, of the next tick of an independent domain C -/
  due : Nat
  deriving DecidableEq, Repr

/-- 08 R247 to R256: a bridge while it is not STOPPED. -/
structure Bridge where
  inDom : Dom
  outDom : Dom
  inD : Bool
  slot : Nat
  async : Bool
  /-- rate codes of its domains -/
  inRate : Nat
  outRate : Nat
  /-- first output index, latency in output samples -/
  s : Nat
  lat : Nat
  /-- input samples by input index, those that can still be used; the first index captured -/
  hist : SMap S64
  first : Option Nat
  /-- Freiz time of the input ticks, plus 1, by input index (08 R252) -/
  stamps : SMap Nat
  /-- position u of an asynchronous bridge, in units of 2^-48 samples, once it has begun -/
  u : Option Nat
  /-- increment in force, Q4.48, and words received or computed for coming blocks by block number -/
  r : Nat
  words : SMap Nat
  /-- the ratio servo: it ran for the last block; the increment it started from; the position error of the last output tick,
  in units of 2^-48 input samples, and the sum of the errors over the blocks -/
  own : Bool
  base : Nat
  err : Int
  integ : Int
  /-- the error has stayed below one sample through the block in progress, and through the last `calm` blocks -/
  steady : Bool
  calm : Nat
  /-- blocks begun, and the block in progress -/
  blocks : Nat
  block : Nat
  /-- gain in force, and the fade in progress: from, to, steps done (64 when none) -/
  gain : Int
  fadeFrom : Int
  fadeTo : Int
  k : Nat
  out : S64
  deriving DecidableEq, Repr

/-- 08 R257 to R274: a port side while it is not DISABLED; its slip state and counters are registers. -/
structure Side where
  /-- PRT_SIDE_CFG as latched -/
  cfg : W32
  /-- enable has been cleared and the frame in progress has still to end (08 R274) -/
  closing : Bool
  /-- the configuration latched when enable has been set again before that end (08 R257) -/
  again : Option W32
  /-- enabled during the tick in progress -/
  fresh : Bool
  /-- gain in force, and the fade in progress: from, to, steps done (64 when none) -/
  gain : Int
  fadeFrom : Int
  fadeTo : Int
  fadeK : Nat
  /-- receive: words of the last complete frame; transmit: words of the frame of this tick -/
  wordL : S64
  wordR : S64
  /-- transmit: words of the last complete frame sent, its index, and the last bit shifted out -/
  sentL : S64
  sentR : S64
  sentN : Nat
  lastBit : Bool
  /-- in the tick in progress: frames begun or latched; a transmit frame that is being sent, and whether it is whole; whether
  the tick has been found to have no frame; whether the gain has taken its step; the cause entered (0 none); the state that
  a return to LOCKED left -/
  frames : Nat
  sending : Option Bool
  missed : Bool
  stepped : Bool
  cause : Nat
  lockFrom : Option Nat
  /-- consecutive glitches -/
  glitchRun : Nat
  /-- instants of the last 256 frames, newest first, in units of 2^-32 tick -/
  times : List Nat
  /-- the last instant, frames in the window, and the drift in it (08 R268) -/
  drift : Option (Nat × Nat × Int)
  /-- channel mask in force, and that of the frame held -/
  mask : Nat
  heldMask : Nat
  deriving DecidableEq, Repr

structure PrtSt where
  sides : SMap (Option Side)
  bridges : SMap (Option Bridge)
  /-- words each side delivers to its S-slots on the coming tick, by 2 × side + channel -/
  rxOut : SMap S64
  /-- S64 words patch_out formed for port outputs, by 2 × side + channel: of the last tick and of the one before -/
  txIn1 : SMap S64
  txIn0 : SMap S64
  /-- channel-status bytes of AES3 outputs by 24 × output + byte (unlisted: 08 R264 default) -/
  chanStatus : SMap (Option Byte)
  /-- transmit sides fade out before a drop (18 R536) -/
  quiet : Bool
  /-- debounced pin levels as seen from outside, what each pin is driven to, and pins whose sentinel has crossed its threshold
  since the last clear (08 R275) -/
  gpRaw : Nat
  gpDrive : SMap (Option Bool)
  gpSent : Nat
  deriving DecidableEq, Repr
/-! ## Network ports and media streams (spec/09) -/

/-- 09 R283 to R296: a receive flow while it is not STOPPED; the register words are those latched at the start. -/
structure RxFlow where
  cfg : W32
  timing : W32
  ssrc : W32
  legs : List W32
  /-- highest extended sequence number accepted, when the window is not empty -/
  high : Option Nat
  /-- accepted extended numbers of the window -/
  window : List Nat
  below : Nat
  /-- tick of the last write and of the last packet on each leg -/
  lastWrite : Option Nat
  lastLeg0 : Option Nat
  lastLeg1 : Option Nat
  stopReq : Bool
  deriving DecidableEq, Repr

/-- 09 R298 to R300: a transmit flow while it is not STOPPED. -/
structure TxFlow where
  cfg : W32
  pkt : W32
  ssrc : W32
  seed : BitVec 64
  legs : List W32
  /-- first index of the next packet -/
  next : Nat
  stopReq : Bool
  deriving DecidableEq, Repr

/-- 09 R301: a change of membership: the state it left, the state it took, and its reports still to be sent. -/
structure MemChange where
  old : Option (List Nat)
  new : Option (List Nat)
  left_ : Nat
  deriving DecidableEq, Repr

/-- 09 R301: membership of one group on one port. -/
structure Member where
  port : Nat
  group : Nat
  /-- none: EXCLUDE of the empty set; otherwise INCLUDE of these sources -/
  sources : Option (List Nat)
  /-- changes that still have reports to send, oldest first -/
  changes : List MemChange
  /-- a query waits for its answer -/
  queried : Bool
  deriving DecidableEq, Repr

/-- 09 R281, 10 R329: what waits in the control queue for firmware: where it came from (port, or 16 + link), its octets, the
timestamp of a PTP event message, and the source address of a datagram whose outer headers are not at hand. -/
structure CtlItem where
  src : Nat
  data : List Nat
  time : Option Nat
  addr : Option Nat
  deriving DecidableEq, Repr

structure NetSt where
  grpMode : SMap Nat
  rx : SMap (Option RxFlow)
  tx : SMap (Option TxFlow)
  /-- playout positions by 4,096 × channel + position: S64 words present -/
  play : SMap (Option S64)
  /-- value each network receive channel carries, and its domain -/
  chanVal : SMap S64
  /-- words formed for network transmit channels, by 4,096 × (index mod 1,024) + channel, each with the domain (1 A, 2 B, 3 C) on
  whose tick it was formed -/
  txWords : SMap (Nat × S64)
  /-- elapsed time at which the transmit queue of a port will be empty (R299) -/
  txFree : SMap Nat
  /-- 64-bit counters by key of Machine/Network.lean -/
  counters : SMap (BitVec 64)
  members : List Member
  /-- elapsed time until which an older querier is held to be present, by 8 × port + 4 × family (1 IPv6) + version -/
  compat : SMap Nat
  /-- accepted management commands: source, sequence, ticket, newest first -/
  mgmt : List (Nat × Nat × Nat)
  /-- who is told of a ticket's completions: ticket, port, source address, UDP port, message sequence of the command -/
  mgmtTickets : List (Nat × Nat × Nat × Nat × Nat)
  /-- completions that are to be told: ticket and record -/
  mgmtDone : List (Nat × BitVec 256)
  /-- command messages that wait for a ticket, in arrival order (16 R487): port, source, UDP port, message -/
  mgmtWait : List (Nat × Nat × Nat × List Byte)
  ctlq : List CtlItem
  /-- PTP transmit timestamps (11 R340): port, Freiz time, sequenceId, messageType, oldest first -/
  ptpTs : List (Nat × Nat × Nat × Nat)
  deriving DecidableEq, Repr
/-! ## Daxesh link (spec/10) -/

/-- 10 R312, R313: an accepted tick frame: domain, tick, words by channel. -/
structure DaxFrame where
  dom : Dom
  k : Nat
  words : SMap S64
  deriving DecidableEq, Repr

/-- 10 R325, R326: a message. -/
structure DaxMsg where
  type : Nat
  dest : Nat
  bcast : Bool
  hops : Nat
  src : Nat
  body : List (BitVec 64)
  deriving DecidableEq, Repr

/-- 10 R310, R311: a tick frame that is due: since when, the domain, the body of FRAME_START, the sample index, the words of the
channels present. -/
structure DaxDue where
  since : Nat
  dom : Dom
  header : Nat
  k : Nat
  words : List (Nat × Nat)
  deriving DecidableEq, Repr

structure DaxLink where
  /-- engine ID latched at enable -/
  engineId : Nat
  /-- word 1 of the last IDENT received and the Freiz time of its receipt -/
  identRx : Option (BitVec 64 × Nat)
  /-- Freiz times in ns of the IDENTs sent, newest first -/
  identTx : List (BitVec 64)
  frames : List DaxFrame
  /-- transmit map words that the link's island holds -/
  txmap : SMap W32
  /-- 01 R34: the valid partial-sum entries as the ticks of their D-slots' domains found them: the channel, by D-slot, and by
  4,096 + D-slot for a transmit entry -/
  ps : SMap (Option Nat)
  /-- partial sums formed during the last tick by D-slot -/
  psOut : SMap (BitVec 128)
  queue : List DaxMsg
  /-- 10 R332: the domains whose tick in progress began while the link was in UP -/
  live : List Dom
  /-- tick frames that are due and have not gone out -/
  due : List DaxDue
  deriving DecidableEq, Repr

structure DaxSt where
  link0 : DaxLink
  link1 : DaxLink
  deriving DecidableEq, Repr

/-- The line of a link (10 R305, R306). -/
structure LinkLine where
  /-- blocks sent on the four lanes together, MARKER blocks among them -/
  pos : Nat
  /-- the scrambler of each lane: the last 58 bits sent, the newest in bit 0 -/
  scr : List (BitVec 58)
  /-- blocks received since the lanes were aligned -/
  rxPos : Nat
  /-- the descrambler of each lane -/
  rxScr : List (BitVec 58)
  /-- the model's own: how often the link has sent a frame or a message -/
  bursts : Nat
  deriving DecidableEq, Repr

structure LineSt where
  line0 : LinkLine
  line1 : LinkLine
  deriving DecidableEq, Repr
/-! ## Time, reference selection and the DPLLs (spec/11) -/

/-- 11 R347: an accepted time step that has not been applied: δ in units of 2^-32 ns, and its ticket. -/
structure StepWait where
  delta : Int
  ticket : Nat
  deriving DecidableEq, Repr

structure TimSt where
  /-- Freiz time in units of 2^-32 ns since the PTP epoch (11 R335) -/
  freiz : Nat
  /-- time that has passed since reset, in the same units; a time step does not move it -/
  elapsed : Nat
  gens : PerDom Gen
  /-- 11 R347: Δ in samples, ρ in units of 2^-32 sample -/
  delta : PerDom Int
  rho : PerDom Int
  stepWait : Option StepWait
  /-- 11 R342: integ and adj in units of 1/256 ppb; fed_timer's reload in units of 1/128 s -/
  integ : Int
  adj : Int
  fedTimer : Nat
  /-- consecutive missing periods by reference input (11 R352) -/
  missing : SMap Nat
  /-- time since reset from which an input had no missing period in the last second (TIM_REF_STATUS.present) -/
  presentAt : SMap Nat
  /-- a hold-off is running (11 R357) -/
  holdOff : Bool
  /-- one-second mean frequencies in LOCKED, newest first, of the primary and the auxiliary DPLL (11 R363) -/
  samples : List Int
  auxSamples : List Int
  /-- output offset, bandwidth and phase of the auxiliary DPLL, which no register shows -/
  auxFreq : Int
  /-- bandwidths in force, in units of 2^-16 × 0.01 Hz -/
  bw : Nat
  auxBw : Nat
  auxPhase : Int
  /-- 11 R358: time since reset at which each DPLL entered HOLDOVER or LOST -/
  holdAt : Option Nat
  auxHoldAt : Option Nat
  /-- 11 R342: the last accepted offset, in ns -/
  theta : Int
  /-- 11 R359: phase targets, in units of 0.25 ns -/
  phaseTarget : Int
  auxTarget : Int
  /-- latest PPS_IN timestamp (11 R369) -/
  ppsIn : Nat
  /-- 11 R368: the first second of Freiz time whose pulse has still to come -/
  ppsAt : Nat
  deriving DecidableEq, Repr
/-! ## Replica pairs, rotation and Conservation mode (spec/12) -/

/-- 12 R375, R376: a provenance word of block `j` of D-slot `d`. -/
structure ProvWord where
  dom : Dom
  j : Nat
  d : Nat
  word : BitVec 64
  /-- a peer word for it has arrived -/
  seen : Bool
  deriving DecidableEq, Repr

/-- 12 R375: the words of the block in progress: block, the CRC so far, and the number of values taken. -/
structure ProvAcc where
  dom : Dom
  j : Nat
  crc : BitVec 64
  n : Nat
  deriving DecidableEq, Repr

/-- 12 R376, R377: what comparison has shown for a D-slot: last mismatching block + 1, matches in a row, and whether it
has mismatched since TWIN_DIVERGE was raised. -/
structure ProvRun where
  badJ : Nat
  good : Nat
  /-- the block of the last match + 1 -/
  goodJ : Nat
  since : Bool
  deriving DecidableEq, Repr

/-- 12 R394, R395: the rotation in progress. -/
structure Rotation where
  /-- 1 tile, 2 Atelier core, 3 strip unit -/
  kind : Nat
  logical : Nat
  spare : Nat
  old : Nat
  fateOff : Bool
  ticket : Nat
  /-- consecutive matching blocks by domain 0 to 2 -/
  goodA : Nat
  goodB : Nat
  goodC : Nat
  /-- words of P copied to the spare core (06 R212) -/
  copied : Nat
  /-- frames waited for a qualifying FEND (06 R212) -/
  frames : Nat
  /-- the shadow core's output words have differed from the active one's in this block -/
  diff : Bool
  /-- chosen switch tick -/
  switchAt : Option (Dom × Nat)
  deriving DecidableEq, Repr

/-- 12 R391: Conservation mode at work. -/
structure Conserve where
  mask : Nat
  repeating : Bool
  report : Nat
  ticket : Nat
  passes : Nat
  deriving DecidableEq, Repr

structure TwnSt where
  acc : SMap (Option ProvAcc)
  own : List ProvWord
  /-- words of the arbiter and of the peer kept for the verdict of 12 R384 -/
  arb : List ProvWord
  peer : List ProvWord
  runs : SMap ProvRun
  /-- words of the engine's own that have left the 16 blocks without a peer word -/
  missed : List ProvWord
  /-- by domain: the block in progress when the last arbiter word arrived + 1 -/
  arbAt : PerDom Nat
  /-- an accusation waits for its withdrawal at the next tick; the engine has withdrawn -/
  withdrawDue : Bool
  withdrawn : Bool
  /-- a withdrawn engine returns to air at the next tick of the ownership domain, alone (R382) or by a rejoin -/
  airDue : Option Bool
  /-- ownership: release at the next tick; released and TWIN_OWN_IN not yet seen low; consecutive high samples -/
  releaseDue : Bool
  relLock : Bool
  highs : Nat
  /-- the level at TWIN_OWN_OUT is pulled low -/
  ownOut : Bool
  /-- the tick after the one that took ownership has begun -/
  ownLive : Bool
  /-- last words of a TWIN message -/
  peerWord0 : BitVec 64
  peerWord1 : BitVec 64
  rot : Option Rotation
  /-- roles other than the reset ones are in the unit registers; the order in which spares became SPARE, oldest first -/
  spares : List (Nat × Nat)
  /-- units that a self-test has marked failed -/
  failed : List (Nat × Nat)
  conserve : Option Conserve
  consSeq : Nat
  /-- next unit of the scheduled rotation, by kind × 64 + logical -/
  schedNext : Nat
  deriving DecidableEq, Repr
/-! ## On-chip memories and error correction (spec/13) -/

/-- 13 R409: a merge buffer entry: its port, its word (Atrium address / 8), the bytes it holds and their strobes. -/
structure MergeEnt where
  port : Nat
  word : Nat
  data : BitVec 64
  strobes : BitVec 8
  /-- the master that wrote last -/
  master : Nat
  deriving DecidableEq, Repr

/-- 13 R418: the scrub in progress. -/
structure ScrubJob where
  start : Nat
  len : Nat
  report : Nat
  ticket : Nat
  ce : List Nat
  ue : List Nat
  ceN : Nat
  ueN : Nat
  deriving DecidableEq, Repr

/-- An access of a master that waits (13 R421, 06 R179): a read, a write of data, or a control core's LR, SC or AMO. -/
structure Stalled where
  master : Nat
  addr : Nat
  size : Nat
  write : Option (BitVec 64)
  amo : Option AmoOp
  deriving DecidableEq, Repr

structure MemSt where
  /-- words (Atrium address / 8) that hold an uncorrectable error -/
  bad : List Nat
  /-- 13 R406: bits in which the codeword that the memory holds differs from the codeword of its data, by word (Atrium address / 8);
  unlisted: none -/
  flips : SMap (BitVec 80)
  /-- words of the Ledger memory and other arrays: not on the Atrium, by region × 2^24 + word -/
  badArr : List Nat
  merge : List MergeEnt
  /-- corrected words that wait for their write-back (13 R408) -/
  wback : List Nat
  /-- address of the latest correction (13 R414) -/
  lastCe : Nat
  scrub : Option ScrubJob
  scrubSeq : Nat
  /-- REPAIR commands that program OTP, in order: entry word and ticket -/
  repair : List (W32 × Nat)
  stalled : List Stalled
  /-- the common room is being zero-filled (13 R421) -/
  fillCommon : Bool
  deriving DecidableEq, Repr
/-! ## DRAM controller (spec/14) -/

/-- 14 R435: a write queue entry: subchannel, burst address (Atrium address / 64), 64 data bytes, the word mask. -/
structure WqEnt where
  sub : Nat
  burst : Nat
  data : BitVec 512
  mask : BitVec 8
  deadline : Bool
  /-- a deadline write that has waited DRC_SCHED.dl_age_us -/
  aged : Bool
  master : Nat
  deriving DecidableEq, Repr

/-- A read command that waits at a subchannel (14 R434): class 0 deadline, 1 normal, 2 background. -/
structure RdReq where
  sub : Nat
  burst : Nat
  cls : Nat
  deadline : Nat
  master : Nat
  deriving DecidableEq, Repr

/-- 14 R443: activations of a row in the window: the count and the requesters of its last 64. -/
structure RowCnt where
  sub : Nat
  bank : Nat
  row : Nat
  n : Nat
  last : List Nat
  deriving DecidableEq, Repr

/-- 14 R448, R450: a retirement or a readmission: channel, direction, chunks moved, ticket, data lost; of a readmission, the channel
has trained. -/
structure Migration where
  ch : Nat
  back : Bool
  k : Nat
  ticket : Nat
  lost : Bool
  trained : Bool
  deriving DecidableEq, Repr

structure DrcSt where
  /-- values latched at init: DRC_CFG, DRC_CH_GEOM of each channel and the smallest of those that trained -/
  cfg : W32
  geoms : List W32
  geom : W32
  /-- K of 14 R448, latched by the retirement -/
  chunks : Nat
  /-- subchannels ready when the controller started, ascending -/
  subs : List Nat
  wq : List WqEnt
  rq : List RdReq
  /-- subchannels in a write drain -/
  drain : List Nat
  rows : List RowCnt
  /-- refreshes that are due -/
  refDue : SMap Nat
  /-- channels whose refresh interval is halved; retraining pieces and refresh management that are due -/
  hot : List Nat
  retrainDue : List Nat
  rfmDue : List (Nat × Nat)
  /-- retry buffer length per channel and alerts within one replay window -/
  retry : SMap Nat
  alerts : SMap Nat
  replay : SMap Nat
  /-- last opened row by subchannel × 4,096 + bank -/
  openRow : SMap (Option Nat)
  migr : Option Migration
  /-- elapsed time of each master's last token fill (15 R475) -/
  tokAt : SMap Nat
  /-- a write's words that no enabled entry could take wait here -/
  stalled : List WqEnt
  deriving DecidableEq, Repr
/-! ## Commands, tickets, DMA, control cores and the Docent (spec/15, spec/16) -/

/-- 16 R486, R487: an outstanding command. -/
structure Tkt where
  ticket : Nat
  code : Nat
  record : Bool
  /-- Docent thread to signal on completion -/
  signal : Option Nat
  deriving DecidableEq, Repr

/-- 16 R493, R494: a completion record that waits for room: ring (true: firmware), 32 bytes as four words, its ticket. -/
structure Held where
  fw : Bool
  rec0 : BitVec 64
  rec1 : BitVec 64
  rec2 : BitVec 64
  rec3 : BitVec 64
  signal : Option Nat
  ticket : Nat
  deriving DecidableEq, Repr

/-- 16 R491: a queued or running copy. -/
structure CopyJob where
  eng : Nat
  src : Nat
  dst : Nat
  len : Nat
  ticket : Nat
  deriving DecidableEq, Repr

/-- 16 R477: a control core: program counter, mode, integer registers x1 to x31, and the CSRs that hold a value, by number. -/
structure Hart where
  pc : BitVec 64
  user : Bool
  x : SMap (BitVec 64)
  csr : SMap (BitVec 64)
  deriving DecidableEq, Repr

/-- 16 R482: the interrupt controller: priorities by source, enable bits and threshold by core, the sources pending, and those claimed
and not yet complete. -/
structure Plic where
  priority : SMap Nat
  enable : SMap Nat
  threshold : SMap Nat
  pending : List Nat
  claimed : List Nat
  deriving DecidableEq, Repr

structure CtlSt where
  /-- next sequence by issuer -/
  seq : SMap Nat
  outst : List Tkt
  held : List Held
  /-- the ring is on a pass whose phase bit is 0 -/
  hostPhase0 : Bool
  fwPhase0 : Bool
  /-- commands that wait for a ticket in arrival order (16 R487): issuer and entry -/
  waitq : List (Nat × BitVec 512)
  /-- issuers of the commands that stall in CTL_FCMD_CTRL, by core (16 R487, R489) -/
  fcmdIss : SMap Nat
  copies : List CopyJob
  running : List CopyJob
  /-- address at which a released control core started -/
  corePc : SMap Nat
  /-- the control cores by number; unlisted: as after reset, at address zero -/
  harts : SMap Hart
  plic : Plic
  /-- cores whose machine timer interrupt is pending -/
  mtip : List Nat
  mtime : Nat
  /-- reservations: bank, core, word (16 R481) -/
  resv : List (Nat × Nat × Nat)
  /-- 16 R479: the lines (Atrium address / 64) that the data caches hold, by 1024 × core + place -/
  dcache : SMap (Option Nat)
  /-- Docent: ready lists by core, completion FIFO, counts held per entry (32 + x for ticks), tick counts -/
  ready : SMap (List Nat)
  fifo : List Nat
  /-- register and ticket completions stalled by a full FIFO -/
  fifoWait : List Nat
  heldCnt : SMap Nat
  tickCnt : PerDom Nat
  /-- error capture address (15 R476) -/
  errAddr : Nat
  /-- MSI-X vectors and interrupt sources whose OR was 1 at the end of the last command -/
  vecUp : List Nat
  srcUp : List Nat
  deriving DecidableEq, Repr
/-! ## Catalogue loader (spec/17) -/

/-- 17 R522, R523: a LOAD_CATALOGUE that programs the flash. -/
structure LoadJob where
  addr : Nat
  len : Nat
  slot : Nat
  ticket : Nat
  deriving DecidableEq, Repr

/-- 17 R503: how the flash is read: single-wire SDR, octal DDR (8D-8D-8D), quad SPI (1S-4S-4S). -/
inductive FlashMode
  | single
  | octal
  | quad
  deriving DecidableEq, Repr

structure CatSt where
  /-- 17 R503: the mode in which the flash is read -/
  flashMode : FlashMode
  /-- Atrium address of the image in use when it came from LOAD_CATALOGUE -/
  image : Option Nat
  /-- the boot ROM has failed its own check (17 R516) -/
  romBad : Bool
  /-- domains whose initial commit has not been applied, and the generation tags the loader claimed -/
  initial : List (Dom × Nat)
  /-- ticket of the requested Conservation pass while it has not completed -/
  consTicket : Option Nat
  load : Option LoadJob
  /-- bits of the seal list sections -/
  seals : Nat
  /-- an accepted open waits for its tick (17 R525) -/
  openWait : Bool
  deriving DecidableEq, Repr
/-! ## Power controller and the Night Watch (spec/18) -/

/-- 18 R534 to R538: a drop in progress. -/
structure Drop where
  /-- domains that drop, as a register bit map -/
  doms : Nat
  /-- SET_STATE target and ticket -/
  setState : Option (Nat × Nat)
  /-- keys withdrawn: slot and domains, restored on a refusal -/
  withdrawn : List (Nat × Nat)
  /-- unit IDs that agreed, in the order asked -/
  agreed : List Nat
  /-- unit that refused -/
  refused : Option Nat
  deriving DecidableEq, Repr

structure PwrSt where
  drop : Option Drop
  /-- withdrawals held during a drop: slot and domains -/
  later : List (Nat × Nat)
  /-- domains being raised, and the SET_STATE ticket that waits for them -/
  raising : Nat
  raiseTicket : Option Nat
  /-- domains whose refused drop is started again every 10 ms (18 R539) -/
  retry : Nat
  /-- device state: 0 RUN, 1 QUIET, 2 WATCH, 3 DORMANT -/
  state : Nat
  /-- consecutive looks at or above the threshold by sentinel -/
  hits : SMap Nat
  /-- wake causes found: code and index -/
  wakes : List (Nat × Nat)
  /-- frames counted towards a sentinel's 64 (18 R545) and the peak so far -/
  sentN : SMap Nat
  sentPk : SMap Nat
  deriving DecidableEq, Repr
/-! ## Accession Ledger (spec/19) -/

/-- 19 R552, R553: an occurrence received by the writer. -/
structure Occ where
  code : Nat
  src : Nat
  det : List W32
  time : Nat
  deriving DecidableEq, Repr

/-- 19 R552: an entry. -/
structure LdgEntry where
  seq : Nat
  time : Nat
  code : Nat
  src : Nat
  suppressed : Nat
  words : List W32
  deriving DecidableEq, Repr

structure LdgSt where
  queue : List Occ
  ring : SMap (Option LdgEntry)
  /-- last-resort slots 0 to 3, in the always-on domain -/
  slots : SMap (Option LdgEntry)
  slotNext : Nat
  next : Nat
  /-- suppressed count and tokens used (depth minus tokens) per code -/
  supp : SMap Nat
  used : SMap Nat
  /-- a FREEZE has been accepted: its tickets -/
  freezing : Bool
  freezeTickets : List Nat
  /-- wakes and load failures to be recorded once the Ledger is set up (17 R519, 18 R551): code, source, detail words -/
  later : List (Nat × Nat × List W32)
  deriving DecidableEq, Repr
/-! ## Supplies, pins and the test port (spec/20); what an engine keeps without power -/

/-- 20 R597: JTAG instructions. -/
inductive JtagIr
  | bypass
  | idcode
  | sample
  | extest
  | clamp
  | highz
  | fuseKey
  | fuseRead
  deriving DecidableEq, Repr

structure PinSt where
  /-- RESET_N is low, PCIE_PERST_N is low -/
  resetLow : Bool
  perstLow : Bool
  /-- optional supplies that are absent -/
  absent : List Supply
  ir : JtagIr
  /-- boundary-scan cells as captured and as preloaded, bit by bit -/
  boundary : Nat
  preload : Nat
  bypassBit : Bool
  ppsOut : Bool
  /-- the PCIe link is trained -/
  pcieUp : Bool
  deriving DecidableEq, Repr

/-- What survives without power: key-hash fuses (17 R509), field-repair entries (13 R424), the catalogue flash. -/
structure Perm where
  fuses : BitVec 256
  otp : SMap W32
  /-- flash bytes by offset; unlisted: 0xFF -/
  flash : SMap Byte
  /-- the flash device is present and holds 256 MiB -/
  flashOk : Bool
  flashBig : Bool
  /-- 17 R503: its SFDP table declares octal DDR -/
  flashOctal : Bool
  deriving DecidableEq, Repr
/-! ## Follow-up steps, what leaves the engine, and the whole state -/

/-- A transition that a step has made due: the row that carries its name performs it, and so does any later command. -/
inductive Due
  /-- 04 R122: entry -/
  | patchEnd (e : Nat)
  /-- 05: strip and fade key: coefficient interpolation, enable crossfade, gain ramp, switch fade, delay crossfade -/
  | interpEnd (strip key : Nat)
  | enableEnd (strip key : Nat)
  | gainEnd (strip key : Nat)
  | switchEnd (strip key : Nat)
  | delayEnd (strip : Nat)
  | dipHalf (strip : Nat)
  | dipEnd (strip : Nat)
  | gateClose (strip key : Nat)
  /-- 08: side, bridge -/
  | sideFade (side : Nat)
  | sideLock (side : Nat)
  | brStopped (b : Nat)
  /-- 09 R299: a transmit flow -/
  | txSend (f : Nat)
  /-- 16 R496: interrupt source and tick source -/
  | docIrq (src : Nat)
  | docTick (x : Dom)
  deriving DecidableEq, Repr

/-- What leaves the engine in one command. -/
inductive Emit
  /-- data returned to a reading master, and whether it is an error response -/
  | readData (master : Nat) (v : Nat) (ok : Bool)
  | writeResp (master : Nat) (ok : Bool)
  /-- 08 R261, R262: the frame of a local transmit side -/
  | port (side : Nat) (w : PortWave)
  /-- an Ethernet frame: port and octets -/
  | packet (port : Nat) (bytes : List Nat)
  /-- a Daxesh tick frame and a message -/
  | daxFrame (link : Nat) (header : Nat) (k : Nat) (words : List (Nat × Nat))
  | daxMsg (link : Nat) (m : DaxMsg)
  /-- 10 R306: the blocks that each of the four lanes of a link carries, scrambled -/
  | daxLine (link : Nat) (lanes : List (List Block66))
  | daxWake (link : Nat)
  /-- an MSI-X message -/
  | msix (vec : Nat) (addr data : Nat)
  /-- 08 R275: what a general-purpose pin is driven to; none: high impedance -/
  | gp (g : Nat) (v : Option Bool)
  | pps (v : Bool)
  /-- 11 R366: WCLK_OUTi takes the level `high` at the start of the tick for `half` of Freiz time, then the other as long; it is
  low outside the ticks that are marked so -/
  | wclk (i : Nat) (high : Bool) (half : Nat)
  /-- 11 R367: MCLK_OUTi rises at the start of the tick and runs at `hz` through it; low outside the ticks marked so -/
  | mclk (i : Nat) (hz : Nat)
  | tdo (bits : Nat) (len : Nat)
  /-- DRAM command: subchannel, kind, burst -/
  | dram (sub kind burst : Nat)
  /-- 14 R427: the 16 beats of a burst, check lanes above data lanes -/
  | dramBurst (sub : Nat) (beats : List (BitVec 40))
  /-- 14 R440: the interval at which the modules of channel `ch` are refreshed from now on, in DRAM clock cycles -/
  | dramRefresh (ch cycles : Nat)
  deriving DecidableEq, Repr

structure State where
  /-- commands waiting, first in, first out -/
  pending : List Instr
  /-- register words by BAR0 offset / 4; unlisted: the reset word of Machine/Regs.lean -/
  regs : SMap W32
  /-- the byte-addressed memories: common room, Storeroom, DRAM -/
  mem : List Host.Cell
  gal : GalSt
  scn : ScnSt
  str : StrSt
  /-- physical Atelier cores -/
  cores : SMap Core
  /-- cores that are zero-filling their memories (06 R179) -/
  atlFill : List Nat
  /-- logical cores' exchange maps as the islands hold them, by 64 × logical + word (06 R182) -/
  xmap : SMap W32
  /-- Atelier output words of the last frame, by 4,096-slot source index (06 R180) -/
  atlOut : SMap S64
  prt : PrtSt
  net : NetSt
  dax : DaxSt
  line : LineSt
  tim : TimSt
  twn : TwnSt
  ecc : MemSt
  drc : DrcSt
  ctl : CtlSt
  cat : CatSt
  pwr : PwrSt
  ldg : LdgSt
  pin : PinSt
  perm : Perm
  /-- transitions due, oldest first -/
  due : List Due
  /-- what left the engine in the last command -/
  out : List Emit
  /-- the model's own: how many free values have been drawn -/
  free : Nat
  deriving DecidableEq, Repr

/-! ## After reset -/

/-- A stopped tick generator that has never run (08 R245, log 6, DESIGN CHOICE). -/
def genReset : Gen := ⟨false, 0, false, 0, none, 0⟩

/-- 12 R394, 03 R65, 05 R136, 06 R170: the spares after reset, longest SPARE first, as (kind, unit) (log 8, DESIGN CHOICE). -/
def sparesReset : List (Nat × Nat) :=
  [(1, 64), (1, 65), (1, 66), (1, 67), (2, 64), (2, 65), (2, 66), (2, 67), (3, 32), (3, 33)]

/-- A link in DISABLED. -/
def daxLinkReset : DaxLink :=
  { engineId := 0, identRx := none, identTx := [], frames := [], txmap := [], ps := [], psOut := [],
    queue := [], live := [], due := [] }

/-- The line of a link that has sent and received nothing (log 157, DESIGN CHOICE). -/
def linkLineReset : LinkLine := { pos := 0, scr := List.replicate 4 0, rxPos := 0, rxScr := List.replicate 4 0, bursts := 0 }

/-- A part fresh from the factory: blank fuses, OTP and flash (log 9, DESIGN CHOICE). -/
def permReset : Perm := { fuses := 0, otp := [], flash := [], flashOk := true, flashBig := true, flashOctal := true }

/-- The engine right after a power-on reset (20 R580): every register at the reset word of its table;
ramp slots are free, nothing is bound (logs 4, 5, DESIGN CHOICE), and hidden state without a reset value is zero or empty
(log 7, DESIGN CHOICE). -/
def State.reset : State :=
  { pending := [], regs := [], mem := [],
    gal := { nodes := [], badNodes := [], slots := [], genTab := [], defer := [], split := [], stgWait := none, jobs := [],
             srcX := [], srcZc := [], dval := [], lateRun := [] },
    scn := { sDom := [], dDom := [], occ := [], recs := [], owned := [], commits := [], patch := [], patchDefer := [], mapWait := [], mapOld := [],
             recWait := none, cmtWait := none, recalls := [], nextRecall := 0 },
    str := { live := [], run := [], pipe := [], formed := [], zcPrev := [], meters := [], tpHist := [], tpPeak := [], groups := [], sends := [], freeOut := [],
             meterSeq := 0, meterAt := 0, arcFirst := [], arcHist := [], arcBuf := [], arcPend := [], pb := [], badState := [] },
    cores := [], atlFill := List.range 68, xmap := [], atlOut := [],
    prt := { sides := [], bridges := [], rxOut := [], txIn1 := [], txIn0 := [], chanStatus := [], quiet := false, gpRaw := 0,
             gpDrive := [], gpSent := 0 },
    net := { grpMode := [], rx := [], tx := [], play := [], chanVal := [], txWords := [], txFree := [], counters := [],
             members := [], compat := [], mgmt := [], mgmtTickets := [], mgmtDone := [], mgmtWait := [], ctlq := [], ptpTs := [] },
    dax := { link0 := daxLinkReset, link1 := daxLinkReset },
    line := { line0 := linkLineReset, line1 := linkLineReset },
    tim := { freiz := 0, elapsed := 0, gens := ⟨genReset, genReset, genReset⟩, delta := ⟨0, 0, 0⟩, rho := ⟨0, 0, 0⟩,
             stepWait := none, integ := 0, adj := 0, fedTimer := 0, missing := [], presentAt := [], holdOff := false, samples := [],
             auxSamples := [], auxFreq := 0, bw := 0, auxBw := 0, auxPhase := 0, holdAt := none, auxHoldAt := none, theta := 0, phaseTarget := 0, auxTarget := 0,
             ppsIn := 0, ppsAt := 1 },
    twn := { acc := [], own := [], arb := [], peer := [], runs := [], missed := [], arbAt := ⟨0, 0, 0⟩, withdrawDue := false,
             withdrawn := false, airDue := none, releaseDue := false, relLock := false, highs := 0, ownOut := false, ownLive := false, peerWord0 := 0,
             peerWord1 := 0, rot := none, spares := sparesReset, failed := [], conserve := none, consSeq := 0,
             schedNext := 0 },
    ecc := { bad := [], flips := [], badArr := [], merge := [], wback := [], lastCe := 0, scrub := none, scrubSeq := 0,
             repair := [], stalled := [], fillCommon := false },
    drc := { cfg := 0, geoms := [], geom := 0, chunks := 0, subs := [], wq := [], rq := [], drain := [], rows := [], refDue := [],
             hot := [], retrainDue := [], rfmDue := [], retry := [], alerts := [], replay := [],
             openRow := [], migr := none, tokAt := [], stalled := [] },
    ctl := { seq := [], outst := [], held := [], hostPhase0 := false, fwPhase0 := false, waitq := [], fcmdIss := [], copies := [],
             running := [], corePc := [], harts := [], plic := ⟨[], [], [], [], []⟩, mtip := [], mtime := 0, resv := [], dcache := [], ready := [], fifo := [], fifoWait := [],
             heldCnt := [], tickCnt := ⟨0, 0, 0⟩, errAddr := 0, vecUp := [], srcUp := [] },
    cat := { flashMode := .single, image := none, romBad := false, initial := [], consTicket := none, load := none, seals := 0,
             openWait := false },
    pwr := { drop := none, later := [], raising := 0, raiseTicket := none, retry := 0, state := 0, hits := [],
             wakes := [], sentN := [], sentPk := [] },
    ldg := { queue := [], ring := [], slots := [], slotNext := 1, next := 0, supp := [], used := [], freezing := false,
             freezeTickets := [], later := [] },
    pin := { resetLow := false, perstLow := false, absent := [.vppFuse], ir := .idcode, boundary := 0, preload := 0,
             bypassBit := false, ppsOut := false, pcieUp := true },
    perm := permReset, due := [], out := [], free := 0 }

end Sys2Proof.Machine
end

