-- ==== Sys2Proof/Machine/Arith.lean ====
section
/-! DEFINITION. Sample arithmetic (spec/02): exact products, the accumulator with its excursion counter, the store
to S64, conversion at the edges, dither, ramps; and the sparse-map reads and writes. -/

namespace Sys2Proof.Machine

/-- The value of key `k`; `d` is the map's default. -/
def smGet {α : Type} (d : α) (m : SMap α) (k : Nat) : α :=
  match m with
  | [] => d
  | (k', v) :: t => if k' = k then v else smGet d t k

/-- The map without key `k`. -/
def smDel {α : Type} (m : SMap α) (k : Nat) : SMap α := m.filter (fun e => e.1 != k)

/-- Put a key that the map does not list in its place. -/
def smIns {α : Type} (m : SMap α) (k : Nat) (v : α) : SMap α :=
  match m with
  | [] => [(k, v)]
  | e :: t => if k < e.1 then (k, v) :: e :: t else e :: smIns t k v

/-- Give key `k` the value `v`, in key order; a default value is not listed. -/
def smSet {α : Type} [DecidableEq α] (d : α) (m : SMap α) (k : Nat) (v : α) : SMap α :=
  if v = d then smDel m k else smIns (smDel m k) k v

/-- Apply `f` to the value of key `k`. -/
def smMod {α : Type} [DecidableEq α] (d : α) (m : SMap α) (k : Nat) (f : α → α) : SMap α :=
  smSet d m k (f (smGet d m k))

/-- The entries with lo ≤ key < hi. -/
def smRange {α : Type} (m : SMap α) (lo hi : Nat) : SMap α := m.filter (fun e => decide (lo ≤ e.1) && decide (e.1 < hi))

/-- The map without the keys lo ≤ key < hi. -/
def smDrop {α : Type} (m : SMap α) (lo hi : Nat) : SMap α := m.filter (fun e => !(decide (lo ≤ e.1) && decide (e.1 < hi)))

/-- Copy the keys src … src+n-1 over dst … dst+n-1. -/
def smCopy {α : Type} [DecidableEq α] (d : α) (m : SMap α) (src dst n : Nat) : SMap α :=
  (smRange m src (src + n)).foldl (fun acc e => smSet d acc (e.1 - src + dst) e.2) (smDrop m dst (dst + n))

/-- The bits [lo+len-1 : lo] of a number. -/
def bitsOf (v lo len : Nat) : Nat := v / 2 ^ lo % 2 ^ len

/-- Bit `i` of a number. -/
def bitOf (v i : Nat) : Bool := v / 2 ^ i % 2 = 1

/-- `v` with bits [lo+len-1 : lo] replaced by the low `len` bits of `x`. -/
def putBits (v lo len x : Nat) : Nat := v - bitsOf v lo len * 2 ^ lo + x % 2 ^ len * 2 ^ lo

/-- The nearest value in lo … hi ("values outside the range are used as the nearest limit"). -/
def clampN (lo hi v : Nat) : Nat := if v < lo then lo else if hi < v then hi else v

/-- Truth as a bit. -/
def b2n (b : Bool) : Nat := if b then 1 else 0

/-! ## Formats (02 R39, R40, R42) -/

def s64Max : S64 := 0x7FFF_FFFF_FFFF_FFFF#64
def s64Min : S64 := 0x8000_0000_0000_0000#64
/-- Unity G24 gain (02 R40). -/
def unityG : Int := 0x08_0000
/-- 02 R42: the container of a C40 value, bits [63:40] copies of bit 39. -/
def c40Container (v : BitVec 64) : BitVec 64 := (v.setWidth 40).signExtend 64
/-- 02 R42: the signed C40 value of a container, bits [39:0]. -/
def c40Val (v : BitVec 64) : Int := (v.setWidth 40).toInt
/-- The signed G24 value of the low 24 bits. -/
def g24Val (v : BitVec 64) : Int := (v.setWidth 24).toInt

/-! ## Accumulator (02 R45 to R54) -/

/-- 02 R49: a cleared accumulator. -/
def accZero : Acc := ⟨0, 0, false, false⟩

/-- 02 R45: the true value V, in units of 2^-92. -/
def accVal (x : Acc) : Int := x.a.toInt + x.e8 * 2 ^ 128

/-- 02 R48: the excursion counter after an update to `e`, with the lost and direction bits; the flag says that an
excursion was lost. -/
def accExcur (a : BitVec 128) (e : Int) : Acc × Bool :=
  if e > 127 then (⟨a, 127, true, true⟩, true)
  else if e < -127 then (⟨a, -127, true, false⟩, true)
  else (⟨a, e, false, false⟩, false)

/-- 02 R49: an accumulator loaded with an exact value. -/
def accLoad (v : Int) : Acc := ⟨BitVec.ofInt 128 v, 0, false, false⟩

/-- 02 R46, R48: add an exact value into an accumulator. -/
def accAdd (x : Acc) (p : Int) : Acc × Bool :=
  let sum := x.a.toInt + p
  let a := BitVec.ofInt 128 sum
  if x.lost then ({ x with a := a }, false)
  else accExcur a (x.e8 + (sum - a.toInt) / 2 ^ 128)

/-- 02 R47, R51, 07 R234: an accumulator holding the exact value `v`, with an excursion loss where E8 would leave
its range. -/
def accOfVal (v : Int) : Acc × Bool :=
  let a := BitVec.ofInt 128 v
  accExcur a ((v - a.toInt) / 2 ^ 128)

/-- 07 R235: the result when a source is lost: `a` modulo 2^128, E8 at its limit. -/
def accLost (a : Int) (dir : Bool) : Acc := ⟨BitVec.ofInt 128 a, if dir then 127 else -127, true, dir⟩

/-- 02 R52, R53: the store of an accumulator, with its saturation flag. -/
def storeS64 (x : Acc) : S64 × Bool :=
  if x.lost then (if x.dir then s64Max else s64Min, true)
  else if x.e8 > 0 then (s64Max, true)
  else if x.e8 < 0 then (s64Min, true)
  else
    let q0 := x.a.toInt / 2 ^ 36
    let r := x.a.toInt % 2 ^ 36
    let q := if r > 2 ^ 35 ∨ (r = 2 ^ 35 ∧ q0 % 2 = 1) then q0 + 1 else q0
    if q > 2 ^ 63 - 1 then (s64Max, true)
    else if q < -(2 ^ 63) then (s64Min, true)
    else (BitVec.ofInt 64 q, false)

/-- The store of an exact sum that starts from a cleared accumulator (02 R50, R52). -/
def storeVal (v : Int) : S64 × Bool := storeS64 (accOfVal v).1

/-- 02 R44: S64 × G24, shifted left by 17. -/
def prodG (x : S64) (g : Int) : Int := x.toInt * g * 2 ^ 17
/-- 02 R44: S64 × C40. -/
def prodC (x : S64) (c : Int) : Int := x.toInt * c

/-- 03 R80: gain at step k of a ramp of length L. -/
def rampGain (old new : Int) (k L : Nat) : Int := old + ((new - old) * k + (L / 2 : Nat)) / L

/-- 04 R122: the crossfade of two S64 values with new weight `g`. -/
def xfade (old new : S64) (g : Int) : S64 × Bool := storeVal (prodG old (unityG - g) + prodG new g)

/-- 04 R122: the crossfade at step k of L. -/
def xfadeStep (old new : S64) (k L : Nat) : S64 × Bool := xfade old new (rampGain 0 unityG k L)

/-! ## Conversion at the edges (02 R56 to R61) -/

/-- 02 R56: a 24-bit word to S64. -/
def fromPcm24 (w : BitVec 24) : S64 := w.signExtend 64 <<< 33
/-- 02 R56: a 16-bit word to S64. -/
def fromPcm16 (w : BitVec 16) : S64 := w.signExtend 64 <<< 41

/-- Round `v / 2^sh` to nearest, ties to even. -/
def roundShift (v : Int) (sh : Nat) : Int :=
  let q := v / 2 ^ sh
  let r := v % 2 ^ sh
  if 2 * r > 2 ^ sh ∨ (2 * r = 2 ^ sh ∧ q % 2 = 1) then q + 1 else q

/-- 02 R57: an S64 value with dither `d` leaves as a word of `bits` bits (24 or 16); the flag is saturation. -/
def toPcm (bits : Nat) (x : S64) (d : Int) : Int × Bool :=
  let q := roundShift (x.toInt + d) (57 - bits)
  if q > 2 ^ (bits - 1) - 1 then (2 ^ (bits - 1) - 1, true)
  else if q < -(2 ^ (bits - 1)) then (-(2 ^ (bits - 1)), true)
  else (q, false)

/-- 02 R60: the dither value. -/
def ditherVal (seed : BitVec 64) (c n shift : Nat) : Int :=
  let x0 := seed ^^^ BitVec.ofNat 64 (c * 2 ^ 48) ^^^ BitVec.ofNat 64 n
  let x1 := (x0 ^^^ (x0 >>> 31)) * 0x7FB5_D329_728E_A185#64
  let x2 := (x1 ^^^ (x1 >>> 27)) * 0x81DA_DEF4_BC2D_D44D#64
  let x3 := x2 ^^^ (x2 >>> 33)
  (((x3.toNat / 2 ^ 32 : Nat) : Int) + (x3.toNat % 2 ^ 32 : Nat) - 2 ^ 32) * 2 ^ (shift - 32)

/-- 02 R62: the zero-crossing flag. -/
def zcFlag (x prev : S64) : Bool := decide (x = 0) || (x.msb != prev.msb)

end Sys2Proof.Machine
end

