-- ==== Sys2Proof/Machine/Operands.lean ====
section
/-! DEFINITION. The operand forms: the words of the five formats of an Atelier instruction, and which words are legal
(spec/07 R214 to R217, R219). -/

namespace Sys2Proof.Machine

/-- 07 R214, format A. -/
def encA (op rd ra rb file sh : Nat) : BitVec 64 :=
  BitVec.ofNat 64 (op * 2 ^ 56 + rd * 2 ^ 52 + ra * 2 ^ 48 + rb * 2 ^ 44 + file * 2 ^ 40 + sh * 2 ^ 32)
/-- 07 R214, format I. -/
def encI (op rd ra file imm : Nat) : BitVec 64 :=
  BitVec.ofNat 64 (op * 2 ^ 56 + rd * 2 ^ 52 + ra * 2 ^ 48 + file * 2 ^ 44 + imm)
/-- 07 R214, format M. -/
def encM (op rd ra space : Nat) (nmx : Bool) (px mx : Nat) (nmy : Bool) (py my : Nat) : BitVec 64 :=
  BitVec.ofNat 64 (op * 2 ^ 56 + rd * 2 ^ 52 + ra * 2 ^ 48 + space * 2 ^ 46 + b2n nmx * 2 ^ 45 + px * 2 ^ 42 +
    mx * 2 ^ 39 + b2n nmy * 2 ^ 38 + py * 2 ^ 35 + my * 2 ^ 32)
/-- 07 R214, format L. -/
def encL (op ra rb len imm : Nat) : BitVec 64 :=
  BitVec.ofNat 64 (op * 2 ^ 56 + ra * 2 ^ 48 + rb * 2 ^ 44 + len * 2 ^ 40 + imm)
/-- 07 R214, format B. -/
def encB (op cond ra imm16 target : Nat) : BitVec 64 :=
  BitVec.ofNat 64 (op * 2 ^ 56 + cond * 2 ^ 52 + ra * 2 ^ 48 + imm16 * 2 ^ 32 + target)

/-- 07 R214 to R217, R219: the word, at P address `pc`, is a legal instruction (log 79, DEDUCED). -/
def atlLegal (w : BitVec 64) (pc : Nat) : Bool :=
  let v := w.toNat
  let op := bitsOf v 56 8
  let rd := bitsOf v 52 4
  let ra := bitsOf v 48 4
  let rb := bitsOf v 44 4
  let fileA := bitsOf v 40 4
  let sh := bitsOf v 32 8
  let low := bitsOf v 0 32
  let regA := decide (low = 0)
  let midI := decide (bitsOf v 32 12 = 0)
  let fileI := bitsOf v 44 4
  let space := bitsOf v 46 2
  let ySide := bitsOf v 32 7
  let xSide := bitsOf v 39 8
  let resB := decide (bitsOf v 14 18 = 0)
  let imm16 := bitsOf v 32 16
  let target := bitsOf v 0 14
  let z := fun (l : List Nat) => l.all (fun x => x == 0)
  match op with
  | 0x00 | 0x01 | 0x02 => regA && z [rd, ra, rb, fileA, sh]
  | 0x03 => resB && z [rd, ra, target]
  | 0x04 => resB && decide (rd ≤ 9) && z [ra, imm16]
  | 0x05 => resB && z [rd, imm16] && decide (ra < 8)
  | 0x06 => resB && decide (rd ≤ 9) && decide (ra < 8) && z [imm16, target]
  | 0x07 => resB && z [rd, ra] && decide ((pc + 1) % 16384 ≤ target)
  | 0x08 => resB && z [rd, imm16] && decide ((pc + 1) % 16384 ≤ target)
  | 0x10 | 0x15 | 0x16 => regA && z [rb, fileA, sh]
  | 0x11 | 0x12 | 0x13 | 0x14 | 0x17 | 0x18 | 0x19 | 0x1A | 0x1B => regA && z [fileA, sh]
  | 0x1C | 0x1D | 0x1E | 0x1F => regA && z [rb, fileA] && decide (sh < 64)
  | 0x20 => regA && z [rd, fileA, sh]
  | 0x28 | 0x29 => midI && z [ra, fileI]
  | 0x2A => midI && z [fileI]
  | 0x30 => regA && z [rb, fileA, sh] && decide (rd < 8)
  | 0x31 => regA && z [rb, fileA, sh] && decide (ra < 8)
  | 0x32 => regA && z [rb, sh] && decide (fileA < 4) && decide (rd < 8)
  | 0x33 => regA && z [rb, sh] && decide (fileA < 4) && decide (ra < 8)
  | 0x34 => regA && z [ra, rb, fileA, sh]
  | 0x35 => regA && z [rd, ra, rb, fileA, sh % 4, sh / 32]
  | 0x36 => midI && z [ra, low / 65536] && decide (fileI < 4) && decide (rd < 8)
  | 0x40 => regA && z [ra, ySide] && decide (space < 3)
  | 0x41 => regA && z [ra, ySide] && decide (space < 3) && decide (rd < 8)
  | 0x42 => regA && z [rd, ySide] && decide (space < 3)
  | 0x43 => regA && z [rd, ySide] && decide (space < 3) && decide (ra < 8)
  | 0x44 => regA && z [ra, ySide] && (space == 0 || space == 2)
  | 0x50 | 0x51 | 0x52 => regA && z [fileA, sh] && decide (rd < 4) && decide (rb < 8)
  | 0x53 | 0x54 => regA && z [fileA, sh] && decide (rd < 4)
  | 0x55 | 0x56 | 0x57 => regA && z [xSide / 2 % 2, bitsOf v 39 9] && decide (rd < 4)
  | 0x58 | 0x59 => regA && z [space] && decide (rd < 4)
  | 0x5A => regA && z [space, ra % 2] && (rd == 0 || rd == 2)
  | 0x60 => regA && z [ra, rb, fileA, sh] && decide (rd < 4)
  | 0x61 => regA && z [rb, fileA, sh] && decide (rd < 4)
  | 0x62 | 0x63 => regA && z [rb, fileA, sh] && decide (rd < 4) && decide (ra < 4)
  | 0x64 | 0x65 => regA && z [fileA, sh] && decide (rd < 4) && decide (ra < 4) && decide (rb < 4)
  | 0x66 => regA && z [rb, fileA] && decide (rd < 4) && decide (ra < 4) && sh != 128
  | 0x67 => regA && z [rb, fileA, sh] && decide (ra < 4)
  | 0x70 => z [rd, rb, bitsOf v 32 8] && decide (1 ≤ fileA) && decide (fileA ≤ 8)
  | 0x71 => z [rd, fileA, bitsOf v 32 8]
  | _ => false

end Sys2Proof.Machine
end

