-- ==== Sys2Proof/Machine/AtlCore.lean ====
section
/-! DEFINITION. One Atelier core: register banks with results in flight, memories, circular addressing, the issue of
one instruction, delay slots, loops, WAIT and interrupts (spec/06 R176 to R200, spec/07 R214 to R225 and R237 to R241).
The effects of the single instructions stand in Machine/AtlIsa.lean. -/

namespace Sys2Proof.Machine

/-! ## Banks and results in flight (06 R192 to R194, R199) -/

/-- 06 R192: a bank after reset and after a binding lands. -/
def bankZero : Bank := ⟨[], [], [], [], [], 0, [], [], 0, []⟩

/-- 06 R192, R179: a core after reset. -/
def coreZero : Core :=
  { main := bankZero, shadow := bankZero, b := [], l := [], phase := .idle, pc := 0, cyc := 0, frame := 0,
    first := false, inHandler := false, rtiPc := 0, wait := none, delay := none, loopDue := false,
    landPend := false, cmpPend := false, cmpRaised := false, landVec := 0, cmpVec := 0, cmpCycle := 0,
    landEn := false, cmpEn := false, pm := [], xm := [], ym := [], em := [], bad := [], pq := [], lmIssued := 0,
    lmPos := 0, lmRefused := false, lmReads := [], lmZero := false, overran := false, lastFend := 0xFFFF,
    fendMain := bankZero, fendShadow := bankZero }

/-- The bank that issues. -/
def bankOf (c : Core) : Bank := if c.inHandler then c.shadow else c.main

/-- Replace one bank. -/
def putBank (c : Core) (shadow : Bool) (k : Bank) : Core := if shadow then { c with shadow := k } else { c with main := k }

/-- Replace the bank that issues. -/
def setBank (c : Core) (k : Bank) : Core := putBank c c.inHandler k

/-- One result reaches its register in bank `shadow`. -/
def wbApply (shadow : Bool) (c : Core) (act : WbAct) : Core × List CoreEv :=
  let k := if shadow then c.shadow else c.main
  match act with
  | .d r v => (putBank c shadow { k with d := smSet 0 k.d r v }, [])
  | .k r v => (putBank c shadow { k with k := smSet 0 k.k r v }, [])
  | .p r v => (putBank c shadow { k with p := smSet 0 k.p r v }, [])
  | .m r v => (putBank c shadow { k with m := smSet 0 k.m r v }, [])
  | .b r v => ({ c with b := smSet 0 c.b r v }, [])
  | .l r v => ({ c with l := smSet 0 c.l r v }, [])
  | .nz n z => (putBank c shadow { k with sw := (k.sw &&& 0b11100#5) ||| BitVec.ofNat 5 (b2n n + 2 * b2n z) }, [])
  | .sticky i => (putBank c shadow { k with sw := k.sw ||| BitVec.ofNat 5 (2 ^ i) }, [])
  | .clear mask => (putBank c shadow { k with sw := k.sw &&& ~~~mask }, [])
  | .accAdd r v =>
    let (x, loss) := accAdd (smGet accZero k.a r) v
    let k1 := { k with a := smSet accZero k.a r x }
    if loss then (putBank c shadow { k1 with sw := k1.sw ||| 0b01000#5 }, [.xlost]) else (putBank c shadow k1, [])
  | .accSet r x loss =>
    let k1 := { k with a := smSet accZero k.a r x }
    if loss then (putBank c shadow { k1 with sw := k1.sw ||| 0b01000#5 }, [.xlost]) else (putBank c shadow k1, [])
  | .satCount => (c, [.sat])

/-- Apply a list of results in order. -/
def wbApplyAll (shadow : Bool) (c : Core) (l : List Wb) : Core × List CoreEv :=
  l.foldl (fun (acc : Core × List CoreEv) w =>
    let (c', e) := wbApply shadow acc.1 w.act
    (c', acc.2 ++ e)) (c, [])

/-- 06 R193: the results of bank `shadow` due at or before issue number `n` become visible; of two that reach one
register together the later-issued one is kept (06 R194). -/
def wbUpTo (shadow : Bool) (n : Nat) (c : Core) : Core × List CoreEv :=
  let k := if shadow then c.shadow else c.main
  let now := k.wb.filter (fun w => decide (w.due ≤ n))
  wbApplyAll shadow (putBank c shadow { k with wb := k.wb.filter (fun w => !decide (w.due ≤ n)) }) now

/-- All results in flight in bank `shadow` retire (06 R189, R199, 07 R217). Every distance is at most three. -/
def wbFlush (shadow : Bool) (c : Core) : Core × List CoreEv :=
  let n := (if shadow then c.shadow else c.main).issued
  let (c1, e1) := wbUpTo shadow n c
  let (c2, e2) := wbUpTo shadow (n + 1) c1
  let (c3, e3) := wbUpTo shadow (n + 2) c2
  (c3, e1 ++ e2 ++ e3)

/-- Both banks retire what is in flight. -/
def wbFlushBoth (c : Core) : Core × List CoreEv :=
  let (c1, e1) := wbFlush false c
  let (c2, e2) := wbFlush true c1
  (c2, e1 ++ e2)

/-- 06 R190: results in flight are discarded. -/
def wbDiscard (c : Core) : Core :=
  { c with main := { c.main with wb := [] }, shadow := { c.shadow with wb := [] } }

/-- A result of the instruction that issues now, seen by the `dist`-th instruction after it (06 R193). -/
def coreLater (dist : Nat) (act : WbAct) (c : Core) : Core :=
  let k := bankOf c
  setBank c { k with wb := k.wb ++ [⟨k.issued + dist, act⟩] }

/-! ## Register reads at issue -/

def coreD (c : Core) (r : Nat) : S64 := smGet 0 (bankOf c).d r
def coreK (c : Core) (r : Nat) : C40 := smGet 0 (bankOf c).k r
def coreA (c : Core) (r : Nat) : Acc := smGet accZero (bankOf c).a r
def coreP (c : Core) (r : Nat) : Nat := (smGet 0 (bankOf c).p r).toNat
def coreM (c : Core) (r : Nat) : Int := (smGet 0 (bankOf c).m r).toInt
def coreB (c : Core) (r : Nat) : Nat := (smGet 0 c.b r).toNat
def coreL (c : Core) (r : Nat) : Nat := (smGet 0 c.l r).toNat
def coreSwBit (c : Core) (i : Nat) : Bool := (bankOf c).sw.getLsbD i

/-- 07 R223: the held value of Dh. -/
def coreHeld (c : Core) (r : Nat) : S64 :=
  match (bankOf c).tapLoad.find? (fun e => e.1 == r) with
  | some e => e.2
  | none => coreD c r

/-! ## Circular addressing (06 R195) -/

/-- 06 R195. -/
def postModify (p : Nat) (m : Int) (b l : Nat) : Nat :=
  let q : Int := p + m
  let q' : Int :=
    if l ≠ 0 ∧ b ≤ p ∧ p < b + l then
      (if q ≥ (b + l : Nat) then q - l else if q < (b : Int) then q + l else q)
    else q
  (q' % 65536).toNat

/-- The post-modified value of pointer `i` standing at `p`, by M register `m`. -/
def pmVal (c : Core) (i m p : Nat) : Nat := postModify p (coreM c m) (coreB c i) (coreL c i)

/-- 07 pm_x or pm_y alone. -/
def pmOne (nm : Bool) (i m : Nat) (c : Core) : Core :=
  if nm then c else coreLater 1 (.p i (BitVec.ofNat 16 (pmVal c i m (coreP c i)))) c

/-- 07 R224: pm_x then pm_y of one instruction; on one pointer the second acts on the result of the first. -/
def pmBoth (nmx : Bool) (px mx : Nat) (nmy : Bool) (py my : Nat) (c : Core) : Core :=
  if px = py then
    let p0 := coreP c px
    let p1 := if nmx then p0 else pmVal c px mx p0
    let p2 := if nmy then p1 else pmVal c py my p1
    if nmx && nmy then c else coreLater 1 (.p px (BitVec.ofNat 16 p2)) c
  else pmOne nmy py my (pmOne nmx px mx c)

/-! ## Memories (06 R176 to R180, R196) -/

/-- 06 R180: the physical E word behind a program address of the frame, if any. -/
def ePhys (frame a : Nat) : Option Nat :=
  if a < 0x180 then some (frame % 2 * 384 + a)
  else if a < 0x190 then some (768 + (a - 0x180))
  else if a < 0x280 then some (784 + (a - 0x190))
  else none

/-- 06 R180: the program may write the E word at this program address. -/
def eWritable (a : Nat) : Bool := (decide (0x40 ≤ a) && decide (a < 0x80)) || (decide (0x190 ≤ a) && decide (a < 0x280))

/-- Key of a word in the list of bad words (log 29, DESIGN CHOICE). -/
def badKey (space word : Nat) : Nat := space * 65536 + word

def isBad (c : Core) (space word : Nat) : Bool := c.bad.contains (badKey space word)

/-- The word of a space (1 X, 2 Y, 3 E physical, 0 P); a bad word reads zero and is counted (06 R178). -/
def coreRd (c : Core) (space word : Nat) : BitVec 64 × List CoreEv :=
  if isBad c space word then (0, [.ue space word])
  else (match space with
    | 0 => smGet 0 c.pm word
    | 1 => smGet 0 c.xm word
    | 2 => smGet 0 c.ym word
    | _ => smGet 0 c.em word, [])

/-- Write a word of a space; the word then has valid check bits. -/
def coreWr (c : Core) (space word : Nat) (v : BitVec 64) : Core :=
  let c1 := { c with bad := c.bad.filter (fun k => k != badKey space word) }
  match space with
  | 0 => { c1 with pm := smSet 0 c1.pm word v }
  | 1 => { c1 with xm := smSet 0 c1.xm word v }
  | 2 => { c1 with ym := smSet 0 c1.ym word v }
  | _ => { c1 with em := smSet 0 c1.em word v }

/-- 07 `mem(sp, a)` read with sp as in format M (0 X, 1 Y, 2 E). -/
def memRd (c : Core) (sp a : Nat) : BitVec 64 × List CoreEv :=
  match sp with
  | 0 => coreRd c 1 (a % 16384)
  | 1 => coreRd c 2 (a % 8192)
  | _ => match ePhys c.frame (a % 1024) with
    | some w => coreRd c 3 w
    | none => (0, [])

/-- 07 `mem(sp, a) :=`; a Y word is stored as a container (02 R42), a read-only E word is not written (07 R230). The store
has retired at issue (log 138, DESIGN CHOICE). -/
def memWr (c : Core) (sp a : Nat) (v : BitVec 64) : Core :=
  match sp with
  | 0 => coreWr c 1 (a % 16384) v
  | 1 => coreWr c 2 (a % 8192) (c40Container v)
  | _ => if eWritable (a % 1024) then
      match ePhys c.frame (a % 1024) with
      | some w => coreWr c 3 w v
      | none => c
    else c

/-! ## Interrupts (06 R197 to R200) -/

/-- 06 R198: the boundary before the next instruction is eligible. -/
def coreEligible (c : Core) : Bool :=
  decide (c.phase = .run) && !c.inHandler && decide (c.delay = none) &&
    (match c.wait with | some (_, true) => false | _ => true)

/-- 06 R198, R199, 07 R240: take the pending interrupt, the landing one first. The results the main bank has in flight
retire; during a stall the address held is that of the WAIT. -/
def coreTake (c : Core) : Core × List CoreEv :=
  let (c1, e) := wbFlush false c
  let ret := match c.wait with | some _ => (c.pc + 16383) % 16384 | none => c.pc
  let c2 := { c1 with inHandler := true, rtiPc := ret, wait := none }
  if c.landPend then ({ c2 with landPend := false, pc := c.landVec }, e)
  else ({ c2 with cmpPend := false, pc := c.cmpVec }, e)

/-- 06 R197: the compare interrupt is due at the boundary of frame cycle `cyc` (or, in a stall, before its end). -/
def cmpDue (c : Core) : Bool :=
  c.cmpEn && !c.cmpRaised && decide (c.phase = .run) &&
    (match c.wait with
     | some (until_, _) => decide (c.cmpCycle < until_) || decide (c.cmpCycle ≤ c.cyc)
     | none => decide (c.cmpCycle ≤ c.cyc))

/-- 06 R197: the compare interrupt becomes pending; a stall has then run to its cycle. -/
def cmpRaise (c : Core) : Core :=
  { c with cmpPend := true, cmpRaised := true, cyc := if c.wait.isSome then Nat.max c.cyc c.cmpCycle else c.cyc }

/-- 07 R238: the level whose last pass has issued pops, and the next-outer level is tested. -/
def loopPop (c : Core) : Core :=
  let k := bankOf c
  match k.loops with
  | [] => { c with loopDue := false }
  | top :: rest =>
    let c1 := setBank c { k with loops := rest }
    match rest with
    | out :: more =>
      if out.stop = top.stop then
        if 1 < out.count then
          { setBank c { k with loops := { out with count := out.count - 1 } :: more } with loopDue := false, pc := out.start }
        else c1
      else { c1 with loopDue := false }
    | [] => { c1 with loopDue := false }

/-- Loop levels that have ended pop; there are at most four. -/
def loopPops (c : Core) : Core :=
  let pop := fun (x : Core) => if x.loopDue then loopPop x else x
  pop (pop (pop (pop c)))

/-- What must have happened before the next instruction issues: loop levels that have ended pop, a compare interrupt that
is due becomes pending, and a pending interrupt is taken at an eligible boundary. -/
def coreBoundary (c : Core) : Core × List CoreEv :=
  let c1 := loopPops c
  let c2 := if cmpDue c1 then cmpRaise c1 else c1
  if coreEligible c2 && (c2.landPend || c2.cmpPend) then coreTake c2 else (c2, [])

/-! ## Issue -/

/-- How an instruction meets the rules of delay slots, loop bodies and frame ends. -/
inductive OpClass
  | plain
  | branch
  | loop
  | wait
  | rti
  | fend
  deriving DecidableEq, Repr

/-- Causes of a halt (07 R217, R238, R239). -/
def haltIllegal : Nat := 1
def haltLoopDepth : Nat := 2
def haltBodyEnd : Nat := 3

/-- The class of an instruction word, by its opcode (07 R219). -/
def opClassOf (w : BitVec 64) : OpClass :=
  match bitsOf w.toNat 56 8 with
  | 0x01 => .fend
  | 0x02 => .rti
  | 0x03 => .wait
  | 0x04 | 0x05 | 0x06 => .branch
  | 0x07 | 0x08 => .loop
  | _ => .plain

/-- 07 R217: the core halts; instructions in flight retire. -/
def coreHalt (cause : Nat) (c : Core) : Core × List CoreEv :=
  let (c1, e) := wbFlushBoth c
  ({ c1 with phase := .halted, delay := none, wait := none }, e ++ [.halt cause c.pc])

/-- 06 R178, R190: the frame ends without FEND: results in flight are discarded, the handler is left, pending
interrupts are dropped. -/
def coreAbandon (c : Core) : Core :=
  { wbDiscard c with phase := .abandoned, inHandler := false, landPend := false, cmpPend := false, wait := none,
                     delay := none, loopDue := false, overran := true }

/-- 07 R239: the instruction of this class at the core's pc breaks a rule of loop bodies. -/
def breaksBody (c : Core) (cls : OpClass) : Bool :=
  let stops := (bankOf c).loops.map (fun l => l.stop)
  (stops.contains c.pc && (cls == .branch || cls == .loop || cls == .wait || cls == .rti)) ||
    (stops.contains ((c.pc + 1) % 16384) && cls == .branch)

/-- 07 R237: levels whose body does not hold the target pop. -/
def popOutside (t : Nat) : List LoopLvl → List LoopLvl
  | [] => []
  | l :: rest => if l.start ≤ t ∧ t ≤ l.stop then l :: rest else popOutside t rest

/-- 07 R238, R237, R200: a loop level whose end address is the delay slot of an RTI is tested as the slot issues; RTI
then decides where issue goes on. -/
def slotLoops (pc : Nat) : List LoopLvl → List LoopLvl
  | [] => []
  | l :: rest =>
    if l.stop = pc then (if 1 < l.count then { l with count := l.count - 1 } :: rest else slotLoops pc rest) else l :: rest

/-- The address after an instruction that has issued at the core's pc: the end of a delay slot, a loop's next pass, or
the next word (07 R217: addresses wrap at 14 bits). -/
def coreAdvance (c : Core) : Core × List CoreEv :=
  let seq := (c.pc + 1) % 16384
  let k := bankOf c
  match c.delay with
  | some (.taken t) => ({ c with pc := t, delay := none }, [])
  | some .rti =>
    let (c1, e) := wbFlush true (setBank c { k with loops := slotLoops c.pc k.loops })
    ({ c1 with inHandler := false, pc := c.rtiPc, delay := none }, e)
  | d =>
    let c0 := { c with delay := none }
    match d, k.loops with
    | _, top :: rest =>
      if top.stop = c.pc then
        if 1 < top.count then
          ({ setBank c0 { k with loops := { top with count := top.count - 1 } :: rest } with pc := top.start }, [])
        else ({ c0 with loopDue := true, pc := seq }, [])
      else ({ c0 with pc := seq }, [])
    | _, [] => ({ c0 with pc := seq }, [])

/-- Count the issue: one frame cycle, one instruction of the bank (07 R220); `tap` lists the registers a TAP-family
instruction loads (07 R223). -/
def coreCount (tap : SMap S64) (c : Core) : Core :=
  let k := bankOf c
  { setBank c { k with issued := k.issued + 1, tapLoad := tap } with cyc := c.cyc + 1 }

/-- What an instruction does at issue. -/
structure IssueEff where
  core : Core
  evs : List CoreEv
  /-- registers loaded by a tap -/
  tap : SMap S64
  /-- where the instruction itself sends issue: a delay slot, an address, or nothing special -/
  delay : Option DelaySlot
  jump : Option Nat
  deriving DecidableEq, Repr

/-- An effect without control flow. -/
def effPlain (c : Core) : IssueEff := ⟨c, [], [], none, none⟩

/-- Why a word of this class, legal in itself, halts the core as it issues (07 R238, R239). -/
def loopHalt (c : Core) (cls : OpClass) : Option Nat :=
  if breaksBody c cls then some haltBodyEnd
  else if cls == .loop && c.delay.isNone && decide (4 ≤ (bankOf c).loops.length) then some haltLoopDepth
  else none

/-- Issue of the word at the core's pc, whose class is `cls` and whose effect is `eff`, at a boundary that
`coreBoundary` has passed. The frame ends at an uncorrectable word (06 R178); a word that breaks a rule of loops
halts (07 R238, R239); a branch, RTI, FEND or loop instruction in a delay slot executes as no operation (06 R194, 07 R221). -/
def coreIssue (cls : OpClass) (eff : Core → IssueEff) (c : Core) : Core × List CoreEv :=
  if isBad c 0 c.pc then (coreAbandon c, [.ue 0 c.pc])
  else match loopHalt c cls with
  | some cause => coreHalt cause c
  | none =>
    let (c1, e1) := wbUpTo c.inHandler (bankOf c).issued c
    let inSlot := c.delay.isSome
    let nop := (inSlot && (cls == .branch || cls == .loop || cls == .rti || cls == .fend)) || (cls == .rti && !c.inHandler)
    if nop then
      let (c2, e2) := coreAdvance (coreCount [] c1)
      (c2, e1 ++ e2)
    else if cls == .fend then
      let cy := c1.cyc
      let (c2, e2) := wbFlushBoth (coreCount [] c1)
      ({ c2 with phase := .ended, lastFend := cy, delay := none, loopDue := false, fendMain := c2.main, fendShadow := c2.shadow }, e1 ++ e2 ++ [.fend cy])
    else
      let r := eff c1
      let c2 := coreCount r.tap r.core
      match r.delay, r.jump with
      | some d, _ => ({ c2 with delay := some d, pc := (c.pc + 1) % 16384 }, e1 ++ r.evs)
      | none, some t => ({ c2 with pc := t }, e1 ++ r.evs)
      | none, none =>
        let (c3, e3) := coreAdvance c2
        (c3, e1 ++ r.evs ++ e3)

end Sys2Proof.Machine
end

