-- ==== Sys2Proof/Machine/AtlIsa.lean ====
section
/-! DEFINITION. What each Atelier instruction does in its core (spec/07 R226 to R241). Results take effect after the
distances of spec/06 R193. -/

namespace Sys2Proof.Machine

/-! ## ALU (07 R226, R227) -/

/-- The form of an ALU result (07 R226). -/
inductive AluForm
  | exact
  | wrapping
  | saturating
  deriving DecidableEq, Repr

/-- The stored result of an exact one (07 R226). -/
def aluResult (t : Int) (f : AluForm) : S64 :=
  match f with
  | .saturating => if t > s64Max.toInt then s64Max else if t < s64Min.toInt then s64Min else BitVec.ofInt 64 t
  | _ => BitVec.ofInt 64 t
/-- The sticky bit that a form sets when the stored result is not the exact one (07 R226; V bit 2, S bit 4). -/
def aluSticky (f : AluForm) (exact : Bool) (c : Core) : Core :=
  if exact then c else match f with
    | .wrapping => coreLater 1 (.sticky 2) c
    | .saturating => coreLater 1 (.sticky 4) c
    | .exact => c
/-- 07 R226 alu_write of a stored result. -/
def aluStore (rd : Nat) (r : S64) (f : AluForm) (exact : Bool) (c : Core) : Core :=
  aluSticky f exact (coreLater 1 (.nz r.msb (decide (r = 0))) (coreLater 1 (.d rd r) c))
/-- 07 R226 alu_write. -/
def aluWrite (rd : Nat) (t : Int) (f : AluForm) (c : Core) : IssueEff :=
  effPlain (aluStore rd (aluResult t f) f (decide ((aluResult t f).toInt = t)) c)

/-- An ALU instruction of one source. -/
def eff1 (f : Int → Int) (form : AluForm) (rd ra : Nat) (c : Core) : IssueEff := aluWrite rd (f (coreD c ra).toInt) form c
/-- An ALU instruction of two sources. -/
def eff2 (f : Int → Int → Int) (form : AluForm) (rd ra rb : Nat) (c : Core) : IssueEff :=
  aluWrite rd (f (coreD c ra).toInt (coreD c rb).toInt) form c
/-- A bitwise instruction. -/
def effBits (f : S64 → S64 → S64) (rd ra rb : Nat) (c : Core) : IssueEff :=
  aluWrite rd (f (coreD c ra) (coreD c rb)).toInt .exact c

/-- 07 R226 SHRL: zeros enter. -/
def effShrl (rd ra sh : Nat) (c : Core) : IssueEff := aluWrite rd (coreD c ra >>> sh).toInt .exact c
/-- 07 R227. -/
def effCmp (ra rb : Nat) (c : Core) : IssueEff :=
  let a := (coreD c ra).toInt
  let b := (coreD c rb).toInt
  effPlain (coreLater 1 (.nz (decide (a < b)) (decide (a = b))) c)
/-- 07 R226 MOVIH. -/
def effMovih (rd : Nat) (imm : BitVec 32) (c : Core) : IssueEff :=
  aluWrite rd ((imm ++ (coreD c rd).setWidth 32 : BitVec 64).toInt) .exact c

/-! ## Moves (07 R228) -/

/-- The register file of a move: 0 P, 1 M, 2 B, 3 L. -/
def fileWr (file r : Nat) (v : BitVec 16) (c : Core) : IssueEff :=
  effPlain (coreLater 1 (match file with | 0 => .p r v | 1 => .m r v | 2 => .b r v | _ => .l r v) c)

def effMovk (rd ra : Nat) (c : Core) : IssueEff := effPlain (coreLater 1 (.k rd ((coreD c ra).setWidth 40)) c)
def effMovdk (rd ra : Nat) (c : Core) : IssueEff := effPlain (coreLater 1 (.d rd ((coreK c ra).signExtend 64)) c)
def effMovr (file rd ra : Nat) (c : Core) : IssueEff := fileWr file rd ((coreD c ra).setWidth 16) c
/-- M sign-extended; P, B and L zero-extended. -/
def effMovd (file rd ra : Nat) (c : Core) : IssueEff :=
  let v : S64 := match file with
    | 0 => BitVec.ofNat 64 (coreP c ra)
    | 1 => BitVec.ofInt 64 (coreM c ra)
    | 2 => BitVec.ofNat 64 (coreB c ra)
    | _ => BitVec.ofNat 64 (coreL c ra)
  effPlain (coreLater 1 (.d rd v) c)
def effMovsw (rd : Nat) (c : Core) : IssueEff := effPlain (coreLater 1 (.d rd ((bankOf c).sw.setWidth 64)) c)
/-- 07 R228: sh[4:2] clears V, X and S. -/
def effClrsw (sh : Nat) (c : Core) : IssueEff := effPlain (coreLater 1 (.clear (BitVec.ofNat 5 sh &&& 0b11100#5)) c)
def effSetr (file rd : Nat) (imm : BitVec 16) (c : Core) : IssueEff := fileWr file rd imm c

/-! ## Loads, stores, exchange (07 R229, R230) -/

def effLd (rd sp : Nat) (nm : Bool) (px mx : Nat) (c : Core) : IssueEff :=
  let (w, e) := memRd c sp (coreP c px)
  let v := if sp = 1 then c40Container w else w
  { effPlain (pmOne nm px mx (coreLater 2 (.d rd v) c)) with evs := e }
def effLdk (rd sp : Nat) (nm : Bool) (px mx : Nat) (c : Core) : IssueEff :=
  let (w, e) := memRd c sp (coreP c px)
  { effPlain (pmOne nm px mx (coreLater 2 (.k rd (w.setWidth 40)) c)) with evs := e }
def effSt (ra sp : Nat) (nm : Bool) (px mx : Nat) (c : Core) : IssueEff :=
  effPlain (pmOne nm px mx (memWr c sp (coreP c px) (coreD c ra)))
def effStk (ra sp : Nat) (nm : Bool) (px mx : Nat) (c : Core) : IssueEff :=
  effPlain (pmOne nm px mx (memWr c sp (coreP c px) ((coreK c ra).signExtend 64)))
/-- 07 R230: the word read is the one held before the write. -/
def effXch (rd sp : Nat) (nm : Bool) (px mx : Nat) (c : Core) : IssueEff :=
  let (w, e) := memRd c sp (coreP c px)
  { effPlain (pmOne nm px mx (coreLater 2 (.d rd w) (memWr c sp (coreP c px) (coreD c rd)))) with evs := e }

/-! ## Multiply-accumulate and taps (07 R231 to R233) -/

def effAcc (rd : Nat) (v : Int) (c : Core) : IssueEff := effPlain (coreLater 3 (.accAdd rd v) c)
def effAccLoad (rd : Nat) (v : Int) (c : Core) : IssueEff := effPlain (coreLater 3 (.accSet rd (accLoad v) false) c)
def prodDK (c : Core) (ra rb : Nat) : Int := prodC (coreD c ra) (coreK c rb).toInt
def prodDG (c : Core) (ra rb : Nat) : Int := prodG (coreD c ra) (g24Val (coreD c rb))

def effMac (rd ra rb : Nat) (c : Core) : IssueEff := effAcc rd (prodDK c ra rb) c
def effMsu (rd ra rb : Nat) (c : Core) : IssueEff := effAcc rd (-(prodDK c ra rb)) c
def effMpy (rd ra rb : Nat) (c : Core) : IssueEff := effAccLoad rd (prodDK c ra rb) c
def effMacg (rd ra rb : Nat) (c : Core) : IssueEff := effAcc rd (prodDG c ra rb) c
def effMpyg (rd ra rb : Nat) (c : Core) : IssueEff := effAccLoad rd (prodDG c ra rb) c

/-- The coefficient at Y[P[py]] and what reading it raises. -/
def yCoef (c : Core) (py : Nat) : Int × List CoreEv :=
  let (w, e) := memRd c 1 (coreP c py)
  (c40Val w, e)

def effMacy (rd ra : Nat) (nmy : Bool) (py my : Nat) (c : Core) : IssueEff :=
  let (k, e) := yCoef c py
  { effPlain (pmOne nmy py my (coreLater 3 (.accAdd rd (prodC (coreD c ra) k)) c)) with evs := e }
def effMsuy (rd ra : Nat) (nmy : Bool) (py my : Nat) (c : Core) : IssueEff :=
  let (k, e) := yCoef c py
  { effPlain (pmOne nmy py my (coreLater 3 (.accAdd rd (-(prodC (coreD c ra) k))) c)) with evs := e }
def effMpyy (rd ra : Nat) (nmy : Bool) (py my : Nat) (c : Core) : IssueEff :=
  let (k, e) := yCoef c py
  { effPlain (pmOne nmy py my (coreLater 3 (.accSet rd (accLoad (prodC (coreD c ra) k)) false) c)) with evs := e }

/-- 07 R232: TAP, and TAPW with `wb`. The tap's load into Dh is seen by the second instruction after it, and by a tap
that follows directly (07 R223). -/
def effTap (wb : Bool) (rd ra : Nat) (nmx : Bool) (px mx : Nat) (nmy : Bool) (py my : Nat) (c : Core) : IssueEff :=
  let h := coreHeld c ra
  let (k, e1) := yCoef c py
  let (w, e2) := memRd c 0 (coreP c px)
  let c1 := if wb then memWr c 0 (coreP c px) h else c
  let c2 := coreLater 2 (.d ra w) (coreLater 3 (.accAdd rd (prodC h k)) c1)
  { effPlain (pmBoth nmx px mx nmy py my c2) with evs := e1 ++ e2, tap := [(ra, w)] }

/-- 07 R233. -/
def effTap2 (rd ra : Nat) (nmx : Bool) (px mx : Nat) (nmy : Bool) (py my : Nat) (c : Core) : IssueEff :=
  let a := coreP c px / 2 * 2
  let h0 := coreHeld c ra
  let h1 := coreHeld c (ra + 1)
  let (k, e1) := yCoef c py
  let (w0, e2) := memRd c 0 a
  let (w1, e3) := memRd c 0 (a + 1)
  let c1 := coreLater 3 (.accAdd (rd + 1) (prodC h1 k)) (coreLater 3 (.accAdd rd (prodC h0 k)) c)
  let c2 := coreLater 2 (.d (ra + 1) w1) (coreLater 2 (.d ra w0) c1)
  { effPlain (pmBoth nmx px mx nmy py my c2) with evs := e1 ++ e2 ++ e3, tap := [(ra, w0), (ra + 1, w1)] }

/-! ## Accumulator instructions (07 R234, R235) -/

def effAccSet (rd : Nat) (x : Acc × Bool) (c : Core) : IssueEff := effPlain (coreLater 3 (.accSet rd x.1 x.2) c)

def effLda (rd ra : Nat) (c : Core) : IssueEff := effAccLoad rd ((coreD c ra).toInt * 2 ^ 36) c
def effMova (rd ra : Nat) (c : Core) : IssueEff := effAccSet rd (coreA c ra, false) c
/-- 07 R234, R235 NEGA. -/
def negAcc (x : Acc) : Acc × Bool := if x.lost then (accLost (-x.a.toInt) (!x.dir), false) else accOfVal (-(accVal x))
/-- 07 R234, R235 ADDA. -/
def addAcc (x y : Acc) : Acc × Bool :=
  if x.lost then (accLost (x.a.toInt + y.a.toInt) x.dir, false)
  else if y.lost then (accLost (x.a.toInt + y.a.toInt) y.dir, false)
  else accOfVal (accVal x + accVal y)
/-- 07 R234, R235 SUBA. -/
def subAcc (x y : Acc) : Acc × Bool :=
  if x.lost then (accLost (x.a.toInt - y.a.toInt) x.dir, false)
  else if y.lost then (accLost (x.a.toInt - y.a.toInt) (!y.dir), false)
  else accOfVal (accVal x - accVal y)
/-- An exact value shifted left (sh > 0) or right toward minus infinity. -/
def shiftInt (v : Int) (sh : Int) : Int := if 0 ≤ sh then v * 2 ^ sh.toNat else v / 2 ^ (-sh).toNat
/-- 02 R51, 07 R234, R235 SHA. -/
def shaAcc (x : Acc) (sh : Int) : Acc × Bool :=
  if x.lost then (accLost (shiftInt x.a.toInt sh) x.dir, false) else accOfVal (shiftInt (accVal x) sh)
/-- 07 R234 STA: the word and SW.S are seen by the third instruction after. -/
def effSta (rd ra : Nat) (c : Core) : IssueEff :=
  let (w, sat) := storeS64 (coreA c ra)
  let c1 := coreLater 3 (.d rd w) c
  effPlain (if sat then coreLater 3 .satCount (coreLater 3 (.sticky 4) c1) else c1)

/-! ## Long memory (07 R236) -/

def lmOff (c : Core) (ra : Nat) (imm : BitVec 32) : Nat := ((coreD c ra).setWidth 32 + imm).toNat
def effLmr (ra len : Nat) (imm : BitVec 32) (c : Core) : IssueEff := { effPlain c with evs := [.lmRead (lmOff c ra imm) len] }
def effLmw (ra rb : Nat) (imm : BitVec 32) (c : Core) : IssueEff :=
  { effPlain c with evs := [.lmWrite (lmOff c ra imm) (coreD c rb)] }

/-! ## Flow control (07 R218, R237 to R241) -/

/-- 07 R218. -/
def condHolds (c : Core) (cc : Nat) : Bool :=
  let n := coreSwBit c 0
  let z := coreSwBit c 1
  match cc with
  | 0 => true
  | 1 => z
  | 2 => !z
  | 3 => n
  | 4 => !n
  | 5 => !n && !z
  | 6 => n || z
  | 7 => coreSwBit c 2
  | 8 => coreSwBit c 3
  | 9 => coreSwBit c 4
  | _ => false

/-- 07 R237: a branch to `t`, taken or not; it has one delay slot either way. -/
def effBranch (taken : Bool) (t : Nat) (c : Core) : IssueEff :=
  if taken then
    let k := bankOf c
    { effPlain (setBank c { k with loops := popOutside t k.loops }) with delay := some (.taken t) }
  else { effPlain c with delay := some .fallThrough }
def effBrl (t pk : Nat) (c : Core) : IssueEff :=
  effBranch true t (coreLater 1 (.p pk (BitVec.ofNat 16 ((c.pc + 2) % 16384))) c)
def effBrr (cc pk : Nat) (c : Core) : IssueEff := effBranch (condHolds c cc) (coreP c pk % 16384) c

/-- 07 R238: push a level, or skip the body of a count of zero. -/
def effLoop (count e : Nat) (c : Core) : IssueEff :=
  if count = 0 then { effPlain c with jump := some ((e + 1) % 16384) }
  else
    let k := bankOf c
    let start := (c.pc + 1) % 16384
    { effPlain (setBank c { k with loops := ⟨start, e, count⟩ :: k.loops }) with jump := some start }

/-- 07 R240: the next instruction issues at frame cycle max(k + 1, c). -/
def effWait (until_ : Nat) (c : Core) : IssueEff :=
  if c.cyc + 1 < until_ then effPlain { c with wait := some (until_, c.delay.isSome) } else effPlain c

def effRti (c : Core) : IssueEff := { effPlain c with delay := some .rti }

end Sys2Proof.Machine
end

