-- ==== Sys2Proof/Machine/Regs.lean ====
section
/-! DEFINITION. The registers (spec/15 R452, R453 and the register tables at the end of every chapter): for each
register the word index of its BAR0 offset, for each field its place, and the table of groups with reset words,
software-writable bits and seal bits. -/

namespace Sys2Proof.Machine

/-- A field: its lowest bit and its length. -/
structure Fld where
  lo : Nat
  len : Nat
  deriving DecidableEq, Repr

/-- A register of a group: word index, count of an array register, bits a write sets to the software value (RW, RWH,
SEEN), bits of type SEAL, reset word. -/
structure RegInfo where
  idx : Nat
  cnt : Nat
  w : Nat
  sealed : Nat
  reset : Nat
  deriving DecidableEq, Repr

/-- 15 R453: a register group: block, base, stride and number of its instances, decode span, alias mask. -/
structure Grp where
  blk : Nat
  base : Nat
  stride : Nat
  first : Nat
  count : Nat
  span : Nat
  mask : Nat
  regs : List RegInfo
  /-- word index of the interrupt-enable register (none: 4,096) and, for each event interrupt, its bit and the word index
  of its CNT register; the SEEN register follows it (15 R464) -/
  ie : Nat
  ev : List (Nat × Nat)
  deriving DecidableEq, Repr

/-- 08 Registers: offset in PRT of the group of port side k (0-95 serial, 96-127 AI, 128-159 AO). -/
def prtSideBase (k : Nat) : Nat := if k < 96 then 0x80 * k else if k < 128 then 0x4000 + 0x80 * (k - 96) else 0x5000 + 0x80 * (k - 128)

/-- 14 Registers: word index of the registers of DRAM channel ch. Channel 0 shares the offsets of the global group in the spec (log 20, DEDUCED); its registers have a place of their own. -/
def drcChBase (ch : Nat) : Nat := if ch = 0 then 0x400000 else 0xC0000 + 0x400 * ch

/-! ### SYS: sysId -/

/-- 00: SYS_IDENT -/
def SYS_IDENT : Nat := 0x0
def SYS_IDENT_vendor_code : Fld := ⟨16, 16⟩
def SYS_IDENT_part_number : Fld := ⟨0, 16⟩
/-- 00: SYS_STEPPING -/
def SYS_STEPPING : Nat := 0x1
def SYS_STEPPING_major : Fld := ⟨8, 8⟩
def SYS_STEPPING_minor : Fld := ⟨0, 8⟩
/-- 00: SYS_CAPS0 -/
def SYS_CAPS0 : Nat := 0x2
def SYS_CAPS0_strip_units : Fld := ⟨16, 8⟩
def SYS_CAPS0_atelier_cores : Fld := ⟨8, 8⟩
def SYS_CAPS0_gallery_tiles : Fld := ⟨0, 8⟩
/-- 00: SYS_CAPS1 -/
def SYS_CAPS1 : Nat := 0x3
def SYS_CAPS1_dax_links : Fld := ⟨24, 8⟩
def SYS_CAPS1_aes_outputs : Fld := ⟨16, 8⟩
def SYS_CAPS1_aes_inputs : Fld := ⟨8, 8⟩
def SYS_CAPS1_serial_ports : Fld := ⟨0, 8⟩

/-- The group sysId of SYS. -/
def grp_sysId : Grp := ⟨0, 0x0, 0x0, 0, 1, 0x10, 0x3,
  [⟨0, 1, 0x0, 0x0, 0x484b9800⟩,
   ⟨1, 1, 0x0, 0x0, 0x100⟩,
   ⟨2, 1, 0x0, 0x0, 0x224444⟩,
   ⟨3, 1, 0x0, 0x0, 0x2202030⟩],
  4096, []⟩

/-! ### SYS: sysCtl -/

/-- 15: SYS_RESET_CAUSE -/
def SYS_RESET_CAUSE : Nat := 0x40
def SYS_RESET_CAUSE_wake : Fld := ⟨3, 1⟩
def SYS_RESET_CAUSE_software : Fld := ⟨2, 1⟩
def SYS_RESET_CAUSE_reset_pin : Fld := ⟨1, 1⟩
def SYS_RESET_CAUSE_power_on : Fld := ⟨0, 1⟩
/-- 15: SYS_SW_RESET -/
def SYS_SW_RESET : Nat := 0x41
def SYS_SW_RESET_key : Fld := ⟨16, 16⟩
def SYS_SW_RESET_reset : Fld := ⟨0, 1⟩
/-- 15: SYS_SEALS -/
def SYS_SEALS : Nat := 0x42
def SYS_SEALS_power : Fld := ⟨7, 1⟩
def SYS_SEALS_fuse : Fld := ⟨6, 1⟩
def SYS_SEALS_twin : Fld := ⟨5, 1⟩
def SYS_SEALS_dram : Fld := ⟨4, 1⟩
def SYS_SEALS_clock_ref : Fld := ⟨3, 1⟩
def SYS_SEALS_clock_dom : Fld := ⟨0, 3⟩
/-- 15: SYS_INT_PENDING -/
def SYS_INT_PENDING : Nat := 0x43
def SYS_INT_PENDING_block : Fld := ⟨0, 16⟩
/-- 15: SYS_INT_REARM -/
def SYS_INT_REARM : Nat := 0x44
def SYS_INT_REARM_vector : Fld := ⟨0, 32⟩

/-- The group sysCtl of SYS. -/
def grp_sysCtl : Grp := ⟨0, 0x100, 0x0, 0, 1, 0x40, 0xf,
  [⟨0, 1, 0x0, 0x0, 0x0⟩,
   ⟨1, 1, 0xffff0000, 0x0, 0x0⟩,
   ⟨2, 1, 0x0, 0x0, 0x0⟩,
   ⟨3, 1, 0x0, 0x0, 0x0⟩,
   ⟨4, 1, 0x0, 0x0, 0x0⟩],
  4096, []⟩

/-! ### SYS: sysRoute -/

/-- 15: SYS_INT_ROUTE -/
def SYS_INT_ROUTE (j : Nat) : Nat := 0x80 + j
def SYS_INT_ROUTE_host_en : Fld := ⟨31, 1⟩
def SYS_INT_ROUTE_core_en : Fld := ⟨30, 1⟩
def SYS_INT_ROUTE_vector : Fld := ⟨0, 5⟩

/-- The group sysRoute of SYS. -/
def grp_sysRoute : Grp := ⟨0, 0x200, 0x0, 0, 1, 0x40, 0xf,
  [⟨0, 16, 0xc000001f, 0x0, 0x0⟩],
  4096, []⟩

/-! ### SYS: sysMbox -/

/-- 15: RR_REQ -/
def RR_REQ (i : Nat) : Nat := 0x400 + 0x10 * i
def RR_REQ_go : Fld := ⟨31, 1⟩
def RR_REQ_target : Fld := ⟨24, 7⟩
def RR_REQ_arg : Fld := ⟨0, 24⟩
/-- 15: RR_ARG -/
def RR_ARG (i : Nat) : Nat := 0x401 + 0x10 * i
def RR_ARG_arg1 : Fld := ⟨0, 32⟩
/-- 15: RR_STATUS -/
def RR_STATUS (i : Nat) : Nat := 0x402 + 0x10 * i
def RR_STATUS_result : Fld := ⟨4, 4⟩
def RR_STATUS_busy : Fld := ⟨1, 1⟩
def RR_STATUS_valid : Fld := ⟨0, 1⟩
/-- 15: RR_DATA0 -/
def RR_DATA0 (i : Nat) : Nat := 0x404 + 0x10 * i
def RR_DATA0_data : Fld := ⟨0, 32⟩
/-- 15: RR_DATA1 -/
def RR_DATA1 (i : Nat) : Nat := 0x405 + 0x10 * i
def RR_DATA1_data : Fld := ⟨0, 32⟩
/-- 15: RR_DATA2 -/
def RR_DATA2 (i : Nat) : Nat := 0x406 + 0x10 * i
def RR_DATA2_data : Fld := ⟨0, 32⟩
/-- 15: RR_DATA3 -/
def RR_DATA3 (i : Nat) : Nat := 0x407 + 0x10 * i
def RR_DATA3_data : Fld := ⟨0, 32⟩

/-- The group sysMbox of SYS. -/
def grp_sysMbox : Grp := ⟨0, 0x1000, 0x40, 0, 16, 0x40, 0x7,
  [⟨0, 1, 0x7fffffff, 0x0, 0x0⟩,
   ⟨1, 1, 0xffffffff, 0x0, 0x0⟩,
   ⟨2, 1, 0x0, 0x0, 0x0⟩,
   ⟨4, 1, 0x0, 0x0, 0x0⟩,
   ⟨5, 1, 0x0, 0x0, 0x0⟩,
   ⟨6, 1, 0x0, 0x0, 0x0⟩,
   ⟨7, 1, 0x0, 0x0, 0x0⟩],
  4096, []⟩

/-! ### ATR: atrGlb -/

/-- 15: ATR_ERR_CAP -/
def ATR_ERR_CAP : Nat := 0x40000
def ATR_ERR_CAP_valid : Fld := ⟨31, 1⟩
def ATR_ERR_CAP_write : Fld := ⟨30, 1⟩
def ATR_ERR_CAP_cause : Fld := ⟨24, 4⟩
def ATR_ERR_CAP_master : Fld := ⟨16, 5⟩
def ATR_ERR_CAP_strobes : Fld := ⟨0, 8⟩
/-- 15: ATR_ERR_REARM -/
def ATR_ERR_REARM : Nat := 0x40001
def ATR_ERR_REARM_rearm : Fld := ⟨0, 1⟩
/-- 15: ATR_ERR_CNT -/
def ATR_ERR_CNT : Nat := 0x40002
def ATR_ERR_CNT_count : Fld := ⟨0, 32⟩
/-- 15: ATR_ERR_CNT_SEEN -/
def ATR_ERR_CNT_SEEN : Nat := 0x40003
def ATR_ERR_CNT_SEEN_seen : Fld := ⟨0, 32⟩
/-- 15: ATR_INT_EN -/
def ATR_INT_EN : Nat := 0x40004
def ATR_INT_EN_err : Fld := ⟨0, 1⟩

/-- The group atrGlb of ATR. -/
def grp_atrGlb : Grp := ⟨1, 0x0, 0x0, 0, 1, 0x20, 0x7,
  [⟨0, 1, 0x0, 0x0, 0x0⟩,
   ⟨1, 1, 0x0, 0x0, 0x0⟩,
   ⟨2, 1, 0x0, 0x0, 0x0⟩,
   ⟨3, 1, 0xffffffff, 0x0, 0x0⟩,
   ⟨4, 1, 0x1, 0x0, 0x0⟩],
  4, [(0, 2)]⟩

/-! ### ATR: atrMst -/

/-- 15: ATR_MST_PRIO -/
def ATR_MST_PRIO (i : Nat) : Nat := 0x40040 + 0x4 * i
def ATR_MST_PRIO_atelier : Fld := ⟨16, 4⟩
def ATR_MST_PRIO_registers : Fld := ⟨12, 4⟩
def ATR_MST_PRIO_common : Fld := ⟨8, 4⟩
def ATR_MST_PRIO_dram : Fld := ⟨4, 4⟩
def ATR_MST_PRIO_storeroom : Fld := ⟨0, 4⟩
/-- 15: ATR_MST_TOKEN -/
def ATR_MST_TOKEN (i : Nat) : Nat := 0x40041 + 0x4 * i
def ATR_MST_TOKEN_depth : Fld := ⟨16, 12⟩
def ATR_MST_TOKEN_rate : Fld := ⟨0, 11⟩
/-- 15: ATR_MST_STATUS -/
def ATR_MST_STATUS (i : Nat) : Nat := 0x40042 + 0x4 * i
def ATR_MST_STATUS_throttled : Fld := ⟨31, 1⟩
def ATR_MST_STATUS_class : Fld := ⟨29, 2⟩
def ATR_MST_STATUS_tokens : Fld := ⟨0, 12⟩

/-- The group atrMst of ATR. -/
def grp_atrMst : Grp := ⟨1, 0x100, 0x10, 0, 21, 0x10, 0x3,
  [⟨0, 1, 0xfffff, 0x0, 0x88888⟩,
   ⟨1, 1, 0xfff07ff, 0x0, 0x1000000⟩,
   ⟨2, 1, 0x0, 0x0, 0x0⟩],
  4096, []⟩

/-! ### MEM: memGlb -/

/-- 13: MEM_STATUS -/
def MEM_STATUS : Nat := 0x80000
def MEM_STATUS_repair_busy : Fld := ⟨2, 1⟩
def MEM_STATUS_scrub_busy : Fld := ⟨1, 1⟩
def MEM_STATUS_fill_busy : Fld := ⟨0, 1⟩
/-- 13: MEM_INT_EN -/
def MEM_INT_EN : Nat := 0x80001
def MEM_INT_EN_unsealed : Fld := ⟨2, 1⟩
def MEM_INT_EN_ue : Fld := ⟨1, 1⟩
def MEM_INT_EN_bkt_ovf : Fld := ⟨0, 1⟩
/-- 13: MEM_LAST_CE -/
def MEM_LAST_CE : Nat := 0x80002
def MEM_LAST_CE_two_bit : Fld := ⟨31, 1⟩
def MEM_LAST_CE_region : Fld := ⟨26, 5⟩
def MEM_LAST_CE_column : Fld := ⟨16, 10⟩
def MEM_LAST_CE_array : Fld := ⟨0, 16⟩
/-- 13: MEM_LAST_UE -/
def MEM_LAST_UE : Nat := 0x80003
def MEM_LAST_UE_region : Fld := ⟨16, 5⟩
def MEM_LAST_UE_array : Fld := ⟨0, 16⟩
/-- 13: MEM_FUSE_SEAL -/
def MEM_FUSE_SEAL : Nat := 0x80004
def MEM_FUSE_SEAL_fuse : Fld := ⟨0, 1⟩
/-- 13: MEM_REPAIR_USE -/
def MEM_REPAIR_USE : Nat := 0x80005
def MEM_REPAIR_USE_void : Fld := ⟨16, 9⟩
def MEM_REPAIR_USE_used : Fld := ⟨0, 9⟩
/-- 13: MEM_UNSEALED_LO -/
def MEM_UNSEALED_LO : Nat := 0x80006
def MEM_UNSEALED_LO_banks_lo : Fld := ⟨0, 32⟩
/-- 13: MEM_UNSEALED_HI -/
def MEM_UNSEALED_HI : Nat := 0x80007
def MEM_UNSEALED_HI_banks_hi : Fld := ⟨0, 32⟩
/-- 13: MEM_UNSEALED_CNT -/
def MEM_UNSEALED_CNT : Nat := 0x80008
def MEM_UNSEALED_CNT_count : Fld := ⟨0, 32⟩
/-- 13: MEM_UNSEALED_CNT_SEEN -/
def MEM_UNSEALED_CNT_SEEN : Nat := 0x80009
def MEM_UNSEALED_CNT_SEEN_seen : Fld := ⟨0, 32⟩

/-- The group memGlb of MEM. -/
def grp_memGlb : Grp := ⟨2, 0x0, 0x0, 0, 1, 0x40, 0xf,
  [⟨0, 1, 0x0, 0x0, 0x0⟩,
   ⟨1, 1, 0x7, 0x0, 0x0⟩,
   ⟨2, 1, 0x0, 0x0, 0x0⟩,
   ⟨3, 1, 0x0, 0x0, 0x0⟩,
   ⟨4, 1, 0x0, 0x1, 0x0⟩,
   ⟨5, 1, 0x0, 0x0, 0x0⟩,
   ⟨6, 1, 0x0, 0x0, 0x0⟩,
   ⟨7, 1, 0x0, 0x0, 0x0⟩,
   ⟨8, 1, 0x0, 0x0, 0x0⟩,
   ⟨9, 1, 0xffffffff, 0x0, 0x0⟩],
  1, [(2, 8)]⟩

/-! ### MEM: memBkt -/

/-- 13: MEM_BKT_CFG -/
def MEM_BKT_CFG (i : Nat) : Nat := 0x80400 + 0x4 * i
def MEM_BKT_CFG_leak_ms : Fld := ⟨16, 16⟩
def MEM_BKT_CFG_depth : Fld := ⟨0, 16⟩
/-- 13: MEM_BKT_LEVEL -/
def MEM_BKT_LEVEL (i : Nat) : Nat := 0x80401 + 0x4 * i
def MEM_BKT_LEVEL_level : Fld := ⟨0, 16⟩
/-- 13: MEM_BKT_OVF -/
def MEM_BKT_OVF (i : Nat) : Nat := 0x80402 + 0x4 * i
def MEM_BKT_OVF_count : Fld := ⟨0, 32⟩
/-- 13: MEM_BKT_OVF_SEEN -/
def MEM_BKT_OVF_SEEN (i : Nat) : Nat := 0x80403 + 0x4 * i
def MEM_BKT_OVF_SEEN_seen : Fld := ⟨0, 32⟩

/-- The group memBkt of MEM. -/
def grp_memBkt : Grp := ⟨2, 0x1000, 0x10, 0, 32, 0x10, 0x3,
  [⟨0, 1, 0xffffffff, 0x0, 0x3e80100⟩,
   ⟨1, 1, 0x0, 0x0, 0x0⟩,
   ⟨2, 1, 0x0, 0x0, 0x0⟩,
   ⟨3, 1, 0xffffffff, 0x0, 0x0⟩],
  4096, []⟩

/-! ### MEM: memErr -/

/-- 13: MEM_UE -/
def MEM_UE (i : Nat) : Nat := 0x80800 + 0x2 * i
def MEM_UE_count : Fld := ⟨0, 32⟩
/-- 13: MEM_UE_SEEN -/
def MEM_UE_SEEN (i : Nat) : Nat := 0x80801 + 0x2 * i
def MEM_UE_SEEN_seen : Fld := ⟨0, 32⟩

/-- The group memErr of MEM. -/
def grp_memErr : Grp := ⟨2, 0x2000, 0x8, 0, 32, 0x8, 0x1,
  [⟨0, 1, 0x0, 0x0, 0x0⟩,
   ⟨1, 1, 0xffffffff, 0x0, 0x0⟩],
  4096, []⟩

/-! ### MEM: memBank -/

/-- 13: MEM_COND -/
def MEM_COND (j : Nat) : Nat := 0x80c00 + j
def MEM_COND_crc : Fld := ⟨0, 32⟩
/-- 13: MEM_BANK_STATUS -/
def MEM_BANK_STATUS (j : Nat) : Nat := 0x80c40 + j
def MEM_BANK_STATUS_unsealed : Fld := ⟨4, 1⟩
def MEM_BANK_STATUS_checking : Fld := ⟨3, 1⟩
def MEM_BANK_STATUS_filling : Fld := ⟨2, 1⟩
def MEM_BANK_STATUS_power : Fld := ⟨0, 2⟩

/-- The group memBank of MEM. -/
def grp_memBank : Grp := ⟨2, 0x3000, 0x0, 0, 1, 0x200, 0x7f,
  [⟨0, 64, 0x0, 0x0, 0x0⟩,
   ⟨64, 64, 0x0, 0x0, 0x0⟩],
  4096, []⟩

/-! ### DRC: drcGlb -/

/-- 14: DRC_CFG -/
def DRC_CFG : Nat := 0xc0000
def DRC_CFG_rate : Fld := ⟨16, 3⟩
def DRC_CFG_hash : Fld := ⟨12, 1⟩
def DRC_CFG_grain : Fld := ⟨8, 4⟩
def DRC_CFG_ch_enable : Fld := ⟨0, 4⟩
/-- 14: DRC_CTRL -/
def DRC_CTRL : Nat := 0xc0001
def DRC_CTRL_init : Fld := ⟨0, 1⟩
/-- 14: DRC_STATUS -/
def DRC_STATUS : Nat := 0xc0002
def DRC_STATUS_refusal : Fld := ⟨12, 4⟩
def DRC_STATUS_part_conflict : Fld := ⟨11, 1⟩
def DRC_STATUS_retired_valid : Fld := ⟨10, 1⟩
def DRC_STATUS_retired : Fld := ⟨8, 2⟩
def DRC_STATUS_n : Fld := ⟨4, 4⟩
def DRC_STATUS_migrating : Fld := ⟨2, 1⟩
def DRC_STATUS_training : Fld := ⟨1, 1⟩
def DRC_STATUS_ready : Fld := ⟨0, 1⟩
/-- 14: DRC_SCHED -/
def DRC_SCHED : Nat := 0xc0003
def DRC_SCHED_dl_age_us : Fld := ⟨16, 10⟩
def DRC_SCHED_hi_wm : Fld := ⟨8, 6⟩
def DRC_SCHED_lo_wm : Fld := ⟨0, 6⟩
/-- 14: DRC_RH_CFG -/
def DRC_RH_CFG : Nat := 0xc0004
def DRC_RH_CFG_throttle_pct : Fld := ⟨16, 8⟩
def DRC_RH_CFG_threshold : Fld := ⟨0, 16⟩
/-- 14: DRC_SEAL -/
def DRC_SEAL : Nat := 0xc0005
def DRC_SEAL_timing : Fld := ⟨0, 1⟩
/-- 14: DRC_TIM0 -/
def DRC_TIM0 : Nat := 0xc0008
def DRC_TIM0_ras : Fld := ⟨24, 8⟩
def DRC_TIM0_rp : Fld := ⟨16, 8⟩
def DRC_TIM0_rcd : Fld := ⟨8, 8⟩
def DRC_TIM0_cl : Fld := ⟨0, 8⟩
/-- 14: DRC_TIM1 -/
def DRC_TIM1 : Nat := 0xc0009
def DRC_TIM1_rfc1 : Fld := ⟨16, 16⟩
def DRC_TIM1_refi : Fld := ⟨0, 16⟩
/-- 14: DRC_TIM2 -/
def DRC_TIM2 : Nat := 0xc000a
def DRC_TIM2_rtp : Fld := ⟨24, 8⟩
def DRC_TIM2_wr : Fld := ⟨16, 8⟩
def DRC_TIM2_rfcsb : Fld := ⟨0, 16⟩
/-- 14: DRC_INT_EN -/
def DRC_INT_EN : Nat := 0xc000b
def DRC_INT_EN_part_err : Fld := ⟨0, 1⟩
/-- 14: DRC_PART_ERR -/
def DRC_PART_ERR : Nat := 0xc000c
def DRC_PART_ERR_count : Fld := ⟨0, 32⟩
/-- 14: DRC_PART_ERR_SEEN -/
def DRC_PART_ERR_SEEN : Nat := 0xc000d
def DRC_PART_ERR_SEEN_seen : Fld := ⟨0, 32⟩

/-- The group drcGlb of DRC. -/
def grp_drcGlb : Grp := ⟨3, 0x0, 0x0, 0, 1, 0x100, 0x3f,
  [⟨0, 1, 0x71f0f, 0x0, 0x40000⟩,
   ⟨1, 1, 0x0, 0x0, 0x0⟩,
   ⟨2, 1, 0x0, 0x0, 0x0⟩,
   ⟨3, 1, 0x3ff3f3f, 0x0, 0x143010⟩,
   ⟨4, 1, 0xffffff, 0x0, 0x191000⟩,
   ⟨5, 1, 0x0, 0x1, 0x0⟩,
   ⟨8, 1, 0xffffffff, 0x0, 0x67343434⟩,
   ⟨9, 1, 0xffffffff, 0x0, 0x52030c0⟩,
   ⟨10, 1, 0xffffffff, 0x0, 0x186001a0⟩,
   ⟨11, 1, 0x1, 0x0, 0x0⟩,
   ⟨12, 1, 0x0, 0x0, 0x0⟩,
   ⟨13, 1, 0xffffffff, 0x0, 0x0⟩],
  11, [(0, 12)]⟩

/-! ### DRC: drcPart -/

/-- 14: DRC_PART_BASE_LO -/
def DRC_PART_BASE_LO (i : Nat) : Nat := 0xc0080 + 0x4 * i
def DRC_PART_BASE_LO_base_lo : Fld := ⟨0, 32⟩
/-- 14: DRC_PART_BASE_HI -/
def DRC_PART_BASE_HI (i : Nat) : Nat := 0xc0081 + 0x4 * i
def DRC_PART_BASE_HI_base_hi : Fld := ⟨0, 32⟩
/-- 14: DRC_PART_SIZE -/
def DRC_PART_SIZE (i : Nat) : Nat := 0xc0082 + 0x4 * i
def DRC_PART_SIZE_size_mib : Fld := ⟨0, 32⟩
/-- 14: DRC_PART_CFG -/
def DRC_PART_CFG (i : Nat) : Nat := 0xc0083 + 0x4 * i
def DRC_PART_CFG_enable : Fld := ⟨31, 1⟩
def DRC_PART_CFG_kind : Fld := ⟨0, 3⟩

/-- The group drcPart of DRC. -/
def grp_drcPart : Grp := ⟨3, 0x200, 0x10, 0, 8, 0x10, 0x3,
  [⟨0, 1, 0xffffffff, 0x0, 0x0⟩,
   ⟨1, 1, 0xffffffff, 0x0, 0x0⟩,
   ⟨2, 1, 0xffffffff, 0x0, 0x0⟩,
   ⟨3, 1, 0x80000007, 0x0, 0x0⟩],
  4096, []⟩

/-! ### DRC: drcCh -/

/-- 14: DRC_CH_STATUS -/
def DRC_CH_STATUS (i : Nat) : Nat := drcChBase i + 0
def DRC_CH_STATUS_capacity_gib : Fld := ⟨8, 6⟩
def DRC_CH_STATUS_state : Fld := ⟨0, 3⟩
/-- 14: DRC_CH_GEOM -/
def DRC_CH_GEOM (i : Nat) : Nat := drcChBase i + 1
def DRC_CH_GEOM_two_rank : Fld := ⟨9, 1⟩
def DRC_CH_GEOM_rw : Fld := ⟨4, 5⟩
def DRC_CH_GEOM_bk : Fld := ⟨2, 2⟩
def DRC_CH_GEOM_bg : Fld := ⟨0, 2⟩
/-- 14: DRC_CH_INT_EN -/
def DRC_CH_INT_EN (i : Nat) : Nat := drcChBase i + 2
def DRC_CH_INT_EN_faulty : Fld := ⟨3, 1⟩
def DRC_CH_INT_EN_throttle : Fld := ⟨2, 1⟩
def DRC_CH_INT_EN_rfm : Fld := ⟨1, 1⟩
def DRC_CH_INT_EN_alert : Fld := ⟨0, 1⟩
/-- 14: DRC_CH_ALERT -/
def DRC_CH_ALERT (i : Nat) : Nat := drcChBase i + 4
def DRC_CH_ALERT_count : Fld := ⟨0, 32⟩
/-- 14: DRC_CH_ALERT_SEEN -/
def DRC_CH_ALERT_SEEN (i : Nat) : Nat := drcChBase i + 5
def DRC_CH_ALERT_SEEN_seen : Fld := ⟨0, 32⟩
/-- 14: DRC_CH_RFM -/
def DRC_CH_RFM (i : Nat) : Nat := drcChBase i + 6
def DRC_CH_RFM_count : Fld := ⟨0, 32⟩
/-- 14: DRC_CH_RFM_SEEN -/
def DRC_CH_RFM_SEEN (i : Nat) : Nat := drcChBase i + 7
def DRC_CH_RFM_SEEN_seen : Fld := ⟨0, 32⟩
/-- 14: DRC_CH_THROTTLE -/
def DRC_CH_THROTTLE (i : Nat) : Nat := drcChBase i + 8
def DRC_CH_THROTTLE_count : Fld := ⟨0, 32⟩
/-- 14: DRC_CH_THROTTLE_SEEN -/
def DRC_CH_THROTTLE_SEEN (i : Nat) : Nat := drcChBase i + 9
def DRC_CH_THROTTLE_SEEN_seen : Fld := ⟨0, 32⟩

/-- The group drcCh of DRC. -/
def grp_drcCh : Grp := ⟨3, 0x0, 0x1000, 0, 4, 0x40, 0xf,
  [⟨0, 1, 0x0, 0x0, 0x0⟩,
   ⟨1, 1, 0x3ff, 0x0, 0x10b⟩,
   ⟨2, 1, 0xf, 0x0, 0x0⟩,
   ⟨4, 1, 0x0, 0x0, 0x0⟩,
   ⟨5, 1, 0xffffffff, 0x0, 0x0⟩,
   ⟨6, 1, 0x0, 0x0, 0x0⟩,
   ⟨7, 1, 0xffffffff, 0x0, 0x0⟩,
   ⟨8, 1, 0x0, 0x0, 0x0⟩,
   ⟨9, 1, 0xffffffff, 0x0, 0x0⟩],
  2, [(2, 8), (1, 6), (0, 4)]⟩

/-! ### PWR: pwrGlb -/

/-- 18: PWR_STATUS -/
def PWR_STATUS : Nat := 0x100000
def PWR_STATUS_refusing : Fld := ⟨16, 16⟩
def PWR_STATUS_phase : Fld := ⟨4, 2⟩
def PWR_STATUS_state : Fld := ⟨0, 2⟩
/-- 18: PWR_MAP_RUN -/
def PWR_MAP_RUN : Nat := 0x100001
def PWR_MAP_RUN_domains : Fld := ⟨2, 13⟩
def PWR_MAP_RUN_ctl : Fld := ⟨1, 1⟩
/-- 18: PWR_MAP_QUIET -/
def PWR_MAP_QUIET : Nat := 0x100002
def PWR_MAP_QUIET_domains : Fld := ⟨2, 13⟩
def PWR_MAP_QUIET_ctl : Fld := ⟨1, 1⟩
/-- 18: PWR_SEAL -/
def PWR_SEAL : Nat := 0x100003
def PWR_SEAL_policy : Fld := ⟨0, 1⟩
/-- 18: PWR_BANK_RETAIN_LO -/
def PWR_BANK_RETAIN_LO : Nat := 0x100004
def PWR_BANK_RETAIN_LO_banks_lo : Fld := ⟨0, 32⟩
/-- 18: PWR_BANK_RETAIN_HI -/
def PWR_BANK_RETAIN_HI : Nat := 0x100005
def PWR_BANK_RETAIN_HI_banks_hi : Fld := ⟨0, 32⟩
/-- 18: PWR_NW_CFG -/
def PWR_NW_CFG : Nat := 0x100006
def PWR_NW_CFG_detect_always : Fld := ⟨31, 1⟩
def PWR_NW_CFG_period_ms : Fld := ⟨0, 14⟩
/-- 18: PWR_NW_LINKS -/
def PWR_NW_LINKS : Nat := 0x100007
def PWR_NW_LINKS_pattern : Fld := ⟨16, 2⟩
def PWR_NW_LINKS_dax_lanes : Fld := ⟨8, 8⟩
def PWR_NW_LINKS_net_lanes : Fld := ⟨0, 8⟩
/-- 18: PWR_WAKE_GP -/
def PWR_WAKE_GP : Nat := 0x100008
def PWR_WAKE_GP_pins : Fld := ⟨0, 32⟩
/-- 18: PWR_WAKE_CAUSE -/
def PWR_WAKE_CAUSE : Nat := 0x100009
def PWR_WAKE_CAUSE_dormant : Fld := ⟨16, 1⟩
def PWR_WAKE_CAUSE_index : Fld := ⟨8, 5⟩
def PWR_WAKE_CAUSE_cause : Fld := ⟨0, 3⟩
/-- 18: PWR_RESUME_LO -/
def PWR_RESUME_LO : Nat := 0x10000a
def PWR_RESUME_LO_addr_lo : Fld := ⟨0, 32⟩
/-- 18: PWR_RESUME_HI -/
def PWR_RESUME_HI : Nat := 0x10000b
def PWR_RESUME_HI_addr_hi : Fld := ⟨0, 32⟩
/-- 18: PWR_SENT_HELD -/
def PWR_SENT_HELD : Nat := 0x10000c
def PWR_SENT_HELD_held : Fld := ⟨0, 32⟩
/-- 18: PWR_INT_EN -/
def PWR_INT_EN : Nat := 0x10000d
def PWR_INT_EN_refused : Fld := ⟨0, 1⟩
/-- 18: PWR_REFUSED -/
def PWR_REFUSED : Nat := 0x10000e
def PWR_REFUSED_count : Fld := ⟨0, 32⟩
/-- 18: PWR_REFUSED_SEEN -/
def PWR_REFUSED_SEEN : Nat := 0x10000f
def PWR_REFUSED_SEEN_seen : Fld := ⟨0, 32⟩
/-- 18: PWR_LOOKS -/
def PWR_LOOKS : Nat := 0x100010
def PWR_LOOKS_looks : Fld := ⟨0, 32⟩
/-- 18: PWR_FW_KEY -/
def PWR_FW_KEY (j : Nat) : Nat := 0x100010 + j
def PWR_FW_KEY_domains : Fld := ⟨0, 32⟩

/-- The group pwrGlb of PWR. -/
def grp_pwrGlb : Grp := ⟨4, 0x0, 0x0, 0, 1, 0x100, 0x3f,
  [⟨0, 1, 0x0, 0x0, 0x0⟩,
   ⟨1, 1, 0x7ffc, 0x0, 0x2⟩,
   ⟨2, 1, 0x7ffc, 0x0, 0x2⟩,
   ⟨3, 1, 0x0, 0x1, 0x0⟩,
   ⟨4, 1, 0xffffffff, 0x0, 0x0⟩,
   ⟨5, 1, 0xffffffff, 0x0, 0x0⟩,
   ⟨6, 1, 0x80003fff, 0x0, 0x64⟩,
   ⟨7, 1, 0x3ffff, 0x0, 0x0⟩,
   ⟨8, 1, 0xffffffff, 0x0, 0x0⟩,
   ⟨9, 1, 0x0, 0x0, 0x0⟩,
   ⟨10, 1, 0xffffffff, 0x0, 0x0⟩,
   ⟨11, 1, 0xffffffff, 0x0, 0x0⟩,
   ⟨12, 1, 0x0, 0x0, 0x0⟩,
   ⟨13, 1, 0x1, 0x0, 0x0⟩,
   ⟨14, 1, 0x0, 0x0, 0x0⟩,
   ⟨15, 1, 0xffffffff, 0x0, 0x0⟩,
   ⟨16, 1, 0x0, 0x0, 0x0⟩,
   ⟨17, 7, 0xffffffff, 0x0, 0x0⟩],
  13, [(0, 14)]⟩

/-! ### PWR: pwrDom -/

/-- 18: PWR_DOM_CFG -/
def PWR_DOM_CFG (i : Nat) : Nat := 0x100400 + 0x4 * i
def PWR_DOM_CFG_watch_low : Fld := ⟨2, 2⟩
def PWR_DOM_CFG_low : Fld := ⟨0, 2⟩
/-- 18: PWR_DOM_STATUS -/
def PWR_DOM_STATUS (i : Nat) : Nat := 0x100401 + 0x4 * i
def PWR_DOM_STATUS_state : Fld := ⟨16, 2⟩
def PWR_DOM_STATUS_keys : Fld := ⟨0, 16⟩

/-- The group pwrDom of PWR. -/
def grp_pwrDom : Grp := ⟨4, 0x1000, 0x10, 1, 14, 0x10, 0x3,
  [⟨0, 1, 0xf, 0x0, 0x2⟩,
   ⟨1, 1, 0x0, 0x0, 0x801⟩],
  4096, []⟩

/-! ### PWR: pwrSent -/

/-- 18: PWR_SENT_CFG -/
def PWR_SENT_CFG (i : Nat) : Nat := 0x100800 + 0x4 * i
def PWR_SENT_CFG_enable : Fld := ⟨31, 1⟩
def PWR_SENT_CFG_aes : Fld := ⟨30, 1⟩
def PWR_SENT_CFG_port : Fld := ⟨24, 6⟩
def PWR_SENT_CFG_channel : Fld := ⟨23, 1⟩
def PWR_SENT_CFG_slot : Fld := ⟨21, 2⟩
def PWR_SENT_CFG_format : Fld := ⟨20, 1⟩
def PWR_SENT_CFG_looks : Fld := ⟨16, 4⟩
/-- 18: PWR_SENT_THR -/
def PWR_SENT_THR (i : Nat) : Nat := 0x100801 + 0x4 * i
def PWR_SENT_THR_threshold : Fld := ⟨0, 24⟩
/-- 18: PWR_SENT_PEAK -/
def PWR_SENT_PEAK (i : Nat) : Nat := 0x100802 + 0x4 * i
def PWR_SENT_PEAK_peak : Fld := ⟨0, 24⟩

/-- The group pwrSent of PWR. -/
def grp_pwrSent : Grp := ⟨4, 0x2000, 0x10, 0, 32, 0x10, 0x3,
  [⟨0, 1, 0xffff0000, 0x0, 0x210000⟩,
   ⟨1, 1, 0xffffff, 0x0, 0x147ae⟩,
   ⟨2, 1, 0x0, 0x0, 0x0⟩],
  4096, []⟩

/-! ### CTL: ctlGlb -/

/-- 16: CTL_CMD_TAIL -/
def CTL_CMD_TAIL : Nat := 0x140000
def CTL_CMD_TAIL_tail : Fld := ⟨0, 8⟩
/-- 16: CTL_CMD_HEAD -/
def CTL_CMD_HEAD : Nat := 0x140001
def CTL_CMD_HEAD_head : Fld := ⟨0, 8⟩
/-- 16: CTL_CQ_TAIL -/
def CTL_CQ_TAIL : Nat := 0x140002
def CTL_CQ_TAIL_tail : Fld := ⟨0, 12⟩
/-- 16: CTL_CQ_HEAD -/
def CTL_CQ_HEAD : Nat := 0x140003
def CTL_CQ_HEAD_head : Fld := ⟨0, 12⟩
/-- 16: CTL_CQ_WRITTEN -/
def CTL_CQ_WRITTEN : Nat := 0x140004
def CTL_CQ_WRITTEN_count : Fld := ⟨0, 32⟩
/-- 16: CTL_CQ_WRITTEN_SEEN -/
def CTL_CQ_WRITTEN_SEEN : Nat := 0x140005
def CTL_CQ_WRITTEN_SEEN_seen : Fld := ⟨0, 32⟩
/-- 16: CTL_STATUS -/
def CTL_STATUS : Nat := 0x140008
def CTL_STATUS_fw_cq_full : Fld := ⟨12, 1⟩
def CTL_STATUS_cq_full : Fld := ⟨11, 1⟩
def CTL_STATUS_outstanding : Fld := ⟨0, 11⟩
/-- 16: CTL_BG_EN -/
def CTL_BG_EN : Nat := 0x140009
def CTL_BG_EN_conserve : Fld := ⟨8, 1⟩
def CTL_BG_EN_dma : Fld := ⟨4, 4⟩
def CTL_BG_EN_rotation : Fld := ⟨3, 1⟩
def CTL_BG_EN_export : Fld := ⟨2, 1⟩
def CTL_BG_EN_scrubber : Fld := ⟨1, 1⟩
def CTL_BG_EN_vault : Fld := ⟨0, 1⟩
/-- 16: CTL_BAR4_BASE_LO -/
def CTL_BAR4_BASE_LO : Nat := 0x14000a
def CTL_BAR4_BASE_LO_base_lo : Fld := ⟨0, 32⟩
/-- 16: CTL_BAR4_BASE_HI -/
def CTL_BAR4_BASE_HI : Nat := 0x14000b
def CTL_BAR4_BASE_HI_base_hi : Fld := ⟨0, 32⟩
/-- 16: CTL_FW_CQ_BASE -/
def CTL_FW_CQ_BASE : Nat := 0x14000c
def CTL_FW_CQ_BASE_base : Fld := ⟨0, 32⟩
/-- 16: CTL_FW_CQ_TAIL -/
def CTL_FW_CQ_TAIL : Nat := 0x14000d
def CTL_FW_CQ_TAIL_tail : Fld := ⟨0, 12⟩
/-- 16: CTL_FW_CQ_HEAD -/
def CTL_FW_CQ_HEAD : Nat := 0x14000e
def CTL_FW_CQ_HEAD_head : Fld := ⟨0, 12⟩
/-- 16: CTL_FW_CQ_WRITTEN -/
def CTL_FW_CQ_WRITTEN : Nat := 0x14000f
def CTL_FW_CQ_WRITTEN_count : Fld := ⟨0, 32⟩
/-- 16: CTL_FW_CQ_WRITTEN_SEEN -/
def CTL_FW_CQ_WRITTEN_SEEN : Nat := 0x140010
def CTL_FW_CQ_WRITTEN_SEEN_seen : Fld := ⟨0, 32⟩
/-- 16: CTL_INT_EN -/
def CTL_INT_EN : Nat := 0x140011
def CTL_INT_EN_doc_overrun : Fld := ⟨3, 1⟩
def CTL_INT_EN_doc_underflow : Fld := ⟨2, 1⟩
def CTL_INT_EN_fw_cq : Fld := ⟨1, 1⟩
def CTL_INT_EN_cq : Fld := ⟨0, 1⟩
/-- 16: CTL_DOC_UNDERFLOW -/
def CTL_DOC_UNDERFLOW : Nat := 0x140012
def CTL_DOC_UNDERFLOW_count : Fld := ⟨0, 32⟩
/-- 16: CTL_DOC_UNDERFLOW_SEEN -/
def CTL_DOC_UNDERFLOW_SEEN : Nat := 0x140013
def CTL_DOC_UNDERFLOW_SEEN_seen : Fld := ⟨0, 32⟩
/-- 16: CTL_DOC_OVERRUN -/
def CTL_DOC_OVERRUN : Nat := 0x140014
def CTL_DOC_OVERRUN_count : Fld := ⟨0, 32⟩
/-- 16: CTL_DOC_OVERRUN_SEEN -/
def CTL_DOC_OVERRUN_SEEN : Nat := 0x140015
def CTL_DOC_OVERRUN_SEEN_seen : Fld := ⟨0, 32⟩
/-- 16: CTL_CORE_RUN -/
def CTL_CORE_RUN : Nat := 0x140016
def CTL_CORE_RUN_run : Fld := ⟨0, 8⟩
/-- 16: CTL_DOC_FIFO -/
def CTL_DOC_FIFO : Nat := 0x140017
def CTL_DOC_FIFO_high_water : Fld := ⟨16, 11⟩
def CTL_DOC_FIFO_level : Fld := ⟨0, 11⟩
/-- 16: CTL_DOC_SIGNAL -/
def CTL_DOC_SIGNAL : Nat := 0x140018
def CTL_DOC_SIGNAL_thread : Fld := ⟨0, 12⟩
/-- 16: CTL_DOC_DONE -/
def CTL_DOC_DONE : Nat := 0x140019
def CTL_DOC_DONE_thread : Fld := ⟨0, 12⟩

/-- The group ctlGlb of CTL. -/
def grp_ctlGlb : Grp := ⟨5, 0x0, 0x0, 0, 1, 0x100, 0x3f,
  [⟨0, 1, 0xff, 0x0, 0x0⟩,
   ⟨1, 1, 0x0, 0x0, 0x0⟩,
   ⟨2, 1, 0x0, 0x0, 0x0⟩,
   ⟨3, 1, 0xfff, 0x0, 0x0⟩,
   ⟨4, 1, 0x0, 0x0, 0x0⟩,
   ⟨5, 1, 0xffffffff, 0x0, 0x0⟩,
   ⟨8, 1, 0x0, 0x0, 0x0⟩,
   ⟨9, 1, 0x1ff, 0x0, 0x1ff⟩,
   ⟨10, 1, 0xffffffff, 0x0, 0x0⟩,
   ⟨11, 1, 0xffffffff, 0x0, 0x0⟩,
   ⟨12, 1, 0xffffffff, 0x0, 0x0⟩,
   ⟨13, 1, 0x0, 0x0, 0x0⟩,
   ⟨14, 1, 0xfff, 0x0, 0x0⟩,
   ⟨15, 1, 0x0, 0x0, 0x0⟩,
   ⟨16, 1, 0xffffffff, 0x0, 0x0⟩,
   ⟨17, 1, 0xf, 0x0, 0x0⟩,
   ⟨18, 1, 0x0, 0x0, 0x0⟩,
   ⟨19, 1, 0xffffffff, 0x0, 0x0⟩,
   ⟨20, 1, 0x0, 0x0, 0x0⟩,
   ⟨21, 1, 0xffffffff, 0x0, 0x0⟩,
   ⟨22, 1, 0xff, 0x0, 0x1⟩,
   ⟨23, 1, 0x0, 0x0, 0x0⟩,
   ⟨24, 1, 0x0, 0x0, 0x0⟩,
   ⟨25, 1, 0x0, 0x0, 0x0⟩],
  17, [(3, 20), (2, 18), (1, 15), (0, 4)]⟩

/-! ### CTL: ctlCore -/

/-- 16: CTL_FCMD_W -/
def CTL_FCMD_W (i : Nat) (j : Nat) : Nat := 0x140400 + 0x40 * i + j
def CTL_FCMD_W_word : Fld := ⟨0, 32⟩
/-- 16: CTL_FCMD_CTRL -/
def CTL_FCMD_CTRL (i : Nat) : Nat := 0x140410 + 0x40 * i
def CTL_FCMD_CTRL_busy : Fld := ⟨8, 1⟩
def CTL_FCMD_CTRL_issue : Fld := ⟨0, 1⟩
/-- 16: CTL_FCMD_TICKET -/
def CTL_FCMD_TICKET (i : Nat) : Nat := 0x140411 + 0x40 * i
def CTL_FCMD_TICKET_ticket : Fld := ⟨0, 32⟩
/-- 16: CTL_BOOT_LO -/
def CTL_BOOT_LO (i : Nat) : Nat := 0x140412 + 0x40 * i
def CTL_BOOT_LO_addr_lo : Fld := ⟨0, 32⟩
/-- 16: CTL_BOOT_HI -/
def CTL_BOOT_HI (i : Nat) : Nat := 0x140413 + 0x40 * i
def CTL_BOOT_HI_addr_hi : Fld := ⟨0, 32⟩
/-- 16: CTL_DOC_TAKE -/
def CTL_DOC_TAKE (i : Nat) : Nat := 0x140414 + 0x40 * i
def CTL_DOC_TAKE_take : Fld := ⟨0, 1⟩
/-- 16: CTL_DOC_GOT -/
def CTL_DOC_GOT (i : Nat) : Nat := 0x140415 + 0x40 * i
def CTL_DOC_GOT_valid : Fld := ⟨31, 1⟩
def CTL_DOC_GOT_stolen : Fld := ⟨12, 1⟩
def CTL_DOC_GOT_thread : Fld := ⟨0, 12⟩
/-- 16: CTL_CORE_CACHE -/
def CTL_CORE_CACHE (i : Nat) : Nat := 0x140416 + 0x40 * i
def CTL_CORE_CACHE_dram : Fld := ⟨8, 1⟩
def CTL_CORE_CACHE_storeroom : Fld := ⟨0, 8⟩
/-- 16: CTL_MSIP -/
def CTL_MSIP (i : Nat) : Nat := 0x140417 + 0x40 * i
def CTL_MSIP_msip : Fld := ⟨0, 1⟩
/-- 16: CTL_MTIMECMP_LO -/
def CTL_MTIMECMP_LO (i : Nat) : Nat := 0x140418 + 0x40 * i
def CTL_MTIMECMP_LO_cmp_lo : Fld := ⟨0, 32⟩
/-- 16: CTL_MTIMECMP_HI -/
def CTL_MTIMECMP_HI (i : Nat) : Nat := 0x140419 + 0x40 * i
def CTL_MTIMECMP_HI_cmp_hi : Fld := ⟨0, 32⟩

/-- The group ctlCore of CTL. -/
def grp_ctlCore : Grp := ⟨5, 0x1000, 0x100, 0, 8, 0x100, 0x3f,
  [⟨0, 16, 0xffffffff, 0x0, 0x0⟩,
   ⟨16, 1, 0x0, 0x0, 0x0⟩,
   ⟨17, 1, 0x0, 0x0, 0x0⟩,
   ⟨18, 1, 0xffffffff, 0x0, 0x0⟩,
   ⟨19, 1, 0xffffffff, 0x0, 0x0⟩,
   ⟨20, 1, 0x1, 0x0, 0x0⟩,
   ⟨21, 1, 0x0, 0x0, 0x0⟩,
   ⟨22, 1, 0x1ff, 0x0, 0x0⟩,
   ⟨23, 1, 0x1, 0x0, 0x0⟩,
   ⟨24, 1, 0xffffffff, 0x0, 0x0⟩,
   ⟨25, 1, 0xffffffff, 0x0, 0xffffffff⟩],
  4096, []⟩

/-! ### CTL: ctlDesc -/

/-- 16: CTL_DOC_CFG -/
def CTL_DOC_CFG (i : Nat) : Nat := 0x148000 + 0x4 * i
def CTL_DOC_CFG_valid : Fld := ⟨31, 1⟩
def CTL_DOC_CFG_pinned : Fld := ⟨30, 1⟩
def CTL_DOC_CFG_home : Fld := ⟨24, 3⟩
def CTL_DOC_CFG_reload : Fld := ⟨0, 16⟩
/-- 16: CTL_DOC_STATE -/
def CTL_DOC_STATE (i : Nat) : Nat := 0x148001 + 0x4 * i
def CTL_DOC_STATE_state : Fld := ⟨30, 2⟩
def CTL_DOC_STATE_pending : Fld := ⟨29, 1⟩
def CTL_DOC_STATE_home : Fld := ⟨24, 3⟩
def CTL_DOC_STATE_counter : Fld := ⟨0, 16⟩
/-- 16: CTL_DOC_ARG -/
def CTL_DOC_ARG (i : Nat) : Nat := 0x148002 + 0x4 * i
def CTL_DOC_ARG_arg : Fld := ⟨0, 32⟩

/-- The group ctlDesc of CTL. -/
def grp_ctlDesc : Grp := ⟨5, 0x20000, 0x10, 0, 4096, 0x10, 0x3,
  [⟨0, 1, 0xc700ffff, 0x0, 0x0⟩,
   ⟨1, 1, 0x0, 0x0, 0x0⟩,
   ⟨2, 1, 0xffffffff, 0x0, 0x0⟩],
  4096, []⟩

/-! ### CTL: ctlSrc -/

/-- 16: CTL_DOC_IRQ -/
def CTL_DOC_IRQ (j : Nat) : Nat := 0x14c000 + j
def CTL_DOC_IRQ_valid : Fld := ⟨31, 1⟩
def CTL_DOC_IRQ_divider : Fld := ⟨12, 16⟩
def CTL_DOC_IRQ_thread : Fld := ⟨0, 12⟩
/-- 16: CTL_DOC_TICK -/
def CTL_DOC_TICK (j : Nat) : Nat := 0x14c020 + j
def CTL_DOC_TICK_valid : Fld := ⟨31, 1⟩
def CTL_DOC_TICK_divider : Fld := ⟨12, 16⟩
def CTL_DOC_TICK_thread : Fld := ⟨0, 12⟩

/-- The group ctlSrc of CTL. -/
def grp_ctlSrc : Grp := ⟨5, 0x30000, 0x0, 0, 1, 0x100, 0x3f,
  [⟨1, 31, 0x8fffffff, 0x0, 0x1000⟩,
   ⟨32, 3, 0x8fffffff, 0x0, 0x1000⟩],
  4096, []⟩

/-! ### CTL: ctlCat -/

/-- 17: CTL_CAT_STATUS -/
def CTL_CAT_STATUS : Nat := 0x150000
def CTL_CAT_STATUS_load_cause : Fld := ⟨28, 4⟩
def CTL_CAT_STATUS_open_refusal : Fld := ⟨24, 4⟩
def CTL_CAT_STATUS_rejected : Fld := ⟨18, 2⟩
def CTL_CAT_STATUS_key_fused : Fld := ⟨17, 1⟩
def CTL_CAT_STATUS_signed : Fld := ⟨16, 1⟩
def CTL_CAT_STATUS_from_memory : Fld := ⟨11, 1⟩
def CTL_CAT_STATUS_slot : Fld := ⟨10, 1⟩
def CTL_CAT_STATUS_state : Fld := ⟨0, 4⟩
/-- 17: CTL_CAT_CTRL -/
def CTL_CAT_CTRL : Nat := 0x150001
def CTL_CAT_CTRL_open : Fld := ⟨1, 1⟩
def CTL_CAT_CTRL_continue : Fld := ⟨0, 1⟩
/-- 17: CTL_CAT_SKIPPED -/
def CTL_CAT_SKIPPED : Nat := 0x150002
def CTL_CAT_SKIPPED_count : Fld := ⟨0, 32⟩
/-- 17: CTL_CAT_SEQ_LO -/
def CTL_CAT_SEQ_LO : Nat := 0x150003
def CTL_CAT_SEQ_LO_seq_lo : Fld := ⟨0, 32⟩
/-- 17: CTL_CAT_SEQ_HI -/
def CTL_CAT_SEQ_HI : Nat := 0x150004
def CTL_CAT_SEQ_HI_seq_hi : Fld := ⟨0, 32⟩

/-- The group ctlCat of CTL. -/
def grp_ctlCat : Grp := ⟨5, 0x40000, 0x0, 0, 1, 0x20, 0x7,
  [⟨0, 1, 0x0, 0x0, 0x0⟩,
   ⟨1, 1, 0x0, 0x0, 0x0⟩,
   ⟨2, 1, 0x0, 0x0, 0x0⟩,
   ⟨3, 1, 0x0, 0x0, 0x0⟩,
   ⟨4, 1, 0x0, 0x0, 0x0⟩],
  4096, []⟩

/-! ### CTL: ctlMsix -/

/-- 16: CTL_MSIX_TABLE -/
def CTL_MSIX_TABLE (j : Nat) : Nat := 0x17c000 + j
def CTL_MSIX_TABLE_word : Fld := ⟨0, 32⟩
/-- 16: CTL_MSIX_PBA -/
def CTL_MSIX_PBA (j : Nat) : Nat := 0x17c400 + j
def CTL_MSIX_PBA_pba : Fld := ⟨0, 32⟩

/-- The group ctlMsix of CTL. -/
def grp_ctlMsix : Grp := ⟨5, 0xf0000, 0x0, 0, 1, 0x1008, 0x3ff,
  [⟨0, 128, 0xffffffff, 0x0, 0x0⟩,
   ⟨1024, 2, 0x0, 0x0, 0x0⟩],
  4096, []⟩

/-! ### TIM: timServo -/

/-- 11: TIM_SERVO_CFG -/
def TIM_SERVO_CFG : Nat := 0x180000
def TIM_SERVO_CFG_ki : Fld := ⟨16, 16⟩
def TIM_SERVO_CFG_kp : Fld := ⟨0, 16⟩
/-- 11: TIM_STEP_LIMIT -/
def TIM_STEP_LIMIT : Nat := 0x180001
def TIM_STEP_LIMIT_limit_ns : Fld := ⟨0, 30⟩
/-- 11: TIM_SERVO_INTERVAL -/
def TIM_SERVO_INTERVAL : Nat := 0x180002
def TIM_SERVO_INTERVAL_log_interval : Fld := ⟨0, 8⟩
/-- 11: TIM_SERVO_MAX -/
def TIM_SERVO_MAX : Nat := 0x180003
def TIM_SERVO_MAX_max_ppb : Fld := ⟨0, 18⟩
/-- 11: TIM_SERVO_CTRL -/
def TIM_SERVO_CTRL : Nat := 0x180004
def TIM_SERVO_CTRL_master_change : Fld := ⟨1, 1⟩
def TIM_SERVO_CTRL_update : Fld := ⟨0, 1⟩
/-- 11: TIM_SERVO_STATUS -/
def TIM_SERVO_STATUS : Nat := 0x180005
def TIM_SERVO_STATUS_clamped : Fld := ⟨3, 1⟩
def TIM_SERVO_STATUS_applying : Fld := ⟨2, 1⟩
def TIM_SERVO_STATUS_fed : Fld := ⟨1, 1⟩
def TIM_SERVO_STATUS_step_refused : Fld := ⟨0, 1⟩
/-- 11: TIM_SERVO_OFFSET -/
def TIM_SERVO_OFFSET : Nat := 0x180006
def TIM_SERVO_OFFSET_theta_ns : Fld := ⟨0, 32⟩
/-- 11: TIM_SERVO_ADJ -/
def TIM_SERVO_ADJ : Nat := 0x180007
def TIM_SERVO_ADJ_adj : Fld := ⟨0, 32⟩
/-- 11: TIM_SERVO_REFUSED -/
def TIM_SERVO_REFUSED : Nat := 0x180008
def TIM_SERVO_REFUSED_theta_ns : Fld := ⟨0, 32⟩
/-- 11: TIM_STEP_REFUSED -/
def TIM_STEP_REFUSED : Nat := 0x180009
def TIM_STEP_REFUSED_count : Fld := ⟨0, 32⟩
/-- 11: TIM_STEP_REFUSED_SEEN -/
def TIM_STEP_REFUSED_SEEN : Nat := 0x18000a
def TIM_STEP_REFUSED_SEEN_seen : Fld := ⟨0, 32⟩
/-- 11: TIM_STEP_DONE -/
def TIM_STEP_DONE : Nat := 0x18000b
def TIM_STEP_DONE_count : Fld := ⟨0, 32⟩
/-- 11: TIM_STEP_DONE_SEEN -/
def TIM_STEP_DONE_SEEN : Nat := 0x18000c
def TIM_STEP_DONE_SEEN_seen : Fld := ⟨0, 32⟩

/-- The group timServo of TIM. -/
def grp_timServo : Grp := ⟨6, 0x0, 0x0, 0, 1, 0x40, 0xf,
  [⟨0, 1, 0xffffffff, 0x0, 0x80040⟩,
   ⟨1, 1, 0x3fffffff, 0x0, 0xc350⟩,
   ⟨2, 1, 0xff, 0x0, 0xfd⟩,
   ⟨3, 1, 0x3ffff, 0x0, 0x186a0⟩,
   ⟨4, 1, 0x0, 0x0, 0x0⟩,
   ⟨5, 1, 0x0, 0x0, 0x0⟩,
   ⟨6, 1, 0xffffffff, 0x0, 0x0⟩,
   ⟨7, 1, 0x0, 0x0, 0x0⟩,
   ⟨8, 1, 0x0, 0x0, 0x0⟩,
   ⟨9, 1, 0x0, 0x0, 0x0⟩,
   ⟨10, 1, 0xffffffff, 0x0, 0x0⟩,
   ⟨11, 1, 0x0, 0x0, 0x0⟩,
   ⟨12, 1, 0xffffffff, 0x0, 0x0⟩],
  4096, []⟩

/-! ### TIM: timRef -/

/-- 11: TIM_PRIO -/
def TIM_PRIO (j : Nat) : Nat := 0x184000 + j
def TIM_PRIO_enable : Fld := ⟨31, 1⟩
def TIM_PRIO_rank : Fld := ⟨4, 3⟩
def TIM_PRIO_input : Fld := ⟨0, 4⟩
/-- 11: TIM_SEL_CFG -/
def TIM_SEL_CFG : Nat := 0x184008
def TIM_SEL_CFG_revertive : Fld := ⟨31, 1⟩
def TIM_SEL_CFG_hold_off_ms : Fld := ⟨16, 14⟩
def TIM_SEL_CFG_wtr_s : Fld := ⟨0, 10⟩
/-- 11: TIM_REF_QUAL -/
def TIM_REF_QUAL : Nat := 0x184009
def TIM_REF_QUAL_agree_tol : Fld := ⟨16, 16⟩
def TIM_REF_QUAL_tol : Fld := ⟨0, 16⟩
/-- 11: TIM_DPLL_CFG -/
def TIM_DPLL_CFG : Nat := 0x18400a
def TIM_DPLL_CFG_acq_bw_hz : Fld := ⟨16, 8⟩
def TIM_DPLL_CFG_track_bw : Fld := ⟨0, 16⟩
/-- 11: TIM_HOLD_CFG -/
def TIM_HOLD_CFG : Nat := 0x18400b
def TIM_HOLD_CFG_max_s : Fld := ⟨0, 20⟩
/-- 11: TIM_REF_IN_CFG -/
def TIM_REF_IN_CFG (j : Nat) : Nat := 0x184010 + j
def TIM_REF_IN_CFG_ai : Fld := ⟨16, 5⟩
def TIM_REF_IN_CFG_falling : Fld := ⟨8, 1⟩
def TIM_REF_IN_CFG_nominal : Fld := ⟨0, 4⟩
/-- 11: TIM_AUX_CFG -/
def TIM_AUX_CFG : Nat := 0x184019
def TIM_AUX_CFG_input : Fld := ⟨0, 4⟩
/-- 11: TIM_REF_SEAL -/
def TIM_REF_SEAL : Nat := 0x18401a
def TIM_REF_SEAL_clock : Fld := ⟨0, 1⟩
/-- 11: TIM_DPLL_STATUS -/
def TIM_DPLL_STATUS : Nat := 0x18401c
def TIM_DPLL_STATUS_aux_state : Fld := ⟨24, 3⟩
def TIM_DPLL_STATUS_selected : Fld := ⟨16, 4⟩
def TIM_DPLL_STATUS_sysref_ok : Fld := ⟨10, 1⟩
def TIM_DPLL_STATUS_rank_conflict : Fld := ⟨8, 1⟩
def TIM_DPLL_STATUS_state : Fld := ⟨0, 3⟩
/-- 11: TIM_REF_STATUS -/
def TIM_REF_STATUS : Nat := 0x18401d
def TIM_REF_STATUS_present : Fld := ⟨16, 9⟩
def TIM_REF_STATUS_qualified : Fld := ⟨0, 9⟩
/-- 11: TIM_INT_EN -/
def TIM_INT_EN : Nat := 0x18401e
def TIM_INT_EN_step_refused : Fld := ⟨5, 1⟩
def TIM_INT_EN_step_done : Fld := ⟨4, 1⟩
def TIM_INT_EN_state : Fld := ⟨3, 1⟩
def TIM_INT_EN_disqual : Fld := ⟨2, 1⟩
def TIM_INT_EN_rank_conflict : Fld := ⟨1, 1⟩
def TIM_INT_EN_ref_switch : Fld := ⟨0, 1⟩
/-- 11: TIM_DPLL_FREQ -/
def TIM_DPLL_FREQ : Nat := 0x18401f
def TIM_DPLL_FREQ_freq : Fld := ⟨0, 32⟩
/-- 11: TIM_DPLL_PHASE -/
def TIM_DPLL_PHASE : Nat := 0x184020
def TIM_DPLL_PHASE_phase : Fld := ⟨0, 32⟩
/-- 11: TIM_DPLL_BW -/
def TIM_DPLL_BW : Nat := 0x184021
def TIM_DPLL_BW_bw : Fld := ⟨0, 32⟩
/-- 11: TIM_HOLD_TIME -/
def TIM_HOLD_TIME : Nat := 0x184022
def TIM_HOLD_TIME_seconds : Fld := ⟨0, 32⟩
/-- 11: TIM_REF_FREQ -/
def TIM_REF_FREQ (j : Nat) : Nat := 0x184024 + j
def TIM_REF_FREQ_freq : Fld := ⟨0, 32⟩
/-- 11: TIM_REF_SWITCH -/
def TIM_REF_SWITCH : Nat := 0x18402d
def TIM_REF_SWITCH_count : Fld := ⟨0, 32⟩
/-- 11: TIM_REF_SWITCH_SEEN -/
def TIM_REF_SWITCH_SEEN : Nat := 0x18402e
def TIM_REF_SWITCH_SEEN_seen : Fld := ⟨0, 32⟩
/-- 11: TIM_RANK_CONFLICT -/
def TIM_RANK_CONFLICT : Nat := 0x18402f
def TIM_RANK_CONFLICT_count : Fld := ⟨0, 32⟩
/-- 11: TIM_RANK_CONFLICT_SEEN -/
def TIM_RANK_CONFLICT_SEEN : Nat := 0x184030
def TIM_RANK_CONFLICT_SEEN_seen : Fld := ⟨0, 32⟩
/-- 11: TIM_DISQUAL -/
def TIM_DISQUAL : Nat := 0x184031
def TIM_DISQUAL_count : Fld := ⟨0, 32⟩
/-- 11: TIM_DISQUAL_SEEN -/
def TIM_DISQUAL_SEEN : Nat := 0x184032
def TIM_DISQUAL_SEEN_seen : Fld := ⟨0, 32⟩

/-- The group timRef of TIM. -/
def grp_timRef : Grp := ⟨6, 0x10000, 0x0, 0, 1, 0x100, 0x3f,
  [⟨0, 8, 0x8000007f, 0x0, 0x0⟩,
   ⟨8, 1, 0xbfff03ff, 0x0, 0x1f4003c⟩,
   ⟨9, 1, 0xffffffff, 0x0, 0x1401f4⟩,
   ⟨10, 1, 0xffffff, 0x0, 0x1e0032⟩,
   ⟨11, 1, 0xfffff, 0x0, 0xe10⟩,
   ⟨16, 9, 0x1f010f, 0x0, 0x1⟩,
   ⟨25, 1, 0xf, 0x0, 0x8⟩,
   ⟨26, 1, 0x0, 0x1, 0x0⟩,
   ⟨28, 1, 0x0, 0x0, 0xf0000⟩,
   ⟨29, 1, 0x0, 0x0, 0x0⟩,
   ⟨30, 1, 0x3f, 0x0, 0x0⟩,
   ⟨31, 1, 0x0, 0x0, 0x0⟩,
   ⟨32, 1, 0x0, 0x0, 0x0⟩,
   ⟨33, 1, 0x0, 0x0, 0x0⟩,
   ⟨34, 1, 0x0, 0x0, 0x0⟩,
   ⟨36, 9, 0x0, 0x0, 0x0⟩,
   ⟨45, 1, 0x0, 0x0, 0x0⟩,
   ⟨46, 1, 0xffffffff, 0x0, 0x0⟩,
   ⟨47, 1, 0x0, 0x0, 0x0⟩,
   ⟨48, 1, 0xffffffff, 0x0, 0x0⟩,
   ⟨49, 1, 0x0, 0x0, 0x0⟩,
   ⟨50, 1, 0xffffffff, 0x0, 0x0⟩],
  30, [(2, 49), (1, 47), (0, 45)]⟩

/-! ### TIM: timDom -/

/-- 08: TIM_DOM_CFG -/
def TIM_DOM_CFG (i : Nat) : Nat := 0x188000 + 0x10 * i
def TIM_DOM_CFG_independent : Fld := ⟨8, 1⟩
def TIM_DOM_CFG_rate : Fld := ⟨0, 3⟩
/-- 08: TIM_DOM_CTRL -/
def TIM_DOM_CTRL (i : Nat) : Nat := 0x188001 + 0x10 * i
def TIM_DOM_CTRL_stop : Fld := ⟨1, 1⟩
def TIM_DOM_CTRL_start : Fld := ⟨0, 1⟩
/-- 08: TIM_DOM_STATUS -/
def TIM_DOM_STATUS (i : Nat) : Nat := 0x188002 + 0x10 * i
def TIM_DOM_STATUS_independent : Fld := ⟨8, 1⟩
def TIM_DOM_STATUS_refusal : Fld := ⟨4, 4⟩
def TIM_DOM_STATUS_running : Fld := ⟨0, 1⟩
/-- 08: TIM_DOM_START_LO -/
def TIM_DOM_START_LO (i : Nat) : Nat := 0x188003 + 0x10 * i
def TIM_DOM_START_LO_start_lo : Fld := ⟨0, 32⟩
/-- 08: TIM_DOM_START_HI -/
def TIM_DOM_START_HI (i : Nat) : Nat := 0x188004 + 0x10 * i
def TIM_DOM_START_HI_start_hi : Fld := ⟨0, 32⟩
/-- 08: TIM_DOM_DISC -/
def TIM_DOM_DISC (i : Nat) : Nat := 0x188005 + 0x10 * i
def TIM_DOM_DISC_count : Fld := ⟨0, 32⟩
/-- 08: TIM_DOM_DISC_SEEN -/
def TIM_DOM_DISC_SEEN (i : Nat) : Nat := 0x188006 + 0x10 * i
def TIM_DOM_DISC_SEEN_seen : Fld := ⟨0, 32⟩
/-- 08: TIM_DOM_SEAL -/
def TIM_DOM_SEAL (i : Nat) : Nat := 0x188007 + 0x10 * i
def TIM_DOM_SEAL_clock : Fld := ⟨0, 1⟩

/-- The group timDom of TIM. -/
def grp_timDom : Grp := ⟨6, 0x20000, 0x40, 0, 3, 0x40, 0xf,
  [⟨0, 1, 0x107, 0x0, 0x1⟩,
   ⟨1, 1, 0x0, 0x0, 0x0⟩,
   ⟨2, 1, 0x0, 0x0, 0x0⟩,
   ⟨3, 1, 0xffffffff, 0x0, 0x0⟩,
   ⟨4, 1, 0xffffffff, 0x0, 0x0⟩,
   ⟨5, 1, 0x0, 0x0, 0x0⟩,
   ⟨6, 1, 0xffffffff, 0x0, 0x0⟩,
   ⟨7, 1, 0x0, 0x1, 0x0⟩],
  4096, []⟩

/-! ### TIM: timTs -/

/-- 11: TIM_TS_CORR -/
def TIM_TS_CORR (j : Nat) : Nat := 0x18c000 + j
def TIM_TS_CORR_egress : Fld := ⟨16, 16⟩
def TIM_TS_CORR_ingress : Fld := ⟨0, 16⟩
/-- 11: TIM_PTP_CFG -/
def TIM_PTP_CFG : Nat := 0x18c008
def TIM_PTP_CFG_port_mask : Fld := ⟨0, 8⟩
/-- 11: TIM_TS_OVF -/
def TIM_TS_OVF : Nat := 0x18c009
def TIM_TS_OVF_count : Fld := ⟨0, 32⟩
/-- 11: TIM_TS_OVF_SEEN -/
def TIM_TS_OVF_SEEN : Nat := 0x18c00a
def TIM_TS_OVF_SEEN_seen : Fld := ⟨0, 32⟩

/-- The group timTs of TIM. -/
def grp_timTs : Grp := ⟨6, 0x30000, 0x0, 0, 1, 0x40, 0xf,
  [⟨0, 8, 0xffffffff, 0x0, 0x0⟩,
   ⟨8, 1, 0xff, 0x0, 0x0⟩,
   ⟨9, 1, 0x0, 0x0, 0x0⟩,
   ⟨10, 1, 0xffffffff, 0x0, 0x0⟩],
  4096, []⟩

/-! ### TWN: twnGlb -/

/-- 12: TWN_CFG -/
def TWN_CFG : Nat := 0x1c0000
def TWN_CFG_dax1_mute : Fld := ⟨7, 1⟩
def TWN_CFG_own_enable : Fld := ⟨6, 1⟩
def TWN_CFG_own_domain : Fld := ⟨4, 2⟩
def TWN_CFG_role : Fld := ⟨2, 1⟩
def TWN_CFG_mode : Fld := ⟨0, 2⟩
/-- 12: TWN_SEAL -/
def TWN_SEAL : Nat := 0x1c0001
def TWN_SEAL_role : Fld := ⟨0, 1⟩
/-- 12: TWN_CTRL -/
def TWN_CTRL : Nat := 0x1c0002
def TWN_CTRL_release : Fld := ⟨2, 1⟩
def TWN_CTRL_rejoin : Fld := ⟨1, 1⟩
def TWN_CTRL_withdraw : Fld := ⟨0, 1⟩
/-- 12: TWN_STATUS -/
def TWN_STATUS : Nat := 0x1c0003
def TWN_STATUS_refusal : Fld := ⟨16, 4⟩
def TWN_STATUS_cause : Fld := ⟨12, 4⟩
def TWN_STATUS_arbiter_seen : Fld := ⟨8, 1⟩
def TWN_STATUS_sole : Fld := ⟨7, 1⟩
def TWN_STATUS_diverge : Fld := ⟨6, 1⟩
def TWN_STATUS_own_in : Fld := ⟨5, 1⟩
def TWN_STATUS_owner : Fld := ⟨4, 1⟩
def TWN_STATUS_accused : Fld := ⟨3, 1⟩
def TWN_STATUS_on_air : Fld := ⟨2, 1⟩
def TWN_STATUS_peer : Fld := ⟨0, 2⟩
/-- 12: TWN_INT_EN -/
def TWN_INT_EN : Nat := 0x1c0004
def TWN_INT_EN_condition : Fld := ⟨5, 1⟩
def TWN_INT_EN_own_change : Fld := ⟨4, 1⟩
def TWN_INT_EN_accuse : Fld := ⟨3, 1⟩
def TWN_INT_EN_missing : Fld := ⟨2, 1⟩
def TWN_INT_EN_diverge : Fld := ⟨1, 1⟩
def TWN_INT_EN_mismatch : Fld := ⟨0, 1⟩
/-- 12: TWN_DIV_AT -/
def TWN_DIV_AT : Nat := 0x1c0005
def TWN_DIV_AT_domain : Fld := ⟨12, 2⟩
def TWN_DIV_AT_d_slot : Fld := ⟨0, 12⟩
/-- 12: TWN_MISMATCH -/
def TWN_MISMATCH : Nat := 0x1c0006
def TWN_MISMATCH_count : Fld := ⟨0, 32⟩
/-- 12: TWN_MISMATCH_SEEN -/
def TWN_MISMATCH_SEEN : Nat := 0x1c0007
def TWN_MISMATCH_SEEN_seen : Fld := ⟨0, 32⟩
/-- 12: TWN_DIVERGE -/
def TWN_DIVERGE : Nat := 0x1c0008
def TWN_DIVERGE_count : Fld := ⟨0, 32⟩
/-- 12: TWN_DIVERGE_SEEN -/
def TWN_DIVERGE_SEEN : Nat := 0x1c0009
def TWN_DIVERGE_SEEN_seen : Fld := ⟨0, 32⟩
/-- 12: TWN_MISSING -/
def TWN_MISSING : Nat := 0x1c000a
def TWN_MISSING_count : Fld := ⟨0, 32⟩
/-- 12: TWN_MISSING_SEEN -/
def TWN_MISSING_SEEN : Nat := 0x1c000b
def TWN_MISSING_SEEN_seen : Fld := ⟨0, 32⟩
/-- 12: TWN_ACCUSE -/
def TWN_ACCUSE : Nat := 0x1c000c
def TWN_ACCUSE_count : Fld := ⟨0, 32⟩
/-- 12: TWN_ACCUSE_SEEN -/
def TWN_ACCUSE_SEEN : Nat := 0x1c000d
def TWN_ACCUSE_SEEN_seen : Fld := ⟨0, 32⟩
/-- 12: TWN_OWN_CHANGE -/
def TWN_OWN_CHANGE : Nat := 0x1c000e
def TWN_OWN_CHANGE_count : Fld := ⟨0, 32⟩
/-- 12: TWN_OWN_CHANGE_SEEN -/
def TWN_OWN_CHANGE_SEEN : Nat := 0x1c000f
def TWN_OWN_CHANGE_SEEN_seen : Fld := ⟨0, 32⟩

/-- The group twnGlb of TWN. -/
def grp_twnGlb : Grp := ⟨7, 0x0, 0x0, 0, 1, 0x100, 0x3f,
  [⟨0, 1, 0xf7, 0x0, 0x10⟩,
   ⟨1, 1, 0x0, 0x1, 0x0⟩,
   ⟨2, 1, 0x0, 0x0, 0x0⟩,
   ⟨3, 1, 0x0, 0x0, 0x0⟩,
   ⟨4, 1, 0x3f, 0x0, 0x0⟩,
   ⟨5, 1, 0x0, 0x0, 0x0⟩,
   ⟨6, 1, 0x0, 0x0, 0x0⟩,
   ⟨7, 1, 0xffffffff, 0x0, 0x0⟩,
   ⟨8, 1, 0x0, 0x0, 0x0⟩,
   ⟨9, 1, 0xffffffff, 0x0, 0x0⟩,
   ⟨10, 1, 0x0, 0x0, 0x0⟩,
   ⟨11, 1, 0xffffffff, 0x0, 0x0⟩,
   ⟨12, 1, 0x0, 0x0, 0x0⟩,
   ⟨13, 1, 0xffffffff, 0x0, 0x0⟩,
   ⟨14, 1, 0x0, 0x0, 0x0⟩,
   ⟨15, 1, 0xffffffff, 0x0, 0x0⟩],
  4, [(4, 14), (3, 12), (2, 10), (1, 8), (0, 6)]⟩

/-! ### TWN: twnRot -/

/-- 12: TWN_ROT_STATUS -/
def TWN_ROT_STATUS : Nat := 0x1c4000
def TWN_ROT_STATUS_kind : Fld := ⟨24, 2⟩
def TWN_ROT_STATUS_spare : Fld := ⟨17, 7⟩
def TWN_ROT_STATUS_logical : Fld := ⟨11, 6⟩
def TWN_ROT_STATUS_phase : Fld := ⟨0, 3⟩
/-- 12: TWN_ROT_SCHED -/
def TWN_ROT_SCHED : Nat := 0x1c4001
def TWN_ROT_SCHED_enable : Fld := ⟨31, 1⟩
def TWN_ROT_SCHED_kinds : Fld := ⟨16, 3⟩
def TWN_ROT_SCHED_period_h : Fld := ⟨0, 16⟩
/-- 12: TWN_ROT_MAP -/
def TWN_ROT_MAP (j : Nat) : Nat := 0x1c4040 + j
def TWN_ROT_MAP_strip : Fld := ⟨16, 6⟩
def TWN_ROT_MAP_tile : Fld := ⟨0, 7⟩

/-- The group twnRot of TWN. -/
def grp_twnRot : Grp := ⟨7, 0x10000, 0x0, 0, 1, 0x200, 0x7f,
  [⟨0, 1, 0x0, 0x0, 0x0⟩,
   ⟨1, 1, 0x8007ffff, 0x0, 0xa8⟩,
   ⟨64, 64, 0x0, 0x0, 0x0⟩],
  4096, []⟩

/-! ### PRT: prtSide -/

/-- 08: PRT_SIDE_CFG -/
def PRT_SIDE_CFG (i : Nat) : Nat := 0x200000 + prtSideBase i / 4 + 0
def PRT_SIDE_CFG_enable : Fld := ⟨31, 1⟩
def PRT_SIDE_CFG_dither : Fld := ⟨30, 1⟩
def PRT_SIDE_CFG_domain : Fld := ⟨28, 2⟩
def PRT_SIDE_CFG_master : Fld := ⟨27, 1⟩
def PRT_SIDE_CFG_format : Fld := ⟨26, 1⟩
def PRT_SIDE_CFG_slot : Fld := ⟨24, 2⟩
/-- 08: PRT_SIDE_MASK -/
def PRT_SIDE_MASK (i : Nat) : Nat := 0x200000 + prtSideBase i / 4 + 1
def PRT_SIDE_MASK_right : Fld := ⟨1, 1⟩
def PRT_SIDE_MASK_left : Fld := ⟨0, 1⟩
/-- 08: PRT_SIDE_STATUS -/
def PRT_SIDE_STATUS (i : Nat) : Nat := 0x200000 + prtSideBase i / 4 + 2
def PRT_SIDE_STATUS_phase : Fld := ⟨16, 8⟩
def PRT_SIDE_STATUS_marginal : Fld := ⟨15, 1⟩
def PRT_SIDE_STATUS_good_frames : Fld := ⟨8, 4⟩
def PRT_SIDE_STATUS_muted : Fld := ⟨4, 1⟩
def PRT_SIDE_STATUS_state : Fld := ⟨0, 3⟩
/-- 08: PRT_SIDE_RATE -/
def PRT_SIDE_RATE (i : Nat) : Nat := 0x200000 + prtSideBase i / 4 + 3
def PRT_SIDE_RATE_rate_centihz : Fld := ⟨0, 32⟩
/-- 08: PRT_SIDE_INT_EN -/
def PRT_SIDE_INT_EN (i : Nat) : Nat := 0x200000 + prtSideBase i / 4 + 4
def PRT_SIDE_INT_EN_state : Fld := ⟨6, 1⟩
def PRT_SIDE_INT_EN_sat : Fld := ⟨5, 1⟩
def PRT_SIDE_INT_EN_parity : Fld := ⟨4, 1⟩
def PRT_SIDE_INT_EN_absent : Fld := ⟨3, 1⟩
def PRT_SIDE_INT_EN_mismatch : Fld := ⟨2, 1⟩
def PRT_SIDE_INT_EN_slip : Fld := ⟨1, 1⟩
def PRT_SIDE_INT_EN_glitch : Fld := ⟨0, 1⟩
/-- 08: PRT_SIDE_SEED_LO -/
def PRT_SIDE_SEED_LO (i : Nat) : Nat := 0x200000 + prtSideBase i / 4 + 6
def PRT_SIDE_SEED_LO_seed_lo : Fld := ⟨0, 32⟩
/-- 08: PRT_SIDE_SEED_HI -/
def PRT_SIDE_SEED_HI (i : Nat) : Nat := 0x200000 + prtSideBase i / 4 + 7
def PRT_SIDE_SEED_HI_seed_hi : Fld := ⟨0, 32⟩
/-- 08: PRT_SIDE_GLITCH -/
def PRT_SIDE_GLITCH (i : Nat) : Nat := 0x200000 + prtSideBase i / 4 + 8
def PRT_SIDE_GLITCH_count : Fld := ⟨0, 32⟩
/-- 08: PRT_SIDE_GLITCH_SEEN -/
def PRT_SIDE_GLITCH_SEEN (i : Nat) : Nat := 0x200000 + prtSideBase i / 4 + 9
def PRT_SIDE_GLITCH_SEEN_seen : Fld := ⟨0, 32⟩
/-- 08: PRT_SIDE_SLIP -/
def PRT_SIDE_SLIP (i : Nat) : Nat := 0x200000 + prtSideBase i / 4 + 10
def PRT_SIDE_SLIP_count : Fld := ⟨0, 32⟩
/-- 08: PRT_SIDE_SLIP_SEEN -/
def PRT_SIDE_SLIP_SEEN (i : Nat) : Nat := 0x200000 + prtSideBase i / 4 + 11
def PRT_SIDE_SLIP_SEEN_seen : Fld := ⟨0, 32⟩
/-- 08: PRT_SIDE_MISMATCH -/
def PRT_SIDE_MISMATCH (i : Nat) : Nat := 0x200000 + prtSideBase i / 4 + 12
def PRT_SIDE_MISMATCH_count : Fld := ⟨0, 32⟩
/-- 08: PRT_SIDE_MISMATCH_SEEN -/
def PRT_SIDE_MISMATCH_SEEN (i : Nat) : Nat := 0x200000 + prtSideBase i / 4 + 13
def PRT_SIDE_MISMATCH_SEEN_seen : Fld := ⟨0, 32⟩
/-- 08: PRT_SIDE_ABSENT -/
def PRT_SIDE_ABSENT (i : Nat) : Nat := 0x200000 + prtSideBase i / 4 + 14
def PRT_SIDE_ABSENT_count : Fld := ⟨0, 32⟩
/-- 08: PRT_SIDE_ABSENT_SEEN -/
def PRT_SIDE_ABSENT_SEEN (i : Nat) : Nat := 0x200000 + prtSideBase i / 4 + 15
def PRT_SIDE_ABSENT_SEEN_seen : Fld := ⟨0, 32⟩
/-- 08: PRT_SIDE_PARITY -/
def PRT_SIDE_PARITY (i : Nat) : Nat := 0x200000 + prtSideBase i / 4 + 16
def PRT_SIDE_PARITY_count : Fld := ⟨0, 32⟩
/-- 08: PRT_SIDE_PARITY_SEEN -/
def PRT_SIDE_PARITY_SEEN (i : Nat) : Nat := 0x200000 + prtSideBase i / 4 + 17
def PRT_SIDE_PARITY_SEEN_seen : Fld := ⟨0, 32⟩
/-- 08: PRT_SIDE_SAT -/
def PRT_SIDE_SAT (i : Nat) : Nat := 0x200000 + prtSideBase i / 4 + 18
def PRT_SIDE_SAT_count : Fld := ⟨0, 32⟩
/-- 08: PRT_SIDE_SAT_SEEN -/
def PRT_SIDE_SAT_SEEN (i : Nat) : Nat := 0x200000 + prtSideBase i / 4 + 19
def PRT_SIDE_SAT_SEEN_seen : Fld := ⟨0, 32⟩

/-- The group prtSide of PRT. -/
def grp_prtSide : Grp := ⟨8, 0x0, 0x80, 0, 96, 0x80, 0x1f,
  [⟨0, 1, 0xff000000, 0x0, 0x1000000⟩,
   ⟨1, 1, 0x3, 0x0, 0x3⟩,
   ⟨2, 1, 0x0, 0x0, 0x10⟩,
   ⟨3, 1, 0x0, 0x0, 0x0⟩,
   ⟨4, 1, 0x7f, 0x0, 0x0⟩,
   ⟨6, 1, 0xffffffff, 0x0, 0x0⟩,
   ⟨7, 1, 0xffffffff, 0x0, 0x0⟩,
   ⟨8, 1, 0x0, 0x0, 0x0⟩,
   ⟨9, 1, 0xffffffff, 0x0, 0x0⟩,
   ⟨10, 1, 0x0, 0x0, 0x0⟩,
   ⟨11, 1, 0xffffffff, 0x0, 0x0⟩,
   ⟨12, 1, 0x0, 0x0, 0x0⟩,
   ⟨13, 1, 0xffffffff, 0x0, 0x0⟩,
   ⟨14, 1, 0x0, 0x0, 0x0⟩,
   ⟨15, 1, 0xffffffff, 0x0, 0x0⟩,
   ⟨16, 1, 0x0, 0x0, 0x0⟩,
   ⟨17, 1, 0xffffffff, 0x0, 0x0⟩,
   ⟨18, 1, 0x0, 0x0, 0x0⟩,
   ⟨19, 1, 0xffffffff, 0x0, 0x0⟩],
  4, [(5, 18), (4, 16), (3, 14), (2, 12), (1, 10), (0, 8)]⟩

/-! ### PRT: prtBr -/

/-- 08: PRT_BR_CTRL -/
def PRT_BR_CTRL (i : Nat) : Nat := 0x201800 + 0x8 * i
def PRT_BR_CTRL_stop : Fld := ⟨1, 1⟩
def PRT_BR_CTRL_start : Fld := ⟨0, 1⟩
/-- 08: PRT_BR_CFG -/
def PRT_BR_CFG (i : Nat) : Nat := 0x201801 + 0x8 * i
def PRT_BR_CFG_in_domain : Fld := ⟨30, 2⟩
def PRT_BR_CFG_out_domain : Fld := ⟨28, 2⟩
def PRT_BR_CFG_in_dslot : Fld := ⟨12, 1⟩
def PRT_BR_CFG_in_slot : Fld := ⟨0, 12⟩
/-- 08: PRT_BR_START_LO -/
def PRT_BR_START_LO (i : Nat) : Nat := 0x201802 + 0x8 * i
def PRT_BR_START_LO_start_lo : Fld := ⟨0, 32⟩
/-- 08: PRT_BR_START_HI -/
def PRT_BR_START_HI (i : Nat) : Nat := 0x201803 + 0x8 * i
def PRT_BR_START_HI_start_hi : Fld := ⟨0, 32⟩
/-- 08: PRT_BR_STATUS -/
def PRT_BR_STATUS (i : Nat) : Nat := 0x201804 + 0x8 * i
def PRT_BR_STATUS_latency : Fld := ⟨16, 9⟩
def PRT_BR_STATUS_refusal : Fld := ⟨4, 4⟩
def PRT_BR_STATUS_ext_ratio : Fld := ⟨3, 1⟩
def PRT_BR_STATUS_async : Fld := ⟨2, 1⟩
def PRT_BR_STATUS_state : Fld := ⟨0, 2⟩
/-- 08: PRT_BR_RATIO_LATE -/
def PRT_BR_RATIO_LATE (i : Nat) : Nat := 0x201805 + 0x8 * i
def PRT_BR_RATIO_LATE_count : Fld := ⟨0, 32⟩
/-- 08: PRT_BR_RATIO_LATE_SEEN -/
def PRT_BR_RATIO_LATE_SEEN (i : Nat) : Nat := 0x201806 + 0x8 * i
def PRT_BR_RATIO_LATE_SEEN_seen : Fld := ⟨0, 32⟩

/-- The group prtBr of PRT. -/
def grp_prtBr : Grp := ⟨8, 0x6000, 0x20, 0, 256, 0x20, 0x7,
  [⟨0, 1, 0x0, 0x0, 0x0⟩,
   ⟨1, 1, 0xf0001fff, 0x0, 0x0⟩,
   ⟨2, 1, 0xffffffff, 0x0, 0x0⟩,
   ⟨3, 1, 0xffffffff, 0x0, 0x0⟩,
   ⟨4, 1, 0x0, 0x0, 0x0⟩,
   ⟨5, 1, 0x0, 0x0, 0x0⟩,
   ⟨6, 1, 0xffffffff, 0x0, 0x0⟩],
  4096, []⟩

/-! ### PRT: prtGp -/

/-- 08: PRT_GP_CFG -/
def PRT_GP_CFG (i : Nat) : Nat := 0x202000 + 0x4 * i
def PRT_GP_CFG_debounce : Fld := ⟨8, 8⟩
def PRT_GP_CFG_open_drain : Fld := ⟨4, 1⟩
def PRT_GP_CFG_invert : Fld := ⟨3, 1⟩
def PRT_GP_CFG_function : Fld := ⟨0, 3⟩
/-- 08: PRT_GP_ARG -/
def PRT_GP_ARG (i : Nat) : Nat := 0x202001 + 0x4 * i
def PRT_GP_ARG_lead_or_d : Fld := ⟨16, 16⟩
def PRT_GP_ARG_domain : Fld := ⟨14, 2⟩
def PRT_GP_ARG_scene_s_sent : Fld := ⟨0, 12⟩

/-- The group prtGp of PRT. -/
def grp_prtGp : Grp := ⟨8, 0x8000, 0x10, 0, 32, 0x10, 0x1,
  [⟨0, 1, 0xff1f, 0x0, 0x0⟩,
   ⟨1, 1, 0xffffcfff, 0x0, 0x0⟩],
  4096, []⟩

/-! ### PRT: prtGlb -/

/-- 08: PRT_GP_IN -/
def PRT_GP_IN : Nat := 0x202400
def PRT_GP_IN_level : Fld := ⟨0, 32⟩
/-- 08: PRT_GP_OUT -/
def PRT_GP_OUT : Nat := 0x202401
def PRT_GP_OUT_level : Fld := ⟨0, 32⟩
/-- 08: PRT_GP_SENT_CLR -/
def PRT_GP_SENT_CLR : Nat := 0x202402
def PRT_GP_SENT_CLR_clear : Fld := ⟨0, 32⟩
/-- 08: PRT_SLIP_CFG -/
def PRT_SLIP_CFG : Nat := 0x202403
def PRT_SLIP_CFG_window : Fld := ⟨0, 32⟩
/-- 08: PRT_BR_SAT -/
def PRT_BR_SAT : Nat := 0x202404
def PRT_BR_SAT_count : Fld := ⟨0, 32⟩
/-- 08: PRT_BR_SAT_SEEN -/
def PRT_BR_SAT_SEEN : Nat := 0x202405
def PRT_BR_SAT_SEEN_seen : Fld := ⟨0, 32⟩
/-- 08: PRT_GLB_INT_EN -/
def PRT_GLB_INT_EN : Nat := 0x202406
def PRT_GLB_INT_EN_br_sat : Fld := ⟨0, 1⟩

/-- The group prtGlb of PRT. -/
def grp_prtGlb : Grp := ⟨8, 0x9000, 0x0, 0, 1, 0x20, 0x7,
  [⟨0, 1, 0x0, 0x0, 0x0⟩,
   ⟨1, 1, 0xffffffff, 0x0, 0x0⟩,
   ⟨2, 1, 0x0, 0x0, 0x0⟩,
   ⟨3, 1, 0xffffffff, 0x0, 0xbb80⟩,
   ⟨4, 1, 0x0, 0x0, 0x0⟩,
   ⟨5, 1, 0xffffffff, 0x0, 0x0⟩,
   ⟨6, 1, 0x1, 0x0, 0x0⟩],
  6, [(0, 4)]⟩

/-! ### PRT: prtWclk -/

/-- 11: PRT_WCLK_OUT_CFG -/
def PRT_WCLK_OUT_CFG (j : Nat) : Nat := 0x202800 + j
def PRT_WCLK_OUT_CFG_enable : Fld := ⟨31, 1⟩
def PRT_WCLK_OUT_CFG_domain : Fld := ⟨28, 2⟩
def PRT_WCLK_OUT_CFG_invert : Fld := ⟨0, 1⟩
/-- 11: PRT_PPS_CFG -/
def PRT_PPS_CFG : Nat := 0x202802
def PRT_PPS_CFG_enable : Fld := ⟨31, 1⟩
def PRT_PPS_CFG_locked_only : Fld := ⟨30, 1⟩
def PRT_PPS_CFG_width_ms : Fld := ⟨0, 10⟩
/-- 11: PRT_MCLK_CFG -/
def PRT_MCLK_CFG (j : Nat) : Nat := 0x202804 + j
def PRT_MCLK_CFG_enable : Fld := ⟨31, 1⟩
def PRT_MCLK_CFG_domain : Fld := ⟨28, 2⟩
def PRT_MCLK_CFG_refused : Fld := ⟨8, 1⟩
def PRT_MCLK_CFG_multiple : Fld := ⟨0, 2⟩
/-- 11: PRT_PPS_IN -/
def PRT_PPS_IN : Nat := 0x202808
def PRT_PPS_IN_count : Fld := ⟨0, 32⟩
/-- 11: PRT_PPS_IN_SEEN -/
def PRT_PPS_IN_SEEN : Nat := 0x202809
def PRT_PPS_IN_SEEN_seen : Fld := ⟨0, 32⟩

/-- The group prtWclk of PRT. -/
def grp_prtWclk : Grp := ⟨8, 0xa000, 0x0, 0, 1, 0x40, 0xf,
  [⟨0, 2, 0xb0000001, 0x0, 0x0⟩,
   ⟨2, 1, 0xc00003ff, 0x0, 0x64⟩,
   ⟨4, 4, 0xb0000003, 0x0, 0x1⟩,
   ⟨8, 1, 0x0, 0x0, 0x0⟩,
   ⟨9, 1, 0xffffffff, 0x0, 0x0⟩],
  4096, []⟩

/-! ### NET: netPort -/

/-- 09: NET_PORT_STATUS -/
def NET_PORT_STATUS (i : Nat) : Nat := 0x240000 + 0x400 * i
def NET_PORT_STATUS_present : Fld := ⟨3, 1⟩
def NET_PORT_STATUS_fec_lock : Fld := ⟨2, 1⟩
def NET_PORT_STATUS_fault : Fld := ⟨1, 1⟩
def NET_PORT_STATUS_up : Fld := ⟨0, 1⟩
/-- 09: NET_PORT_INT_EN -/
def NET_PORT_INT_EN (i : Nat) : Nat := 0x240001 + 0x400 * i
def NET_PORT_INT_EN_fec_uncorr : Fld := ⟨2, 1⟩
def NET_PORT_INT_EN_drop : Fld := ⟨1, 1⟩
def NET_PORT_INT_EN_link_down : Fld := ⟨0, 1⟩
/-- 09: NET_PORT_MAC_LO -/
def NET_PORT_MAC_LO (i : Nat) : Nat := 0x240002 + 0x400 * i
def NET_PORT_MAC_LO_mac_lo : Fld := ⟨0, 32⟩
/-- 09: NET_PORT_MAC_HI -/
def NET_PORT_MAC_HI (i : Nat) : Nat := 0x240003 + 0x400 * i
def NET_PORT_MAC_HI_mac_hi : Fld := ⟨0, 16⟩
/-- 09: NET_PORT_IPV4 -/
def NET_PORT_IPV4 (i : Nat) : Nat := 0x240004 + 0x400 * i
def NET_PORT_IPV4_addr : Fld := ⟨0, 32⟩
/-- 09: NET_PORT_IPV6 -/
def NET_PORT_IPV6 (i : Nat) (j : Nat) : Nat := 0x240005 + 0x400 * i + j
def NET_PORT_IPV6_addr : Fld := ⟨0, 32⟩
/-- 09: NET_PORT_LINK_DOWN -/
def NET_PORT_LINK_DOWN (i : Nat) : Nat := 0x240009 + 0x400 * i
def NET_PORT_LINK_DOWN_count : Fld := ⟨0, 32⟩
/-- 09: NET_PORT_LINK_DOWN_SEEN -/
def NET_PORT_LINK_DOWN_SEEN (i : Nat) : Nat := 0x24000a + 0x400 * i
def NET_PORT_LINK_DOWN_SEEN_seen : Fld := ⟨0, 32⟩
/-- 09: NET_PORT_DROP -/
def NET_PORT_DROP (i : Nat) : Nat := 0x24000b + 0x400 * i
def NET_PORT_DROP_count : Fld := ⟨0, 32⟩
/-- 09: NET_PORT_DROP_SEEN -/
def NET_PORT_DROP_SEEN (i : Nat) : Nat := 0x24000c + 0x400 * i
def NET_PORT_DROP_SEEN_seen : Fld := ⟨0, 32⟩
/-- 09: NET_PORT_FEC_UNCORR -/
def NET_PORT_FEC_UNCORR (i : Nat) : Nat := 0x24000d + 0x400 * i
def NET_PORT_FEC_UNCORR_count : Fld := ⟨0, 32⟩
/-- 09: NET_PORT_FEC_UNCORR_SEEN -/
def NET_PORT_FEC_UNCORR_SEEN (i : Nat) : Nat := 0x24000e + 0x400 * i
def NET_PORT_FEC_UNCORR_SEEN_seen : Fld := ⟨0, 32⟩

/-- The group netPort of NET. -/
def grp_netPort : Grp := ⟨9, 0x0, 0x1000, 0, 8, 0x40, 0xf,
  [⟨0, 1, 0x0, 0x0, 0x0⟩,
   ⟨1, 1, 0x7, 0x0, 0x0⟩,
   ⟨2, 1, 0xffffffff, 0x0, 0x0⟩,
   ⟨3, 1, 0xffff, 0x0, 0x0⟩,
   ⟨4, 1, 0xffffffff, 0x0, 0x0⟩,
   ⟨5, 4, 0xffffffff, 0x0, 0x0⟩,
   ⟨9, 1, 0x0, 0x0, 0x0⟩,
   ⟨10, 1, 0xffffffff, 0x0, 0x0⟩,
   ⟨11, 1, 0x0, 0x0, 0x0⟩,
   ⟨12, 1, 0xffffffff, 0x0, 0x0⟩,
   ⟨13, 1, 0x0, 0x0, 0x0⟩,
   ⟨14, 1, 0xffffffff, 0x0, 0x0⟩],
  1, [(2, 13), (1, 11), (0, 9)]⟩

/-! ### NET: netRxf -/

/-- 09: NET_RXF_CTRL -/
def NET_RXF_CTRL (i : Nat) : Nat := 0x244000 + 0x10 * i
def NET_RXF_CTRL_stop : Fld := ⟨1, 1⟩
def NET_RXF_CTRL_start : Fld := ⟨0, 1⟩
/-- 09: NET_RXF_CFG -/
def NET_RXF_CFG (i : Nat) : Nat := 0x244001 + 0x10 * i
def NET_RXF_CFG_domain : Fld := ⟨30, 2⟩
def NET_RXF_CFG_l16 : Fld := ⟨29, 1⟩
def NET_RXF_CFG_ssrc_match : Fld := ⟨28, 1⟩
def NET_RXF_CFG_leg_en : Fld := ⟨26, 2⟩
def NET_RXF_CFG_payload_type : Fld := ⟨19, 7⟩
def NET_RXF_CFG_channels : Fld := ⟨12, 7⟩
def NET_RXF_CFG_map_base : Fld := ⟨0, 12⟩
/-- 09: NET_RXF_TIMING -/
def NET_RXF_TIMING (i : Nat) : Nat := 0x244002 + 0x10 * i
def NET_RXF_TIMING_spp : Fld := ⟨16, 9⟩
def NET_RXF_TIMING_offset_us : Fld := ⟨0, 15⟩
/-- 09: NET_RXF_SSRC -/
def NET_RXF_SSRC (i : Nat) : Nat := 0x244003 + 0x10 * i
def NET_RXF_SSRC_value : Fld := ⟨0, 32⟩
/-- 09: NET_RXF_STATUS -/
def NET_RXF_STATUS (i : Nat) : Nat := 0x244004 + 0x10 * i
def NET_RXF_STATUS_refusal : Fld := ⟨8, 4⟩
def NET_RXF_STATUS_conflict : Fld := ⟨5, 1⟩
def NET_RXF_STATUS_leg1_up : Fld := ⟨4, 1⟩
def NET_RXF_STATUS_leg0_up : Fld := ⟨3, 1⟩
def NET_RXF_STATUS_receiving : Fld := ⟨2, 1⟩
def NET_RXF_STATUS_state : Fld := ⟨0, 2⟩
/-- 09: NET_RXF_INT_EN -/
def NET_RXF_INT_EN (i : Nat) : Nat := 0x244005 + 0x10 * i
def NET_RXF_INT_EN_bad : Fld := ⟨4, 1⟩
def NET_RXF_INT_EN_early : Fld := ⟨3, 1⟩
def NET_RXF_INT_EN_dup : Fld := ⟨2, 1⟩
def NET_RXF_INT_EN_late_drop : Fld := ⟨1, 1⟩
def NET_RXF_INT_EN_empty_sat : Fld := ⟨0, 1⟩
/-- 09: NET_RXF_LATE -/
def NET_RXF_LATE (i : Nat) : Nat := 0x244006 + 0x10 * i
def NET_RXF_LATE_value : Fld := ⟨0, 32⟩
/-- 09: NET_RXF_LATE_SEEN -/
def NET_RXF_LATE_SEEN (i : Nat) : Nat := 0x244007 + 0x10 * i
def NET_RXF_LATE_SEEN_value : Fld := ⟨0, 32⟩
/-- 09: NET_RXF_EMPTY -/
def NET_RXF_EMPTY (i : Nat) : Nat := 0x244008 + 0x10 * i
def NET_RXF_EMPTY_value : Fld := ⟨0, 32⟩
/-- 09: NET_RXF_EMPTY_SEEN -/
def NET_RXF_EMPTY_SEEN (i : Nat) : Nat := 0x244009 + 0x10 * i
def NET_RXF_EMPTY_SEEN_value : Fld := ⟨0, 32⟩
/-- 09: NET_RXF_DUP -/
def NET_RXF_DUP (i : Nat) : Nat := 0x24400a + 0x10 * i
def NET_RXF_DUP_value : Fld := ⟨0, 32⟩
/-- 09: NET_RXF_DUP_SEEN -/
def NET_RXF_DUP_SEEN (i : Nat) : Nat := 0x24400b + 0x10 * i
def NET_RXF_DUP_SEEN_value : Fld := ⟨0, 32⟩
/-- 09: NET_RXF_EARLY -/
def NET_RXF_EARLY (i : Nat) : Nat := 0x24400c + 0x10 * i
def NET_RXF_EARLY_value : Fld := ⟨0, 32⟩
/-- 09: NET_RXF_EARLY_SEEN -/
def NET_RXF_EARLY_SEEN (i : Nat) : Nat := 0x24400d + 0x10 * i
def NET_RXF_EARLY_SEEN_value : Fld := ⟨0, 32⟩
/-- 09: NET_RXF_BAD -/
def NET_RXF_BAD (i : Nat) : Nat := 0x24400e + 0x10 * i
def NET_RXF_BAD_value : Fld := ⟨0, 32⟩
/-- 09: NET_RXF_BAD_SEEN -/
def NET_RXF_BAD_SEEN (i : Nat) : Nat := 0x24400f + 0x10 * i
def NET_RXF_BAD_SEEN_value : Fld := ⟨0, 32⟩

/-- The group netRxf of NET. -/
def grp_netRxf : Grp := ⟨9, 0x10000, 0x40, 0, 1024, 0x40, 0xf,
  [⟨0, 1, 0x0, 0x0, 0x0⟩,
   ⟨1, 1, 0xffffffff, 0x0, 0x3088000⟩,
   ⟨2, 1, 0x1ff7fff, 0x0, 0x3007d0⟩,
   ⟨3, 1, 0xffffffff, 0x0, 0x0⟩,
   ⟨4, 1, 0x0, 0x0, 0x0⟩,
   ⟨5, 1, 0x1f, 0x0, 0x0⟩,
   ⟨6, 1, 0x0, 0x0, 0x0⟩,
   ⟨7, 1, 0xffffffff, 0x0, 0x0⟩,
   ⟨8, 1, 0x0, 0x0, 0x0⟩,
   ⟨9, 1, 0xffffffff, 0x0, 0x0⟩,
   ⟨10, 1, 0x0, 0x0, 0x0⟩,
   ⟨11, 1, 0xffffffff, 0x0, 0x0⟩,
   ⟨12, 1, 0x0, 0x0, 0x0⟩,
   ⟨13, 1, 0xffffffff, 0x0, 0x0⟩,
   ⟨14, 1, 0x0, 0x0, 0x0⟩,
   ⟨15, 1, 0xffffffff, 0x0, 0x0⟩],
  5, [(4, 14), (3, 12), (2, 10), (1, 6), (0, 8)]⟩

/-! ### NET: netTxf -/

/-- 09: NET_TXF_CTRL -/
def NET_TXF_CTRL (i : Nat) : Nat := 0x248000 + 0x10 * i
def NET_TXF_CTRL_stop : Fld := ⟨1, 1⟩
def NET_TXF_CTRL_start : Fld := ⟨0, 1⟩
/-- 09: NET_TXF_CFG -/
def NET_TXF_CFG (i : Nat) : Nat := 0x248001 + 0x10 * i
def NET_TXF_CFG_domain : Fld := ⟨30, 2⟩
def NET_TXF_CFG_l16 : Fld := ⟨29, 1⟩
def NET_TXF_CFG_dither : Fld := ⟨28, 1⟩
def NET_TXF_CFG_leg_en : Fld := ⟨26, 2⟩
def NET_TXF_CFG_payload_type : Fld := ⟨19, 7⟩
def NET_TXF_CFG_channels : Fld := ⟨12, 7⟩
def NET_TXF_CFG_map_base : Fld := ⟨0, 12⟩
/-- 09: NET_TXF_PKT -/
def NET_TXF_PKT (i : Nat) : Nat := 0x248002 + 0x10 * i
def NET_TXF_PKT_seq_base : Fld := ⟨16, 16⟩
def NET_TXF_PKT_spp : Fld := ⟨0, 9⟩
/-- 09: NET_TXF_SSRC -/
def NET_TXF_SSRC (i : Nat) : Nat := 0x248003 + 0x10 * i
def NET_TXF_SSRC_value : Fld := ⟨0, 32⟩
/-- 09: NET_TXF_STATUS -/
def NET_TXF_STATUS (i : Nat) : Nat := 0x248004 + 0x10 * i
def NET_TXF_STATUS_refusal : Fld := ⟨8, 4⟩
def NET_TXF_STATUS_state : Fld := ⟨0, 2⟩
/-- 09: NET_TXF_INT_EN -/
def NET_TXF_INT_EN (i : Nat) : Nat := 0x248005 + 0x10 * i
def NET_TXF_INT_EN_bad : Fld := ⟨4, 1⟩
def NET_TXF_INT_EN_early : Fld := ⟨3, 1⟩
def NET_TXF_INT_EN_dup : Fld := ⟨2, 1⟩
def NET_TXF_INT_EN_late_drop : Fld := ⟨1, 1⟩
def NET_TXF_INT_EN_empty_sat : Fld := ⟨0, 1⟩
/-- 09: NET_TXF_SEED_LO -/
def NET_TXF_SEED_LO (i : Nat) : Nat := 0x248006 + 0x10 * i
def NET_TXF_SEED_LO_value : Fld := ⟨0, 32⟩
/-- 09: NET_TXF_SEED_HI -/
def NET_TXF_SEED_HI (i : Nat) : Nat := 0x248007 + 0x10 * i
def NET_TXF_SEED_HI_value : Fld := ⟨0, 32⟩
/-- 09: NET_TXF_SAT -/
def NET_TXF_SAT (i : Nat) : Nat := 0x248008 + 0x10 * i
def NET_TXF_SAT_value : Fld := ⟨0, 32⟩
/-- 09: NET_TXF_SAT_SEEN -/
def NET_TXF_SAT_SEEN (i : Nat) : Nat := 0x248009 + 0x10 * i
def NET_TXF_SAT_SEEN_value : Fld := ⟨0, 32⟩
/-- 09: NET_TXF_DROP -/
def NET_TXF_DROP (i : Nat) : Nat := 0x24800a + 0x10 * i
def NET_TXF_DROP_value : Fld := ⟨0, 32⟩
/-- 09: NET_TXF_DROP_SEEN -/
def NET_TXF_DROP_SEEN (i : Nat) : Nat := 0x24800b + 0x10 * i
def NET_TXF_DROP_SEEN_value : Fld := ⟨0, 32⟩

/-- The group netTxf of NET. -/
def grp_netTxf : Grp := ⟨9, 0x20000, 0x40, 0, 1024, 0x40, 0xf,
  [⟨0, 1, 0x0, 0x0, 0x0⟩,
   ⟨1, 1, 0xffffffff, 0x0, 0x3088000⟩,
   ⟨2, 1, 0xffff01ff, 0x0, 0x30⟩,
   ⟨3, 1, 0xffffffff, 0x0, 0x0⟩,
   ⟨4, 1, 0x0, 0x0, 0x0⟩,
   ⟨5, 1, 0x1f, 0x0, 0x0⟩,
   ⟨6, 1, 0xffffffff, 0x0, 0x0⟩,
   ⟨7, 1, 0xffffffff, 0x0, 0x0⟩,
   ⟨8, 1, 0x0, 0x0, 0x0⟩,
   ⟨9, 1, 0xffffffff, 0x0, 0x0⟩,
   ⟨10, 1, 0x0, 0x0, 0x0⟩,
   ⟨11, 1, 0xffffffff, 0x0, 0x0⟩],
  5, [(1, 10), (0, 8)]⟩

/-! ### NET: netRxLeg -/

/-- 09: NET_RXLEG -/
def NET_RXLEG (i : Nat) (j : Nat) : Nat := 0x250000 + 0x10 * i + j
def NET_RXLEG_word : Fld := ⟨0, 32⟩

/-- The group netRxLeg of NET. -/
def grp_netRxLeg : Grp := ⟨9, 0x40000, 0x40, 0, 2048, 0x40, 0xf,
  [⟨0, 16, 0xffffffff, 0x0, 0x0⟩],
  4096, []⟩

/-! ### NET: netTxLeg -/

/-- 09: NET_TXLEG -/
def NET_TXLEG (i : Nat) (j : Nat) : Nat := 0x258000 + 0x10 * i + j
def NET_TXLEG_word : Fld := ⟨0, 32⟩

/-- The group netTxLeg of NET. -/
def grp_netTxLeg : Grp := ⟨9, 0x60000, 0x40, 0, 2048, 0x40, 0xf,
  [⟨0, 16, 0xffffffff, 0x0, 0x0⟩],
  4096, []⟩

/-! ### NET: netMap -/

/-- 09: NET_MAP -/
def NET_MAP (j : Nat) : Nat := 0x260000 + j
def NET_MAP_channel : Fld := ⟨0, 12⟩

/-- The group netMap of NET. -/
def grp_netMap : Grp := ⟨9, 0x80000, 0x0, 0, 1, 0x8000, 0x1fff,
  [⟨0, 8192, 0x0, 0x0, 0x0⟩],
  4096, []⟩

/-! ### NET: netGlb -/

/-- 09: NET_GRP_CFG -/
def NET_GRP_CFG (j : Nat) : Nat := 0x270000 + j
def NET_GRP_CFG_enable : Fld := ⟨31, 1⟩
def NET_GRP_CFG_jumbo : Fld := ⟨9, 1⟩
def NET_GRP_CFG_fec : Fld := ⟨4, 2⟩
def NET_GRP_CFG_mode : Fld := ⟨0, 2⟩
/-- 09: NET_MGMT_CFG -/
def NET_MGMT_CFG : Nat := 0x270004
def NET_MGMT_CFG_enable : Fld := ⟨31, 1⟩
def NET_MGMT_CFG_port_mask : Fld := ⟨16, 8⟩
def NET_MGMT_CFG_udp_port : Fld := ⟨0, 16⟩
/-- 09: NET_MGMT_ALLOW -/
def NET_MGMT_ALLOW (j : Nat) : Nat := 0x270010 + j
def NET_MGMT_ALLOW_word : Fld := ⟨0, 32⟩

/-- The group netGlb of NET. -/
def grp_netGlb : Grp := ⟨9, 0xc0000, 0x0, 0, 1, 0x100, 0x3f,
  [⟨0, 2, 0x80000233, 0x0, 0x23⟩,
   ⟨4, 1, 0x80ffffff, 0x0, 0xffcb84⟩,
   ⟨16, 32, 0xffffffff, 0x0, 0x0⟩],
  4096, []⟩

/-! ### DAX: daxLink -/

/-- 10: DAX_LINK_CFG -/
def DAX_LINK_CFG (i : Nat) : Nat := 0x280000 + 0x400 * i
def DAX_LINK_CFG_enable : Fld := ⟨31, 1⟩
def DAX_LINK_CFG_forward : Fld := ⟨30, 1⟩
def DAX_LINK_CFG_peer_check : Fld := ⟨29, 1⟩
def DAX_LINK_CFG_peer_id : Fld := ⟨14, 14⟩
/-- 10: DAX_LINK_STATUS -/
def DAX_LINK_STATUS (i : Nat) : Nat := 0x280001 + 0x400 * i
def DAX_LINK_STATUS_peer_seen : Fld := ⟨16, 14⟩
def DAX_LINK_STATUS_over_budget : Fld := ⟨11, 1⟩
def DAX_LINK_STATUS_id_mismatch : Fld := ⟨10, 1⟩
def DAX_LINK_STATUS_delay_warn : Fld := ⟨9, 1⟩
def DAX_LINK_STATUS_aligned : Fld := ⟨8, 1⟩
def DAX_LINK_STATUS_lane_lock : Fld := ⟨4, 4⟩
def DAX_LINK_STATUS_state : Fld := ⟨0, 3⟩
/-- 10: DAX_WAKE -/
def DAX_WAKE (i : Nat) : Nat := 0x280002 + 0x400 * i
def DAX_WAKE_duration_us : Fld := ⟨16, 10⟩
def DAX_WAKE_detected : Fld := ⟨1, 1⟩
def DAX_WAKE_send : Fld := ⟨0, 1⟩
/-- 10: DAX_LINK_INT_EN -/
def DAX_LINK_INT_EN (i : Nat) : Nat := 0x280003 + 0x400 * i
def DAX_LINK_INT_EN_state : Fld := ⟨7, 1⟩
def DAX_LINK_INT_EN_sat : Fld := ⟨6, 1⟩
def DAX_LINK_INT_EN_msg_drop : Fld := ⟨5, 1⟩
def DAX_LINK_INT_EN_block_err : Fld := ⟨4, 1⟩
def DAX_LINK_INT_EN_index : Fld := ⟨3, 1⟩
def DAX_LINK_INT_EN_late : Fld := ⟨2, 1⟩
def DAX_LINK_INT_EN_crc : Fld := ⟨1, 1⟩
def DAX_LINK_INT_EN_link_down : Fld := ⟨0, 1⟩
/-- 10: DAX_LINK_DELAY -/
def DAX_LINK_DELAY (i : Nat) : Nat := 0x280004 + 0x400 * i
def DAX_LINK_DELAY_delay_ns : Fld := ⟨0, 32⟩
/-- 10: DAX_TBL_STATUS -/
def DAX_TBL_STATUS (i : Nat) : Nat := 0x280005 + 0x400 * i
def DAX_TBL_STATUS_refusal : Fld := ⟨0, 4⟩
/-- 10: DAX_SAT -/
def DAX_SAT (i : Nat) : Nat := 0x280006 + 0x400 * i
def DAX_SAT_count : Fld := ⟨0, 32⟩
/-- 10: DAX_SAT_SEEN -/
def DAX_SAT_SEEN (i : Nat) : Nat := 0x280007 + 0x400 * i
def DAX_SAT_SEEN_seen : Fld := ⟨0, 32⟩
/-- 10: DAX_LINK_DOWN -/
def DAX_LINK_DOWN (i : Nat) : Nat := 0x280008 + 0x400 * i
def DAX_LINK_DOWN_count : Fld := ⟨0, 32⟩
/-- 10: DAX_LINK_DOWN_SEEN -/
def DAX_LINK_DOWN_SEEN (i : Nat) : Nat := 0x280009 + 0x400 * i
def DAX_LINK_DOWN_SEEN_seen : Fld := ⟨0, 32⟩
/-- 10: DAX_CRC -/
def DAX_CRC (i : Nat) : Nat := 0x28000a + 0x400 * i
def DAX_CRC_count : Fld := ⟨0, 32⟩
/-- 10: DAX_CRC_SEEN -/
def DAX_CRC_SEEN (i : Nat) : Nat := 0x28000b + 0x400 * i
def DAX_CRC_SEEN_seen : Fld := ⟨0, 32⟩
/-- 10: DAX_LATE -/
def DAX_LATE (i : Nat) : Nat := 0x28000c + 0x400 * i
def DAX_LATE_count : Fld := ⟨0, 32⟩
/-- 10: DAX_LATE_SEEN -/
def DAX_LATE_SEEN (i : Nat) : Nat := 0x28000d + 0x400 * i
def DAX_LATE_SEEN_seen : Fld := ⟨0, 32⟩
/-- 10: DAX_INDEX -/
def DAX_INDEX (i : Nat) : Nat := 0x28000e + 0x400 * i
def DAX_INDEX_count : Fld := ⟨0, 32⟩
/-- 10: DAX_INDEX_SEEN -/
def DAX_INDEX_SEEN (i : Nat) : Nat := 0x28000f + 0x400 * i
def DAX_INDEX_SEEN_seen : Fld := ⟨0, 32⟩
/-- 10: DAX_BLOCK_ERR -/
def DAX_BLOCK_ERR (i : Nat) : Nat := 0x280010 + 0x400 * i
def DAX_BLOCK_ERR_count : Fld := ⟨0, 32⟩
/-- 10: DAX_BLOCK_ERR_SEEN -/
def DAX_BLOCK_ERR_SEEN (i : Nat) : Nat := 0x280011 + 0x400 * i
def DAX_BLOCK_ERR_SEEN_seen : Fld := ⟨0, 32⟩
/-- 10: DAX_MSG_DROP -/
def DAX_MSG_DROP (i : Nat) : Nat := 0x280012 + 0x400 * i
def DAX_MSG_DROP_count : Fld := ⟨0, 32⟩
/-- 10: DAX_MSG_DROP_SEEN -/
def DAX_MSG_DROP_SEEN (i : Nat) : Nat := 0x280013 + 0x400 * i
def DAX_MSG_DROP_SEEN_seen : Fld := ⟨0, 32⟩

/-- The group daxLink of DAX. -/
def grp_daxLink : Grp := ⟨10, 0x0, 0x1000, 0, 2, 0x100, 0x3f,
  [⟨0, 1, 0xefffc000, 0x0, 0x0⟩,
   ⟨1, 1, 0x0, 0x0, 0x0⟩,
   ⟨2, 1, 0x3ff0000, 0x0, 0xa0000⟩,
   ⟨3, 1, 0xff, 0x0, 0x0⟩,
   ⟨4, 1, 0x0, 0x0, 0x0⟩,
   ⟨5, 1, 0x0, 0x0, 0x0⟩,
   ⟨6, 1, 0x0, 0x0, 0x0⟩,
   ⟨7, 1, 0xffffffff, 0x0, 0x0⟩,
   ⟨8, 1, 0x0, 0x0, 0x0⟩,
   ⟨9, 1, 0xffffffff, 0x0, 0x0⟩,
   ⟨10, 1, 0x0, 0x0, 0x0⟩,
   ⟨11, 1, 0xffffffff, 0x0, 0x0⟩,
   ⟨12, 1, 0x0, 0x0, 0x0⟩,
   ⟨13, 1, 0xffffffff, 0x0, 0x0⟩,
   ⟨14, 1, 0x0, 0x0, 0x0⟩,
   ⟨15, 1, 0xffffffff, 0x0, 0x0⟩,
   ⟨16, 1, 0x0, 0x0, 0x0⟩,
   ⟨17, 1, 0xffffffff, 0x0, 0x0⟩,
   ⟨18, 1, 0x0, 0x0, 0x0⟩,
   ⟨19, 1, 0xffffffff, 0x0, 0x0⟩],
  3, [(6, 6), (5, 18), (4, 16), (3, 14), (2, 12), (1, 10), (0, 8)]⟩

/-! ### DAX: daxTxmap -/

/-- 10: DAX_TXMAP -/
def DAX_TXMAP (i : Nat) (j : Nat) : Nat := 0x284000 + 0x2000 * i + j
def DAX_TXMAP_valid : Fld := ⟨31, 1⟩
def DAX_TXMAP_entry : Fld := ⟨0, 14⟩

/-- The group daxTxmap of DAX. -/
def grp_daxTxmap : Grp := ⟨10, 0x10000, 0x8000, 0, 2, 0x8000, 0x1fff,
  [⟨0, 8192, 0x80003fff, 0x0, 0x0⟩],
  4096, []⟩

/-! ### DAX: daxPs -/

/-- 10: DAX_PS -/
def DAX_PS (i : Nat) (j : Nat) : Nat := 0x288000 + 0x1000 * i + j
def DAX_PS_valid : Fld := ⟨31, 1⟩
def DAX_PS_tx : Fld := ⟨30, 1⟩
def DAX_PS_channel : Fld := ⟨16, 13⟩
def DAX_PS_d_slot : Fld := ⟨0, 12⟩

/-- The group daxPs of DAX. -/
def grp_daxPs : Grp := ⟨10, 0x20000, 0x4000, 0, 2, 0x4000, 0xfff,
  [⟨0, 4096, 0xdfff0fff, 0x0, 0x0⟩],
  4096, []⟩

/-! ### DAX: daxGlb -/

/-- 10: DAX_ID -/
def DAX_ID : Nat := 0x2a0000
def DAX_ID_engine_id : Fld := ⟨0, 14⟩

/-- The group daxGlb of DAX. -/
def grp_daxGlb : Grp := ⟨10, 0x80000, 0x0, 0, 1, 0x10, 0x3,
  [⟨0, 1, 0x3fff, 0x0, 0x0⟩],
  4096, []⟩

/-! ### STR: strUnit -/

/-- 05: STR_UNIT_STATUS -/
def STR_UNIT_STATUS (i : Nat) : Nat := 0x2c0000 + 0x400 * i
def STR_UNIT_STATUS_units : Fld := ⟨16, 9⟩
def STR_UNIT_STATUS_late : Fld := ⟨8, 1⟩
def STR_UNIT_STATUS_logical : Fld := ⟨2, 5⟩
def STR_UNIT_STATUS_role : Fld := ⟨0, 2⟩
/-- 05: STR_UNIT_INT_EN -/
def STR_UNIT_INT_EN (i : Nat) : Nat := 0x2c0001 + 0x400 * i
def STR_UNIT_INT_EN_ue : Fld := ⟨3, 1⟩
def STR_UNIT_INT_EN_dly_late : Fld := ⟨2, 1⟩
def STR_UNIT_INT_EN_sat : Fld := ⟨1, 1⟩
def STR_UNIT_INT_EN_late : Fld := ⟨0, 1⟩
/-- 05: STR_UNIT_LATE -/
def STR_UNIT_LATE (i : Nat) : Nat := 0x2c0002 + 0x400 * i
def STR_UNIT_LATE_count : Fld := ⟨0, 32⟩
/-- 05: STR_UNIT_LATE_SEEN -/
def STR_UNIT_LATE_SEEN (i : Nat) : Nat := 0x2c0003 + 0x400 * i
def STR_UNIT_LATE_SEEN_seen : Fld := ⟨0, 32⟩
/-- 05: STR_UNIT_SAT -/
def STR_UNIT_SAT (i : Nat) : Nat := 0x2c0004 + 0x400 * i
def STR_UNIT_SAT_count : Fld := ⟨0, 32⟩
/-- 05: STR_UNIT_SAT_SEEN -/
def STR_UNIT_SAT_SEEN (i : Nat) : Nat := 0x2c0005 + 0x400 * i
def STR_UNIT_SAT_SEEN_seen : Fld := ⟨0, 32⟩
/-- 05: STR_UNIT_DLY_LATE -/
def STR_UNIT_DLY_LATE (i : Nat) : Nat := 0x2c0006 + 0x400 * i
def STR_UNIT_DLY_LATE_count : Fld := ⟨0, 32⟩
/-- 05: STR_UNIT_DLY_LATE_SEEN -/
def STR_UNIT_DLY_LATE_SEEN (i : Nat) : Nat := 0x2c0007 + 0x400 * i
def STR_UNIT_DLY_LATE_SEEN_seen : Fld := ⟨0, 32⟩
/-- 05: STR_UNIT_UE -/
def STR_UNIT_UE (i : Nat) : Nat := 0x2c0008 + 0x400 * i
def STR_UNIT_UE_count : Fld := ⟨0, 32⟩
/-- 05: STR_UNIT_UE_SEEN -/
def STR_UNIT_UE_SEEN (i : Nat) : Nat := 0x2c0009 + 0x400 * i
def STR_UNIT_UE_SEEN_seen : Fld := ⟨0, 32⟩

/-- The group strUnit of STR. -/
def grp_strUnit : Grp := ⟨11, 0x0, 0x1000, 0, 34, 0x40, 0xf,
  [⟨0, 1, 0x0, 0x0, 0x0⟩,
   ⟨1, 1, 0xf, 0x0, 0x0⟩,
   ⟨2, 1, 0x0, 0x0, 0x0⟩,
   ⟨3, 1, 0xffffffff, 0x0, 0x0⟩,
   ⟨4, 1, 0x0, 0x0, 0x0⟩,
   ⟨5, 1, 0xffffffff, 0x0, 0x0⟩,
   ⟨6, 1, 0x0, 0x0, 0x0⟩,
   ⟨7, 1, 0xffffffff, 0x0, 0x0⟩,
   ⟨8, 1, 0x0, 0x0, 0x0⟩,
   ⟨9, 1, 0xffffffff, 0x0, 0x0⟩],
  1, [(3, 8), (2, 6), (1, 4), (0, 2)]⟩

/-! ### STR: strGlb -/

/-- 05: STR_MTR_CFG -/
def STR_MTR_CFG : Nat := 0x2e0000
def STR_MTR_CFG_enable : Fld := ⟨31, 1⟩
def STR_MTR_CFG_depth : Fld := ⟨16, 4⟩
def STR_MTR_CFG_rate_hz : Fld := ⟨0, 11⟩
/-- 05: STR_MTR_BASE -/
def STR_MTR_BASE : Nat := 0x2e0001
def STR_MTR_BASE_base : Fld := ⟨0, 32⟩
/-- 05: STR_MTR_SEQ -/
def STR_MTR_SEQ : Nat := 0x2e0002
def STR_MTR_SEQ_count : Fld := ⟨0, 32⟩
/-- 05: STR_MTR_SEQ_SEEN -/
def STR_MTR_SEQ_SEEN : Nat := 0x2e0003
def STR_MTR_SEQ_SEEN_seen : Fld := ⟨0, 32⟩
/-- 05: STR_DLY_BASE_LO -/
def STR_DLY_BASE_LO : Nat := 0x2e0004
def STR_DLY_BASE_LO_base_lo : Fld := ⟨0, 32⟩
/-- 05: STR_DLY_BASE_HI -/
def STR_DLY_BASE_HI : Nat := 0x2e0005
def STR_DLY_BASE_HI_base_hi : Fld := ⟨0, 32⟩
/-- 05: STR_DLY_REGIONS -/
def STR_DLY_REGIONS : Nat := 0x2e0006
def STR_DLY_REGIONS_regions : Fld := ⟨0, 32⟩
/-- 05: STR_ARC_BASE_LO -/
def STR_ARC_BASE_LO : Nat := 0x2e0007
def STR_ARC_BASE_LO_base_lo : Fld := ⟨0, 32⟩
/-- 05: STR_ARC_BASE_HI -/
def STR_ARC_BASE_HI : Nat := 0x2e0008
def STR_ARC_BASE_HI_base_hi : Fld := ⟨0, 32⟩
/-- 05: STR_ARC_SIZE -/
def STR_ARC_SIZE : Nat := 0x2e0009
def STR_ARC_SIZE_size_mib : Fld := ⟨0, 18⟩
/-- 05: STR_ARC_CTRL -/
def STR_ARC_CTRL : Nat := 0x2e000a
def STR_ARC_CTRL_enable : Fld := ⟨0, 1⟩
/-- 05: STR_ARC_DEPTH -/
def STR_ARC_DEPTH : Nat := 0x2e000b
def STR_ARC_DEPTH_depth : Fld := ⟨0, 32⟩
/-- 05: STR_ARC_DROP -/
def STR_ARC_DROP : Nat := 0x2e000c
def STR_ARC_DROP_count : Fld := ⟨0, 32⟩
/-- 05: STR_ARC_DROP_SEEN -/
def STR_ARC_DROP_SEEN : Nat := 0x2e000d
def STR_ARC_DROP_SEEN_seen : Fld := ⟨0, 32⟩
/-- 05: STR_PB_LATE -/
def STR_PB_LATE : Nat := 0x2e000e
def STR_PB_LATE_count : Fld := ⟨0, 32⟩
/-- 05: STR_PB_LATE_SEEN -/
def STR_PB_LATE_SEEN : Nat := 0x2e000f
def STR_PB_LATE_SEEN_seen : Fld := ⟨0, 32⟩
/-- 05: STR_LG_BASE -/
def STR_LG_BASE : Nat := 0x2e0010
def STR_LG_BASE_base : Fld := ⟨0, 32⟩
/-- 05: STR_LG_RESET -/
def STR_LG_RESET : Nat := 0x2e0011
def STR_LG_RESET_reset : Fld := ⟨16, 1⟩
def STR_LG_RESET_group : Fld := ⟨0, 9⟩
/-- 05: STR_INT_EN -/
def STR_INT_EN : Nat := 0x2e0012
def STR_INT_EN_arc_sat : Fld := ⟨3, 1⟩
def STR_INT_EN_pb_late : Fld := ⟨2, 1⟩
def STR_INT_EN_arc_drop : Fld := ⟨1, 1⟩
def STR_INT_EN_mtr_frame : Fld := ⟨0, 1⟩
/-- 05: STR_ARC_SAT -/
def STR_ARC_SAT : Nat := 0x2e0013
def STR_ARC_SAT_count : Fld := ⟨0, 32⟩
/-- 05: STR_ARC_SAT_SEEN -/
def STR_ARC_SAT_SEEN : Nat := 0x2e0014
def STR_ARC_SAT_SEEN_seen : Fld := ⟨0, 32⟩

/-- The group strGlb of STR. -/
def grp_strGlb : Grp := ⟨11, 0x80000, 0x0, 0, 1, 0x80, 0x1f,
  [⟨0, 1, 0x800f07ff, 0x0, 0x2000a⟩,
   ⟨1, 1, 0xffffffff, 0x0, 0x0⟩,
   ⟨2, 1, 0x0, 0x0, 0x0⟩,
   ⟨3, 1, 0xffffffff, 0x0, 0x0⟩,
   ⟨4, 1, 0xffffffff, 0x0, 0x0⟩,
   ⟨5, 1, 0xffffffff, 0x0, 0x0⟩,
   ⟨6, 1, 0xffffffff, 0x0, 0x0⟩,
   ⟨7, 1, 0xffffffff, 0x0, 0x0⟩,
   ⟨8, 1, 0xffffffff, 0x0, 0x0⟩,
   ⟨9, 1, 0x3ffff, 0x0, 0x0⟩,
   ⟨10, 1, 0x1, 0x0, 0x0⟩,
   ⟨11, 1, 0x0, 0x0, 0x0⟩,
   ⟨12, 1, 0x0, 0x0, 0x0⟩,
   ⟨13, 1, 0xffffffff, 0x0, 0x0⟩,
   ⟨14, 1, 0x0, 0x0, 0x0⟩,
   ⟨15, 1, 0xffffffff, 0x0, 0x0⟩,
   ⟨16, 1, 0xffffffff, 0x0, 0x0⟩,
   ⟨17, 1, 0x1ff, 0x0, 0x0⟩,
   ⟨18, 1, 0xf, 0x0, 0x0⟩,
   ⟨19, 1, 0x0, 0x0, 0x0⟩,
   ⟨20, 1, 0xffffffff, 0x0, 0x0⟩],
  18, [(3, 19), (2, 14), (1, 12), (0, 2)]⟩

/-! ### STR: strPb -/

/-- 05: STR_PB_CTRL -/
def STR_PB_CTRL (i : Nat) : Nat := 0x2e4000 + 0x10 * i
def STR_PB_CTRL_stop : Fld := ⟨1, 1⟩
def STR_PB_CTRL_arm : Fld := ⟨0, 1⟩
/-- 05: STR_PB_SRC -/
def STR_PB_SRC (i : Nat) : Nat := 0x2e4001 + 0x10 * i
def STR_PB_SRC_domain : Fld := ⟨12, 2⟩
def STR_PB_SRC_s_slot : Fld := ⟨0, 12⟩
/-- 05: STR_PB_FROM_LO -/
def STR_PB_FROM_LO (i : Nat) : Nat := 0x2e4002 + 0x10 * i
def STR_PB_FROM_LO_from_lo : Fld := ⟨0, 32⟩
/-- 05: STR_PB_FROM_HI -/
def STR_PB_FROM_HI (i : Nat) : Nat := 0x2e4003 + 0x10 * i
def STR_PB_FROM_HI_from_hi : Fld := ⟨0, 32⟩
/-- 05: STR_PB_START_LO -/
def STR_PB_START_LO (i : Nat) : Nat := 0x2e4004 + 0x10 * i
def STR_PB_START_LO_start_lo : Fld := ⟨0, 32⟩
/-- 05: STR_PB_START_HI -/
def STR_PB_START_HI (i : Nat) : Nat := 0x2e4005 + 0x10 * i
def STR_PB_START_HI_start_hi : Fld := ⟨0, 32⟩
/-- 05: STR_PB_LEN -/
def STR_PB_LEN (i : Nat) : Nat := 0x2e4006 + 0x10 * i
def STR_PB_LEN_length : Fld := ⟨0, 32⟩
/-- 05: STR_PB_STATUS -/
def STR_PB_STATUS (i : Nat) : Nat := 0x2e4007 + 0x10 * i
def STR_PB_STATUS_refusal : Fld := ⟨8, 4⟩
def STR_PB_STATUS_late : Fld := ⟨2, 1⟩
def STR_PB_STATUS_state : Fld := ⟨0, 2⟩

/-- The group strPb of STR. -/
def grp_strPb : Grp := ⟨11, 0x90000, 0x40, 0, 64, 0x40, 0xf,
  [⟨0, 1, 0x0, 0x0, 0x0⟩,
   ⟨1, 1, 0x3fff, 0x0, 0x0⟩,
   ⟨2, 1, 0xffffffff, 0x0, 0x0⟩,
   ⟨3, 1, 0xffffffff, 0x0, 0x0⟩,
   ⟨4, 1, 0xffffffff, 0x0, 0x0⟩,
   ⟨5, 1, 0xffffffff, 0x0, 0x0⟩,
   ⟨6, 1, 0xffffffff, 0x0, 0x0⟩,
   ⟨7, 1, 0x0, 0x0, 0x0⟩],
  4096, []⟩

/-! ### SCN: scnGlb -/

/-- 04: SCN_GEN -/
def SCN_GEN (j : Nat) : Nat := 0x300000 + j
def SCN_GEN_claimed : Fld := ⟨16, 16⟩
def SCN_GEN_hold : Fld := ⟨8, 1⟩
def SCN_GEN_last_claimed : Fld := ⟨4, 4⟩
def SCN_GEN_committed : Fld := ⟨0, 4⟩
/-- 04: SCN_GEN_CLAIM -/
def SCN_GEN_CLAIM : Nat := 0x300003
def SCN_GEN_CLAIM_domain : Fld := ⟨8, 2⟩
def SCN_GEN_CLAIM_tag : Fld := ⟨4, 4⟩
def SCN_GEN_CLAIM_ok : Fld := ⟨1, 1⟩
def SCN_GEN_CLAIM_claim : Fld := ⟨0, 1⟩
/-- 04: SCN_REC_W0_LO -/
def SCN_REC_W0_LO : Nat := 0x300004
def SCN_REC_W0_LO_w0_lo : Fld := ⟨0, 32⟩
/-- 04: SCN_REC_W0_HI -/
def SCN_REC_W0_HI : Nat := 0x300005
def SCN_REC_W0_HI_w0_hi : Fld := ⟨0, 32⟩
/-- 04: SCN_REC_W1_LO -/
def SCN_REC_W1_LO : Nat := 0x300006
def SCN_REC_W1_LO_w1_lo : Fld := ⟨0, 32⟩
/-- 04: SCN_REC_W1_HI -/
def SCN_REC_W1_HI : Nat := 0x300007
def SCN_REC_W1_HI_w1_hi : Fld := ⟨0, 32⟩
/-- 04: SCN_REC_CMD -/
def SCN_REC_CMD : Nat := 0x300008
def SCN_REC_CMD_status : Fld := ⟨12, 4⟩
def SCN_REC_CMD_busy : Fld := ⟨8, 1⟩
def SCN_REC_CMD_gen : Fld := ⟨4, 4⟩
def SCN_REC_CMD_stage : Fld := ⟨0, 1⟩
/-- 04: SCN_CMT_CTRL -/
def SCN_CMT_CTRL : Nat := 0x300009
def SCN_CMT_CTRL_gen : Fld := ⟨8, 4⟩
def SCN_CMT_CTRL_domain : Fld := ⟨4, 2⟩
def SCN_CMT_CTRL_expire : Fld := ⟨3, 1⟩
def SCN_CMT_CTRL_mode : Fld := ⟨1, 2⟩
def SCN_CMT_CTRL_commit : Fld := ⟨0, 1⟩
/-- 04: SCN_CMT_T0 -/
def SCN_CMT_T0 : Nat := 0x30000a
def SCN_CMT_T0_t0 : Fld := ⟨0, 32⟩
/-- 04: SCN_CMT_T1 -/
def SCN_CMT_T1 : Nat := 0x30000b
def SCN_CMT_T1_t1 : Fld := ⟨0, 32⟩
/-- 04: SCN_CMT_T2 -/
def SCN_CMT_T2 : Nat := 0x30000c
def SCN_CMT_T2_t2 : Fld := ⟨0, 32⟩
/-- 04: SCN_CMT_TICKET -/
def SCN_CMT_TICKET : Nat := 0x30000d
def SCN_CMT_TICKET_ticket : Fld := ⟨0, 32⟩
/-- 04: SCN_CMT_STATUS -/
def SCN_CMT_STATUS : Nat := 0x30000e
def SCN_CMT_STATUS_status : Fld := ⟨12, 4⟩
def SCN_CMT_STATUS_busy : Fld := ⟨8, 1⟩
/-- 04: SCN_PATCH_CFG -/
def SCN_PATCH_CFG : Nat := 0x30000f
def SCN_PATCH_CFG_default_xfade : Fld := ⟨0, 13⟩
/-- 04: SCN_PATCH_DEFER -/
def SCN_PATCH_DEFER : Nat := 0x300010
def SCN_PATCH_DEFER_high_water : Fld := ⟨16, 9⟩
def SCN_PATCH_DEFER_entries : Fld := ⟨0, 9⟩
/-- 04: SCN_VAULT_BASE_LO -/
def SCN_VAULT_BASE_LO : Nat := 0x300011
def SCN_VAULT_BASE_LO_base_lo : Fld := ⟨0, 32⟩
/-- 04: SCN_VAULT_BASE_HI -/
def SCN_VAULT_BASE_HI : Nat := 0x300012
def SCN_VAULT_BASE_HI_base_hi : Fld := ⟨0, 32⟩
/-- 04: SCN_VAULT_SIZE -/
def SCN_VAULT_SIZE : Nat := 0x300013
def SCN_VAULT_SIZE_size_mib : Fld := ⟨0, 18⟩
/-- 04: SCN_INT_EN -/
def SCN_INT_EN : Nat := 0x300014
def SCN_INT_EN_stall : Fld := ⟨3, 1⟩
def SCN_INT_EN_refused : Fld := ⟨2, 1⟩
def SCN_INT_EN_expired : Fld := ⟨1, 1⟩
def SCN_INT_EN_late : Fld := ⟨0, 1⟩
/-- 04: SCN_LATE -/
def SCN_LATE : Nat := 0x300015
def SCN_LATE_count : Fld := ⟨0, 32⟩
/-- 04: SCN_LATE_SEEN -/
def SCN_LATE_SEEN : Nat := 0x300016
def SCN_LATE_SEEN_seen : Fld := ⟨0, 32⟩
/-- 04: SCN_EXPIRED -/
def SCN_EXPIRED : Nat := 0x300017
def SCN_EXPIRED_count : Fld := ⟨0, 32⟩
/-- 04: SCN_EXPIRED_SEEN -/
def SCN_EXPIRED_SEEN : Nat := 0x300018
def SCN_EXPIRED_SEEN_seen : Fld := ⟨0, 32⟩
/-- 04: SCN_REFUSED -/
def SCN_REFUSED : Nat := 0x300019
def SCN_REFUSED_count : Fld := ⟨0, 32⟩
/-- 04: SCN_REFUSED_SEEN -/
def SCN_REFUSED_SEEN : Nat := 0x30001a
def SCN_REFUSED_SEEN_seen : Fld := ⟨0, 32⟩
/-- 04: SCN_PATCH_STALL -/
def SCN_PATCH_STALL : Nat := 0x30001b
def SCN_PATCH_STALL_count : Fld := ⟨0, 32⟩
/-- 04: SCN_PATCH_STALL_SEEN -/
def SCN_PATCH_STALL_SEEN : Nat := 0x30001c
def SCN_PATCH_STALL_SEEN_seen : Fld := ⟨0, 32⟩
/-- 04: SCN_LOADER -/
def SCN_LOADER : Nat := 0x30001d
def SCN_LOADER_waiting : Fld := ⟨8, 8⟩
def SCN_LOADER_loading : Fld := ⟨0, 8⟩
/-- 04: SCN_LATENESS -/
def SCN_LATENESS : Nat := 0x30001e
def SCN_LATENESS_lateness : Fld := ⟨0, 32⟩
/-- 04: SCN_DIR -/
def SCN_DIR : Nat := 0x30001f
def SCN_DIR_valid_scenes : Fld := ⟨0, 13⟩

/-- The group scnGlb of SCN. -/
def grp_scnGlb : Grp := ⟨12, 0x0, 0x0, 0, 1, 0x100, 0x1f,
  [⟨0, 3, 0x0, 0x0, 0x0⟩,
   ⟨3, 1, 0x300, 0x0, 0x0⟩,
   ⟨4, 1, 0xffffffff, 0x0, 0x0⟩,
   ⟨5, 1, 0xffffffff, 0x0, 0x0⟩,
   ⟨6, 1, 0xffffffff, 0x0, 0x0⟩,
   ⟨7, 1, 0xffffffff, 0x0, 0x0⟩,
   ⟨8, 1, 0xf0, 0x0, 0x0⟩,
   ⟨9, 1, 0xf3e, 0x0, 0x0⟩,
   ⟨10, 1, 0xffffffff, 0x0, 0x0⟩,
   ⟨11, 1, 0xffffffff, 0x0, 0x0⟩,
   ⟨12, 1, 0xffffffff, 0x0, 0x0⟩,
   ⟨13, 1, 0x0, 0x0, 0x0⟩,
   ⟨14, 1, 0x0, 0x0, 0x0⟩,
   ⟨15, 1, 0x1fff, 0x0, 0xf0⟩,
   ⟨16, 1, 0x0, 0x0, 0x0⟩,
   ⟨17, 1, 0xffffffff, 0x0, 0x0⟩,
   ⟨18, 1, 0xffffffff, 0x0, 0x0⟩,
   ⟨19, 1, 0x3ffff, 0x0, 0x0⟩,
   ⟨20, 1, 0xf, 0x0, 0x0⟩,
   ⟨21, 1, 0x0, 0x0, 0x0⟩,
   ⟨22, 1, 0xffffffff, 0x0, 0x0⟩,
   ⟨23, 1, 0x0, 0x0, 0x0⟩,
   ⟨24, 1, 0xffffffff, 0x0, 0x0⟩,
   ⟨25, 1, 0x0, 0x0, 0x0⟩,
   ⟨26, 1, 0xffffffff, 0x0, 0x0⟩,
   ⟨27, 1, 0x0, 0x0, 0x0⟩,
   ⟨28, 1, 0xffffffff, 0x0, 0x0⟩,
   ⟨29, 1, 0x0, 0x0, 0x0⟩,
   ⟨30, 1, 0x0, 0x0, 0x0⟩,
   ⟨31, 1, 0x0, 0x0, 0x0⟩],
  20, [(3, 27), (2, 25), (1, 23), (0, 21)]⟩

/-! ### GAL: galTile -/

/-- 03: GAL_TILE_STATUS -/
def GAL_TILE_STATUS (i : Nat) : Nat := 0x340000 + 0x400 * i
def GAL_TILE_STATUS_clk_ok : Fld := ⟨24, 1⟩
def GAL_TILE_STATUS_units : Fld := ⟨16, 8⟩
def GAL_TILE_STATUS_late : Fld := ⟨9, 1⟩
def GAL_TILE_STATUS_failed : Fld := ⟨8, 1⟩
def GAL_TILE_STATUS_logical : Fld := ⟨2, 6⟩
def GAL_TILE_STATUS_role : Fld := ⟨0, 2⟩
/-- 03: GAL_TILE_USE -/
def GAL_TILE_USE (i : Nat) : Nat := 0x340001 + 0x400 * i
def GAL_TILE_USE_linked_reserved : Fld := ⟨16, 10⟩
def GAL_TILE_USE_ramps_in_use : Fld := ⟨0, 10⟩
/-- 03: GAL_TILE_INT_EN -/
def GAL_TILE_INT_EN (i : Nat) : Nat := 0x340002 + 0x400 * i
def GAL_TILE_INT_EN_failed : Fld := ⟨6, 1⟩
def GAL_TILE_INT_EN_stall : Fld := ⟨5, 1⟩
def GAL_TILE_INT_EN_ue : Fld := ⟨4, 1⟩
def GAL_TILE_INT_EN_sat : Fld := ⟨3, 1⟩
def GAL_TILE_INT_EN_late : Fld := ⟨2, 1⟩
def GAL_TILE_INT_EN_fallback : Fld := ⟨1, 1⟩
def GAL_TILE_INT_EN_hard_step : Fld := ⟨0, 1⟩
/-- 03: GAL_TILE_DEFER -/
def GAL_TILE_DEFER (i : Nat) : Nat := 0x340003 + 0x400 * i
def GAL_TILE_DEFER_high_water : Fld := ⟨16, 7⟩
def GAL_TILE_DEFER_entries : Fld := ⟨0, 7⟩
/-- 03: GAL_TILE_HARD_STEP -/
def GAL_TILE_HARD_STEP (i : Nat) : Nat := 0x340004 + 0x400 * i
def GAL_TILE_HARD_STEP_count : Fld := ⟨0, 32⟩
/-- 03: GAL_TILE_HARD_STEP_SEEN -/
def GAL_TILE_HARD_STEP_SEEN (i : Nat) : Nat := 0x340005 + 0x400 * i
def GAL_TILE_HARD_STEP_SEEN_seen : Fld := ⟨0, 32⟩
/-- 03: GAL_TILE_FALLBACK -/
def GAL_TILE_FALLBACK (i : Nat) : Nat := 0x340006 + 0x400 * i
def GAL_TILE_FALLBACK_count : Fld := ⟨0, 32⟩
/-- 03: GAL_TILE_FALLBACK_SEEN -/
def GAL_TILE_FALLBACK_SEEN (i : Nat) : Nat := 0x340007 + 0x400 * i
def GAL_TILE_FALLBACK_SEEN_seen : Fld := ⟨0, 32⟩
/-- 03: GAL_TILE_LATE -/
def GAL_TILE_LATE (i : Nat) : Nat := 0x340008 + 0x400 * i
def GAL_TILE_LATE_count : Fld := ⟨0, 32⟩
/-- 03: GAL_TILE_LATE_SEEN -/
def GAL_TILE_LATE_SEEN (i : Nat) : Nat := 0x340009 + 0x400 * i
def GAL_TILE_LATE_SEEN_seen : Fld := ⟨0, 32⟩
/-- 03: GAL_TILE_SAT -/
def GAL_TILE_SAT (i : Nat) : Nat := 0x34000a + 0x400 * i
def GAL_TILE_SAT_count : Fld := ⟨0, 32⟩
/-- 03: GAL_TILE_SAT_SEEN -/
def GAL_TILE_SAT_SEEN (i : Nat) : Nat := 0x34000b + 0x400 * i
def GAL_TILE_SAT_SEEN_seen : Fld := ⟨0, 32⟩
/-- 03: GAL_TILE_UE -/
def GAL_TILE_UE (i : Nat) : Nat := 0x34000c + 0x400 * i
def GAL_TILE_UE_count : Fld := ⟨0, 32⟩
/-- 03: GAL_TILE_UE_SEEN -/
def GAL_TILE_UE_SEEN (i : Nat) : Nat := 0x34000d + 0x400 * i
def GAL_TILE_UE_SEEN_seen : Fld := ⟨0, 32⟩
/-- 03: GAL_TILE_STALL -/
def GAL_TILE_STALL (i : Nat) : Nat := 0x34000e + 0x400 * i
def GAL_TILE_STALL_count : Fld := ⟨0, 32⟩
/-- 03: GAL_TILE_STALL_SEEN -/
def GAL_TILE_STALL_SEEN (i : Nat) : Nat := 0x34000f + 0x400 * i
def GAL_TILE_STALL_SEEN_seen : Fld := ⟨0, 32⟩

/-- The group galTile of GAL. -/
def grp_galTile : Grp := ⟨13, 0x0, 0x1000, 0, 68, 0x1000, 0xf,
  [⟨0, 1, 0x0, 0x0, 0x0⟩,
   ⟨1, 1, 0x0, 0x0, 0x0⟩,
   ⟨2, 1, 0x7f, 0x0, 0x0⟩,
   ⟨3, 1, 0x0, 0x0, 0x0⟩,
   ⟨4, 1, 0x0, 0x0, 0x0⟩,
   ⟨5, 1, 0xffffffff, 0x0, 0x0⟩,
   ⟨6, 1, 0x0, 0x0, 0x0⟩,
   ⟨7, 1, 0xffffffff, 0x0, 0x0⟩,
   ⟨8, 1, 0x0, 0x0, 0x0⟩,
   ⟨9, 1, 0xffffffff, 0x0, 0x0⟩,
   ⟨10, 1, 0x0, 0x0, 0x0⟩,
   ⟨11, 1, 0xffffffff, 0x0, 0x0⟩,
   ⟨12, 1, 0x0, 0x0, 0x0⟩,
   ⟨13, 1, 0xffffffff, 0x0, 0x0⟩,
   ⟨14, 1, 0x0, 0x0, 0x0⟩,
   ⟨15, 1, 0xffffffff, 0x0, 0x0⟩],
  2, [(5, 14), (4, 12), (3, 10), (2, 8), (1, 6), (0, 4)]⟩

/-! ### GAL: galGlb -/

/-- 03: GAL_ZC_CFG -/
def GAL_ZC_CFG : Nat := 0x360000
def GAL_ZC_CFG_fallback_len : Fld := ⟨16, 9⟩
def GAL_ZC_CFG_zc_timeout_us : Fld := ⟨0, 16⟩
/-- 03: GAL_XFADE_CFG -/
def GAL_XFADE_CFG : Nat := 0x360001
def GAL_XFADE_CFG_crossfade_len : Fld := ⟨0, 13⟩
/-- 03: GAL_RAMP_SPLIT -/
def GAL_RAMP_SPLIT : Nat := 0x360002
def GAL_RAMP_SPLIT_b_end : Fld := ⟨16, 10⟩
def GAL_RAMP_SPLIT_a_end : Fld := ⟨0, 10⟩
/-- 03: GAL_COMMITTED -/
def GAL_COMMITTED : Nat := 0x360003
def GAL_COMMITTED_committed_c : Fld := ⟨8, 4⟩
def GAL_COMMITTED_committed_b : Fld := ⟨4, 4⟩
def GAL_COMMITTED_committed_a : Fld := ⟨0, 4⟩
/-- 03: GAL_STG_NODE -/
def GAL_STG_NODE : Nat := 0x360004
def GAL_STG_NODE_d_slot : Fld := ⟨16, 12⟩
def GAL_STG_NODE_s_slot : Fld := ⟨0, 12⟩
/-- 03: GAL_STG_GAIN -/
def GAL_STG_GAIN : Nat := 0x360005
def GAL_STG_GAIN_linked : Fld := ⟨28, 1⟩
def GAL_STG_GAIN_gen : Fld := ⟨24, 4⟩
def GAL_STG_GAIN_gain : Fld := ⟨0, 24⟩
/-- 03: GAL_STG_PARTNER -/
def GAL_STG_PARTNER : Nat := 0x360006
def GAL_STG_PARTNER_partner_gain_hi : Fld := ⟨24, 8⟩
def GAL_STG_PARTNER_partner_gain_lo : Fld := ⟨12, 12⟩
def GAL_STG_PARTNER_partner_s : Fld := ⟨0, 12⟩
/-- 03: GAL_STG_CMD -/
def GAL_STG_CMD : Nat := 0x360007
def GAL_STG_CMD_status : Fld := ⟨12, 4⟩
def GAL_STG_CMD_busy : Fld := ⟨8, 1⟩
def GAL_STG_CMD_stage : Fld := ⟨0, 1⟩

/-- The group galGlb of GAL. -/
def grp_galGlb : Grp := ⟨13, 0x80000, 0x0, 0, 1, 0x20, 0x7,
  [⟨0, 1, 0x1ffffff, 0x0, 0x202710⟩,
   ⟨1, 1, 0x1fff, 0x0, 0x1e0⟩,
   ⟨2, 1, 0x3ff03ff, 0x0, 0x2000200⟩,
   ⟨3, 1, 0x0, 0x0, 0x0⟩,
   ⟨4, 1, 0xfff0fff, 0x0, 0x0⟩,
   ⟨5, 1, 0x1fffffff, 0x0, 0x0⟩,
   ⟨6, 1, 0xffffffff, 0x0, 0x0⟩,
   ⟨7, 1, 0x0, 0x0, 0x0⟩],
  4096, []⟩

/-! ### ATL: atlCore -/

/-- 06: ATL_CORE_STATUS -/
def ATL_CORE_STATUS (i : Nat) : Nat := 0x380000 + 0x400 * i
def ATL_CORE_STATUS_clk_ok : Fld := ⟨24, 1⟩
def ATL_CORE_STATUS_in_handler : Fld := ⟨11, 1⟩
def ATL_CORE_STATUS_late : Fld := ⟨10, 1⟩
def ATL_CORE_STATUS_running : Fld := ⟨9, 1⟩
def ATL_CORE_STATUS_logical : Fld := ⟨2, 6⟩
def ATL_CORE_STATUS_role : Fld := ⟨0, 2⟩
/-- 06: ATL_CORE_VEC -/
def ATL_CORE_VEC (i : Nat) : Nat := 0x380001 + 0x400 * i
def ATL_CORE_VEC_cmp_vec : Fld := ⟨16, 14⟩
def ATL_CORE_VEC_land_vec : Fld := ⟨0, 14⟩
/-- 06: ATL_CORE_CMP -/
def ATL_CORE_CMP (i : Nat) : Nat := 0x380002 + 0x400 * i
def ATL_CORE_CMP_land_en : Fld := ⟨17, 1⟩
def ATL_CORE_CMP_cmp_en : Fld := ⟨16, 1⟩
def ATL_CORE_CMP_cmp_cycle : Fld := ⟨0, 16⟩
/-- 06: ATL_CORE_BUDGET -/
def ATL_CORE_BUDGET (i : Nat) : Nat := 0x380003 + 0x400 * i
def ATL_CORE_BUDGET_cutoff : Fld := ⟨16, 16⟩
def ATL_CORE_BUDGET_budget : Fld := ⟨0, 16⟩
/-- 06: ATL_CORE_FEND -/
def ATL_CORE_FEND (i : Nat) : Nat := 0x380004 + 0x400 * i
def ATL_CORE_FEND_high_water : Fld := ⟨16, 16⟩
def ATL_CORE_FEND_last : Fld := ⟨0, 16⟩
/-- 06: ATL_CORE_LM_USE -/
def ATL_CORE_LM_USE (i : Nat) : Nat := 0x380005 + 0x400 * i
def ATL_CORE_LM_USE_answer_words : Fld := ⟨16, 9⟩
def ATL_CORE_LM_USE_requests : Fld := ⟨0, 7⟩
/-- 06: ATL_CORE_PQ -/
def ATL_CORE_PQ (i : Nat) : Nat := 0x380006 + 0x400 * i
def ATL_CORE_PQ_level : Fld := ⟨0, 9⟩
/-- 06: ATL_CORE_INT_EN -/
def ATL_CORE_INT_EN (i : Nat) : Nat := 0x380007 + 0x400 * i
def ATL_CORE_INT_EN_xconf : Fld := ⟨6, 1⟩
def ATL_CORE_INT_EN_ue : Fld := ⟨5, 1⟩
def ATL_CORE_INT_EN_lm_refused : Fld := ⟨4, 1⟩
def ATL_CORE_INT_EN_lm_late : Fld := ⟨3, 1⟩
def ATL_CORE_INT_EN_xlost : Fld := ⟨2, 1⟩
def ATL_CORE_INT_EN_sat : Fld := ⟨1, 1⟩
def ATL_CORE_INT_EN_overrun : Fld := ⟨0, 1⟩
/-- 06: ATL_CORE_OVERRUN -/
def ATL_CORE_OVERRUN (i : Nat) : Nat := 0x380008 + 0x400 * i
def ATL_CORE_OVERRUN_count : Fld := ⟨0, 32⟩
/-- 06: ATL_CORE_OVERRUN_SEEN -/
def ATL_CORE_OVERRUN_SEEN (i : Nat) : Nat := 0x380009 + 0x400 * i
def ATL_CORE_OVERRUN_SEEN_seen : Fld := ⟨0, 32⟩
/-- 06: ATL_CORE_SAT -/
def ATL_CORE_SAT (i : Nat) : Nat := 0x38000a + 0x400 * i
def ATL_CORE_SAT_count : Fld := ⟨0, 32⟩
/-- 06: ATL_CORE_SAT_SEEN -/
def ATL_CORE_SAT_SEEN (i : Nat) : Nat := 0x38000b + 0x400 * i
def ATL_CORE_SAT_SEEN_seen : Fld := ⟨0, 32⟩
/-- 06: ATL_CORE_XLOST -/
def ATL_CORE_XLOST (i : Nat) : Nat := 0x38000c + 0x400 * i
def ATL_CORE_XLOST_count : Fld := ⟨0, 32⟩
/-- 06: ATL_CORE_XLOST_SEEN -/
def ATL_CORE_XLOST_SEEN (i : Nat) : Nat := 0x38000d + 0x400 * i
def ATL_CORE_XLOST_SEEN_seen : Fld := ⟨0, 32⟩
/-- 06: ATL_CORE_LM_LATE -/
def ATL_CORE_LM_LATE (i : Nat) : Nat := 0x38000e + 0x400 * i
def ATL_CORE_LM_LATE_count : Fld := ⟨0, 32⟩
/-- 06: ATL_CORE_LM_LATE_SEEN -/
def ATL_CORE_LM_LATE_SEEN (i : Nat) : Nat := 0x38000f + 0x400 * i
def ATL_CORE_LM_LATE_SEEN_seen : Fld := ⟨0, 32⟩
/-- 06: ATL_CORE_LM_REFUSED -/
def ATL_CORE_LM_REFUSED (i : Nat) : Nat := 0x380010 + 0x400 * i
def ATL_CORE_LM_REFUSED_count : Fld := ⟨0, 32⟩
/-- 06: ATL_CORE_LM_REFUSED_SEEN -/
def ATL_CORE_LM_REFUSED_SEEN (i : Nat) : Nat := 0x380011 + 0x400 * i
def ATL_CORE_LM_REFUSED_SEEN_seen : Fld := ⟨0, 32⟩
/-- 06: ATL_CORE_UE -/
def ATL_CORE_UE (i : Nat) : Nat := 0x380012 + 0x400 * i
def ATL_CORE_UE_count : Fld := ⟨0, 32⟩
/-- 06: ATL_CORE_UE_SEEN -/
def ATL_CORE_UE_SEEN (i : Nat) : Nat := 0x380013 + 0x400 * i
def ATL_CORE_UE_SEEN_seen : Fld := ⟨0, 32⟩
/-- 06: ATL_CORE_XCONF -/
def ATL_CORE_XCONF (i : Nat) : Nat := 0x380014 + 0x400 * i
def ATL_CORE_XCONF_count : Fld := ⟨0, 32⟩
/-- 06: ATL_CORE_XCONF_SEEN -/
def ATL_CORE_XCONF_SEEN (i : Nat) : Nat := 0x380015 + 0x400 * i
def ATL_CORE_XCONF_SEEN_seen : Fld := ⟨0, 32⟩

/-- The group atlCore of ATL. -/
def grp_atlCore : Grp := ⟨14, 0x0, 0x1000, 0, 68, 0x1000, 0x1f,
  [⟨0, 1, 0x0, 0x0, 0x0⟩,
   ⟨1, 1, 0x3fff3fff, 0x0, 0x0⟩,
   ⟨2, 1, 0x3ffff, 0x0, 0x0⟩,
   ⟨3, 1, 0x0, 0x0, 0x0⟩,
   ⟨4, 1, 0x0, 0x0, 0xffff⟩,
   ⟨5, 1, 0x0, 0x0, 0x0⟩,
   ⟨6, 1, 0x0, 0x0, 0x0⟩,
   ⟨7, 1, 0x7f, 0x0, 0x0⟩,
   ⟨8, 1, 0x0, 0x0, 0x0⟩,
   ⟨9, 1, 0xffffffff, 0x0, 0x0⟩,
   ⟨10, 1, 0x0, 0x0, 0x0⟩,
   ⟨11, 1, 0xffffffff, 0x0, 0x0⟩,
   ⟨12, 1, 0x0, 0x0, 0x0⟩,
   ⟨13, 1, 0xffffffff, 0x0, 0x0⟩,
   ⟨14, 1, 0x0, 0x0, 0x0⟩,
   ⟨15, 1, 0xffffffff, 0x0, 0x0⟩,
   ⟨16, 1, 0x0, 0x0, 0x0⟩,
   ⟨17, 1, 0xffffffff, 0x0, 0x0⟩,
   ⟨18, 1, 0x0, 0x0, 0x0⟩,
   ⟨19, 1, 0xffffffff, 0x0, 0x0⟩,
   ⟨20, 1, 0x0, 0x0, 0x0⟩,
   ⟨21, 1, 0xffffffff, 0x0, 0x0⟩],
  7, [(6, 20), (5, 18), (4, 16), (3, 14), (2, 12), (1, 10), (0, 8)]⟩

/-! ### ATL: atlGlb -/

/-- 06: ATL_LM_CFG -/
def ATL_LM_CFG : Nat := 0x3a0000
def ATL_LM_CFG_lead_cycles : Fld := ⟨0, 14⟩
/-- 06: ATL_LM_BASE_LO -/
def ATL_LM_BASE_LO : Nat := 0x3a0001
def ATL_LM_BASE_LO_base_lo : Fld := ⟨0, 32⟩
/-- 06: ATL_LM_BASE_HI -/
def ATL_LM_BASE_HI : Nat := 0x3a0002
def ATL_LM_BASE_HI_base_hi : Fld := ⟨0, 32⟩
/-- 06: ATL_LM_STRIDE -/
def ATL_LM_STRIDE : Nat := 0x3a0003
def ATL_LM_STRIDE_stride_mib : Fld := ⟨0, 9⟩

/-- The group atlGlb of ATL. -/
def grp_atlGlb : Grp := ⟨14, 0x80000, 0x0, 0, 1, 0x40, 0x3,
  [⟨0, 1, 0x3fff, 0x0, 0x1000⟩,
   ⟨1, 1, 0xffffffff, 0x0, 0x0⟩,
   ⟨2, 1, 0xffffffff, 0x0, 0x0⟩,
   ⟨3, 1, 0x1ff, 0x0, 0x0⟩],
  4096, []⟩

/-! ### ATL: atlLgc -/

/-- 06: ATL_LCORE_STATUS -/
def ATL_LCORE_STATUS (j : Nat) : Nat := 0x3a4000 + j
def ATL_LCORE_STATUS_lm_size : Fld := ⟨16, 9⟩
def ATL_LCORE_STATUS_physical : Fld := ⟨8, 7⟩
def ATL_LCORE_STATUS_domain : Fld := ⟨0, 2⟩

/-- The group atlLgc of ATL. -/
def grp_atlLgc : Grp := ⟨14, 0x90000, 0x0, 0, 1, 0x100, 0x3f,
  [⟨0, 64, 0x0, 0x0, 0x0⟩],
  4096, []⟩

/-! ### ATL: atlXmap -/

/-- 06: ATL_XMAP -/
def ATL_XMAP (i : Nat) (j : Nat) : Nat := 0x3a8000 + 0x40 * i + j
def ATL_XMAP_valid : Fld := ⟨31, 1⟩
def ATL_XMAP_entry : Fld := ⟨0, 14⟩

/-- The group atlXmap of ATL. -/
def grp_atlXmap : Grp := ⟨14, 0xa0000, 0x100, 0, 64, 0x100, 0x3f,
  [⟨0, 64, 0x80003fff, 0x0, 0x0⟩],
  4096, []⟩

/-! ### LDG: ldgGlb -/

/-- 19: LDG_CFG -/
def LDG_CFG : Nat := 0x3c0000
def LDG_CFG_enable : Fld := ⟨31, 1⟩
def LDG_CFG_freeze_max_s : Fld := ⟨0, 16⟩
/-- 19: LDG_STATUS -/
def LDG_STATUS : Nat := 0x3c0001
def LDG_STATUS_degraded : Fld := ⟨31, 1⟩
def LDG_STATUS_frozen : Fld := ⟨30, 1⟩
def LDG_STATUS_thawed : Fld := ⟨29, 1⟩
def LDG_STATUS_queue : Fld := ⟨16, 8⟩
def LDG_STATUS_position : Fld := ⟨0, 14⟩
/-- 19: LDG_INT_EN -/
def LDG_INT_EN : Nat := 0x3c0002
def LDG_INT_EN_degraded : Fld := ⟨2, 1⟩
def LDG_INT_EN_suppressed : Fld := ⟨1, 1⟩
def LDG_INT_EN_written : Fld := ⟨0, 1⟩
/-- 19: LDG_SW_EVENT -/
def LDG_SW_EVENT : Nat := 0x3c0003
def LDG_SW_EVENT_go : Fld := ⟨31, 1⟩
def LDG_SW_EVENT_n : Fld := ⟨16, 5⟩
def LDG_SW_EVENT_source : Fld := ⟨0, 16⟩
/-- 19: LDG_WRITTEN -/
def LDG_WRITTEN : Nat := 0x3c0004
def LDG_WRITTEN_count : Fld := ⟨0, 32⟩
/-- 19: LDG_WRITTEN_SEEN -/
def LDG_WRITTEN_SEEN : Nat := 0x3c0005
def LDG_WRITTEN_SEEN_seen : Fld := ⟨0, 32⟩
/-- 19: LDG_SUPPRESSED -/
def LDG_SUPPRESSED : Nat := 0x3c0006
def LDG_SUPPRESSED_count : Fld := ⟨0, 32⟩
/-- 19: LDG_SUPPRESSED_SEEN -/
def LDG_SUPPRESSED_SEEN : Nat := 0x3c0007
def LDG_SUPPRESSED_SEEN_seen : Fld := ⟨0, 32⟩

/-- The group ldgGlb of LDG. -/
def grp_ldgGlb : Grp := ⟨15, 0x0, 0x0, 0, 1, 0x40, 0xf,
  [⟨0, 1, 0x8000ffff, 0x0, 0x3c⟩,
   ⟨1, 1, 0x0, 0x0, 0x0⟩,
   ⟨2, 1, 0x7, 0x0, 0x0⟩,
   ⟨3, 1, 0x1fffff, 0x0, 0x0⟩,
   ⟨4, 1, 0x0, 0x0, 0x0⟩,
   ⟨5, 1, 0xffffffff, 0x0, 0x0⟩,
   ⟨6, 1, 0x0, 0x0, 0x0⟩,
   ⟨7, 1, 0xffffffff, 0x0, 0x0⟩],
  2, [(1, 6), (0, 4)]⟩

/-! ### LDG: ldgCode -/

/-- 19: LDG_CODE_CFG -/
def LDG_CODE_CFG (j : Nat) : Nat := 0x3c0400 + j
def LDG_CODE_CFG_enable : Fld := ⟨31, 1⟩
def LDG_CODE_CFG_set : Fld := ⟨16, 6⟩
def LDG_CODE_CFG_depth : Fld := ⟨8, 8⟩
def LDG_CODE_CFG_period_ms : Fld := ⟨0, 8⟩

/-- The group ldgCode of LDG. -/
def grp_ldgCode : Grp := ⟨15, 0x1000, 0x0, 0, 1, 0x1000, 0x3ff,
  [⟨0, 1024, 0x803fffff, 0x0, 0x8000080a⟩],
  4096, []⟩

/-! ### LDG: ldgSet -/

/-- 19: LDG_SET -/
def LDG_SET (i : Nat) (j : Nat) : Nat := 0x3c0800 + 0x20 * i + j
def LDG_SET_valid : Fld := ⟨31, 1⟩
def LDG_SET_offset : Fld := ⟨0, 24⟩

/-- The group ldgSet of LDG. -/
def grp_ldgSet : Grp := ⟨15, 0x2000, 0x80, 0, 64, 0x80, 0x1f,
  [⟨0, 24, 0x80ffffff, 0x0, 0x0⟩],
  4096, []⟩

/-- The groups of each block, in the order of the blocks of 15 R452. -/
def blockGroups (b : Nat) : List Grp :=
  match b with
  | 0 => [grp_sysId, grp_sysCtl, grp_sysRoute, grp_sysMbox]
  | 1 => [grp_atrGlb, grp_atrMst]
  | 2 => [grp_memGlb, grp_memBkt, grp_memErr, grp_memBank]
  | 3 => [grp_drcGlb, grp_drcPart, grp_drcCh]
  | 4 => [grp_pwrGlb, grp_pwrDom, grp_pwrSent]
  | 5 => [grp_ctlGlb, grp_ctlCore, grp_ctlDesc, grp_ctlSrc, grp_ctlCat, grp_ctlMsix]
  | 6 => [grp_timServo, grp_timRef, grp_timDom, grp_timTs]
  | 7 => [grp_twnGlb, grp_twnRot]
  | 8 => [grp_prtSide, grp_prtBr, grp_prtGp, grp_prtGlb, grp_prtWclk]
  | 9 => [grp_netPort, grp_netRxf, grp_netTxf, grp_netRxLeg, grp_netTxLeg, grp_netMap, grp_netGlb]
  | 10 => [grp_daxLink, grp_daxTxmap, grp_daxPs, grp_daxGlb]
  | 11 => [grp_strUnit, grp_strGlb, grp_strPb]
  | 12 => [grp_scnGlb]
  | 13 => [grp_galTile, grp_galGlb]
  | 14 => [grp_atlCore, grp_atlGlb, grp_atlLgc, grp_atlXmap]
  | 15 => [grp_ldgGlb, grp_ldgCode, grp_ldgSet]
  | _ => []

end Sys2Proof.Machine
end

