-- ==== Sys2Proof/Machine/Ops.lean ====
section
/-! DEFINITION. The named operations every meaning is written with: registers (spec/15 R451 to R465), counters and
interrupts, byte memory, time (spec/11 R337), the error capture (15 R476), the Ledger's receipt of an occurrence
(spec/19 R559 to R561), tickets and completions (spec/16 R486 to R494), check codes, free values. -/

namespace Sys2Proof.Machine

/-! ## Domains -/

def domNo (x : Dom) : Nat := match x with | .A => 0 | .B => 1 | .C => 2
/-- Domain codes of fields and commands: 1 A, 2 B, 3 C. -/
def domOf (code : Nat) : Option Dom := match code with | 1 => some .A | 2 => some .B | 3 => some .C | _ => none
def domCode (x : Option Dom) : Nat := match x with | none => 0 | some x => domNo x + 1
def allDoms : List Dom := [.A, .B, .C]
def pdGet {α : Type} (p : PerDom α) (x : Dom) : α := match x with | .A => p.a | .B => p.b | .C => p.c
def pdSet {α : Type} (p : PerDom α) (x : Dom) (v : α) : PerDom α :=
  match x with | .A => { p with a := v } | .B => { p with b := v } | .C => { p with c := v }

/-! ## Registers (15 R452, R453) -/

/-- The register of a list that stands at word index `i`. -/
def regAt (l : List RegInfo) (i : Nat) : Option RegInfo := l.find? (fun r => decide (r.idx ≤ i) && decide (i < r.idx + r.cnt))

/-- The base of the instance of group `g` whose span holds offset `r` of the block. -/
def instBase (g : Grp) (r : Nat) : Option Nat :=
  let k := if g.stride = 0 then 0 else (r - g.base) / g.stride
  let b := g.base + k * g.stride
  if r < g.base then none
  else if (g.stride = 0 ∨ (g.first ≤ k ∧ k < g.first + g.count)) ∧ r < b + g.span then some b else none

/-- The port-side groups of 08 stand at three places of the block. -/
def sideBase (r : Nat) : Option Nat :=
  if r < 0x3000 ∨ (0x4000 ≤ r ∧ r < 0x6000) then some (r / 0x80 * 0x80) else none

/-- The group, and the base of its instance, that holds offset `r` of block `b`. -/
def grpAt (b r : Nat) : Option (Grp × Nat) :=
  match (if b = 8 then sideBase r else none) with
  | some base => some (grp_prtSide, base)
  | none => (blockGroups b).findSome? (fun g => (instBase g r).map (fun base => (g, base)))

/-- What an offset of the register space reaches. -/
inductive RegDec
  /-- in no group's span: unmapped -/
  | unmapped
  /-- a location without a register -/
  | reserved
  /-- the register whose word is kept at this key -/
  | reg (key : Nat)
  deriving DecidableEq, Repr

/-- 15 R453: the register an aligned BAR0 offset reaches. The registers of DRAM channel 0 that the global group leaves
free answer at their own index (log 20, DEDUCED). -/
def regDecode (o : Nat) : RegDec :=
  let b := o / 0x100000 % 16
  let r := o % 0x100000
  match grpAt b r with
  | none => .unmapped
  | some (g, base) =>
    let i := (r - base) / 4
    let key := fun (w : Nat) => b * 0x40000 + base / 4 + w
    match regAt g.regs i with
    | some _ => .reg (key i)
    | none =>
      if b = 3 ∧ base = 0 ∧ (i = 6 ∨ i = 7) then .reg (drcChBase 0 + i)
      else
        let j := i &&& g.mask
        match regAt g.regs j with
        | some _ => .reg (key j)
        | none => .reserved

/-- 00 R8: bits of a register that its group's description has and that are reserved in this register: fields of TIM_DOM_CFG
(08), TIM_REF_IN_CFG (11), PRT_SIDE_CFG and PRT_SIDE_SEED (08), CTL_DOC_IRQ (16), PWR_RESUME_LO (18). -/
def reservedIn (k : Nat) : Nat :=
  let drop := fun (l : List (Fld × Bool)) => l.foldl (fun m (f, has) => if has then m else m + (2 ^ f.len - 1) * 2 ^ f.lo) 0
  match k / 0x40000 with
  | 4 => if k = PWR_RESUME_LO then 2 else 0
  | 5 => if CTL_DOC_IRQ 0 ≤ k ∧ k < CTL_DOC_IRQ 32 then drop [(CTL_DOC_IRQ_divider, false)] else 0
  | 6 =>
    if k = TIM_DOM_CFG 0 ∨ k = TIM_DOM_CFG 1 then drop [(TIM_DOM_CFG_independent, false)]
    else if TIM_REF_IN_CFG 0 ≤ k ∧ k < TIM_REF_IN_CFG 9 then
      let i := k - TIM_REF_IN_CFG 0
      drop [(TIM_REF_IN_CFG_ai, i == 4 || i == 5), (TIM_REF_IN_CFG_falling, i == 1 || i == 2), (TIM_REF_IN_CFG_nominal, decide (1 ≤ i ∧ i ≤ 5))]
    else 0
  | 8 => match sideBase (k % 0x40000 * 4) with
    | none => 0
    | some b =>
      let aes := decide (0x4000 ≤ b)
      let rx := if aes then decide (b < 0x5000) else b % 0x100 == 0
      let j := k % 0x40000 - b / 4
      if j = 0 then drop [(PRT_SIDE_CFG_dither, !rx), (PRT_SIDE_CFG_master, !aes), (PRT_SIDE_CFG_format, !aes), (PRT_SIDE_CFG_slot, !aes)]
      else if (j = 6 ∨ j = 7) ∧ rx then 0xFFFF_FFFF else 0
  | _ => 0

/-- The register at a key, as its group describes it. -/
def regGroup (k : Nat) : Option RegInfo :=
  if 0x400000 ≤ k then regAt grp_drcCh.regs (k - 0x400000)
  else match grpAt (k / 0x40000) (k % 0x40000 * 4) with
    | none => none
    | some (g, base) => regAt g.regs (k % 0x40000 - base / 4)

/-- The table entry of the register at a key. -/
def regInfo (k : Nat) : Option RegInfo :=
  (regGroup k).map (fun r => { r with w := r.w - (r.w &&& reservedIn k), reset := r.reset - (r.reset &&& reservedIn k) })

/-- Reset words that the tables give by rule and not by number: 03 R65, 05 R136 and 06 R170 (roles: units 0 to 63, or 0
to 31, ACTIVE and serving their own number, the others SPARE), 06 ATL_LCORE_STATUS, 09 NET_MAP, 12 TWN_ROT_MAP, 15
ATR_MST_STATUS, 15 SYS_RESET_CAUSE, 16 MSI-X mask bits, 18 PWR maps and low states. -/
def resetRule (k : Nat) : Option W32 :=
  let b := k / 0x40000
  let role := fun (u n m : Nat) (st : Nat → Nat) (fl fr : Fld) =>
    if u < m ∧ k = st u then some (BitVec.ofNat 32 (if u < n then u * 2 ^ fl.lo + 1 * 2 ^ fr.lo else 2 * 2 ^ fr.lo)) else none
  if b = 13 then role (k % 0x40000 / 0x400) 64 68 GAL_TILE_STATUS GAL_TILE_STATUS_logical GAL_TILE_STATUS_role
  else if b = 11 then role (k % 0x40000 / 0x400) 32 34 STR_UNIT_STATUS STR_UNIT_STATUS_logical STR_UNIT_STATUS_role
  else if b = 14 then
    if ATL_LCORE_STATUS 0 ≤ k ∧ k < ATL_LCORE_STATUS 64 then
      some (BitVec.ofNat 32 ((k - ATL_LCORE_STATUS 0) * 2 ^ ATL_LCORE_STATUS_physical.lo))
    else role (k % 0x40000 / 0x400) 64 68 ATL_CORE_STATUS ATL_CORE_STATUS_logical ATL_CORE_STATUS_role
  else if b = 9 then
    if NET_MAP 0 ≤ k ∧ k < NET_MAP 8192 then some (BitVec.ofNat 32 (((k - NET_MAP 0) % 4096) * 2 ^ NET_MAP_channel.lo)) else none
  else if b = 7 then
    if TWN_ROT_MAP 0 ≤ k ∧ k < TWN_ROT_MAP 64 then
      let j := k - TWN_ROT_MAP 0
      some (BitVec.ofNat 32 (j * 2 ^ TWN_ROT_MAP_tile.lo + (if j < 32 then j else 0) * 2 ^ TWN_ROT_MAP_strip.lo))
    else none
  else if b = 1 then
    (List.range 21).findSome? (fun m => if k = ATR_MST_STATUS m then
      some (BitVec.ofNat 32 (0x100 + (if m = 13 ∨ m = 15 ∨ m = 16 then 0 else if m = 17 ∨ m = 18 ∨ m = 20 then 2 else 1)
        * 2 ^ ATR_MST_STATUS_class.lo)) else none)
  else if b = 0 then (if k = SYS_RESET_CAUSE then some 1#32 else none)
  else if b = 5 then
    (if CTL_MSIX_TABLE 0 ≤ k ∧ k < CTL_MSIX_TABLE 128 ∧ (k - CTL_MSIX_TABLE 0) % 4 = 3 then some 1#32 else none)
  else if b = 4 then
    if k = PWR_MAP_RUN then some (BitVec.ofNat 32 (0x1FFF * 4 + 2))
    else if k = PWR_MAP_QUIET then some (BitVec.ofNat 32 (0x0200 * 4 + 2))
    else if k = PWR_DOM_CFG 1 ∨ k = PWR_DOM_CFG 14 then some 0xA#32
    else (List.range 15).findSome? (fun d => if 1 ≤ d ∧ k = PWR_DOM_CFG d then some 0xE#32 else none)
  else none

/-- The reset word of a register. -/
def regReset (k : Nat) : W32 :=
  match resetRule k with
  | some w => w
  | none => match regInfo k with | some r => BitVec.ofNat 32 r.reset | none => 0

/-- The word a register holds. -/
def rd (s : State) (k : Nat) : W32 :=
  match s.regs.find? (fun e => e.1 == k) with
  | some e => e.2
  | none => regReset k

/-- Give a register a word. The map lists no register that holds its reset word. -/
def wr (s : State) (k : Nat) (v : W32) : State := { s with regs := smSet (regReset k) s.regs k v }

/-- A field of a register. -/
def fget (s : State) (k : Nat) (f : Fld) : Nat := bitsOf (rd s k).toNat f.lo f.len
/-- A field of one bit. -/
def fbit (s : State) (k : Nat) (f : Fld) : Bool := fget s k f = 1
/-- Give a field a value. -/
def fset (s : State) (k : Nat) (f : Fld) (v : Nat) : State := wr s k (BitVec.ofNat 32 (putBits (rd s k).toNat f.lo f.len v))
/-- A field of a word that is not in a register. -/
def wget (w : W32) (f : Fld) : Nat := bitsOf w.toNat f.lo f.len
def wbit (w : W32) (f : Fld) : Bool := wget w f = 1

/-- A CNT register counts `n` events, modulo 2^32 (00 R6). -/
def cntN (s : State) (k n : Nat) : State := if n = 0 then s else wr s k (rd s k + BitVec.ofNat 32 n)
def cnt (s : State) (k : Nat) : State := cntN s k 1

/-- A field that holds a number of up to 64 bits in two registers. -/
def get64 (s : State) (lo hi : Nat) : Nat := (rd s lo).toNat + (rd s hi).toNat * 2 ^ 32
def put64 (s : State) (lo hi v : Nat) : State := wr (wr s lo (BitVec.ofNat 32 v)) hi (BitVec.ofNat 32 (v / 2 ^ 32))

/-! ## Power domains (18 R526, 15 R458) -/

/-- The power domain of the registers at an offset of block `b` (18 R526; blocks that no row names lie in CTL, log 21, DEDUCED). -/
def powerOf (b r : Nat) : Nat :=
  match b with
  | 3 => 14
  | 4 => 0
  | 8 => 13
  | 9 => 11
  | 10 => 12
  | 11 => 10
  | 13 => if r / 0x1000 < 68 then 2 + r / 0x1000 / 17 else 1
  | 14 => if r / 0x1000 < 68 then 6 + r / 0x1000 / 17 else 1
  | _ => 1

/-- 18 R527: 0 ON, 1 GATED, 2 RETAIN, 3 OFF. -/
def domState (s : State) (d : Nat) : Nat := if d = 0 then 0 else fget s (PWR_DOM_STATUS d) PWR_DOM_STATUS_state
def domOn (s : State) (d : Nat) : Bool := domState s d = 0

/-- 18 R531: a key slot holds, or gives up, a key in a domain. -/
def setKey (s : State) (slot d : Nat) (v : Bool) : State :=
  if d = 0 then s
  else fset s (PWR_DOM_STATUS d) PWR_DOM_STATUS_keys (putBits (fget s (PWR_DOM_STATUS d) PWR_DOM_STATUS_keys) slot 1 (b2n v))
def hasKey (s : State) (slot d : Nat) : Bool := bitOf (fget s (PWR_DOM_STATUS d) PWR_DOM_STATUS_keys) slot

/-! ## Interrupts (15 R464 to R466) -/

/-- Some event interrupt of an instance is pending; `base` is the key of the instance's first word. -/
def evPending (s : State) (g : Grp) (base : Nat) (en : W32) : Bool :=
  g.ev.any (fun (bit, c) => bitOf en.toNat bit && rd s (base + c) != rd s (base + c + 1))

/-- The condition interrupts: the enable register's key and word (03, 08, 10, 11, 12, 13, 14, 19 Registers). -/
def condPending (s : State) (k : Nat) (en : W32) : Bool :=
  let b := k / 0x40000
  let e := fun i => bitOf en.toNat i
  match b with
  | 13 => e 6 && fbit s (GAL_TILE_STATUS (k % 0x40000 / 0x400)) GAL_TILE_STATUS_failed
  | 8 =>
    (List.range 160).any (fun i => k == PRT_SIDE_INT_EN i && e 6 &&
      (let st := fget s (PRT_SIDE_STATUS i) PRT_SIDE_STATUS_state
       decide (3 ≤ st) && decide (st ≤ 5)))
  | 10 =>
    (List.range 2).any (fun l => k == DAX_LINK_INT_EN l && e 7 && fbit s (DAX_LINK_CFG l) DAX_LINK_CFG_enable &&
      decide (fget s (DAX_LINK_STATUS l) DAX_LINK_STATUS_state ≠ 5))
  | 6 =>
    k == TIM_INT_EN && ((e 3 && (decide (3 ≤ fget s TIM_DPLL_STATUS TIM_DPLL_STATUS_state) ||
      !fbit s TIM_DPLL_STATUS TIM_DPLL_STATUS_sysref_ok)) ||
      (e 5 && rd s TIM_STEP_REFUSED != rd s TIM_STEP_REFUSED_SEEN) || (e 4 && rd s TIM_STEP_DONE != rd s TIM_STEP_DONE_SEEN))
  | 7 =>
    e 5 && (fbit s TWN_STATUS TWN_STATUS_diverge || fbit s TWN_STATUS TWN_STATUS_accused ||
      decide (fget s TWN_STATUS TWN_STATUS_peer = 3))
  | 2 =>
    (List.range 32).any (fun r => (e 1 && rd s (MEM_UE r) != rd s (MEM_UE_SEEN r)) ||
      (e 0 && rd s (MEM_BKT_OVF r) != rd s (MEM_BKT_OVF_SEEN r)))
  | 3 =>
    (List.range 4).any (fun ch => k == DRC_CH_INT_EN ch && e 3 && decide (6 ≤ fget s (DRC_CH_STATUS ch) DRC_CH_STATUS_state))
  | 15 => e 2 && fbit s LDG_STATUS LDG_STATUS_degraded
  | _ => false

/-- Key `k` holds an interrupt-enable register; its word is `w`; something it enables is pending. -/
def enPending (s : State) (k : Nat) (w : W32) : Bool :=
  if 0x400000 ≤ k then
    k == DRC_CH_INT_EN 0 && (evPending s grp_drcCh 0x400000 w || condPending s k w)
  else match grpAt (k / 0x40000) (k % 0x40000 * 4) with
    | none => false
    | some (g, base) =>
      k % 0x40000 == base / 4 + g.ie && (evPending s g (k / 0x40000 * 0x40000 + base / 4) w || condPending s k w)

/-- 15 R465: the blocks with a pending interrupt, as SYS_INT_PENDING shows them. An enable register that is not listed
holds its reset word, which enables nothing. -/
def blocksPending (s : State) : Nat :=
  s.regs.foldl (fun acc e =>
    let b := if 0x400000 ≤ e.1 then 3 else e.1 / 0x40000
    if bitOf acc b then acc else if enPending s e.1 e.2 then acc + 2 ^ b else acc) 0

/-- 15 R465, R466: the routed OR of an MSI-X vector. -/
def vecOr (s : State) (pend v : Nat) : Bool :=
  (List.range 16).any (fun b => bitOf pend b && fbit s (SYS_INT_ROUTE b) SYS_INT_ROUTE_host_en &&
    fget s (SYS_INT_ROUTE b) SYS_INT_ROUTE_vector == v)

/-- 16 R482, R497: an interrupt-controller source (block b is source b + 1; 17 is the Docent error). -/
def srcPending (s : State) (pend src : Nat) : Bool :=
  if 1 ≤ src ∧ src ≤ 16 then bitOf pend (src - 1) && fbit s (SYS_INT_ROUTE (src - 1)) SYS_INT_ROUTE_core_en
  else if src = 17 then
    (fbit s CTL_INT_EN CTL_INT_EN_doc_underflow && rd s CTL_DOC_UNDERFLOW != rd s CTL_DOC_UNDERFLOW_SEEN) ||
    (fbit s CTL_INT_EN CTL_INT_EN_doc_overrun && rd s CTL_DOC_OVERRUN != rd s CTL_DOC_OVERRUN_SEEN)
  else false

def emit (s : State) (e : Emit) : State := { s with out := s.out ++ [e] }
def addDue (s : State) (d : Due) : State := { s with due := s.due ++ [d] }

/-- The message of an MSI-X vector (16 R483, PCIe: a masked vector sets its pending bit instead) (log 24, DEDUCED). -/
def msixSend (s : State) (v : Nat) : State :=
  let w := fun i => rd s (CTL_MSIX_TABLE (4 * v + i))
  if bitOf (w 3).toNat 0 then wr s (CTL_MSIX_PBA 0) (rd s (CTL_MSIX_PBA 0) ||| BitVec.ofNat 32 (2 ^ v))
  else emit (wr s (CTL_MSIX_PBA 0) (rd s (CTL_MSIX_PBA 0) &&& ~~~BitVec.ofNat 32 (2 ^ v)))
    (.msix v ((w 0).toNat + (w 1).toNat * 2 ^ 32) (w 2).toNat)

/-- The messages of vectors whose OR has risen, and the Docent completions of sources that have. -/
def vecsSend (l : List Nat) (s : State) : State := l.foldl msixSend s
def srcsSignal (l : List Nat) (s : State) : State :=
  l.foldl (fun s i => if bitOf (rd s (CTL_DOC_IRQ i)).toNat 31 then addDue s (.docIrq i) else s) s
/-- The levels of vectors and sources; a source that is up becomes pending at the interrupt controller, unless it is claimed
(16 R482), and stays so. -/
def levelsHold (up src : List Nat) (s : State) : State :=
  let p := s.ctl.plic
  let new := src.filter (fun i => !p.pending.contains i && !p.claimed.contains i)
  { s with ctl := { s.ctl with vecUp := up, srcUp := src, plic := { p with pending := p.pending ++ new } } }

/-- 15 R466, 16 R496: the edges of the vectors and sources since the last command. -/
def intEdges (s : State) : State :=
  let pend := blocksPending s
  let up := (List.range 32).filter (vecOr s pend)
  let src := (List.range 18).filter (srcPending s pend)
  levelsHold up src (srcsSignal (src.filter (fun i => !s.ctl.srcUp.contains i)) (vecsSend (up.filter (fun v => !s.ctl.vecUp.contains v)) s))

/-! ## Free values -/

/-- The next value that the source leaves open. -/
def freeDraw (s : State) : BitVec 64 × State := (Config.freeValue s.free, { s with free := s.free + 1 })

/-! ## Byte memory -/

/-- What a byte of memory reads as that nothing has written (log 1, DESIGN CHOICE). -/
def memDefault : Byte := 0

/-- One byte of the common room, the Storeroom or DRAM, at its Atrium address. -/
def memByte (m : List Host.Cell) (a : Nat) : Byte := smGet memDefault m a
/-- Write one byte. -/
def memPut (m : List Host.Cell) (a : Nat) (b : Byte) : List Host.Cell := smSet memDefault m a b

/-- A memory in canonical form: addresses rise strictly and no byte equals the default. -/
def memWf (m : List Host.Cell) : Bool :=
  match m with
  | [] => true
  | [c] => c.2 != memDefault
  | c :: c' :: t => decide (c.1 < c'.1) && c.2 != memDefault && memWf (c' :: t)

/-- `n` bytes from address `a`. -/
def memBytes (m : List Host.Cell) (a n : Nat) : List Byte := (List.range n).map (fun i => memByte m (a + i))
/-- Write bytes at ascending addresses. -/
def memPutBytes (m : List Host.Cell) (a : Nat) (l : List Byte) : List Host.Cell :=
  match l with
  | [] => m
  | b :: t => memPutBytes (memPut m a b) (a + 1) t

/-- Little-endian value of bytes (00 R3), and the bytes of a value. -/
def leVal (l : List Byte) : Nat := l.foldr (fun b acc => b.toNat + 256 * acc) 0
def leBytes (n v : Nat) : List Byte := (List.range n).map (fun i => BitVec.ofNat 8 (v / 256 ^ i))
/-- Big-endian value of octets, and the octets of a value. -/
def beVal (l : List Byte) : Nat := l.foldl (fun acc b => acc * 256 + b.toNat) 0
def beBytes (n v : Nat) : List Byte := (leBytes n v).reverse

/-- The byte at `a` that a subchannel's write queue holds (14 R438). -/
def wqByte (q : List WqEnt) (a : Nat) : Option Byte :=
  (q.find? (fun e => e.burst == a / 64 && bitOf e.mask.toNat (a % 64 / 8))).map (fun e => BitVec.ofNat 8 (bitsOf e.data.toNat (8 * (a % 64)) 8))

/-- 13 R409: numbers of merge-buffer ports: Storeroom banks 0 to 63, the common room's Atrium port and host port, DRAM
subchannels from 66, Atelier windows from 74. -/
def portCommon : Nat := 64
def portHost : Nat := 65
def portDram (sub : Nat) : Nat := 66 + sub
def portWindow (c : Nat) : Nat := 74 + c

/-- The byte at `a` that a merge entry holds, seen through the host's port of the common room or through the others (13 R411). -/
def mergeByte (m : List MergeEnt) (host : Bool) (a : Nat) : Option Byte :=
  (m.find? (fun e => e.word == a / 8 && bitOf e.strobes.toNat (a % 8) && (e.port == portHost) == (host && decide (0x2000_0000 ≤ a ∧ a < 0x2008_0000)))).map
    (fun e => BitVec.ofNat 8 (bitsOf e.data.toNat (8 * (a % 8)) 8))

/-- 13 R411, R415, 14 R438: the byte a reader sees at `a`: merge entry, write queue, then memory; an uncorrectable word
reads as zero. -/
def memView (s : State) (host : Bool) (a : Nat) : Byte :=
  match mergeByte s.ecc.merge host a with
  | some b => b
  | none => match wqByte s.drc.wq a with
    | some b => b
    | none => if s.ecc.bad.contains (a / 8) then 0 else memByte s.mem a

/-- `n` bytes from `a` as the engine's units see them, and their little-endian value. -/
def viewBytes (s : State) (host : Bool) (a n : Nat) : List Byte := (List.range n).map (fun i => memView s host (a + i))
def memRead (s : State) (a n : Nat) : Nat := leVal (viewBytes s false a n)

/-- Bytes written over a word: bytes `l` from address `a` over the word's old value at address 8 × word. -/
def overlay (old : Nat) (base n a : Nat) (l : List Byte) : Nat :=
  leVal ((List.range n).map (fun i =>
    if a ≤ base + i then (match l[base + i - a]? with | some b => b | none => BitVec.ofNat 8 (old / 256 ^ i))
    else BitVec.ofNat 8 (old / 256 ^ i)))

/-- The words that `keep` does not name are written whole, or gone: they hold no error (13 R416). -/
def MemSt.cure (keep : Nat → Bool) (e : MemSt) : MemSt :=
  { e with bad := e.bad.filter keep, flips := e.flips.filter (fun (w, _) => keep w) }

/-- 16 R479, R481: a write that the Atrium grants ends the reservations on the words it names, and the data caches drop their
lines. -/
def CtlSt.snoop (hit : Nat → Bool) (c : CtlSt) : CtlSt :=
  { c with resv := c.resv.filter (fun (_, _, w) => !hit w),
           dcache := c.dcache.filter (fun (_, l) => match l with | some l => !(List.range 8).any (fun i => hit (8 * l + i)) | none => false) }

/-- Bytes that a unit of the engine writes, in memory at once (log 40, DESIGN CHOICE): queued and merged copies of them are brought up
to date, words written whole lose their error (13 R416), and reservations on them end (16 R481). -/
def memStoreBytes (s : State) (a : Nat) (l : List Byte) : State :=
  let e := a + l.length
  let hit := fun (lo n : Nat) => decide (a < lo + n) && decide (lo < e)
  let wq := s.drc.wq.map (fun w => if hit (64 * w.burst) 64 then
    { w with data := BitVec.ofNat 512 (overlay w.data.toNat (64 * w.burst) 64 a l) } else w)
  let mg := s.ecc.merge.map (fun m => if hit (8 * m.word) 8 then
    { m with data := BitVec.ofNat 64 (overlay m.data.toNat (8 * m.word) 8 a l) } else m)
  let ecc := s.ecc.cure (fun w => !(decide (a ≤ 8 * w) && decide (8 * w + 8 ≤ e)))
  { s with mem := memPutBytes s.mem a l, drc := { s.drc with wq := wq }, ecc := { ecc with merge := mg },
           ctl := s.ctl.snoop (fun w => hit (8 * w) 8) }
def memStore (s : State) (a n v : Nat) : State := memStoreBytes s a (leBytes n v)

/-! ## Check codes -/

/-- One step of a reflected 32-bit CRC over a byte. -/
def crcByte (poly c : BitVec 32) (b : Byte) : BitVec 32 :=
  (List.range 8).foldl (fun c _ => if c.getLsbD 0 then (c >>> 1) ^^^ poly else c >>> 1) (c ^^^ b.setWidth 32)

/-- CRC-32C (Castagnoli, as 04 R129, 13 R422 and 17 R506 name it): reflected, initial and final value all ones
(log 100, DEDUCED). -/
def crc32c (l : List Byte) : BitVec 32 := ~~~(l.foldl (crcByte 0x82F6_3B78#32) 0xFFFF_FFFF#32)

/-- 12 R375: ECMA-182 CRC-64 over one word, from bit 63 to bit 0. -/
def crc64Word (c w : BitVec 64) : BitVec 64 :=
  (List.range 64).foldl (fun c i =>
    let top := c.getLsbD 63 != w.getLsbD (63 - i)
    if top then (c <<< 1) ^^^ 0x42F0_E1EB_A9EA_3693#64 else c <<< 1) c

/-! ## Time (11 R335, R337; rates of 01 R12) -/

/-- Units of Freiz time in one nanosecond, one millisecond and one second (log 19, DESIGN CHOICE). -/
def nsU : Nat := 2 ^ 32
def msU : Nat := 1000000 * nsU
def secU : Nat := 1000000000 * nsU

/-- Rate of a rate code of TIM_DOM_CFG.rate, in Hz: 0 44,100, 1 48,000, 2 88,200, 3 96,000, 4 176,400, 5 192,000. -/
def rateHz (code : Nat) : Nat :=
  match code with | 0 => 44100 | 1 => 48000 | 2 => 88200 | 3 => 96000 | 4 => 176400 | 5 => 192000 | _ => 48000

/-- 01 R19: the unit cost of a rate code. -/
def rateUnits (code : Nat) : Nat := match code with | 0 => 1 | 1 => 1 | 2 => 2 | 3 => 2 | 4 => 4 | 5 => 4 | _ => 1

/-- Freiz time moves forward to the instant `t`, and mtime with it (16 R482: 10 MHz). -/
def timeTo (s : State) (t : Nat) : State :=
  if t ≤ s.tim.freiz then s
  else
    let e := s.tim.elapsed + (t - s.tim.freiz)
    { s with tim := { s.tim with freiz := t, elapsed := e }, ctl := { s.ctl with mtime := e / (100 * nsU) } }

/-- 11 R337: the instant at which a locked domain of rate `f` begins tick n: E_x + n / f, rounded down to the unit. -/
def tickTime (s : State) (x : Dom) (f n : Nat) : Nat :=
  ((((n : Int) + pdGet s.tim.delta x) * 2 ^ 32 + pdGet s.tim.rho x) * (secU : Int) / ((f * 2 ^ 32 : Nat) : Int)).toNat

/-- Output offset of a DPLL, in 1/16 ppb. -/
def dpllFreq (s : State) (aux : Bool) : Int := if aux then s.tim.auxFreq else (rd s TIM_DPLL_FREQ).toInt

/-- 01 R14: one output period of the auxiliary DPLL at rate `f`, in Freiz time, which advances with the primary DPLL
(log 142, DEDUCED). -/
def auxPeriod (s : State) (f : Nat) : Nat :=
  secU * (16000000000 + dpllFreq s false).toNat / (f * (16000000000 + dpllFreq s true).toNat)

/-- 01 R13: the index of the tick in progress, or of the first at or after, for time `t`. -/
def indexAt (s : State) (x : Dom) (f t : Nat) (ceil : Bool) : Nat :=
  let num : Int := (t : Int) * f * 2 ^ 32 - (pdGet s.tim.delta x * 2 ^ 32 + pdGet s.tim.rho x) * secU
  let den : Int := secU * 2 ^ 32
  (if ceil then -((-num) / den) else num / den).toNat

/-- Freiz time as 128 bits: seconds, nanoseconds, fraction (11 R335). -/
def freizFrac (t : Nat) : Nat := t % nsU
def freizNs (t : Nat) : Nat := t / nsU % 1000000000
def freizSec (t : Nat) : Nat := t / secU

def genOf (s : State) (x : Dom) : Gen := pdGet s.tim.gens x
def running (s : State) (x : Dom) : Bool := (genOf s x).running
/-- The rate in force of a domain: latched while it runs, else the configured one. -/
def domRate (s : State) (x : Dom) : Nat :=
  if running s x then (genOf s x).rate else fget s (TIM_DOM_CFG (domNo x)) TIM_DOM_CFG_rate
def domHz (s : State) (x : Dom) : Nat := rateHz (domRate s x)
/-- 01 R14, 11 R337: the Freiz time that passes until tick `n` of a domain begins. -/
def tickIn (s : State) (x : Dom) (n : Nat) : Int :=
  let g := genOf s x
  if g.running && g.indep then (g.due : Int) + (n - g.next) * auxPeriod s (domHz s x) - s.tim.elapsed
  else (tickTime s x (domHz s x) n : Int) - s.tim.freiz
/-- The Freiz time that passes until the next tick of a domain begins. -/
def untilTick (s : State) (x : Dom) : Int := tickIn s x (genOf s x).next
def domUnits (s : State) (x : Dom) : Nat := rateUnits (domRate s x)
/-- 04 R131: domain C runs or is set to run on its own. -/
def isIndep (s : State) (x : Dom) : Bool :=
  x == .C && (if running s .C then (genOf s .C).indep else fbit s (TIM_DOM_CFG 2) TIM_DOM_CFG_independent)
/-- Index of the tick in progress (15 R470 target 0x02; log 6, DESIGN CHOICE). -/
def nowIdx (s : State) (x : Dom) : Nat := match (genOf s x).last with | some n => n | none => 0
def firstRunning (s : State) : Option Dom := allDoms.find? (running s)

/-! ## Error capture (15 R476) -/

def capUnmapped : Nat := 1
def capNarrow : Nat := 2
def capUnaligned : Nat := 3
def capIslandOff : Nat := 4
def capTimeoutRd : Nat := 5
def capTimeoutWr : Nat := 6
def capSealed : Nat := 7
def capDramRange : Nat := 8
def capWindow : Nat := 9
def capMergeLost : Nat := 10
def capPartition : Nat := 11
def capUncorr : Nat := 12
def capReadOnly : Nat := 13

/-- 15 R476: count an access that is captured, and hold the first (log 115, DEDUCED). -/
def capture (s : State) (cause master addr : Nat) (write : Bool) (strobes : Nat) : State :=
  let s1 := cnt s ATR_ERR_CNT
  if fbit s1 ATR_ERR_CAP ATR_ERR_CAP_valid then s1
  else
    let w := 2 ^ 31 + b2n write * 2 ^ 30 + cause * 2 ^ 24 + master * 2 ^ 16 + strobes % 256
    { wr s1 ATR_ERR_CAP (BitVec.ofNat 32 w) with ctl := { s1.ctl with errAddr := addr } }

/-! ## Software writes (15 R460, R462, R463) -/

/-- 15 R462: the seal that locks the register at a key is set. -/
def isSealed (s : State) (k : Nat) : Bool :=
  if k = TIM_DOM_CFG 0 then fbit s (TIM_DOM_SEAL 0) TIM_DOM_SEAL_clock
  else if k = TIM_DOM_CFG 1 then fbit s (TIM_DOM_SEAL 1) TIM_DOM_SEAL_clock
  else if k = TIM_DOM_CFG 2 then fbit s (TIM_DOM_SEAL 2) TIM_DOM_SEAL_clock
  else if (TIM_PRIO 0 ≤ k ∧ k ≤ TIM_HOLD_CFG) ∨ (TIM_REF_IN_CFG 0 ≤ k ∧ k ≤ TIM_AUX_CFG) then
    fbit s TIM_REF_SEAL TIM_REF_SEAL_clock
  else if k = DRC_CFG ∨ k = DRC_TIM0 ∨ k = DRC_TIM1 ∨ k = DRC_TIM2 ∨ (List.range 4).any (fun c => k == DRC_CH_GEOM c) then
    fbit s DRC_SEAL DRC_SEAL_timing
  else if k = TWN_CFG then fbit s TWN_SEAL TWN_SEAL_role
  else if k = PWR_MAP_RUN ∨ k = PWR_MAP_QUIET ∨ k = PWR_BANK_RETAIN_LO ∨ k = PWR_BANK_RETAIN_HI ∨ k = PWR_NW_CFG ∨
      k = PWR_NW_LINKS ∨ k = PWR_WAKE_GP ∨ k = PWR_RESUME_LO ∨ k = PWR_RESUME_HI ∨
      (List.range 15).any (fun d => decide (1 ≤ d) && k == PWR_DOM_CFG d) then fbit s PWR_SEAL PWR_SEAL_policy
  else false

/-- 15 R460: each field takes the written word under its type: RW, RWH and SEEN take the software value, SEAL bits are
set and never cleared, RO, CNT and reserved bits keep theirs, TRG reads 0. -/
def fieldsWrite (s : State) (k : Nat) (v : W32) : State :=
  match regInfo k with
  | none => s
  | some r =>
    let old := rd s k
    let w := BitVec.ofNat 32 r.w
    wr s k ((old &&& ~~~w) ||| (v &&& w) ||| (v &&& BitVec.ofNat 32 r.sealed))

/-- 15 R460, R463: a software write to a register, without the action of a TRG field; a sealed register ignores it. -/
def swWrite (s : State) (master k : Nat) (v : W32) : State :=
  if isSealed s k then capture s capSealed master (0x1000_0000 + k % 0x400000 * 4) true 0xF else fieldsWrite s k v

/-! ## The Ledger's receipt of an occurrence (19 R559 to R561) -/

/-- 19 R559: bucket depth and tokens of a code. -/
def codeDepth (s : State) (c : Nat) : Nat := Nat.max 1 (fget s (LDG_CODE_CFG c) LDG_CODE_CFG_depth)

/-- 19 R559: a suppressed occurrence. -/
def ldgSuppress (s : State) (c : Nat) : State :=
  let s1 := cnt s LDG_SUPPRESSED
  { s1 with ldg := { s1.ldg with supp := smMod 0 s1.ldg.supp c (fun n => Nat.min (n + 1) 0xFFFF_FFFF) } }

/-- 19 R552, R554, R559, R561: an occurrence reaches the writer: it is queued, or suppressed. -/
def occur (s : State) (code src : Nat) (det : List W32) : State :=
  let used := smGet 0 s.ldg.used code
  let unlim := decide (fget s (LDG_CODE_CFG code) LDG_CODE_CFG_period_ms = 0)
  if !fbit s LDG_CFG LDG_CFG_enable || s.ldg.freezing || !fbit s (LDG_CODE_CFG code) LDG_CODE_CFG_enable ||
      (!unlim && decide (codeDepth s code ≤ used)) || decide (256 ≤ s.ldg.queue.length) then ldgSuppress s code
  else
    let q := s.ldg.queue ++ [⟨code, src, det, s.tim.freiz⟩]
    let s1 := fset s LDG_STATUS LDG_STATUS_queue (Nat.min q.length 255)
    { s1 with ldg := { s1.ldg with queue := q, used := if unlim then s1.ldg.used else smSet 0 s1.ldg.used code (used + 1) } }

/-- Two detail words of a 64-bit number. -/
def det64 (n : Nat) : List W32 := [BitVec.ofNat 32 n, BitVec.ofNat 32 (n / 2 ^ 32)]

/-! ## Twin state (12 R370, R378, R386) and self-accusation (R380, R381) -/

/-- 12 R370: the mode of TWN_CFG: 0 SINGLE, 1 PAIR, 2 TRIAD, 3 ARBITER. -/
def twnMode (s : State) : Nat := fget s TWN_CFG TWN_CFG_mode
def onAir (s : State) : Bool := fbit s TWN_STATUS TWN_STATUS_on_air

def isTwin (s : State) : Bool := twnMode s == 1 || twnMode s == 2
def roleB (s : State) : Bool := fbit s TWN_CFG TWN_CFG_role
def isOwner (s : State) : Bool := fbit s TWN_STATUS TWN_STATUS_owner

/-- 12 R386: the ownership domain; a stopped one gives way to A, B, C in that order. -/
def ownDomain (s : State) : Option Dom :=
  let x := (domOf (Nat.max 1 (fget s TWN_CFG TWN_CFG_own_domain))).getD .A
  if running s x then some x else firstRunning s

/-- A message joins the queue of a link (10 R325). -/
def daxQueue (s : State) (l : Nat) (m : DaxMsg) : State :=
  if l = 0 then { s with dax := { s.dax with link0 := { s.dax.link0 with queue := s.dax.link0.queue ++ [m] } } }
  else { s with dax := { s.dax with link1 := { s.dax.link1 with queue := s.dax.link1.queue ++ [m] } } }

/-- 10 R309: a message of the engine's own bears the engine ID that the link has latched. -/
def daxOwn (s : State) (l : Nat) (m : DaxMsg) : State :=
  daxQueue s l { m with src := (if l = 0 then s.dax.link0 else s.dax.link1).engineId }

/-- 12 R378: the engine's state, as word 0 of a TWIN message shows it. -/
def twinState (s : State) : Nat :=
  b2n (onAir s) + 2 * b2n (fbit s TWN_STATUS TWN_STATUS_accused) + 4 * b2n (isOwner s) + 8 * b2n (roleB s) +
    16 * fget s TWN_STATUS TWN_STATUS_cause + 256 * twnMode s
/-- 12 R378: the TWIN message of this moment. -/
def twinMsg (s : State) : DaxMsg :=
  let n := match ownDomain s with | some x => nowIdx s x | none => 0
  { type := 0x30, dest := 0, bcast := false, hops := 0, src := s.dax.link0.engineId,
    body := [BitVec.ofNat 64 (twinState s), BitVec.ofNat 64 n] }

/-- 12 R378: in PAIR and TRIAD modes a TWIN message goes to the twin link. -/
def twinSend (s : State) : State := if isTwin s then daxQueue s 0 (twinMsg s) else s
/-- 12 R378: after an effect that took `s` to `t`, a TWIN message goes out at once if the engine's state has changed. -/
def twinOn (s t : State) : State := if twinState t = twinState s then t else twinSend t

/-- 12 R380, R381: an engine in PAIR or TRIAD mode detects an integrity fault; with a peer that is WITHDRAWN or LOST it
stays on air alone. -/
def accuse (s : State) (cause : Nat) : State :=
  if isTwin s then twinOn s (accused s cause) else s
where
  accused (s : State) (cause : Nat) : State :=
    let peer := fget s TWN_STATUS TWN_STATUS_peer
    let sole := decide (2 ≤ peer)
    let s1 := cnt s TWN_ACCUSE
    let s2 := fset (fset s1 TWN_STATUS TWN_STATUS_accused 1) TWN_STATUS TWN_STATUS_cause cause
    let s3 := occur s2 0x1C1 cause [BitVec.ofNat 32 (b2n sole)]
    if sole then fset s3 TWN_STATUS TWN_STATUS_sole 1
    else if s3.twn.withdrawn then { s3 with twn := { s3.twn with airDue := none } }
    else { s3 with twn := { s3.twn with withdrawDue := true } }

/-! ## Tickets and completions (16 R486 to R494) -/

/-- Outcome codes of 16 R494. -/
def ocOK : Nat := 0x0000
def ocLATE : Nat := 0x0001
def ocEXPIRED : Nat := 0x0002
def ocCORRUPT : Nat := 0x0003
def ocABORTED : Nat := 0x0004
def ocFAILED : Nat := 0x0005
def ocOLDFAILED : Nat := 0x0006
def ocDATALOST : Nat := 0x0007
def ocMISMATCH : Nat := 0x0008
def ocNOGAP : Nat := 0x0009
def ocTRAINFAILED : Nat := 0x000A
def ocREFUSED : Nat := 0x000B
def ocUNKNOWN : Nat := 0x0101
def ocRANGE : Nat := 0x0102
def ocBUSY : Nat := 0x0103
def ocNODRAM : Nat := 0x0104
def ocGENCLOSED : Nat := 0x0105
def ocDUPLICATE : Nat := 0x0106
def ocTIMEBASE : Nat := 0x0107
def ocNOTPERMITTED : Nat := 0x0108
def ocNOOFFSET : Nat := 0x0109
def ocCAPACITY : Nat := 0x010A
def ocONECHANNEL : Nat := 0x010B
def ocNOVPP : Nat := 0x010C
def ocSEALED : Nat := 0x010D
def ocFULL : Nat := 0x010E
def ocNOSPARE : Nat := 0x010F
def ocINVALID : Nat := 0x0110
def ocNOTAG : Nat := 0x0111
def ocDISABLED : Nat := 0x0112
def ocNOTABORTABLE : Nat := 0x0113

/-- 16 R486: the issuers whose completions go to the firmware ring. -/
def toFirmware (iss : Nat) : Bool := (decide (1 ≤ iss) && decide (iss ≤ 8)) || iss == 0x22

/-- 16 R487: all 1,024 tickets are outstanding. -/
def ticketsFull (s : State) : Bool := decide (1024 ≤ s.ctl.outst.length)

def outstUpdate (s : State) (l : List Tkt) : State :=
  let s1 := { s with ctl := { s.ctl with outst := l } }
  fset s1 CTL_STATUS CTL_STATUS_outstanding l.length

/-- 16 R486: the next ticket of an issuer for a command of this code; it is outstanding from now on. -/
def newTicket (s : State) (iss code : Nat) (record : Bool) (signal : Option Nat) : Nat × State :=
  let n := smGet 0 s.ctl.seq iss
  let t := code / 256 % 256 * 2 ^ 24 + iss * 2 ^ 16 + n
  let s1 := { s with ctl := { s.ctl with seq := smSet 0 s.ctl.seq iss ((n + 1) % 65536) } }
  (t, outstUpdate s1 (s1.ctl.outst ++ [⟨t, code, record, signal⟩]))

/-- A ring has no room: its tail is one below its head (16 R494). -/
def ringFull (s : State) (fw : Bool) : Bool :=
  if fw then (fget s CTL_FW_CQ_TAIL CTL_FW_CQ_TAIL_tail + 1) % 4096 == fget s CTL_FW_CQ_HEAD CTL_FW_CQ_HEAD_head
  else (fget s CTL_CQ_TAIL CTL_CQ_TAIL_tail + 1) % 4096 == fget s CTL_CQ_HEAD CTL_CQ_HEAD_head

/-- 16 R493: Atrium address of record `i` of a ring. -/
def ringAddr (s : State) (fw : Bool) (i : Nat) : Nat :=
  if fw then (rd s CTL_FW_CQ_BASE).toNat / 0x20000 * 0x20000 + 32 * i else 0x2000_4000 + 32 * i

/-- 16 R496: a completion enters the Docent's FIFO; a source that waits is kept in order. -/
def docPush (s : State) (t : Nat) : State :=
  if s.ctl.fifo.length < 1024 then
    let q := s.ctl.fifo ++ [t]
    let s1 := { s with ctl := { s.ctl with fifo := q } }
    let s2 := fset s1 CTL_DOC_FIFO CTL_DOC_FIFO_level q.length
    if fget s2 CTL_DOC_FIFO CTL_DOC_FIFO_high_water < q.length then fset s2 CTL_DOC_FIFO CTL_DOC_FIFO_high_water q.length else s2
  else { s with ctl := { s.ctl with fifoWait := s.ctl.fifoWait ++ [t] } }

/-- 16 R494: a ticket stops being outstanding, and its Docent signal is given. -/
def ticketDone (s : State) (ticket : Nat) (signal : Option Nat) : State :=
  let s1 := outstUpdate s (s.ctl.outst.filter (fun t => t.ticket != ticket))
  match signal with | some t => docPush s1 t | none => s1

/-- 16 R493: write one record, with its phase bit, and advance the tail (log 117, DEDUCED). -/
def recordWrite (s : State) (h : Held) : State :=
  let tail := if h.fw then fget s CTL_FW_CQ_TAIL CTL_FW_CQ_TAIL_tail else fget s CTL_CQ_TAIL CTL_CQ_TAIL_tail
  let ph0 := if h.fw then s.ctl.fwPhase0 else s.ctl.hostPhase0
  let w0 := h.rec0.toNat + (if ph0 then 0 else 2 ^ 63)
  let a := ringAddr s h.fw tail
  let s1 := memStore (memStore (memStore (memStore s (a + 8) 8 h.rec1.toNat) (a + 16) 8 h.rec2.toNat) (a + 24) 8
    h.rec3.toNat) a 8 w0
  let nt := (tail + 1) % 4096
  let flip := nt = 0
  let s2 := if h.fw then cnt (fset s1 CTL_FW_CQ_TAIL CTL_FW_CQ_TAIL_tail nt) CTL_FW_CQ_WRITTEN
    else cnt (fset s1 CTL_CQ_TAIL CTL_CQ_TAIL_tail nt) CTL_CQ_WRITTEN
  let s3 := if flip then { s2 with ctl := if h.fw then { s2.ctl with fwPhase0 := !ph0 } else { s2.ctl with hostPhase0 := !ph0 } }
    else s2
  ticketDone s3 h.ticket h.signal

/-- 16 R493, R494: a completion goes to its ring, behind those that wait for room. -/
def recordQueue (s : State) (h : Held) : State :=
  if ringFull s h.fw || s.ctl.held.any (fun x => x.fw == h.fw) then
    let s1 := { s with ctl := { s.ctl with held := s.ctl.held ++ [h] } }
    if h.fw then fset s1 CTL_STATUS CTL_STATUS_fw_cq_full 1 else fset s1 CTL_STATUS CTL_STATUS_cq_full 1
  else recordWrite s h

/-- 16 R493, R494: an outstanding command completes: outcome, domain code, and result bytes 8 to 31 as one number. A
management source that issued it is to be told (09 R304). -/
def complete (s : State) (ticket oc dom : Nat) (result : Nat) : State :=
  match s.ctl.outst.find? (fun t => t.ticket == ticket) with
  | none => s
  | some t =>
    let w0 := ticket % 2 ^ 32 + oc * 2 ^ 32 + t.code % 256 * 2 ^ 48 + dom * 2 ^ 56
    let tell := s.net.mgmtTickets.any (fun (k, _) => k == ticket)
    let s1 := if tell then { s with net := { s.net with mgmtDone := s.net.mgmtDone ++ [(ticket, BitVec.ofNat 256 (w0 + result * 2 ^ 64))] } } else s
    if !t.record then ticketDone s1 ticket t.signal
    else
      recordQueue s1 ⟨toFirmware (bitsOf ticket 16 8), BitVec.ofNat 64 w0, BitVec.ofNat 64 result,
        BitVec.ofNat 64 (result / 2 ^ 64), BitVec.ofNat 64 (result / 2 ^ 128), t.signal, ticket⟩

/-- 16 R494: a refusal, with the byte offset of the refused parameter. -/
def refuse (s : State) (ticket oc at_ : Nat) : State := complete s ticket oc 0 at_
/-- A refusal that no single parameter byte causes. -/
def refuseAll (s : State) (ticket oc : Nat) : State := refuse s ticket oc 0xFFFF

/-- Bytes of a command entry (16 R488). -/
def eByte (e : BitVec 512) (i n : Nat) : Nat := bitsOf e.toNat (8 * i) (8 * n)

/-- 16 R490: every byte that the command's table does not list, and the reserved header bytes, must be zero; the first
that is not. -/
def eReserved (e : BitVec 512) (used : List (Nat × Nat)) : Option Nat :=
  (List.range 64).find? (fun i =>
    let hdr := decide (i < 2) || (decide (4 ≤ i) && decide (i < 8)) || (decide (8 ≤ i) && decide (i < 10))
    if hdr then (i == 9 && decide (16 ≤ eByte e 9 1))
    else if i = 2 then decide (4 ≤ eByte e 2 1)
    else if used.any (fun (a, n) => decide (a ≤ i) && decide (i < a + n)) then false
    else decide (eByte e i 1 ≠ 0))

end Sys2Proof.Machine
end

