-- ==== Sys2Proof/Machine/TimeRef.lean ====
section
/-! DEFINITION. Network time, time steps, reference selection, the DPLLs and the PPS pins (spec/11). -/

namespace Sys2Proof.Machine

/-! ## The servo (11 R342 to R345) -/

/-- 11 TIM_SERVO_INTERVAL: the reload of fed_timer, 3 × 2^log_interval s, in units of 1/128 s; the interval lies in
−7 … +1 (nearest limit, log 30, DESIGN CHOICE). -/
def fedReload (s : State) : Nat :=
  let v := (BitVec.ofNat 8 (fget s TIM_SERVO_INTERVAL TIM_SERVO_INTERVAL_log_interval)).toInt
  3 * 2 ^ (if v < -7 then 0 else if 1 < v then 8 else (v + 7).toNat)

def clampI (m v : Int) : Int := if v < -m then -m else if m < v then m else v

def selected (s : State) : Nat := fget s TIM_DPLL_STATUS TIM_DPLL_STATUS_selected
/-- DPLL states of 11 R358. -/
def dpllState (s : State) (aux : Bool) : Nat :=
  if aux then fget s TIM_DPLL_STATUS TIM_DPLL_STATUS_aux_state else fget s TIM_DPLL_STATUS TIM_DPLL_STATUS_state
/-- A DPLL enters a state; the time in HOLDOVER and LOST runs on from one to the other and ends with both. -/
def setDpll (s : State) (aux : Bool) (v : Nat) : State :=
  let held := if v = 3 ∨ v = 4 then some ((if aux then s.tim.auxHoldAt else s.tim.holdAt).getD s.tim.elapsed) else none
  if aux then fset { s with tim := { s.tim with auxHoldAt := held } } TIM_DPLL_STATUS TIM_DPLL_STATUS_aux_state v
  else fset { s with tim := { s.tim with holdAt := held } } TIM_DPLL_STATUS TIM_DPLL_STATUS_state v
/-- TIM_HOLD_TIME: the seconds spent in HOLDOVER and LOST. -/
def holdSeconds (s : State) : W32 :=
  match s.tim.holdAt with | some t => BitVec.ofNat 32 ((s.tim.elapsed - t) / secU) | none => 0
def sysrefOk (s : State) : Bool := fbit s TIM_DPLL_STATUS TIM_DPLL_STATUS_sysref_ok

def i32 (v : Int) : W32 := BitVec.ofInt 32 (if v > 2 ^ 31 - 1 then 2 ^ 31 - 1 else if v < -(2 ^ 31) then -(2 ^ 31) else v)
def setFreq (s : State) (aux : Bool) (f : Int) : State :=
  if aux then { s with tim := { s.tim with auxFreq := f } } else wr s TIM_DPLL_FREQ (i32 f)

/-- 11 R359, R360: the phase error while PTP is selected: the last accepted offset against the target θ = 0. A value past
the register is a free one (log 143, DESIGN CHOICE). -/
def ptpPhase (s : State) : State :=
  let p := 4 * s.tim.theta
  if p.natAbs < 2 ^ 31 then wr s TIM_DPLL_PHASE (BitVec.ofInt 32 p)
  else let (f, s1) := freeDraw s; wr s1 TIM_DPLL_PHASE (f.setWidth 32)

/-- Give adj a value (1/256 ppb); while the DPLL follows PTP its output follows adj (11 R343). -/
def setAdj (s : State) (adj max : Int) : State :=
  let s1 := wr { s with tim := { s.tim with adj := adj } } TIM_SERVO_ADJ (i32 adj)
  let s2 := fset s1 TIM_SERVO_STATUS TIM_SERVO_STATUS_clamped (b2n (decide (adj = max) || decide (adj = -max)))
  let st := dpllState s2 false
  if selected s2 = 0 ∧ (st = 1 ∨ st = 2) then setFreq s2 false (adj / 16) else s2

/-- 11 R342: one offset. -/
def servoApply (s : State) : State :=
  let theta := (rd s TIM_SERVO_OFFSET).toInt
  let limit := clampN 1000 1000000000 (fget s TIM_STEP_LIMIT TIM_STEP_LIMIT_limit_ns)
  if (limit : Int) < theta.natAbs then
    cnt (fset (wr s TIM_SERVO_REFUSED (rd s TIM_SERVO_OFFSET)) TIM_SERVO_STATUS TIM_SERVO_STATUS_step_refused 1) TIM_STEP_REFUSED
  else
    let s1 := fset (fset s TIM_SERVO_STATUS TIM_SERVO_STATUS_step_refused 0) TIM_SERVO_STATUS TIM_SERVO_STATUS_fed 1
    let s2 := { s1 with tim := { s1.tim with fedTimer := fedReload s1, theta := theta } }
    if selected s2 = 0 then
      let max : Int := 256 * clampN 1000 200000 (fget s2 TIM_SERVO_MAX TIM_SERVO_MAX_max_ppb)
      let integ := clampI max (s2.tim.integ - fget s2 TIM_SERVO_CFG TIM_SERVO_CFG_ki * theta)
      let adj := clampI max (integ - fget s2 TIM_SERVO_CFG TIM_SERVO_CFG_kp * theta)
      ptpPhase (setAdj { s2 with tim := { s2.tim with integ := integ } } adj max)
    else s2

/-- 11 R344: fed_timer is reloaded and runs. -/
def masterChange (s : State) : State :=
  fset { s with tim := { s.tim with fedTimer := fedReload s } } TIM_SERVO_STATUS TIM_SERVO_STATUS_fed 1

/-- 11 R342, R344: a write to TIM_SERVO_CTRL. -/
def servoCtrl (w : W32) (s : State) : State :=
  let s1 := if wbit w TIM_SERVO_CTRL_update then servoApply s else s
  if wbit w TIM_SERVO_CTRL_master_change then masterChange s1 else s1


/-! ## Selection (11 R354 to R357) -/

def qualified (s : State) (i : Nat) : Bool := bitOf (fget s TIM_REF_STATUS TIM_REF_STATUS_qualified) i
def setQual (s : State) (i : Nat) (v : Bool) : State :=
  let q := fget s TIM_REF_STATUS TIM_REF_STATUS_qualified
  fset s TIM_REF_STATUS TIM_REF_STATUS_qualified (putBits q i 1 (b2n v))
/-- TIM_REF_STATUS.present of input `i` holds from the instant `t`, in time since reset. -/
def setPresent (s : State) (i t : Nat) : State := { s with tim := { s.tim with presentAt := smSet secU s.tim.presentAt i t } }
/-- TIM_REF_STATUS.present: the input had no missing period in the last second. PTP, whose missing period is the expiry of
fed_timer, has one while the timer stands expired, and SYSREF while it is lost (log 144, DEDUCED). -/
def present (s : State) (i : Nat) : Bool :=
  decide (smGet secU s.tim.presentAt i ≤ s.tim.elapsed) && (i != 0 || fbit s TIM_SERVO_STATUS TIM_SERVO_STATUS_fed) &&
    (i != 8 || sysrefOk s)

/-- 11 R354: the best rank at which an enabled entry names input `i`. -/
def refRank (s : State) (i : Nat) : Option Nat :=
  (List.range 8).foldl (fun best e =>
    let w := rd s (TIM_PRIO e)
    if wbit w TIM_PRIO_enable ∧ wget w TIM_PRIO_input = i then
      match best with
      | none => some (wget w TIM_PRIO_rank)
      | some b => some (Nat.min b (wget w TIM_PRIO_rank))
    else best) none

/-- 11 R363: the holdover estimate; with no value to take, the frequency in force. -/
def holdEstimate (s : State) (aux : Bool) : Int :=
  let l := ((if aux then s.tim.auxSamples else s.tim.samples).drop 2).take 60
  if l.isEmpty then dpllFreq s aux else l.foldl (· + ·) 0 / l.length

/-- 11 R357, R358: into HOLDOVER, at the estimate (log 32, DEDUCED). -/
def toHoldover (s : State) (aux : Bool) : State := setDpll (setFreq s aux (holdEstimate s aux)) aux 3

/-- 11 R355, R356: what a selection returns, and whether the ranks conflict. The selected input stays while it is qualified
and named, unless the mode is revertive and another is ranked better. -/
def selectInput (s : State) : Option Nat × Bool :=
  let cand := (List.range 9).filter (fun i => qualified s i && (refRank s i).isSome)
  let rank := fun i => (refRank s i).getD 8
  let bestRank := cand.foldl (fun m i => Nat.min m (rank i)) 8
  let best := cand.filter (fun i => rank i == bestRank)
  let stays := cand.contains (selected s) && (!fbit s TIM_SEL_CFG TIM_SEL_CFG_revertive || best.contains (selected s))
  if stays then (some (selected s), false)
  else match best with
  | [] => (none, false)
  | [i] => (some i, false)
  | _ =>
    let tol : Nat := 1600 * clampN 1 500 (fget s TIM_REF_QUAL TIM_REF_QUAL_agree_tol)
    let near := best.filter (fun i => decide (((rd s (TIM_REF_FREQ i)).toInt - dpllFreq s false).natAbs ≤ tol))
    match near with
    | i :: _ => (some i, false)
    | [] => (none, true)

/-- Units of TimSt.bw in 0.01 Hz. -/
def bwU : Nat := 65536
def acqBw (s : State) : Nat := 100 * bwU * clampN 1 200 (fget s TIM_DPLL_CFG TIM_DPLL_CFG_acq_bw_hz)
def setBw (s : State) (aux : Bool) (v : Nat) : State :=
  if aux then { s with tim := { s.tim with auxBw := v } }
  else wr { s with tim := { s.tim with bw := v } } TIM_DPLL_BW (BitVec.ofNat 32 (v / bwU))

/-- 11 R358, R359, R361, R343: the DPLL turns to input `i` (8: free run). The phase of the tick grid against the input, which
is measured at that moment, becomes the target (log 143, DESIGN CHOICE); for PTP it is zero, adj gives the frequency, and no
bandwidth applies. -/
def followInput (s : State) (aux : Bool) (i : Nat) : State :=
  let st := dpllState s aux
  if i = 8 then setFreq (setDpll s aux 0) aux 0
  else if i = 0 ∧ !aux then
    let s1 := setDpll s false 1
    ptpPhase (setFreq { s1 with tim := { s1.tim with phaseTarget := 0 } } false (s1.tim.adj / 16))
  else
    let s1 := setDpll (if st = 2 then s else setBw s aux (acqBw s)) aux 1
    let (f, s2) := freeDraw s1
    let target := (f.setWidth 32).toInt
    if aux then { s2 with tim := { s2.tim with auxTarget := target, auxPhase := 0 } }
    else wr { s2 with tim := { s2.tim with phaseTarget := target } } TIM_DPLL_PHASE 0

/-- 11 R356: the selected input becomes `i` (15: none); a change is counted. -/
def selectedTo (i : Nat) (s : State) : State :=
  let s1 := if selected s = i then s else cnt (fset s TIM_DPLL_STATUS TIM_DPLL_STATUS_selected i) TIM_REF_SWITCH
  fset s1 TIM_SERVO_STATUS TIM_SERVO_STATUS_applying (b2n (i = 0))

/-- 11 R356, R358: what a selection returned takes effect. -/
def selectionTake (r : Option Nat) (conflict : Bool) (s : State) : State :=
  match r with
  | some i =>
    let s1 := selectedTo i (fset s TIM_DPLL_STATUS TIM_DPLL_STATUS_rank_conflict 0)
    let st := dpllState s false
    if selected s ≠ i ∨ st = 3 ∨ st = 4 then followInput s1 false i else s1
  | none =>
    let s1 := if conflict then cnt (fset s TIM_DPLL_STATUS TIM_DPLL_STATUS_rank_conflict 1) TIM_RANK_CONFLICT else s
    let s2 := selectedTo 15 s1
    let st := dpllState s2 false
    if st = 1 ∨ st = 2 then toHoldover s2 false else s2

/-- 11 R356: a selection of the primary DPLL; while SYSREF is lost there is none (R353) (log 145, DEDUCED). -/
def selection (s : State) : State :=
  if sysrefOk s then (let (r, conflict) := selectInput s; selectionTake r conflict s) else s

/-- The input of the auxiliary DPLL (11 R365): none for 0 and values above 8. -/
def auxInput (s : State) : Option Nat :=
  let i := fget s TIM_AUX_CFG TIM_AUX_CFG_input
  if 1 ≤ i ∧ i ≤ 8 then some i else none

/-- 11 R365: the auxiliary DPLL turns to its input, as its setting and the input's qualification say
(log 34, DEDUCED). -/
def auxFollow (s : State) : State :=
  if !sysrefOk s then s
  else match auxInput s with
    | none => setFreq (setDpll s true 0) true 0
    | some i =>
      if i = 8 then setFreq (setDpll s true 0) true 0
      else if qualified s i then followInput s true i
      else let st := dpllState s true
        if st = 1 ∨ st = 2 then toHoldover s true else s

/-- 11 R352: input `i` stops being qualified. -/
def disqualify (s : State) (i : Nat) : State :=
  if !qualified s i then s
  else
    let s1 := occur (cnt (setQual s i false) TIM_DISQUAL) 0x180 i []
    let st := dpllState s1 false
    let s2 := if selected s1 = i ∧ (st = 1 ∨ st = 2 ∨ st = 0) then
        let s' := toHoldover s1 false
        { s' with tim := { s'.tim with holdOff := true } }
      else s1
    let stx := dpllState s2 true
    if auxInput s2 = some i ∧ (stx = 1 ∨ stx = 2) then toHoldover s2 true else s2

/-- 11 R352: |measured offset| within ±tol (units of 0.1 ppm). -/
def inTol (s : State) (f : Int) : Bool := decide (f.natAbs ≤ 1600 * clampN 1 1000 (fget s TIM_REF_QUAL TIM_REF_QUAL_tol))

/-- 11 R352, R355: an input has stayed in tolerance for 2 s. -/
def doRefQualify (i : Fin 9) (freq : BitVec 32) (s : State) : State :=
  let s1 := wr s (TIM_REF_FREQ i) freq
  let ok := inTol s1 freq.toInt && (i.val != 8 || sysrefOk s1) &&
    (i.val != 0 || fbit s1 TIM_SERVO_STATUS TIM_SERVO_STATUS_fed)
  if !ok then s1
  else
    let s2 := setPresent (setQual { s1 with tim := { s1.tim with missing := smSet 0 s1.tim.missing i 0 } } i true) i (s1.tim.elapsed - secU)
    let s3 := if selected s2 = 15 ∧ !s2.tim.holdOff then selection s2 else s2
    if auxInput s3 = some i.val ∧ dpllState s3 true ≠ 1 ∧ dpllState s3 true ≠ 2 then auxFollow s3 else s3

/-- 11 R344: fed_timer runs out: adj is held at integ, and PTP is disqualified. -/
def doFedTimerExpire (s : State) : State :=
  if fbit s TIM_SERVO_STATUS TIM_SERVO_STATUS_fed then
    let s1 := fset { s with tim := { s.tim with fedTimer := 0 } } TIM_SERVO_STATUS TIM_SERVO_STATUS_fed 0
    let max : Int := 256 * clampN 1000 200000 (fget s1 TIM_SERVO_MAX TIM_SERVO_MAX_max_ppb)
    disqualify (setAdj s1 s1.tim.integ max) 0
  else s

/-- 11 R351, R352: a missing period; the third in a row disqualifies. PTP's is the expiry of fed_timer; SYSREF has none. -/
def doRefMissingPeriod (p : MissedPeriod) (s : State) : State :=
  let i := p.input
  if i.val = 8 then s
  else if i.val = 0 then doFedTimerExpire s
  else
    let n := (if p.again then smGet 0 s.tim.missing i else 0) + 1
    let s1 := setPresent { s with tim := { s.tim with missing := smSet 0 s.tim.missing i n } } i (s.tim.elapsed + secU)
    if 3 ≤ n then disqualify s1 i else s1

/-- 11 R352: an input leaves its range; SYSREF's qualification is sysref_ok's. -/
def doRefDisqualify (i : Fin 9) (freq : BitVec 32) (s : State) : State :=
  let s1 := wr s (TIM_REF_FREQ i) freq
  if i.val = 8 then s1 else disqualify s1 i

/-- 11 R357: the hold-off ends, and a selection runs. -/
def doHoldOffExpire (s : State) : State :=
  if s.tim.holdOff then selection { s with tim := { s.tim with holdOff := false } } else s

/-- 11 R355, case 3. -/
def doWtrExpire (i : Fin 9) (s : State) : State :=
  match refRank s i, refRank s (selected s) with
  | some a, some b =>
    if fbit s TIM_SEL_CFG TIM_SEL_CFG_revertive && qualified s i && decide (a < b) && !s.tim.holdOff then selection s else s
  | _, _ => s

/-- 11 R355, case 5. -/
def doRankConflictRetry (s : State) : State :=
  if fbit s TIM_DPLL_STATUS TIM_DPLL_STATUS_rank_conflict then selection s else s

/-- 11 R355, case 4: a write to TIM_PRIO (entries 0 to 7) or TIM_SEL_CFG. -/
def priorityWrite (m k : Nat) (w : W32) (s : State) : State :=
  if isSealed s k then swWrite s m k w
  else
    let s1 := swWrite s m k w
    if s1.tim.holdOff then s1 else selection s1

/-! ## The DPLLs (11 R358 to R365) -/

/-- 11 R362 (log 33, DEDUCED). -/
def doDpllLock (aux : Bool) (freq phase : BitVec 32) (s : State) : State :=
  if dpllState s aux = 1 ∧ phase.toInt.natAbs ≤ 4000 then
    let s1 := setFreq (setDpll s aux 2) aux freq.toInt
    if aux then { s1 with tim := { s1.tim with auxPhase := phase.toInt, auxSamples := [] } }
    else wr { s1 with tim := { s1.tim with samples := [] } } TIM_DPLL_PHASE phase
  else s

/-- 11 R361: the bandwidth halves down to track_bw; not for the PTP input (11 R343). -/
def doBandwidthHalve (aux : Bool) (s : State) : State :=
  if dpllState s aux = 2 ∧ (aux ∨ selected s ≠ 0) then
    setBw s aux (Nat.max (bwU * clampN 1 1000 (fget s TIM_DPLL_CFG TIM_DPLL_CFG_track_bw))
      ((if aux then s.tim.auxBw else s.tim.bw) / 2))
  else s

/-- 11 R360, R363: a second in LOCKED ends: its mean frequency, and the phase error at its end (log 143, DESIGN CHOICE). -/
def doHoldoverSample (aux : Bool) (m : DpllSecond) (s : State) : State :=
  if dpllState s aux = 2 then
    let s1 := setFreq s aux m.freq.toInt
    if aux then { s1 with tim := { s1.tim with auxSamples := (m.freq.toInt :: s1.tim.auxSamples).take 62, auxPhase := m.phase.toInt } }
    else
      let s2 := { s1 with tim := { s1.tim with samples := (m.freq.toInt :: s1.tim.samples).take 62 } }
      if selected s = 0 then s2 else wr s2 TIM_DPLL_PHASE m.phase
  else s

/-- 11 R358, R364: HOLDOVER has lasted max_s; time comes to that instant. -/
def doHoldoverExpire (aux : Bool) (s : State) : State :=
  if dpllState s aux = 3 then
    let n := clampN 1 604800 (fget s TIM_HOLD_CFG TIM_HOLD_CFG_max_s)
    let at_ := (if aux then s.tim.auxHoldAt else s.tim.holdAt).getD s.tim.elapsed + n * secU
    setDpll (timeTo s (s.tim.freiz + (at_ - s.tim.elapsed))) aux 4
  else s

/-- 11 R353: into LOST, frozen at the estimate. -/
def toLost (s : State) (aux : Bool) : State :=
  let st := dpllState s aux
  if st = 1 ∨ st = 2 then setDpll (toHoldover s aux) aux 4 else setDpll s aux 4

/-- 11 R352, R353. -/
def doSysrefLoss (s : State) : State :=
  let s1 := fset s TIM_DPLL_STATUS TIM_DPLL_STATUS_sysref_ok 0
  let s2 := if qualified s1 8 then occur (cnt (setQual s1 8 false) TIM_DISQUAL) 0x180 8 [] else s1
  toLost (toLost s2 false) true

/-- 11 R353: both DPLLs enter FREE RUN, and selection starts again. -/
def doSysrefReturn (s : State) : State :=
  if sysrefOk s then s
  else
    let s1 := setPresent (setQual (fset s TIM_DPLL_STATUS TIM_DPLL_STATUS_sysref_ok 1) 8 true) 8 (s.tim.elapsed - secU)
    let s2 := setFreq (setDpll (setFreq (setDpll s1 false 0) false 0) true 0) true 0
    let s3 := { s2 with tim := { s2.tim with holdOff := false } }
    let (r, conflict) := selectInput s3
    let s4 := selectionTake r conflict s3
    let s5 := if r = some (selected s3) then followInput s4 false (selected s3) else s4
    auxFollow s5

/-! ## Time steps (11 R346 to R349) -/

/-- The domain at whose tick an accepted step applies. -/
def stepDom (s : State) : Option Dom := allDoms.find? (fun x => running s x && !isIndep s x)

/-- Round a rational num / den (den > 0) to nearest, ties to even. -/
def roundDiv (num : Int) (den : Nat) : Int :=
  let q := num / (den : Int)
  let r := num % (den : Int)
  if 2 * r > den ∨ (2 * r = den ∧ q % 2 = 1) then q + 1 else q

/-- 11 R347 apply_step: Δ and ρ of a domain of rate `f` after a step of `d` (units of 2^-32 ns). -/
def stepOffsets (delta rho d : Int) (f : Nat) : Int × Int :=
  let num := (delta * 2 ^ 32 + rho) * 1000000000 + d * f
  let whole := roundDiv num (1000000000 * 2 ^ 32)
  (whole, roundDiv (num - whole * 2 ^ 32 * 1000000000) 1000000000)

/-- 11 R347, R348: the waiting step is applied, at tick `n` of domain `x` if one is given. -/
def stepApply (at_ : Option (Dom × Nat)) (s : State) : State :=
  match s.tim.stepWait with
  | none => s
  | some w =>
    let upd := fun (s : State) (x : Dom) =>
      if isIndep s x then s
      else
        let (dl, rh) := stepOffsets (pdGet s.tim.delta x) (pdGet s.tim.rho x) w.delta (domHz s x)
        { s with tim := { s.tim with delta := pdSet s.tim.delta x dl, rho := pdSet s.tim.rho x rh } }
    let s1 := allDoms.foldl upd { s with tim := { s.tim with stepWait := none } }
    let freiz := ((s1.tim.freiz : Int) + w.delta).toNat
    let s2 := { s1 with tim := { s1.tim with freiz := freiz, ppsAt := 0 }, str := { s1.str with meterAt := freiz } }
    let s3 := cnt (fset s2 TIM_SERVO_STATUS TIM_SERVO_STATUS_step_refused 0) TIM_STEP_DONE
    let ns := w.delta / 2 ^ 32
    let frac := (w.delta % 2 ^ 32).toNat
    let ns64 := (BitVec.ofInt 64 ns).toNat
    let s4 := occur s3 0x181 0 (det64 ns64 ++ [BitVec.ofNat 32 frac])
    let (tick, dl) := match at_ with
      | some (x, n) => (n, (BitVec.ofInt 32 (pdGet s4.tim.delta x)).toNat)
      | none => (0, 0)
    complete s4 w.ticket ocOK (domCode (at_.map (·.1)))
      (ns64 + frac * 2 ^ 64 + tick % 2 ^ 64 * 2 ^ 96 + dl * 2 ^ 160)

/-- 11 R347: the step waits for the tick event of this domain. -/
def stepAtTick (x : Dom) (n : Nat) (s : State) : State :=
  if s.tim.stepWait.isSome ∧ stepDom s = some x then stepApply (some (x, n)) s else s

/-- The row STEP_APPLY: the waiting step is applied with the coming tick event of its domain. -/
def doStepApply (s : State) : State :=
  match stepDom s with
  | some x => stepApply (some (x, (genOf s x).next)) s
  | none => stepApply none s

/-- 11 R346: TIME_STEP with ticket `t`: refused, or accepted (log 31, DESIGN CHOICE). -/
def timeStepCmd (t : Nat) (e : BitVec 512) (s : State) : State :=
  let mode := eByte e 17 1
  match eReserved e [(16, 2), (24, 12)] with
  | some i => refuse s t ocRANGE i
  | none =>
    if eByte e 16 1 ≠ 1 then refuse s t ocNOTPERMITTED 16
    else if 1 < mode then refuse s t ocRANGE 17
    else if s.tim.stepWait.isSome then refuseAll s t ocBUSY
    else if mode = 0 ∧ !fbit s TIM_SERVO_STATUS TIM_SERVO_STATUS_step_refused then refuseAll s t ocNOOFFSET
    else
      let d : Int := if mode = 0 then -((rd s TIM_SERVO_REFUSED).toInt) * 2 ^ 32
        else (BitVec.ofNat 64 (eByte e 24 8)).toInt * 2 ^ 32 + eByte e 32 4
      let s1 := { s with tim := { s.tim with stepWait := some ⟨d, t⟩ } }
      if (stepDom s1).isNone then stepApply none s1 else s1

/-! ## PPS pins (11 R368, R369) -/

/-- 17 R524: the outputs are open. -/
def outputsOpen (s : State) : Bool := fget s CTL_CAT_STATUS CTL_CAT_STATUS_state = 5

/-- The second whose pulse comes next: the first one at or after the present that has had none. -/
def ppsSecond (s : State) : Nat := Nat.max s.tim.ppsAt ((s.tim.freiz + secU - 1) / secU)

/-- 11 R368: a whole second of Freiz time. -/
def doPpsOutPulse (s : State) : State :=
  let n := ppsSecond s
  let s0 := timeTo s (n * secU)
  let s1 := { s0 with tim := { s0.tim with ppsAt := n + 1 } }
  let w := rd s1 PRT_PPS_CFG
  let ok := wbit w PRT_PPS_CFG_enable && outputsOpen s1 && domOn s1 13 && !s1.pin.absent.contains .vddio3 &&
    (!wbit w PRT_PPS_CFG_locked_only || (selected s1 == 0 && dpllState s1 false == 2))
  if ok then emit { s1 with pin := { s1.pin with ppsOut := true } } (.pps true) else s1

/-- 11 R368: width_ms after the rise. -/
def doPpsOutPulseEnd (s : State) : State :=
  if s.pin.ppsOut then emit { s with pin := { s.pin with ppsOut := false } } (.pps false) else s

/-- 11 R369: an edge at the instant `t`, stamped to 0.25 ns. -/
def doPpsInEdge (t : Nat) (s : State) : State :=
  if s.pin.absent.contains .vddio3 || !domOn s 13 then s
  else
    let s1 := timeTo s t
    cnt { s1 with tim := { s1.tim with ppsIn := s1.tim.freiz / 2 ^ 30 * 2 ^ 30 } } PRT_PPS_IN

end Sys2Proof.Machine
end

