-- ==== Sys2Proof/Machine/Twins.lean ====
section
/-! DEFINITION. Replica pairs, provenance words, local-output ownership, Conservation mode and rotation (spec/12, with
the core rotation of spec/06 R212, R213). -/

namespace Sys2Proof.Machine

/-! ## Units and roles (03 R65, 05 R136, 06 R170): kind 1 tile, 2 Atelier core, 3 strip unit -/

def roleOff : Nat := 0
def roleActive : Nat := 1
def roleSpare : Nat := 2
def roleShadow : Nat := 3

def unitCount (kind : Nat) : Nat := if kind = 3 then 34 else 68
def logicalCount (kind : Nat) : Nat := if kind = 3 then 32 else 64
def unitKey (kind u : Nat) : Nat := match kind with | 1 => GAL_TILE_STATUS u | 2 => ATL_CORE_STATUS u | _ => STR_UNIT_STATUS u
def roleFld (kind : Nat) : Fld := match kind with | 1 => GAL_TILE_STATUS_role | 2 => ATL_CORE_STATUS_role | _ => STR_UNIT_STATUS_role
def logFld (kind : Nat) : Fld :=
  match kind with | 1 => GAL_TILE_STATUS_logical | 2 => ATL_CORE_STATUS_logical | _ => STR_UNIT_STATUS_logical
def roleOf (s : State) (kind u : Nat) : Nat := fget s (unitKey kind u) (roleFld kind)
def setRole (s : State) (kind u role logical : Nat) : State :=
  fset (fset s (unitKey kind u) (roleFld kind) role) (unitKey kind u) (logFld kind) logical
/-- The physical unit that serves a logical one. -/
def physOf (s : State) (kind j : Nat) : Nat :=
  match kind with
  | 1 => fget s (TWN_ROT_MAP j) TWN_ROT_MAP_tile
  | 2 => fget s (ATL_LCORE_STATUS j) ATL_LCORE_STATUS_physical
  | _ => fget s (TWN_ROT_MAP j) TWN_ROT_MAP_strip
def setPhys (s : State) (kind j u : Nat) : State :=
  match kind with
  | 1 => fset s (TWN_ROT_MAP j) TWN_ROT_MAP_tile u
  | 2 => fset s (ATL_LCORE_STATUS j) ATL_LCORE_STATUS_physical u
  | _ => fset s (TWN_ROT_MAP j) TWN_ROT_MAP_strip u
/-- The island clock of a unit is locked (03 R68, 06 R171; strip units show no such bit). -/
def clkOk (s : State) (kind u : Nat) : Bool :=
  match kind with
  | 1 => fbit s (GAL_TILE_STATUS u) GAL_TILE_STATUS_clk_ok
  | 2 => fbit s (ATL_CORE_STATUS u) ATL_CORE_STATUS_clk_ok
  | _ => true
def setClk (s : State) (kind u : Nat) : State :=
  match kind with
  | 1 => fset s (GAL_TILE_STATUS u) GAL_TILE_STATUS_clk_ok 1
  | 2 => fset s (ATL_CORE_STATUS u) ATL_CORE_STATUS_clk_ok 1
  | _ => s
/-- 03 R68, 06 R171: the islands of a domain of tiles or cores are placed on their PLLs. The source says so of SELECTING and of
a resume; a domain that returns from OFF is placed by its raise (log 151, DESIGN CHOICE). -/
def islandsPlace (d : Nat) (s : State) : State :=
  if 2 ≤ d ∧ d ≤ 5 then (List.range 17).foldl (fun s i => setClk s 1 (17 * (d - 2) + i)) s
  else if 6 ≤ d ∧ d ≤ 9 then (List.range 17).foldl (fun s i => setClk s 2 (17 * (d - 6) + i)) s
  else s

/-- 03 R68, 18 R550: firmware that resumed after a wake has placed the islands of every domain that is ON before it starts a
tick generator. In the other runs that reach DONE, SELECTING has placed them, and nothing changes. -/
def islandsResume (s : State) : State :=
  let st := fget s CTL_CAT_STATUS CTL_CAT_STATUS_state
  if st = 4 ∨ st = 5 then (List.range 10).foldl (fun s d => if domOn s d then islandsPlace d s else s) s else s
/-- The power domain of a unit (18 R526). -/
def unitPower (kind u : Nat) : Nat := match kind with | 1 => 2 + u / 17 | 2 => 6 + u / 17 | _ => 10

/-! ## Logical cores and frame budgets (06 R173, R187) -/

/-- The domain a logical core is bound to. -/
def coreDom (s : State) (j : Nat) : Option Dom := domOf (fget s (ATL_LCORE_STATUS j) ATL_LCORE_STATUS_domain)
/-- The logical core a physical one serves while ACTIVE or SHADOW. -/
def coreServes (s : State) (c : Nat) : Option Nat :=
  if roleOf s 2 c = roleActive ∨ roleOf s 2 c = roleShadow then some (fget s (ATL_CORE_STATUS c) ATL_CORE_STATUS_logical) else none
/-- 06 R173: the domain of the frames a physical core runs. -/
def coreRunDom (s : State) (c : Nat) : Option Dom :=
  match coreServes s c with
  | some j => if domOn s (unitPower 2 c) then coreDom s j else none
  | none => none
/-- 06 R187. -/
def coreBudget (s : State) (c : Nat) : Nat :=
  match coreRunDom s c with
  | some x => 1600000000 / domHz s x - 64 - (if isIndep s x then 16 else 0)
  | none => 0
def coreCutoff (s : State) (c : Nat) : Nat :=
  if (coreRunDom s c).isSome then coreBudget s c - clampN 1024 8192 (fget s ATL_LM_CFG ATL_LM_CFG_lead_cycles) else 0

/-! ## Twin state and ownership (12 R370 to R389) -/

def peerState (s : State) : Nat := fget s TWN_STATUS TWN_STATUS_peer
/-- 12 R370, R385, R386: the frames of local outputs that begin now are driven, outputs being open: those of an owner from the
start of the tick after the one that took ownership. -/
def drivesLocal (s : State) : Bool :=
  outputsOpen s && (match twnMode s with | 0 => true | 3 => false | _ => isOwner s && s.twn.ownLive)

/-- 20 R583: TWIN_ALIVE. -/
def twinAlive (s : State) : Bool := outputsOpen s && !s.twn.withdrawn

def doTwinMessageSend (s : State) : State := twinSend s

/-- 12 R387: the owner stops driving and releases TWIN_OWN_OUT. -/
def releaseNow (s : State) : State :=
  if isOwner s then
    let s1 := fset s TWN_STATUS TWN_STATUS_owner 0
    twinOn s { s1 with twn := { s1.twn with ownOut := false, ownLive := false, relLock := true, releaseDue := false, highs := 0 } }
  else { s with twn := { s.twn with releaseDue := false } }

/-- 12 R382: a withdrawn twin A whose peer is WITHDRAWN or LOST is to return to air. -/
def returnDue (s : State) : State :=
  if isTwin s && s.twn.withdrawn && !roleB s && decide (2 ≤ peerState s) then { s with twn := { s.twn with airDue := some true } } else s

/-- 12 R374, R380, R387: the accused engine withdraws, and is to release the local outputs. -/
def withdrawNow (s : State) : State :=
  if s.twn.withdrawDue then
    let s1 := fset { s with twn := { s.twn with withdrawDue := false, withdrawn := true, releaseDue := isOwner s } } TWN_STATUS TWN_STATUS_on_air 0
    returnDue (twinOn s s1)
  else s
def doWithdraw (s : State) : State := withdrawNow s

/-- 12 R382, R383: the engine returns to air; one that returns alone may take ownership again (log 38, DEDUCED). -/
def airNow (s : State) : State :=
  match s.twn.airDue with
  | none => s
  | some alone =>
    let s1 := fset s TWN_STATUS TWN_STATUS_on_air 1
    let s2 := if alone then fset s1 TWN_STATUS TWN_STATUS_sole 1 else s1
    twinOn s { s2 with twn := { s2.twn with withdrawn := false, withdrawDue := false, airDue := none, relLock := s2.twn.relLock && !alone } }

/-- 12 R377: TWIN_DIVERGE is lowered. -/
def clearDiverge (s : State) : State :=
  let s1 := fset s TWN_STATUS TWN_STATUS_diverge 0
  { s1 with twn := { s1.twn with runs := s1.twn.runs.map (fun (d, r) => (d, { r with since := false })) } }

/-- The peer's condition changes (12 R379). -/
def setPeer (s : State) (v : Nat) : State :=
  let s1 := fset s TWN_STATUS TWN_STATUS_peer v
  returnDue (if v ≠ 1 then clearDiverge s1 else s1)

/-- 12 R379: a TWIN message over the twin link. -/
def twinMsgIn (l : Nat) (body : List (BitVec 64)) (s : State) : State :=
  match body with
  | [w0, w1] =>
    if l = 0 ∧ isTwin s ∧ fget s (DAX_LINK_STATUS 0) DAX_LINK_STATUS_state = 5 then
      setPeer { s with twn := { s.twn with peerWord0 := w0, peerWord1 := w1 } } (if w0.getLsbD 0 then 1 else 2)
    else s
  | _ => s

/-- 12 R379: no TWIN message for 3 ms, or the twin link has left UP. -/
def doPeerLost (s : State) : State := if isTwin s ∧ peerState s ≠ 0 then setPeer s 3 else s

/-- 12 R383 case 3: some bound D-slot has not matched in its last two blocks. -/
def someUnmatched (s : State) : Bool :=
  s.scn.dDom.any (fun (d, x) => x.isSome && decide ((smGet ⟨0, 0, 0, false⟩ s.twn.runs d).good < 2))

/-- 12 R383. -/
def rejoin (s : State) : State :=
  let code := if !isTwin s then 1 else if peerState s ≠ 1 then 2 else if someUnmatched s then 3 else 0
  let s1 := fset s TWN_STATUS TWN_STATUS_refusal code
  if code ≠ 0 then s1
  else
    let s2 := fset (fset s1 TWN_STATUS TWN_STATUS_accused 0) TWN_STATUS TWN_STATUS_cause 0
    twinOn s { s2 with twn := { s2.twn with withdrawDue := false, relLock := false, airDue := if s2.twn.withdrawn then some false else none } }

/-- 12 TWN_CTRL: withdraw, rejoin, release. -/
def twnCtrl (w : W32) (s : State) : State :=
  let s1 := if wbit w TWN_CTRL_withdraw then accuse s 8 else s
  let s2 := if wbit w TWN_CTRL_rejoin then rejoin s1 else s1
  if wbit w TWN_CTRL_release ∧ isOwner s2 then { s2 with twn := { s2.twn with releaseDue := true } } else s2

/-- 12 R380, R382, R383, R386, R387: what the start of a tick of domain `x` does: a withdrawal that waits takes effect; at a tick of
the ownership domain, so do a return to air and a release, and an owner drives from here on. A mode change to SINGLE or
ARBITER releases as well (log 38, DEDUCED). -/
def twinTick (x : Dom) (s : State) : State :=
  let s1 := withdrawNow s
  if ownDomain s1 = some x then
    let s2 := airNow s1
    let s3 := if s2.twn.releaseDue ∨ (isOwner s2 ∧ !isTwin s2) then releaseNow s2 else s2
    { s3 with twn := { s3.twn with ownLive := isOwner s3 } }
  else s1

/-- 12 R370: TWN_CFG has been written, from state `s` to `t`: an engine that has become a twin with its outputs open is on air, and
one that is none has no peer and is not withdrawn (log 38, DEDUCED). -/
def twinCfg (s t : State) : State :=
  let t1 :=
    if isTwin t then (if outputsOpen t && !t.twn.withdrawn then fset t TWN_STATUS TWN_STATUS_on_air 1 else t)
    else
      let t1 := fset (fset t TWN_STATUS TWN_STATUS_on_air 0) TWN_STATUS TWN_STATUS_peer 0
      { t1 with twn := { t1.twn with withdrawn := false, withdrawDue := false, airDue := none } }
  twinOn s t1

/-- 12 R386: a sample of TWIN_OWN_IN. -/
def doOwnershipSample (high : Bool) (s : State) : State :=
  if (ownDomain s).isNone then s
  else
    let s1 := fset s TWN_STATUS TWN_STATUS_own_in (b2n high)
    if !high then { s1 with twn := { s1.twn with relLock := false, highs := 0 } }
    else
      let n := s1.twn.highs + 1
      let s2 := { s1 with twn := { s1.twn with highs := n } }
      let need := if roleB s2 then 2 else 1
      if isTwin s2 && outputsOpen s2 && onAir s2 && fbit s2 TWN_CFG TWN_CFG_own_enable && !isOwner s2 && !s2.twn.relLock &&
          decide (need ≤ n) then
        let s3 := cnt (fset s2 TWN_STATUS TWN_STATUS_owner 1) TWN_OWN_CHANGE
        twinOn s2 { s3 with twn := { s3.twn with ownOut := true, highs := 0 } }
      else s2

/-! ## Provenance words (12 R375 to R377, R384) -/

/-- 12 R375: output strip of D-slot `d` hands `v` to the output patch for index `n` (log 36, DEDUCED). -/
def provTake (x : Dom) (d n : Nat) (v : S64) (s : State) : State :=
  if twnMode s = 0 then s
  else
    let put := fun (a : Option ProvAcc) => { s with twn := { s.twn with acc := smSet none s.twn.acc d a } }
    match smGet none s.twn.acc d with
    | some a =>
      if a.dom = x ∧ a.j = n / 64 ∧ a.n = n % 64 then put (some { a with crc := crc64Word a.crc v, n := a.n + 1 })
      else if n % 64 = 0 then put (some ⟨x, n / 64, crc64Word 0 v, 1⟩) else put none
    | none => if n % 64 = 0 then put (some ⟨x, n / 64, crc64Word 0 v, 1⟩) else s

/-- 10 R327: the tag word. -/
def provTag (p : ProvWord) : BitVec 64 := BitVec.ofNat 64 (p.d + (domNo p.dom + 1) * 2 ^ 12 + p.j % 2 ^ 48 * 2 ^ 16)

/-- Messages of up to 32 entries each (10 R326); `k` bounds their number. -/
def provMsgs (k : Nat) (l : List ProvWord) : List DaxMsg :=
  match k with
  | 0 => []
  | k + 1 =>
    if l.isEmpty then []
    else { type := 0x20, dest := 0, bcast := false, hops := 0, src := 0,
           body := ((l.take 32).map (fun p => [provTag p, p.word])).flatten } :: provMsgs k (l.drop 32)

/-- 12 R384: TWN_STATUS.arbiter_seen while an arbiter word has arrived within the last 16 blocks of some domain. -/
def arbiterShow (s : State) : State :=
  fset s TWN_STATUS TWN_STATUS_arbiter_seen (b2n (allDoms.any (fun y =>
    decide (pdGet s.twn.arbAt y ≠ 0 ∧ nowIdx s y / 64 + 1 ≤ pdGet s.twn.arbAt y + 16))))

/-- 12 R375, R376: the words of the block of domain `x` that has ended. Words older than 16 blocks are no longer held; those without a
peer word are missing. -/
def doProvenanceBlock (x : Dom) (s : State) : State :=
  if twnMode s = 0 then s
  else
    let full := s.twn.acc.filterMap (fun (d, a) =>
      match a with
      | some a => if a.dom = x ∧ a.n = 64 then some (ProvWord.mk x a.j d a.crc false) else none
      | none => none)
    let rest := s.twn.acc.filter (fun (_, a) => match a with | some a => !(a.dom == x && a.n == 64) | none => false)
    let old := fun (w : ProvWord) => w.dom == x && decide (w.j + 17 ≤ (nowIdx s x + 1) / 64)
    let s1 := { s with twn := { s.twn with acc := rest, own := s.twn.own.filter (fun w => !old w) ++ full,
                                           missed := s.twn.missed ++ s.twn.own.filter (fun w => old w && !w.seen) } }
    let msgs := provMsgs 128 full
    let s2 := msgs.foldl (fun s m => daxOwn s 0 m) (arbiterShow s1)
    if twnMode s = 3 then msgs.foldl (fun s m => daxOwn s 1 m) s2 else s2

def sameTag (a b : ProvWord) : Bool := a.dom == b.dom && a.d == b.d && a.j % 2 ^ 48 == b.j % 2 ^ 48
def findTag (l : List ProvWord) (p : ProvWord) : Option ProvWord := l.find? (sameTag p)

/-- 12 R384: in TRIAD mode, with both twins on air and TWIN_DIVERGE raised, the verdict on D-slot `d` and blocks j − 1
and j: this engine accuses itself when its own words differ from both others' while the peer's equal the arbiter's. -/
def verdict (p : ProvWord) (s : State) : State :=
  if twnMode s = 2 && onAir s && peerState s == 1 && fbit s TWN_STATUS TWN_STATUS_diverge &&
      !(fbit s TWN_STATUS TWN_STATUS_accused && fget s TWN_STATUS TWN_STATUS_cause == 7) then
    let bad := fun (j : Nat) =>
      let q := { p with j := j }
      match findTag s.twn.own q, findTag s.twn.peer q, findTag s.twn.arb q with
      | some o, some e, some a => o.word != e.word && e.word == a.word
      | _, _, _ => false
    if bad p.j && bad (p.j - 1) then accuse s 7 else s
  else s

/-- 12 R376, R377: one received word is compared with the engine's own. -/
def provCompare (l : Nat) (p : ProvWord) (s : State) : State :=
  let own := findTag s.twn.own p
  let same := match own with | some o => o.word == p.word | none => false
  let s1 := if same then s else cnt s TWN_MISMATCH
  let keep := fun (q : List ProvWord) => (q.filter (fun w => w.dom != p.dom || decide (p.j < w.j + 16))) ++ [p]
  if l = 1 then
    verdict p (arbiterShow { s1 with twn := { s1.twn with arb := keep s1.twn.arb, arbAt := pdSet s1.twn.arbAt p.dom (nowIdx s1 p.dom / 64 + 1) } })
  else
    let seen := s1.twn.own.map (fun w => if sameTag p w then { w with seen := true } else w)
    let s2 := { s1 with twn := { s1.twn with peer := keep s1.twn.peer, own := seen } }
    let r := smGet ⟨0, 0, 0, false⟩ s2.twn.runs p.d
    let setRun := fun (s : State) (r : ProvRun) => { s with twn := { s.twn with runs := smSet ⟨0, 0, 0, false⟩ s.twn.runs p.d r } }
    if same then
      let s3 := setRun s2 { r with good := if r.goodJ = p.j then r.good + 1 else 1, goodJ := p.j + 1 }
      if fbit s3 TWN_STATUS TWN_STATUS_diverge && s3.twn.runs.all (fun (_, r) => !r.since || decide (16 ≤ r.good)) then
        clearDiverge s3
      else s3
    else
      let air := onAir s2 && peerState s2 == 1
      let twice := decide (r.badJ = p.j ∧ 0 < p.j)
      let raise_ := twice && air
      let up := raise_ || fbit s2 TWN_STATUS TWN_STATUS_diverge
      let s3 := setRun s2 ⟨if air then p.j + 1 else 0, 0, 0, up⟩
      if raise_ then
        let s4 := cnt (fset s3 TWN_STATUS TWN_STATUS_diverge 1) TWN_DIVERGE
        let src := (domNo p.dom + 1) * 2 ^ 12 + p.d
        let s5 := occur (wr s4 TWN_DIV_AT (BitVec.ofNat 32 src)) 0x1C0 src (det64 (64 * p.j))
        verdict p s5
      else s3

/-- Entries of a PROVENANCE body. -/
def provEntries : List (BitVec 64) → List ProvWord
  | t :: w :: rest =>
    let v := t.toNat
    (match domOf (bitsOf v 12 2) with
     | some x => [⟨x, v / 2 ^ 16, v % 4096, w, false⟩]
     | none => []) ++ provEntries rest
  | _ => []

/-- 12 R376: a PROVENANCE message from the twin link, or from the arbiter on dax1 in TRIAD mode. -/
def provMsgIn (l : Nat) (body : List (BitVec 64)) (s : State) : State :=
  if twnMode s = 0 ∨ (l = 1 ∧ twnMode s ≠ 2 ∧ twnMode s ≠ 3) then s
  else (provEntries body).foldl (fun s p => provCompare (if twnMode s = 3 then 0 else l) p s) s

/-- 12 R376, R383: 16 blocks have passed without a peer word; the D-slot has not matched in that block. -/
def doProvenanceMissing (x : Dom) (d : Fin 4096) (j : Nat) (s : State) : State :=
  let mine := fun (w : ProvWord) => w.dom == x && w.d == d.val && w.j == j && !w.seen
  if !(s.twn.own.any mine || s.twn.missed.any mine) then s
  else
    let r := smGet ⟨0, 0, 0, false⟩ s.twn.runs d
    cnt { s with twn := { s.twn with own := s.twn.own.map (fun w => if mine w then { w with seen := true } else w),
                                     missed := s.twn.missed.filter (fun w => !mine w),
                                     runs := smSet ⟨0, 0, 0, false⟩ s.twn.runs d { r with good := 0, goodJ := 0 } } } TWN_MISSING

/-! ## Rotation (12 R394 to R397, 06 R212, R213) -/

/-- The domains a logical unit serves. -/
def unitServes (s : State) (kind j : Nat) (x : Dom) : Bool :=
  match kind with
  | 1 => s.scn.dDom.any (fun (d, y) => d / 64 == j && y == some x)
  | 2 => domOf (fget s (ATL_LCORE_STATUS j) ATL_LCORE_STATUS_domain) == some x
  | _ => s.scn.sDom.any (fun (i, y) => i % 32 == j && y == some x) || s.scn.dDom.any (fun (d, y) => d % 32 == j && y == some x)

def setRotStatus (s : State) (kind spare logical phase : Nat) : State :=
  wr s TWN_ROT_STATUS (BitVec.ofNat 32 (kind * 2 ^ TWN_ROT_STATUS_kind.lo + spare * 2 ^ TWN_ROT_STATUS_spare.lo +
    logical * 2 ^ TWN_ROT_STATUS_logical.lo + phase))
def rotPhase (s : State) : Nat := fget s TWN_ROT_STATUS TWN_ROT_STATUS_phase
def setRot (s : State) (r : Option Rotation) : State := { s with twn := { s.twn with rot := r } }

/-- 12 R391: a unit is under test. -/
def underTest (s : State) (kind u : Nat) : Bool :=
  match s.twn.conserve with
  | none => false
  | some c => bitOf c.mask (kind - 1) && roleOf s kind u == roleSpare

/-- 12 R392, R394: a unit that can be taken as a spare. -/
def canSpare (s : State) (kind u : Nat) : Bool :=
  roleOf s kind u == roleSpare && !s.twn.failed.contains (kind, u) && s.twn.spares.contains (kind, u) && !underTest s kind u

/-! ## Conservation mode (12 R391 to R393) -/

/-- An Atrium address range lies wholly in the Storeroom's normal view, or in DRAM. -/
def inStore (a n : Nat) : Bool := decide (0x4000_0000 ≤ a) && decide (a + n ≤ 0x4200_0000)
def inDramSpace (a n : Nat) : Bool := decide (0x1_0000_0000 ≤ a) && decide (a + n ≤ 0x21_0000_0000)
def dramReady (s : State) : Bool := fbit s DRC_STATUS DRC_STATUS_ready

/-- Physical units in scope: spare and off ones. -/
def testUnits (s : State) (mask : Nat) : List (Nat × Nat) :=
  ([1, 2, 3].map (fun k => if bitOf mask (k - 1) then
    (((List.range (unitCount k)).filter (fun u => roleOf s k u == roleOff || roleOf s k u == roleSpare)).map (fun u => (k, u)))
    else [])).flatten

/-- 12 R391: CONSERVE with ticket `t` (logs 37 and 139, DESIGN CHOICE). -/
def conserveCmd (t : Nat) (e : BitVec 512) (s : State) : State :=
  let mask := eByte e 16 1
  let a := eByte e 24 8
  match eReserved e [(16, 2), (24, 8)] with
  | some i => refuse s t ocRANGE i
  | none =>
    if 64 ≤ mask then refuse s t ocRANGE 16
    else if 2 ≤ eByte e 17 1 then refuse s t ocRANGE 17
    else if a % 4096 ≠ 0 ∨ !(inStore a 32768 || inDramSpace a 32768) then refuse s t ocRANGE 24
    else if inDramSpace a 32768 ∧ !dramReady s then refuse s t ocNODRAM 24
    else if !fbit s CTL_BG_EN CTL_BG_EN_conserve then refuseAll s t ocDISABLED
    else if s.twn.conserve.isSome then refuseAll s t ocBUSY
    else
      let us := testUnits s mask
      let s1 := us.foldl (fun s (k, u) => setKey (setRole s k u roleSpare 0) 10 (unitPower k u) true) s
      { s1 with twn := { s1.twn with conserve := some ⟨mask, eByte e 17 1 = 1, a, t, 0⟩ } }

/-- 12 R393: an entry of the health report. -/
def consBytes (it : ConsItem) : List Byte :=
  leBytes 1 it.kind.val ++ leBytes 1 it.result.val ++ leBytes 2 it.unit.toNat ++ leBytes 4 it.failAt.toNat ++
    leBytes 4 it.margin.toNat ++ leBytes 4 0

/-- 12 R393: the report of a pass: entries, then the header, its sequence number last. -/
def consReport (c : Conserve) (seq : Nat) (items : List ConsItem) (s : State) : State :=
  let l := items.take 2044
  let bad := (l.filter (fun it => it.result.val == 1)).length
  let t := s.tim.freiz
  let s1 := memStoreBytes s (c.report + 64) ((l.map consBytes).flatten)
  let s2 := memStoreBytes s1 (c.report + 8) (leBytes 4 (freizFrac t) ++ leBytes 4 (freizNs t) ++ leBytes 8 (freizSec t) ++
    leBytes 4 (c.passes + 1) ++ leBytes 4 l.length ++ leBytes 4 bad ++ leBytes 28 0)
  memStore s2 c.report 8 seq

/-- Conservation mode stops: its keys go, and a pass that the catalogue asked for is over (17 R525). -/
def consStop (s0 : State) : State :=
  let s := match s0.twn.conserve with
    | some c => if s0.cat.consTicket = some c.ticket then { s0 with cat := { s0.cat with consTicket := none } } else s0
    | none => s0
  let s1 := (List.range 15).foldl (fun s d => if 1 ≤ d then setKey s 10 d false else s) s
  { s1 with twn := { s1.twn with conserve := none } }

/-- 12 R391: an item lies in the scope: units by kind, port sides, memories, ageing monitors. -/
def consScope (c : Conserve) (it : ConsItem) : Bool :=
  match it.kind.val with
  | 1 => bitOf c.mask 0
  | 2 => bitOf c.mask 1
  | 3 => bitOf c.mask 2
  | 4 => bitOf c.mask 4
  | 5 => bitOf c.mask 3
  | 6 => bitOf c.mask 5
  | _ => false

/-- 12 R392: a pass ends with these findings; those outside the scope are none of its tests. -/
def doConservePassEnd (all : List ConsItem) (s : State) : State :=
  match s.twn.conserve with
  | none => s
  | some c =>
    let items := all.filter (consScope c)
    let one := fun (s : State) (it : ConsItem) =>
      let k := it.kind.val
      let u := it.unit.toNat
      if 1 ≤ k ∧ k ≤ 3 ∧ u < unitCount k ∧ roleOf s k u = roleSpare then
        let s1 := setClk s k u
        if it.result.val = 1 then
          (if s1.twn.failed.contains (k, u) then s1 else { s1 with twn := { s1.twn with failed := s1.twn.failed ++ [(k, u)] } })
        else if it.result.val = 0 then
          let s2 := { s1 with twn := { s1.twn with failed := s1.twn.failed.filter (· != (k, u)) } }
          if k = 1 then fset s2 (GAL_TILE_STATUS u) GAL_TILE_STATUS_failed 0 else s2
        else s1
      else s
    let s1 := items.foldl one s
    let s2 := consReport c (s1.twn.consSeq + 1) items s1
    let s3 := { s2 with twn := { s2.twn with consSeq := s2.twn.consSeq + 1 } }
    if c.repeating then { s3 with twn := { s3.twn with conserve := some { c with passes := c.passes + 1 } } }
    else
      let bad := items.any (fun it => it.result.val == 1)
      complete (consStop s3) c.ticket (if bad then ocFAILED else ocOK) 0 0

end Sys2Proof.Machine
end

