-- ==== Sys2Proof/Machine/Dram.lean ====
section
/-! DEFINITION. The DRAM controller (spec/14): address mapping, partitions, write queue, scheduling, refresh, alerts,
row-hammer defence, training, retirement and readmission; the token buckets of spec/15 R475. -/

namespace Sys2Proof.Machine

/-! ## Channels and address mapping -/

def chState (s : State) (ch : Nat) : Nat := fget s (DRC_CH_STATUS ch) DRC_CH_STATUS_state
def setChState (s : State) (ch v : Nat) : State := fset s (DRC_CH_STATUS ch) DRC_CH_STATUS_state v
def chOFF : Nat := 0
def chTRAINING : Nat := 1
def chREADY : Nat := 2
def chRETIRING : Nat := 3
def chRETIRED : Nat := 4
def chREADMITTING : Nat := 5
def chFAULTY : Nat := 6
def chTRAINFAILED : Nat := 7

/-- 14 R430: bytes of one subchannel for a geometry word: 4 KiB rows, banks, bank groups, ranks. -/
def geomBytes (g : W32) : Nat :=
  2 ^ (12 + wget g DRC_CH_GEOM_bg + wget g DRC_CH_GEOM_bk + wget g DRC_CH_GEOM_rw + wget g DRC_CH_GEOM_two_rank)

/-- 14 R428: the interleave grain latched at init, and the number of subchannels. -/
def grainOf (s : State) : Nat := 64 * 2 ^ wget s.drc.cfg DRC_CFG_grain
def subsN (s : State) : Nat := s.drc.subs.length

/-- The channel whose chunks the retired branch of 14 R428 moves. -/
def retiredCh (s : State) : Option Nat :=
  if fbit s DRC_STATUS DRC_STATUS_retired_valid then some (fget s DRC_STATUS DRC_STATUS_retired) else none

/-! ## Partitions (14 R431, R432) -/

/-- Base and end of an enabled entry with a usable kind. -/
def partSpan (s : State) (e : Nat) : Option (Nat × Nat × Nat) :=
  let size := (rd s (DRC_PART_SIZE e)).toNat
  let kind := fget s (DRC_PART_CFG e) DRC_PART_CFG_kind
  if fbit s (DRC_PART_CFG e) DRC_PART_CFG_enable ∧ size ≠ 0 ∧ kind ≤ 4 then
    let base := (get64 s (DRC_PART_BASE_LO e) (DRC_PART_BASE_HI e)) / 2 ^ 20 * 2 ^ 20
    some (kind, base, base + size * 2 ^ 20)
  else none

/-- 14 R431: entry `e` overlaps a lower-numbered enabled entry. -/
def partIgnored (s : State) (e : Nat) : Bool :=
  match partSpan s e with
  | none => false
  | some (_, lo, hi) => (List.range e).any (fun j => match partSpan s j with
    | none => false
    | some (_, lo', hi') => decide (lo < hi') && decide (lo' < hi))

/-- 14 R431: DRC_STATUS.part_conflict follows the table, which only software writes. -/
def partConflict (s : State) : State :=
  fset s DRC_STATUS DRC_STATUS_part_conflict (b2n ((List.range 8).any (partIgnored s)))

/-- 14 R431: the kind a master is confined to. -/
def confined (m : Nat) : Option Nat := match m with | 13 => some 4 | 15 => some 3 | 16 => some 2 | _ => none

/-- 14 R432: the range lies in one enabled partition of the kind. -/
def inPart (s : State) (kind a n : Nat) : Bool :=
  (List.range 8).any (fun e => match partSpan s e with
    | none => false
    | some (k, lo, hi) => k == kind && decide (lo ≤ a) && decide (a + n ≤ hi) && !partIgnored s e)

/-- 14 R448: the highest end offset of any enabled partition. -/
def partHigh (s : State) : Nat :=
  (List.range 8).foldl (fun h e => match partSpan s e with
    | some (_, _, hi) => if partIgnored s e then h else Nat.max h (hi - 0x1_0000_0000)
    | none => h) 0

/-- 14 R448: K. -/
def chunksK (s : State) : Nat :=
  let g := grainOf s * subsN s
  if g = 0 then 0 else (partHigh s + g - 1) / g

/-- 14 R428, R449, R450: chunk `k` of subchannel `sub` is served at its new location: its channel is retired, or moving and the chunk
already copied. Chunks are taken in ascending k, the lower subchannel's first. -/
def chunkAway (s : State) (sub k : Nat) : Bool :=
  let moved := fun (m : Migration) => decide (2 * k + sub % 2 < m.k)
  match s.drc.migr.filter (fun m => m.ch == sub / 2) with
  | some m => if m.back then decide (retiredCh s = some m.ch) && !moved m else moved m
  | none => decide (retiredCh s = some (sub / 2))

/-- 14 R428: the subchannel and local address of DRAM offset `a`, for N > 0 (log 160). -/
def locate (s : State) (a : Nat) : Nat × Nat :=
  let g := grainOf s
  let n := subsN s
  let c := a / g
  let sub := (s.drc.subs[c % n]?).getD 0
  let k := c / n
  let rem := s.drc.subs.filter (fun x => x / 2 != sub / 2)
  let nr := rem.length
  if chunkAway s sub k && decide (nr ≠ 0) then
    ((rem[k % nr]?).getD 0, (s.drc.chunks + sub % 2 * ((s.drc.chunks + nr - 1) / nr) + k / nr) * g + a % g)
  else (sub, k * g + a % g)

/-- 14 R429: usable bytes. -/
def dramBytes (s : State) : Nat := if dramReady s then subsN s * geomBytes s.drc.geom else 0

/-- 14 R430: bank group, bank and row of a local address; the rank counts as a higher bit of the bank. -/
def bankRow (s : State) (l : Nat) : Nat × Nat × Nat :=
  let bg := wget s.drc.geom DRC_CH_GEOM_bg
  let bk := wget s.drc.geom DRC_CH_GEOM_bk
  let rw := wget s.drc.geom DRC_CH_GEOM_rw
  let row := bitsOf l (12 + bg + bk) rw
  let hash := wbit s.drc.cfg DRC_CFG_hash
  let g := bitsOf l 6 bg ^^^ (if hash then bitsOf row 0 bg else 0)
  let b := bitsOf l (6 + bg) bk ^^^ (if hash then bitsOf row bg bk else 0)
  (g, b + 16 * bitsOf l (12 + bg + bk + rw) 1, row)

/-! ## Token buckets (15 R475) -/

def tokDepth (s : State) (m : Nat) : Nat := clampN 4 4095 (fget s (ATR_MST_TOKEN m) ATR_MST_TOKEN_depth)
def tokens (s : State) (m : Nat) : Nat := fget s (ATR_MST_STATUS m) ATR_MST_STATUS_tokens
def setTokens (s : State) (m v : Nat) : State := fset s (ATR_MST_STATUS m) ATR_MST_STATUS_tokens v
def throttled (s : State) (m : Nat) : Bool := fbit s (ATR_MST_STATUS m) ATR_MST_STATUS_throttled

/-- 15 R475: hundredths of a beat per microsecond that fill the bucket; none: unmetered. -/
def tokRate (s : State) (m : Nat) : Option Nat :=
  let r := Nat.min 1000 (fget s (ATR_MST_TOKEN m) ATR_MST_TOKEN_rate)
  if throttled s m then
    some ((if r = 0 then 1000 else r) * clampN 1 100 (fget s DRC_RH_CFG DRC_RH_CFG_throttle_pct))
  else if r = 0 then none else some (100 * r)

/-- 15 R475: a master's DRAM class: 0 deadline, 1 normal, 2 background (15 R471). -/
def masterClass (m : Nat) : Nat := if m = 13 ∨ m = 15 ∨ m = 16 then 0 else if m = 17 ∨ m = 18 ∨ m = 20 then 2 else 1

/-- The bucket takes what has flowed in since its last fill. -/
def tokenFill (s : State) (m : Nat) : State :=
  let now := s.tim.elapsed
  match tokRate s m with
  | none => { setTokens s m (tokDepth s m) with drc := { s.drc with tokAt := smSet 0 s.drc.tokAt m now } }
  | some r =>
    let num := r * (now - smGet 0 s.drc.tokAt m)
    let den := 100 * 1000 * nsU
    { setTokens s m (Nat.min (tokDepth s m) (tokens s m + num / den)) with
      drc := { s.drc with tokAt := smSet 0 s.drc.tokAt m (now - num % den / r) } }

/-- 15 R475: the master is granted at a DRAM port, and pays for its beats. -/
def tokenTake (s : State) (m beats : Nat) : Option State :=
  if masterClass m = 0 then some s
  else match tokRate s m with
    | none => some s
    | some _ =>
      let s1 := tokenFill s m
      if tokens s1 m = 0 then none else some (setTokens s1 m (tokens s1 m - beats))

/-! ## Write queue (14 R435) -/

/-- Bytes `l` from address `a`, all in one burst and whole words. -/
def burstMask (a n : Nat) : BitVec 8 :=
  BitVec.ofNat 8 ((List.range 8).foldl (fun m w => if a % 64 ≤ 8 * w ∧ 8 * w + 8 ≤ a % 64 + n then m + 2 ^ w else m) 0)

/-- 14 R435: whole words of one burst enter the queue of their subchannel: merged, in a free entry, or stalled
(log 49, DESIGN CHOICE). -/
def wqPut (s : State) (m a : Nat) (l : List Byte) : State :=
  let (sub, _) := locate s (a - 0x1_0000_0000)
  let b := a / 64
  let mask := burstMask a l.length
  let place := fun (old : BitVec 512) => BitVec.ofNat 512 (overlay old.toNat (64 * b) 64 a l)
  if s.drc.wq.any (fun e => e.burst == b) then
    { s with drc := { s.drc with wq := s.drc.wq.map (fun e => if e.burst = b then
      { e with data := place e.data, mask := e.mask ||| mask } else e) } }
  else
    let mine := s.drc.wq.filter (fun e => e.sub == sub)
    let dl := decide (masterClass m = 0)
    let e : WqEnt := ⟨sub, b, place 0, mask, dl, false, m⟩
    if (dl && decide (mine.length < 64)) || decide ((mine.filter (fun e => !e.deadline)).length < 56 ∧ mine.length < 64) then
      { s with drc := { s.drc with wq := s.drc.wq ++ [e] } }
    else { s with drc := { s.drc with stalled := s.drc.stalled ++ [e] } }

/-- 14 R435: a later write of the same burst is merged into an entry. -/
def wqMerge (e x : WqEnt) : WqEnt :=
  let word := fun (w : Nat) => (if x.mask.getLsbD w then x.data else e.data).extractLsb' (64 * w) 64
  { e with data := (List.range 8).foldr (fun w acc => acc * 2 ^ 64 + (word w).setWidth 512) 0, mask := e.mask ||| x.mask }

/-- 14 R435: an entry has become free, so the oldest write that stalled for it enters, with the stalled writes of its burst. -/
def wqAdmit (s : State) (sub : Nat) : State :=
  match s.drc.stalled.find? (fun e => e.sub == sub) with
  | none => s
  | some e =>
    let n := (s.drc.wq.filter (fun x => x.sub == sub)).length
    let nn := (s.drc.wq.filter (fun x => x.sub == sub && !x.deadline)).length
    if (e.deadline && decide (n < 64)) || decide (nn < 56 ∧ n < 64) then
      let same := (s.drc.stalled.erase e).filter (fun x => x.burst == e.burst)
      { s with drc := { s.drc with wq := s.drc.wq ++ [same.foldl wqMerge e], stalled := s.drc.stalled.filter (fun x => x.burst != e.burst) } }
    else s

/-- A read command waits at its subchannel (14 R434). -/
def rqPut (s : State) (m a dl : Nat) : State :=
  let (sub, _) := locate s (a - 0x1_0000_0000)
  { s with drc := { s.drc with rq := s.drc.rq ++ [⟨sub, a / 64, masterClass m, dl, m⟩] } }

/-! ## Row-hammer defence (14 R443, R444) -/

/-- The element that occurs most often; the one met first among equals. -/
def mostOften (l : List Nat) : Option Nat :=
  l.foldl (fun best x => match best with
    | none => some x
    | some b => if (l.filter (· == b)).length < (l.filter (· == x)).length then some x else some b) none

/-- 14 R443: a burst of a master opens its row when another row, or none, is open. Every row's activations are counted: a row that
reaches the threshold is the most activated of its bank, so it is among the 16 that are tracked. -/
def activate (s : State) (sub burst m : Nat) : State :=
  let (g, b, row) := bankRow s (locate s (64 * burst - 0x1_0000_0000)).2
  let bank := 4 * g + b % 4 + 32 * (b / 16)
  let key := sub * 4096 + bank
  if smGet none s.drc.openRow key = some row then s
  else
    let s1 := { s with drc := { s.drc with openRow := smSet none s.drc.openRow key (some row) } }
    let old := (s1.drc.rows.find? (fun r => r.sub == sub && r.bank == bank && r.row == row)).getD ⟨sub, bank, row, 0, []⟩
    let rest := s1.drc.rows.filter (fun r => !(r.sub == sub && r.bank == bank && r.row == row))
    let r : RowCnt := ⟨sub, bank, row, old.n + 1, (m :: old.last).take 64⟩
    let thr := Nat.max 256 (fget s1 DRC_RH_CFG DRC_RH_CFG_threshold)
    if r.n < thr then { s1 with drc := { s1.drc with rows := rest ++ [r] } }
    else
      let ch := sub / 2
      let s2 := cnt { s1 with drc := { s1.drc with rows := rest, rfmDue := s1.drc.rfmDue ++ [(sub, bank)] } } (DRC_CH_RFM ch)
      match mostOften r.last with
      | some x =>
        if masterClass x = 0 then s2
        else
          let s3 := fset (tokenFill s2 x) (ATR_MST_STATUS x) ATR_MST_STATUS_throttled 1
          occur (cnt s3 (DRC_CH_THROTTLE ch)) 0x0C1 x [BitVec.ofNat 32 (sub + 16 * g + 256 * b)]
      | none => s2

def doThrottleEnd (m : Fin 21) (s : State) : State :=
  if throttled s m then fset (tokenFill s m) (ATR_MST_STATUS m) ATR_MST_STATUS_throttled 0 else s
def doRowWindowEnd (sub : Fin 8) (s : State) : State :=
  { s with drc := { s.drc with rows := s.drc.rows.filter (fun r => r.sub != sub.val) } }

/-! ## Scheduling (14 R434, R436, R440, R441, R447) -/

def hiWm (s : State) : Nat := clampN 1 56 (fget s DRC_SCHED DRC_SCHED_hi_wm)
def loWm (s : State) : Nat := Nat.min 55 (if fget s DRC_SCHED DRC_SCHED_lo_wm < hiWm s then fget s DRC_SCHED DRC_SCHED_lo_wm else hiWm s - 1)

/-- A command a subchannel may issue next. -/
inductive DramCmd
  | refresh
  | replay
  | retrain
  | rfm (bank : Nat)
  | read (r : RdReq)
  | write (e : WqEnt)
  | copy

/-- 14 R449, R450: the subchannel that holds the chunk a retirement or a readmission copies next (log 160). -/
def copyNext (s : State) : Option Nat := match s.drc.migr with
  | some m => if m.k < 2 * s.drc.chunks && (!m.back || m.trained && decide (retiredCh s = some m.ch)) then some (2 * m.ch + m.k % 2) else none
  | none => none

/-- 14 R440: the refresh interval of a channel, in DRAM clock cycles. -/
def refreshInterval (s : State) (ch : Nat) : Nat :=
  let r := fget s DRC_TIM1 DRC_TIM1_refi
  if s.drc.hot.contains ch then r / 2 else r

/-- The controller runs and its modules are not in self-refresh (14 R440). -/
def dramRuns (s : State) : Bool := dramReady s && domOn s 14

/-- 14 R434: the commands that wait at a subchannel, in the order of choice. -/
def dramOrder (s : State) (sub : Nat) : List DramCmd :=
  let ch := sub / 2
  let rq := s.drc.rq.filter (fun r => r.sub == sub)
  let dl := rq.filter (fun r => r.cls == 0)
  let drain := s.drc.drain.contains sub
  let due := smGet 0 s.drc.refDue sub
  let held := !dl.isEmpty && decide (due ≤ 4)
  (if 0 < smGet 0 s.drc.replay ch then [.replay] else []) ++
  (if 0 < due ∧ !held then [.refresh] else []) ++
  (if s.drc.retrainDue.contains sub then [.retrain] else []) ++
  ((s.drc.rfmDue.filter (fun (x, _) => x == sub)).map (fun (_, b) => .rfm b)) ++
  ((dl.mergeSort (fun a b => decide (a.deadline ≤ b.deadline))).map .read) ++
  (if drain then (s.drc.wq.filter (fun e => e.sub == sub)).map .write else []) ++
  ((rq.filter (fun r => r.cls == 1)).map .read) ++
  (if drain then [] else (rq.filter (fun r => r.cls == 2)).map .read) ++
  (if !drain && copyNext s == some sub then [.copy] else [])

/-- 14 R441: the retry buffer takes one more command. -/
def retryPut (s : State) (ch : Nat) : State :=
  { s with drc := { s.drc with retry := smSet 0 s.drc.retry ch (Nat.min 64 (smGet 0 s.drc.retry ch + 1)) } }

def doRefreshDue (sub : Fin 8) (s : State) : State :=
  if dramRuns s ∧ s.drc.subs.contains sub.val then
    { s with drc := { s.drc with refDue := smSet 0 s.drc.refDue sub (smGet 0 s.drc.refDue sub + 1) } }
  else s
def doTemperaturePoll (ch : Fin 4) (hot : Bool) (s : State) : State :=
  let rest := s.drc.hot.filter (· != ch.val)
  let s1 := { s with drc := { s.drc with hot := if hot then rest ++ [ch.val] else rest } }
  emit s1 (.dramRefresh ch (refreshInterval s1 ch))
def doPeriodicRetrain (sub : Fin 8) (s : State) : State :=
  if dramRuns s ∧ s.drc.subs.contains sub.val ∧ !s.drc.retrainDue.contains sub.val then
    { s with drc := { s.drc with retrainDue := s.drc.retrainDue ++ [sub.val] } }
  else s

/-- 14 R436: a drain starts: the queue has reached hi_wm, or its oldest deadline write has waited dl_age_us. -/
def doWriteDrainStart (sub : Fin 8) (aged : Bool) (s : State) : State :=
  let q := s.drc.wq.filter (fun e => e.sub == sub.val)
  let s1 := match (if aged then q.find? (fun e => e.deadline && !e.aged) else none) with
    | some e => { s with drc := { s.drc with wq := s.drc.wq.map (fun x => if x = e then { x with aged := true } else x) } }
    | none => s
  if (decide (hiWm s ≤ q.length) || s1.drc.wq.any (fun e => e.sub == sub.val && e.aged)) && !s.drc.drain.contains sub.val then
    { s1 with drc := { s1.drc with drain := s1.drc.drain ++ [sub.val] } }
  else s1

def doWriteDrainEnd (sub : Fin 8) (s : State) : State :=
  let q := s.drc.wq.filter (fun e => e.sub == sub.val)
  if q.length ≤ loWm s ∧ !q.any (fun e => e.aged) then
    { s with drc := { s.drc with drain := s.drc.drain.filter (· != sub.val) } }
  else s

/-- 14 R434: the oldest background read has waited 1 ms. -/
def doBackgroundPromote (sub : Fin 8) (s : State) : State :=
  match s.drc.rq.find? (fun r => r.sub == sub.val && r.cls == 2) with
  | none => s
  | some r => { s with drc := { s.drc with rq := s.drc.rq.map (fun x => if x = r then { x with cls := 1 } else x) } }

/-- 14 R441, R442. The writes that wait for a channel that becomes FAULTY are dropped with its later ones. -/
def doCommandParityAlert (ch : Fin 4) (sameWindow : Bool) (s : State) : State :=
  if chState s ch < 2 ∨ 6 ≤ chState s ch then s
  else
    let n := if sameWindow then smGet 0 s.drc.alerts ch + 1 else 1
    let s1 := cnt { s with drc := { s.drc with alerts := smSet 0 s.drc.alerts ch n } } (DRC_CH_ALERT ch)
    if 4 ≤ n then
      let keep := fun (x : Nat) => x / 2 != ch.val
      occur (setChState { s1 with drc := { s1.drc with
        wq := s1.drc.wq.filter (fun e => keep e.sub), stalled := s1.drc.stalled.filter (fun e => keep e.sub),
        rq := s1.drc.rq.filter (fun r => keep r.sub), replay := smSet 0 s1.drc.replay ch 0,
        migr := s1.drc.migr.map (fun m => if m.ch = ch.val ∧ !m.back then { m with lost := true } else m) } } ch chFAULTY) 0x0C0 ch []
    else { s1 with drc := { s1.drc with replay := smSet 0 s1.drc.replay ch (smGet 0 s1.drc.retry ch) } }

/-! ## Training (14 R445) -/

/-- The enabled channels of a DRC_CFG word. -/
def chEnabled (w : W32) : List Nat := (List.range 4).filter (fun ch => bitOf (wget w DRC_CFG_ch_enable) ch)

/-- 14 R445: a write to DRC_CTRL. -/
def dramInit (w : W32) (s : State) : State :=
  if !wbit w DRC_CTRL_init then s
  else
    let refuse := fun (n : Nat) => fset s DRC_STATUS DRC_STATUS_refusal n
    let cfg := rd s DRC_CFG
    let en := chEnabled cfg
    if dramReady s ∨ fbit s DRC_STATUS DRC_STATUS_training then refuse 4
    else if en = [] then refuse 1
    else if 5 ≤ wget cfg DRC_CFG_rate ∨ 11 ≤ wget cfg DRC_CFG_grain then refuse 2
    else if en.any (fun ch => decide (2 ^ 34 < geomBytes (rd s (DRC_CH_GEOM ch)))) then refuse 3
    else
      let s1 := fset (refuse 0) DRC_STATUS DRC_STATUS_training 1
      en.foldl (fun s ch => setChState s ch chTRAINING) { s1 with drc := { s1.drc with cfg := cfg, geoms := (List.range 4).map (fun ch => rd s (DRC_CH_GEOM ch)) } }

/-- 14 R445: training at the start ends; bit ch of `ok`: channel ch trained. Without VDDQ_DRAM none does (20 R581). -/
def startDone (ok : BitVec 4) (s : State) : State :=
  if !fbit s DRC_STATUS DRC_STATUS_training then s
  else
    let geomOf := fun (ch : Nat) => (s.drc.geoms[ch]?).getD 0
    let good := fun (ch : Nat) => ok.getLsbD ch && !s.pin.absent.contains .vddqDram
    let tr := (List.range 4).filter (fun ch => chState s ch == chTRAINING)
    let one := fun (s : State) (ch : Nat) =>
      let g := geomOf ch
      if good ch then
        fset (setChState s ch chREADY) (DRC_CH_STATUS ch) DRC_CH_STATUS_capacity_gib (2 * geomBytes g / 2 ^ 30)
      else occur (setChState s ch chTRAINFAILED) 0x0C2 ch []
    let s1 := fset (tr.foldl one s) DRC_STATUS DRC_STATUS_training 0
    let up := tr.filter good
    match up with
    | [] => s1
    | ch0 :: _ =>
      let geom := up.foldl (fun g ch => if geomBytes (geomOf ch) < geomBytes g then geomOf ch else g) (geomOf ch0)
      let subs := (up.map (fun ch => [2 * ch, 2 * ch + 1])).flatten
      let s2 := fset (fset s1 DRC_STATUS DRC_STATUS_ready 1) DRC_STATUS DRC_STATUS_n subs.length
      { s2 with drc := { s2.drc with subs := subs, geom := geom } }

/-! ## Retirement and readmission (14 R448 to R450) -/

def bgEnabled (s : State) (bit : Nat) : Bool := bitOf (rd s CTL_BG_EN).toNat bit

/-- 14 R448: bytes of the smallest subchannel that is left without channel `ch`. -/
def smallestLeft (s : State) (ch : Nat) : Nat :=
  (s.drc.subs.filter (fun x => x / 2 != ch)).foldl (fun n x => Nat.min n (geomBytes ((s.drc.geoms[x / 2]?).getD 0))) (2 ^ 34)

/-- RETIRE_CHANNEL. -/
def retireCmd (t : Nat) (e : BitVec 512) (s : State) : State :=
  let ch := eByte e 16 1
  match eReserved e [(16, 1)] with
  | some i => refuse s t ocRANGE i
  | none =>
    if !bgEnabled s 3 then refuseAll s t ocDISABLED
    else if 4 ≤ ch ∨ (chState s ch ≠ chREADY ∧ chState s ch ≠ chFAULTY) then
      (if s.drc.migr.isSome ∨ (retiredCh s).isSome then refuseAll s t ocBUSY else refuse s t ocRANGE 16)
    else if s.drc.migr.isSome ∨ (retiredCh s).isSome then refuseAll s t ocBUSY
    else if subsN s = 2 then refuse s t ocONECHANNEL 16
    else
      let nr := subsN s - 2
      let kk := chunksK s
      if smallestLeft s ch / grainOf s < kk + 2 * ((kk + nr - 1) / nr) then refuse s t ocCAPACITY 16
      else
        let lost := chState s ch = chFAULTY
        let s1 := fset (setChState s ch chRETIRING) DRC_STATUS DRC_STATUS_migrating 1
        { s1 with drc := { s1.drc with chunks := kk, migr := some ⟨ch, false, 0, t, lost, true⟩ } }

/-- READMIT_CHANNEL. -/
def readmitCmd (t : Nat) (e : BitVec 512) (s : State) : State :=
  let ch := eByte e 16 1
  match eReserved e [(16, 1)] with
  | some i => refuse s t ocRANGE i
  | none =>
    if !bgEnabled s 3 then refuseAll s t ocDISABLED
    else if s.drc.migr.isSome then refuseAll s t ocBUSY
    else if 4 ≤ ch ∨ (chState s ch ≠ chRETIRED ∧ chState s ch ≠ chFAULTY) then refuse s t ocRANGE 16
    else
      let lost := chState s ch = chFAULTY
      let s1 := fset (fset (setChState s ch chREADMITTING) DRC_STATUS DRC_STATUS_migrating 1) DRC_STATUS DRC_STATUS_training 1
      { s1 with drc := { s1.drc with migr := some ⟨ch, true, 0, t, lost, false⟩ } }

/-- 14 R449: a word of DRAM whose home is in channel `ch`. -/
def homeIn (s : State) (ch a : Nat) : Bool :=
  let n := subsN s
  0x1_0000_0000 ≤ a && decide (n ≠ 0) && (s.drc.subs[(a - 0x1_0000_0000) / grainOf s % n]?).getD 99 / 2 == ch

/-- A byte of a channel that retires whose chunk has not been copied. -/
def homeNotCopied (s : State) (m : Migration) (a : Nat) : Bool :=
  homeIn s m.ch a && !chunkAway s ((s.drc.subs[(a - 0x1_0000_0000) / grainOf s % subsN s]?).getD 0) ((a - 0x1_0000_0000) / grainOf s / subsN s)

/-- What waits for a subchannel waits where its burst is served now (14 R449). -/
def reroute (s : State) : State :=
  let sub := fun (b : Nat) => (locate s (64 * b - 0x1_0000_0000)).1
  { s with drc := { s.drc with
      wq := s.drc.wq.map (fun e => { e with sub := sub e.burst })
      stalled := s.drc.stalled.map (fun e => { e with sub := sub e.burst })
      rq := s.drc.rq.map (fun r => { r with sub := sub r.burst }) } }

/-- 14 R449: the words of memory that `gone` names hold zero with valid check bits. -/
def wordsLost (s : State) (gone : Nat → Bool) : State :=
  { s with mem := s.mem.filter (fun c => !gone c.1), ecc := s.ecc.cure (fun w => !gone (8 * w)) }

/-- 14 R449, R450: the next chunk is copied; of a FAULTY channel it is written with zeros. -/
def copyChunk (s : State) : State :=
  match s.drc.migr with
  | none => s
  | some m =>
    let n := subsN s
    let mine := fun (a : Nat) => homeIn s m.ch a &&
      ((a - 0x1_0000_0000) / grainOf s / n == m.k / 2) && ((s.drc.subs[(a - 0x1_0000_0000) / grainOf s % n]?).getD 0 % 2 == m.k % 2)
    let s1 := if m.lost && !m.back then wordsLost s mine else s
    reroute { s1 with drc := { s1.drc with migr := some { m with k := m.k + 1 } } }

/-- 14 R450: the training of a readmission has failed. -/
def readmitFails (m : Migration) (s : State) : State :=
  let s1 := fset (fset { s with drc := { s.drc with migr := none } } DRC_STATUS DRC_STATUS_migrating 0) DRC_STATUS DRC_STATUS_training 0
  complete (setChState s1 m.ch (if retiredCh s1 = some m.ch then chRETIRED else chFAULTY)) m.ticket ocTRAINFAILED 0 0

/-- 14 R445, R450: training ends, of the channels that start or of the one that is readmitted. -/
def doTrainingDone (ok : BitVec 4) (s : State) : State :=
  match s.drc.migr.filter (fun m => m.back && !m.trained) with
  | some m =>
    if ok.getLsbD m.ch && !s.pin.absent.contains .vddqDram then
      fset { s with drc := { s.drc with migr := some { m with trained := true } } } DRC_STATUS DRC_STATUS_training 0
    else occur (readmitFails m s) 0x0C2 m.ch []
  | none => startDone ok s

/-- 14 R449, R450: the last chunk has moved, or the training of a readmission has failed. -/
def doMigrationDone (trained : Bool) (s : State) : State :=
  match s.drc.migr with
  | none => s
  | some m =>
    if m.back && !(trained && (m.trained || !s.pin.absent.contains .vddqDram)) then occur (readmitFails m s) 0x0C2 m.ch []
    else
      let s1 := fset (fset { s with drc := { s.drc with migr := none } } DRC_STATUS DRC_STATUS_migrating 0) DRC_STATUS DRC_STATUS_training 0
      if m.back then
        let s2 := setChState (if retiredCh s1 = some m.ch then fset s1 DRC_STATUS DRC_STATUS_retired_valid 0 else s1) m.ch chREADY
        let clr := fun (x : SMap Nat) => smSet 0 x m.ch 0
        complete (reroute { s2 with drc := { s2.drc with alerts := clr s2.drc.alerts, retry := clr s2.drc.retry, replay := clr s2.drc.replay } })
          m.ticket ocOK 0 0
      else
        let s2 := fset (fset (setChState s1 m.ch chRETIRED) DRC_STATUS DRC_STATUS_retired m.ch) DRC_STATUS DRC_STATUS_retired_valid 1
        if m.lost then complete (reroute (wordsLost s2 (homeNotCopied s m))) m.ticket ocDATALOST 0 0
        else complete (reroute s2) m.ticket ocOK 0 0

end Sys2Proof.Machine
end

