-- ==== Sys2Proof/Machine/EccCode.lean ====
section
/-! DEFINITION. The DEC-TED code of spec/13 R406 and R407: check bits, codewords, and what the decoder makes of a word read. -/

namespace Sys2Proof.Machine

/-! ## Remainders modulo G(x) = 0xC599 (13 R406), bit k the coefficient of x^k -/

/-- r(x) × x mod G(x). -/
def eccStep (r : BitVec 15) : BitVec 15 := (r <<< 1) ^^^ (if r.msb then 0x4599#15 else 0)

/-- r(x) = d(x) × x^15 mod G(x). -/
def checkBits (d : BitVec 64) : BitVec 15 :=
  (List.range 64).foldr (fun i r => eccStep r ^^^ (if d.getLsbD i then 0x4599#15 else 0)) 0

/-- Even parity over the word's address. -/
def evenParity (a : Nat) : Bool := (List.range 34).foldl (fun p i => p ^^ a.testBit i) false

/-- The codeword of a data word whose address has parity `par`. -/
def codeword (par : Bool) (d : BitVec 64) : BitVec 80 := BitVec.ofBool par ++ (checkBits d ++ d)

/-- What is left of bits [78:0] after the check bits of its data: zero for a codeword. -/
def syndrome (c : BitVec 80) : BitVec 15 := checkBits (c.setWidth 64) ^^^ c.extractLsb' 64 15

/-! ## The decoder (13 R407) -/

/-- x^e mod G(x) for e from 0 to 78: the syndromes of one wrong bit. -/
def eccPows : List (BitVec 15) := ((List.range 79).foldl (fun (p : List (BitVec 15) × BitVec 15) _ => (p.1 ++ [p.2], eccStep p.2)) ([], 1)).1
/-- The codeword bit with syndrome x^e. -/
def eccBit (e : Nat) : Nat := if e < 15 then 64 + e else e - 15

/-- The bits of [78:0], at most two, that give a syndrome. -/
def eccLocate (s : BitVec 15) : Option (List Nat) :=
  if s = 0 then some []
  else match eccPows.findIdx? (· == s) with
    | some e => some [eccBit e]
    | none => eccPows.zipIdx.findSome? (fun (v, i) =>
        ((eccPows.drop (i + 1)).findIdx? (· == s ^^^ v)).map (fun k => [eccBit i, eccBit (i + 1 + k)]))

/-- The outcome of a read: the data used and how many bits were corrected, or an uncorrectable word. -/
inductive EccRead
  | clean (d : BitVec 64)
  | fixed (d : BitVec 64) (bits : Nat)
  | uncorrectable
  deriving DecidableEq, Repr

/-- A word with the bits of a list turned over. -/
def flipBits (c : BitVec 80) (l : List Nat) : BitVec 80 := l.foldl (fun c b => c ^^^ BitVec.ofNat 80 (2 ^ b)) c

/-- 13 R407. -/
def eccDecode (par : Bool) (c : BitVec 80) : EccRead :=
  match eccLocate (syndrome c) with
  | none => .uncorrectable
  | some [] => if c.getLsbD 79 = par then .clean (c.setWidth 64) else .uncorrectable
  | some l => .fixed ((flipBits c l).setWidth 64) l.length

/-! ## Parity words (13 R400) -/

/-- A parity error in a word of an array that keeps one parity bit. -/
def parityRead (flips : BitVec 80) : EccRead :=
  if (List.range 80).foldl (fun p i => p ^^ flips.getLsbD i) false then .uncorrectable else .clean 0
/-- 13 R399, R400: the arrays with parity: those of region 29, and the E memory of the Atelier cores (06 R178). -/
def parityArray (region word : Nat) : Bool := region == 29 || (decide (4 ≤ region ∧ region < 8) && word % 2 ^ 20 / 65536 == 3)

end Sys2Proof.Machine
end

