-- ==== Sys2Proof/Machine/Harts.lean ====
section
/-! DEFINITION. The control cores' own state (spec/16 R477, R478, R482; spec/15 R456): registers, CSRs, modes, physical memory
protection, the access-fault exception. Numbers and layouts are those of the RISC-V privileged architecture (log 159,
PRESUMED). -/

namespace Sys2Proof.Machine

def hartZero : Hart := { pc := 0, user := false, x := [], csr := [] }
def hartOf (s : State) (c : Nat) : Hart := smGet hartZero s.ctl.harts c
def setHart (s : State) (c : Nat) (h : Hart) : State := { s with ctl := { s.ctl with harts := smSet hartZero s.ctl.harts c h } }

/-- 16 R477, R478: a core comes out of reset at `pc`, in machine mode, its registers and CSRs at their reset values. -/
def hartStart (c pc : Nat) (s : State) : State :=
  setHart { s with ctl := { s.ctl with corePc := smSet 0 s.ctl.corePc c pc } } c { hartZero with pc := BitVec.ofNat 64 pc }
/-- A core jumps to `pc`. -/
def hartJump (c pc : Nat) (s : State) : State :=
  setHart { s with ctl := { s.ctl with corePc := smSet 0 s.ctl.corePc c pc } } c { hartOf s c with pc := BitVec.ofNat 64 pc }
/-- Integer register `r` of a core; x0 reads as zero and takes no value. -/
def hartReg (s : State) (c r : Nat) : BitVec 64 := if r = 0 then 0 else smGet 0 (hartOf s c).x r
def setHartReg (c r : Nat) (v : BitVec 64) (s : State) : State :=
  if r = 0 then s else let h := hartOf s c; setHart s c { h with x := smSet 0 h.x r v }

/-! ## CSRs -/

def csrMSTATUS : Nat := 0x300
def csrMISA : Nat := 0x301
def csrMIE : Nat := 0x304
def csrMTVEC : Nat := 0x305
def csrMSCRATCH : Nat := 0x340
def csrMEPC : Nat := 0x341
def csrMCAUSE : Nat := 0x342
def csrMTVAL : Nat := 0x343
def csrMIP : Nat := 0x344
def csrPMPCFG : Nat := 0x3A0
def csrPMPADDR : Nat := 0x3B0
def csrTIME : Nat := 0xC01
def csrMHARTID : Nat := 0xF14

/-- 16 R482: the interrupt controller asks core `c` for an interrupt: a source that is pending, enabled for the core, and of a
priority above its threshold. -/
def plicAsks (s : State) (c : Nat) : Bool :=
  let p := s.ctl.plic
  p.pending.any (fun i => bitOf (smGet 0 p.enable c) i && decide (smGet 0 p.threshold c < smGet 0 p.priority i))

/-- 16 R477, R482: the value that core `c` reads in a CSR: its hart ID, the ISA it implements (RV64IMAC with user mode), mtime, and
the interrupts that are pending. -/
def csrRead (s : State) (c n : Nat) : BitVec 64 :=
  if n = csrMHARTID then BitVec.ofNat 64 c
  else if n = csrMISA then BitVec.ofNat 64 (2 ^ 63 + 2 ^ 20 + 2 ^ 12 + 2 ^ 8 + 2 ^ 2 + 2 ^ 0)
  else if n = csrTIME then BitVec.ofNat 64 s.ctl.mtime
  else if n = csrMIP then
    BitVec.ofNat 64 (2 ^ 11 * b2n (plicAsks s c) + 2 ^ 7 * b2n (s.ctl.mtip.contains c) + 2 ^ 3 * b2n (fbit s (CTL_MSIP c) CTL_MSIP_msip))
  else smGet 0 (hartOf s c).csr n

/-- 15 R456: a precise exception of core `c`: mepc, mcause, mtval and mstatus take what it saves, the core goes to machine mode and to
its handler. Whether mtval holds the address or zero is open. -/
def hartTrap (c cause : Nat) (s : State) : State :=
  let (v, s1) := freeDraw s
  let h := hartOf s1 c
  let st := (smGet 0 h.csr csrMSTATUS).toNat
  let st' := st - bitsOf st 3 1 * 2 ^ 3 - bitsOf st 7 1 * 2 ^ 7 - bitsOf st 11 2 * 2 ^ 11 + bitsOf st 3 1 * 2 ^ 7 + (if h.user then 0 else 3 * 2 ^ 11)
  let put := fun (m : SMap (BitVec 64)) (e : Nat × BitVec 64) => smSet 0 m e.1 e.2
  let csr := [(csrMSTATUS, BitVec.ofNat 64 st'), (csrMEPC, h.pc), (csrMCAUSE, BitVec.ofNat 64 cause), (csrMTVAL, v)].foldl put h.csr
  setHart s1 c { h with user := false, csr := csr, pc := (smGet 0 h.csr csrMTVEC) &&& ~~~3#64 }

/-! ## Physical memory protection (16 R477) -/

/-- The bytes that PMP entry `i` names, if it is on. -/
def pmpRange (h : Hart) (i : Nat) : Option (Nat × Nat) :=
  let addr := fun (i : Nat) => (smGet 0 h.csr (csrPMPADDR + i)).toNat % 2 ^ 54
  match bitsOf (smGet 0 h.csr (csrPMPCFG + i / 8 * 2)).toNat (8 * (i % 8) + 3) 2 with
  | 0 => none
  | 1 => some (if i = 0 then 0 else 4 * addr (i - 1), 4 * addr i)
  | 2 => some (4 * addr i, 4 * addr i + 4)
  | _ =>
    let ones := ((List.range 54).find? (fun b => !bitOf (addr i) b)).getD 54
    let lo := addr i / 2 ^ (ones + 1) * 2 ^ (ones + 1) * 4
    some (lo, lo + 2 ^ (ones + 3))
/-- The protection of a core lets a load or store of `n` bytes at `a` through: the first entry that names one of its bytes decides, and
must name them all. Machine mode obeys locked entries, and user mode needs one. -/
def pmpLets (s : State) (c a n : Nat) (store : Bool) : Bool :=
  let h := hartOf s c
  let st := (smGet 0 h.csr csrMSTATUS).toNat
  let user := h.user || (bitOf st 17 && decide (bitsOf st 11 2 = 0))
  let cfg := fun (i b : Nat) => bitOf (smGet 0 h.csr (csrPMPCFG + i / 8 * 2)).toNat (8 * (i % 8) + b)
  match (List.range 16).findSome? (fun i => match pmpRange h i with
    | some (lo, hi) => if a < hi ∧ lo < a + n then some (i, decide (lo ≤ a ∧ a + n ≤ hi)) else none
    | none => none) with
  | none => !user
  | some (i, whole) => whole && ((!user && !cfg i 7) || cfg i (if store then 1 else 0))

/-- 16 R477, 15 R456: an access of `n` bytes at `a` by master `m` goes to the Atrium, unless it is one of a control core whose protection
stops it: an access-fault exception. -/
def throughPmp (m a n : Nat) (store : Bool) (f : State → State) (s : State) : State :=
  if m < 8 ∧ pmpLets s m a n store = false then hartTrap m (if store then 7 else 5) s else f s

end Sys2Proof.Machine
end

