-- ==== Sys2Proof/Machine/EccMemory.lean ====
section
/-! DEFINITION. On-chip memories and error correction (spec/13), and the memory targets of the Atrium (spec/15 R451,
R471 to R476, spec/16 R481). -/

namespace Sys2Proof.Machine

/-! ## Targets (15 R451) and the Storeroom's banks (13 R401) -/

/-- 15 R451: what an Atrium address reaches, with the offset in it. -/
inductive Target
  | rom (o : Nat)
  | regs (o : Nat)
  | common (o : Nat)
  | store (o : Nat)
  | setAlias (o : Nat)
  | clrAlias (o : Nat)
  | window (c o : Nat)
  | dram (a : Nat)
  | none
  deriving DecidableEq, Repr

def target (a n : Nat) : Target :=
  let within := fun (lo hi : Nat) => decide (lo ≤ a) && decide (a + n ≤ hi)
  if within 0 0x1_0000 then .rom a
  else if within 0x1000_0000 0x2000_0000 then .regs (a % 0x100_0000)
  else if within 0x2000_0000 0x2008_0000 then .common (a - 0x2000_0000)
  else if within 0x4000_0000 0x4200_0000 then .store (a - 0x4000_0000)
  else if within 0x5000_0000 0x5200_0000 then .setAlias (a - 0x5000_0000)
  else if within 0x6000_0000 0x6200_0000 then .clrAlias (a - 0x6000_0000)
  else if within 0x8000_0000 0x8440_0000 then .window ((a - 0x8000_0000) / 0x10_0000) ((a - 0x8000_0000) % 0x10_0000)
  else if within 0x1_0000_0000 0x21_0000_0000 then .dram (a - 0x1_0000_0000)
  else .none

/-- 13 R401: bank of a Storeroom offset, and the offset of a word of a bank. -/
def storeBank (o : Nat) : Nat := 8 * bitsOf o 22 3 + bitsOf o 6 3
def bankWordOff (b w : Nat) : Nat := b / 8 * 2 ^ 22 + w / 8 * 512 + b % 8 * 64 + w % 8 * 8

/-- 13 R409: the merge-buffer port of a byte address. -/
def portOf (s : State) (host : Bool) (a : Nat) : Nat :=
  match target a 1 with
  | .common _ => if host then portHost else portCommon
  | .store o => storeBank o
  | .dram o => portDram (locate s o).1
  | .window c _ => portWindow c
  | _ => 255

/-- 13 R412: the region of a word on the Atrium. -/
def regionOf (s : State) (w : Nat) : Nat :=
  match target (8 * w) 8 with
  | .common _ => 18
  | .store o => 10 + o / 2 ^ 22
  | .dram o => 20 + (locate s o).1
  | .window c _ => 4 + c / 17
  | _ => 30

/-! ## Corrections (13 R408, R413, R414) -/

/-- 13 R413: bucket depth. -/
def bktDepth (s : State) (r : Nat) : Nat := Nat.max 1 (fget s (MEM_BKT_CFG r) MEM_BKT_CFG_depth)

/-- 13 R413: a correction in region `r` (regions 30 and 31 never count) (log 43, DESIGN CHOICE). -/
def bucketRaise (s : State) (r : Nat) : State :=
  if 30 ≤ r then s
  else
    let lvl := fget s (MEM_BKT_LEVEL r) MEM_BKT_LEVEL_level
    if lvl < bktDepth s r then fset s (MEM_BKT_LEVEL r) MEM_BKT_LEVEL_level (lvl + 1)
    else occur (cnt s (MEM_BKT_OVF r)) 0x080 r [rd s MEM_LAST_CE]

/-- 13 R408, R412 to R414: a word is corrected; `addr` is what target 0x0D shows. -/
def noteCorrection (s : State) (region : Nat) (two : Bool) (array : BitVec 16) (column : BitVec 10) (addr word : Nat) : State :=
  let w := b2n two * 2 ^ 31 + region * 2 ^ 26 + column.toNat * 2 ^ 16 + array.toNat
  let s1 := wr s MEM_LAST_CE (BitVec.ofNat 32 w)
  bucketRaise { s1 with ecc := { s1.ecc with lastCe := addr, wback := s1.ecc.wback ++ [word] } } region

/-- 13 R415: an uncorrectable word is counted and recorded. -/
def noteUe (s : State) (region : Nat) (array : BitVec 16) (addr : Nat) : State :=
  let s1 := wr (cnt s (MEM_UE region)) MEM_LAST_UE (BitVec.ofNat 32 (region * 2 ^ 16 + array.toNat))
  occur s1 0x081 region (det64 addr)

def badAdd (s : State) (w : Nat) : State :=
  if s.ecc.bad.contains w then s else { s with ecc := { s.ecc with bad := s.ecc.bad ++ [w] } }

/-- 14 R438: the write queue holds the whole word. -/
def queueHolds (s : State) (w : Nat) : Bool := s.drc.wq.any (fun e => e.burst == w / 8 && bitOf e.mask.toNat (w % 8))

/-- The word numbers that bytes `a` to `a + n - 1` touch. -/
def wordsIn (a n : Nat) : List Nat := if n = 0 then [] else (List.range ((a + n - 1) / 8 - a / 8 + 1)).map (· + a / 8)

/-- 13 R406: the parity of a word's address: its index in the Storeroom bank or the common room, or its DRAM address. -/
def wordParity (w : Nat) : Bool :=
  match target (8 * w) 8 with
  | .common o => evenParity (o / 8)
  | .store o => evenParity (bitsOf o 9 13 * 8 + bitsOf o 3 3)
  | .dram _ => evenParity (w % 2 ^ 34)
  | _ => evenParity w
/-- The data of a word as its memory holds it. -/
def wordData (s : State) (w : Nat) : BitVec 64 := BitVec.ofNat 64 (leVal (memBytes s.mem (8 * w) 8))
/-- 13 R406: the codeword that a memory on the Atrium holds. -/
def wordCode (s : State) (w : Nat) : BitVec 80 := codeword (wordParity w) (wordData s w) ^^^ smGet 0 s.ecc.flips w
/-- 13 R407: what the decoder makes of a word that has changed. -/
def findingRead (s : State) (f : Finding) : EccRead := eccDecode (wordParity f.word) (wordCode s f.word ^^^ f.flips)
/-- A codeword as it stands; its data are those of `d`. -/
def wordHolds (s : State) (w : Nat) (d : BitVec 64) (c : BitVec 80) : State :=
  let s1 := { s with ecc := { s.ecc with flips := smSet 0 s.ecc.flips w (c ^^^ codeword (wordParity w) d) } }
  if d = wordData s w then s1 else { s1 with mem := memPutBytes s1.mem (8 * w) (leBytes 8 d.toNat) }

/-- 13 R407, R408: a changed word is read. What the decoder takes for the data is what the word holds from now on. -/
def findingNote (s : State) (f : Finding) : State :=
  let w := f.word
  let c := wordCode s w ^^^ f.flips
  match findingRead s f with
  | .clean d => wordHolds s w d c
  | .fixed d n => noteCorrection (wordHolds s w d c) (regionOf s w) (decide (n = 2)) f.array f.column (8 * w) w
  | .uncorrectable => badAdd (wordHolds s w (wordData s w) c) w

/-- The words of `ws` that are read from their memory: corrections, and errors, that the read finds. -/
def readNote (s : State) (ws : List Nat) (found : List Finding) : State :=
  let live := ws.filter (fun w => !queueHolds s w)
  let s1 := found.foldl (fun s f => if live.contains f.word && !s.ecc.bad.contains f.word then findingNote s f else s) s
  (live.filter (fun w => s1.ecc.bad.contains w)).foldl (fun s w =>
    let arr := ((found.find? (fun f => f.word == w)).map (fun f => f.array)).getD (Config.arrayOf (regionOf s w) w)
    noteUe s (regionOf s w) arr (8 * w)) s1

/-- The words of `ws` whose value an error takes away. -/
def lostWords (s : State) (ws : List Nat) : List Nat := ws.filter (fun w => s.ecc.bad.contains w && !queueHolds s w)

/-! ## Responses -/

/-- The answer to a master. 15 R456: an error reaches a control core as an exception with `cause`; the host's writes are posted and
get no answer. -/
def respondAs (cause : Nat) (s : State) (m : Nat) (wr_ : Bool) (ok : Bool) (v : Nat) : State :=
  let s1 := if wr_ && m == 8 then s else emit s (if wr_ then .writeResp m ok else .readData m v ok)
  if !ok && decide (m < 8) then hartTrap m cause s1 else s1
/-- Access-fault causes: 5 of a load, 7 of a store or AMO. -/
def respond (s : State) (m : Nat) (wr_ : Bool) (ok : Bool) (v : Nat) : State := respondAs (if wr_ then 7 else 5) s m wr_ ok v

/-- 15 R451, R456, R476: an access ends with an error response; a read returns zero. -/
def accessError (s : State) (cause m a : Nat) (wr_ : Bool) (strb : Nat) : State :=
  respond (capture s cause m a wr_ strb) m wr_ false 0

/-- Byte strobes of an access within its first 64-bit word. -/
def strobesOf (a n : Nat) : Nat := bitsOf (2 ^ (Nat.min n 8) - 1) 0 8 * 2 ^ (a % 8) % 256

/-! ## DRAM access rules (14 R429, R432, R442; 15 R458, R475) -/

/-- The channel of a DRAM offset answers every access with an error. -/
def chFaulty (s : State) (o : Nat) : Bool :=
  let ch := (locate s o).1 / 2
  chState s ch == chFAULTY ||
    (match s.drc.migr with | some m => m.lost && m.ch == ch && !(m.back && m.trained) | none => false)

/-- Why a DRAM access of `n` bytes at offset `o` fails (log 47, DESIGN CHOICE). -/
def dramRefuse (s : State) (m o n : Nat) : Option Nat :=
  if !domOn s 14 then some capIslandOff
  else if dramBytes s < o + n then some capDramRange
  else match confined m with
    | some kind => if inPart s kind (o + 0x1_0000_0000) n then none else some capPartition
    | none => none

def dramError (s : State) (m o : Nat) (cause : Nat) (wr_ : Bool) (n : Nat) : State :=
  let s1 := if cause = capPartition then cnt s DRC_PART_ERR else s
  accessError s1 cause m (o + 0x1_0000_0000) wr_ (strobesOf o n)

/-- Why an access of an audio requester to the address `a` fails. -/
def dmaRefuse (s : State) (m a n : Nat) : Option Nat :=
  if 0x1_0000_0000 ≤ a ∧ a + n ≤ 0x21_0000_0000 then
    let o := a - 0x1_0000_0000
    match dramRefuse s m o n with
    | some c => some c
    | none => if chFaulty s o then some capUncorr else none
  else some capUnmapped

/-- Such an access is captured; a read that a FAULTY channel fails is an uncorrectable error and an
integrity fault (14 R442). -/
def dmaError (s : State) (m a n cause : Nat) (wr_ : Bool) : State :=
  let s1 := if cause = capPartition then cnt s DRC_PART_ERR else s
  let s2 := capture s1 cause m a wr_ (strobesOf a n)
  if cause = capUncorr ∧ !wr_ then accuse (noteUe s2 (regionOf s (a / 8)) (Config.arrayOf (regionOf s (a / 8)) (a / 8)) (a / 8 * 8)) 1 else s2

/-! ## DRAM commands (14 R434, R437) -/

/-- 14 R437: an entry is written to DRAM. When it does not hold the whole burst, the burst is read first: what the read corrects is
written back corrected, and a word that it finds uncorrectable stays as it is. -/
def wqDrain (s : State) (e : WqEnt) : State :=
  let put := fun (w : Nat) => bitOf e.mask.toNat (w % 8)
  let others := ((List.range 8).map (· + 8 * e.burst)).filter (fun w => !put w)
  let s0 := (others.filter (fun w => s.ecc.bad.contains w)).foldl
    (fun s w => noteUe s (regionOf s w) (Config.arrayOf (regionOf s w) w) (8 * w)) s
  let mem := (List.range 64).foldl (fun m i =>
    if bitOf e.mask.toNat (i / 8) then memPut m (64 * e.burst + i) (BitVec.ofNat 8 (bitsOf e.data.toNat (8 * i) 8)) else m) s0.mem
  wqAdmit { s0 with mem := mem, ecc := s0.ecc.cure (fun w => !(w / 8 == e.burst && (put w || !s0.ecc.bad.contains w))),
                    drc := { s0.drc with wq := s0.drc.wq.erase e } } e.sub

/-- 14 R427: the beats of a burst: of codeword `w` in beats 2w and 2w + 1 the data bits, and above them eight check bits each. -/
def burstBeats (s : State) (burst : Nat) : List (BitVec 40) :=
  (List.range 8).flatMap (fun w =>
    let c := wordCode s (8 * burst + w)
    [c.extractLsb' 64 8 ++ c.extractLsb' 0 32, c.extractLsb' 72 8 ++ c.extractLsb' 32 32])

/-- A burst on the pins of a subchannel. -/
def burstEmit (sub kind burst : Nat) (s : State) : State := emit (emit s (.dramBurst sub (burstBeats s burst))) (.dram sub kind burst)

/-- 14 R434: the command a subchannel issues when the timing forbids the first `skip` of those that wait
(log 48, DESIGN CHOICE). -/
def doDramCommandIssue (sub : Fin 8) (skip : Nat) (s : State) : State :=
  let ch := sub.val / 2
  if chState s ch = chFAULTY ∨ !dramRuns s then s
  else match (dramOrder s sub)[skip]? with
    | none => s
    | some .replay =>
      emit { s with drc := { s.drc with replay := smSet 0 s.drc.replay ch (smGet 0 s.drc.replay ch - 1) } } (.dram sub 0 0)
    | some .refresh =>
      let shut := smDrop s.drc.openRow (sub * 4096) (sub * 4096 + 4096)
      let s1 := { s with drc := { s.drc with refDue := smSet 0 s.drc.refDue sub (smGet 0 s.drc.refDue sub - 1), openRow := shut } }
      retryPut (emit s1 (.dram sub 1 0)) ch
    | some .retrain => emit { s with drc := { s.drc with retrainDue := s.drc.retrainDue.erase sub } } (.dram sub 2 0)
    | some (.rfm b) => retryPut (emit { s with drc := { s.drc with rfmDue := s.drc.rfmDue.erase (sub.val, b) } } (.dram sub 3 b)) ch
    | some (.read r) =>
      let s1 := { s with drc := { s.drc with rq := s.drc.rq.erase r } }
      retryPut (burstEmit sub 4 r.burst (activate s1 sub r.burst r.master)) ch
    | some (.write e) => retryPut (burstEmit sub 5 e.burst (activate (wqDrain s e) sub e.burst e.master)) ch
    | some .copy => retryPut (emit (copyChunk s) (.dram sub 6 ((s.drc.migr.map (·.k)).getD 0))) ch

/-! ## Merge buffer (13 R409 to R411) -/

/-- 13 R416, 16 R481, 14 R435: a word is written whole through the Atrium. -/
def wordWrite (s : State) (m w : Nat) (v : BitVec 64) : State :=
  if 0x1_0000_0000 ≤ 8 * w then
    { wqPut s m (8 * w) (leBytes 8 v.toNat) with ctl := s.ctl.snoop (· == w) }
  else
    { s with mem := memPutBytes s.mem (8 * w) (leBytes 8 v.toNat), ecc := s.ecc.cure (· != w),
             ctl := s.ctl.snoop (· == w) }

/-- The value a word holds below the merge buffers. -/
def wordBelow (s : State) (w : Nat) : Nat :=
  leVal ((List.range 8).map (fun i => match wqByte s.drc.wq (8 * w + i) with | some b => b | none => memByte s.mem (8 * w + i)))

/-- 13 R410, R411: read-modify-write of an entry; an uncorrectable word keeps its content and the write is lost. -/
def mergeDone (s : State) (e : MergeEnt) (found : List Finding) : State :=
  let s1 := readNote { s with ecc := { s.ecc with merge := s.ecc.merge.erase e } } [e.word] found
  if (lostWords s1 [e.word]).isEmpty then
    let old := wordBelow s1 e.word
    let v := leVal ((List.range 8).map (fun i =>
      if bitOf e.strobes.toNat i then BitVec.ofNat 8 (bitsOf e.data.toNat (8 * i) 8) else BitVec.ofNat 8 (bitsOf old (8 * i) 8)))
    wordWrite s1 e.master e.word (BitVec.ofNat 64 v)
  else capture s1 capMergeLost e.master (8 * e.word) true e.strobes.toNat

/-- 13 R409, R410: a write of bytes of one word through a port. -/
def wordPut (s : State) (m port a : Nat) (l : List Byte) (found : List Finding) : State :=
  let w := a / 8
  let mine := fun (e : MergeEnt) => e.port == port && e.word == w
  if l.length = 8 then
    wordWrite { s with ecc := { s.ecc with merge := s.ecc.merge.filter (fun e => !mine e) } } m w (BitVec.ofNat 64 (leVal l))
  else
    let strb := BitVec.ofNat 8 (strobesOf a l.length)
    let put := fun (old : BitVec 64) => BitVec.ofNat 64 (overlay old.toNat (8 * w) 8 a l)
    match s.ecc.merge.find? mine with
    | some e =>
      let e' : MergeEnt := { e with data := put e.data, strobes := e.strobes ||| strb, master := m }
      if e'.strobes = 0xFF#8 then
        wordWrite { s with ecc := { s.ecc with merge := s.ecc.merge.filter (fun e => !mine e) } } m w e'.data
      else { s with ecc := { s.ecc with merge := s.ecc.merge.map (fun x => if mine x then e' else x) },
                    ctl := s.ctl.snoop (· == w) }
    | none =>
      let s1 := if 16 ≤ (s.ecc.merge.filter (fun e => e.port == port)).length then
          (match s.ecc.merge.find? (fun e => e.port == port) with | some e => mergeDone s e found | none => s)
        else s
      { s1 with ecc := { s1.ecc with merge := s1.ecc.merge ++ [⟨port, w, put 0, strb, m⟩] },
                ctl := s1.ctl.snoop (· == w) }

/-- 13 R410: an entry that covers the word is completed first. -/
def mergeFirst (s : State) (port w : Nat) (found : List Finding) : State :=
  match s.ecc.merge.find? (fun e => e.port == port && e.word == w) with
  | some e => mergeDone s e found
  | none => s

/-- 13 R410: the oldest entry of a port of the Storeroom, the common room or DRAM has been held for 64 cycles. -/
def memMergeComplete (port : Nat) (found : List Finding) (s : State) : State :=
  match s.ecc.merge.find? (fun e => e.port == port) with
  | some e => mergeDone s e found
  | none => s

/-! ## Access to the byte memories -/

/-- 13 R421: a bank, or the common room, of the range is being filled, so the access stalls. -/
def filling (s : State) (a n : Nat) : Bool :=
  (wordsIn a n).any (fun w => match target (8 * w) 8 with
    | .store o | .setAlias o | .clrAlias o => fbit s (MEM_BANK_STATUS (storeBank o)) MEM_BANK_STATUS_filling
    | .common _ => s.ecc.fillCommon
    | _ => false)

/-- 15 R473: the pieces of a burst of `n` bytes: four beats of 32 bytes, the first of which may begin inside a beat. -/
def pieces (a n : Nat) : List (Nat × Nat) :=
  let lo := a / 32 * 32
  (List.range ((a + n - lo + 127) / 128)).filterMap (fun k =>
    let b := Nat.max a (lo + 128 * k)
    let e := Nat.min (a + n) (lo + 128 * (k + 1))
    if b < e then some (b, e - b) else none)

/-- One piece of a read of the Storeroom, the common room or DRAM. -/
def readPiece (m : Nat) (found : List Finding) (s : State) (p : Nat × Nat) : State :=
  let (a, n) := p
  let host := decide (m = 8)
  let faulty := decide (0x1_0000_0000 ≤ a) && chFaulty s (a - 0x1_0000_0000)
  if faulty then
    let s1 := if masterClass m = 0 then accuse (noteUe s (regionOf s (a / 8)) (Config.arrayOf (regionOf s (a / 8)) (a / 8)) (a / 8 * 8)) 1 else s
    accessError s1 capUncorr m a false (strobesOf a n)
  else
    let ws := wordsIn a n
    let s1 := readNote s ws found
    let s2 := if 0x1_0000_0000 ≤ a ∧ !(ws.all (queueHolds s1)) then rqPut s1 m a s1.tim.elapsed else s1
    let v := leVal (viewBytes s2 host a n)
    if (lostWords s2 ws).isEmpty then respond s2 m false true v
    else
      let s3 := if masterClass m = 0 then accuse s2 1 else s2
      respond (capture s3 capUncorr m a false (strobesOf a n)) m false false v

/-- 13 R407, R411, R415: a read of a byte memory (log 42, DESIGN CHOICE). -/
def memReadAcc (m a n : Nat) (found : List Finding) (s : State) : State :=
  if filling s a n then { s with ecc := { s.ecc with stalled := s.ecc.stalled ++ [⟨m, a, n, none, none⟩] } }
  else if 0x1_0000_0000 ≤ a then
    let o := a - 0x1_0000_0000
    match dramRefuse s m o n with
    | some c => dramError s m o c false n
    | none => match tokenTake s m ((a % 32 + n + 31) / 32) with
      | none => s
      | some s1 => (pieces a n).foldl (readPiece m found) s1
  else (pieces a n).foldl (readPiece m found) s

/-- The bytes of a write, word by word. -/
def writeWords (a : Nat) (l : List Byte) : List (Nat × List Byte) :=
  (wordsIn a l.length).map (fun w =>
    let lo := Nat.max a (8 * w)
    (lo, (l.drop (lo - a)).take (8 * w + 8 - lo)))

/-- 13 R409, R410: a write of a byte memory. -/
def memWriteAcc (m a : Nat) (l : List Byte) (found : List Finding) (s : State) : State :=
  let n := l.length
  let host := decide (m = 8)
  if filling s a n then
    { s with ecc := { s.ecc with stalled := s.ecc.stalled ++ (writeWords a l).map (fun (x, b) => ⟨m, x, b.length, some (BitVec.ofNat 64 (leVal b)), none⟩) } }
  else
    let go := fun (s : State) => (writeWords a l).foldl (fun s (x, b) => wordPut s m (portOf s host x) x b found) s
    if 0x1_0000_0000 ≤ a then
      let o := a - 0x1_0000_0000
      match dramRefuse s m o n with
      | some c => dramError s m o c true n
      | none =>
        if chFaulty s o then accessError s capUncorr m a true (strobesOf a n)
        else match tokenTake s m ((a % 32 + n + 31) / 32) with
          | none => s
          | some s1 => respond (go s1) m true true 0
    else respond (go s) m true true 0

/-- 13 R403, R404: SET (`set`) or CLR of word `w` as one locked bank operation. -/
def aliasOp (set : Bool) (m a : Nat) (data : BitVec 64) (strb : BitVec 8) (found : List Finding) (s : State) : State :=
  let w := a / 8
  let port := portOf s false a
  let s1 := readNote (mergeFirst s port w found) [w] found
  if (lostWords s1 [w]).isEmpty then
    let mask := (List.range 8).foldl (fun x i => if strb.getLsbD i then x ||| (0xFF#64 <<< (8 * i)) else x) 0#64
    let old := BitVec.ofNat 64 (wordBelow s1 w)
    respond (wordWrite s1 m w (if set then old ||| (data &&& mask) else old &&& ~~~(data &&& mask))) m true true 0
  else accessError s1 capUncorr m a true strb.toNat

/-- A write to an alias: the word, its data and its strobes. -/
def aliasWrite (set : Bool) (m addr : Nat) (data : BitVec 64) (strb : BitVec 8) (found : List Finding) (s : State) : State :=
  let base := if set then 0x5000_0000 else 0x6000_0000
  if base ≤ addr ∧ addr < base + 0x200_0000 then
    let a := (addr - base) / 8 * 8 + 0x4000_0000
    if filling s a 8 then { s with ecc := { s.ecc with stalled := s.ecc.stalled ++ [⟨m, addr / 8 * 8, strb.toNat, some data, none⟩] } }
    else aliasOp set m a data strb found s
  else s
def doSetAliasWrite (m : Fin 21) (addr : Nat) (data : BitVec 64) (strb : BitVec 8) (found : List Finding) (s : State) : State :=
  aliasWrite true m addr data strb found s
def doClrAliasWrite (m : Fin 21) (addr : Nat) (data : BitVec 64) (strb : BitVec 8) (found : List Finding) (s : State) : State :=
  aliasWrite false m addr data strb found s

/-! ## LR, SC and AMO (16 R481) -/

/-- What an AMO computes from the old value and the operand, both taken as `bits` wide. -/
def amoVal (op : AmoOp) (bits : Nat) (old x : BitVec 64) : BitVec 64 :=
  let sx := fun (v : BitVec 64) => if bits = 32 then (v.setWidth 32).toInt else v.toInt
  let ux := fun (v : BitVec 64) => if bits = 32 then (v.setWidth 32).toNat else v.toNat
  match op with
  | .swap => x
  | .add => old + x
  | .and => old &&& x
  | .or => old ||| x
  | .xor => old ^^^ x
  | .min => if sx old ≤ sx x then old else x
  | .max => if sx x ≤ sx old then old else x
  | .minu => if ux old ≤ ux x then old else x
  | .maxu => if ux x ≤ ux old then old else x
  | .lr => old
  | .sc => x

/-- 16 R481: a control core's LR, SC or AMO, performed as one bank operation; aimed elsewhere, or misaligned, it is an
access fault, answered as an error (log 46, DEDUCED). -/
def doStoreroomAmo (c : Fin 8) (op : AmoOp) (dbl : Bool) (addr : Nat) (data : BitVec 64) (found : List Finding) (s : State) : State :=
  let n := if dbl then 8 else 4
  match target addr n with
  | .store _ =>
    if addr % n ≠ 0 then respondAs 7 s c false false 0
    else if filling s addr n then { s with ecc := { s.ecc with stalled := s.ecc.stalled ++ [⟨c, addr, n, some data, some op⟩] } }
    else
      let w := addr / 8
      let bank := storeBank (addr - 0x4000_0000)
      let s1 := readNote (mergeFirst s (portOf s false addr) w found) [w] found
      if !(lostWords s1 [w]).isEmpty then respondAs 7 (capture s1 capUncorr c addr false (strobesOf addr n)) c false false 0
      else
        let word := BitVec.ofNat 64 (wordBelow s1 w)
        let sh := 8 * (addr % 8)
        let old := if dbl then word else ((word >>> sh).setWidth 32).signExtend 64
        let put := fun (v : BitVec 64) =>
          if dbl then v else (word &&& ~~~(0xFFFF_FFFF#64 <<< sh)) ||| (((v.setWidth 32).setWidth 64) <<< sh)
        let mine := s1.ctl.resv.contains (bank, c.val, w)
        let drop := fun (s : State) => { s with ctl := { s.ctl with resv := s.ctl.resv.filter (fun (b, k, _) => !(b == bank && k == c.val)) } }
        match op with
        | .lr =>
          let l := s1.ctl.resv.filter (fun (b, k, _) => !(b == bank && k == c.val)) ++ [(bank, c.val, w)]
          respond { s1 with ctl := { s1.ctl with resv := l } } c false true old.toNat
        | .sc =>
          if mine then respond (drop (wordWrite s1 c w (put data))) c false true 0 else respond (drop s1) c false true 1
        | _ => respond (wordWrite s1 c w (put (amoVal op (8 * n) old data))) c false true old.toNat
  | _ => respondAs 7 s c false false 0

/-! ## Write-back, buckets, patrol -/

/-- 13 R408: the memory has an idle cycle: the corrected word is written back with fresh check bits; its data do not change. -/
def doCorrectedWriteback (s : State) : State :=
  { s with ecc := { s.ecc with wback := s.ecc.wback.tail, flips := s.ecc.flips.filter (fun (w, _) => s.ecc.wback.head? != some w || s.ecc.bad.contains w) } }

/-- 13 R413. -/
def doBucketLeak (r : Fin 32) (s : State) : State :=
  fset s (MEM_BKT_LEVEL r) MEM_BKT_LEVEL_level (fget s (MEM_BKT_LEVEL r) MEM_BKT_LEVEL_level - 1)

/-- 13 R413: a write to MEM_BKT_CFG; the level stays within the new depth. -/
def bucketConfig (m : Nat) (r : Nat) (w : W32) (s : State) : State :=
  let s1 := swWrite s m (MEM_BKT_CFG r) w
  fset s1 (MEM_BKT_LEVEL r) MEM_BKT_LEVEL_level (Nat.min (fget s1 (MEM_BKT_LEVEL r) MEM_BKT_LEVEL_level) (bktDepth s1 r))

/-- Where a unit memory's word that a patrol finds uncorrectable is remembered until its unit reads it. -/
def patrolBad (s : State) (region word : Nat) : State :=
  if region < 4 then
    (if s.gal.badNodes.contains word then s else { s with gal := { s.gal with badNodes := s.gal.badNodes ++ [word] } })
  else if region = 8 then
    (if s.str.badState.contains word then s else { s with str := { s.str with badState := s.str.badState ++ [word] } })
  else if 4 ≤ region ∧ region < 8 then
    let c := 17 * (region - 4) + word / 2 ^ 20
    { s with cores := smMod coreZero s.cores c (fun k => { k with bad := if k.bad.contains (word % 2 ^ 20) then k.bad else k.bad ++ [word % 2 ^ 20] }) }
  else
    let k := region * 2 ^ 32 + word
    if s.ecc.badArr.contains k then s else { s with ecc := { s.ecc with badArr := s.ecc.badArr ++ [k] } }

/-- 13 R415: the unit of region `r` reads word `w` of an array that a patrol has found uncorrectable: counted, recorded, and written
anew (log 55, DESIGN CHOICE). -/
def arrBad (s : State) (r w : Nat) : Bool := s.ecc.badArr.contains (r * 2 ^ 32 + w)
def arrError (r w : Nat) (s : State) : State :=
  noteUe { s with ecc := { s.ecc with badArr := s.ecc.badArr.filter (· != r * 2 ^ 32 + w) } } r (Config.arrayOf r w) w

/-! ## Data caches of the control cores (16 R479, R480) -/

/-- 16 R480: control core `c` may keep the line of an address. -/
def cacheable (s : State) (c a : Nat) : Bool :=
  match target a 1 with
  | .store o => bitOf (fget s (CTL_CORE_CACHE c) CTL_CORE_CACHE_storeroom) (o / 2 ^ 22)
  | .dram _ => fbit s (CTL_CORE_CACHE c) CTL_CORE_CACHE_dram
  | _ => false

/-- The place in which the data cache of core `c` holds the line of an address. -/
def cachePlace (s : State) (c a : Nat) : Option Nat :=
  (s.ctl.dcache.find? (fun (k, l) => k / 1024 == c && l == some (a / 64))).map (·.1)

/-- 13 R412, R415: the word of region 28, found uncorrectable by a patrol, that a read of master `m` meets in its data cache: word `w` of
place `k` has the number 8 × k + w there (log 161, DESIGN CHOICE). -/
def cacheFault (s : State) (m a : Nat) : Option Nat :=
  if m < 8 ∧ cacheable s m a then
    (cachePlace s m a).bind (fun k => ((List.range 8).find? (fun i => arrBad s 28 (8 * k + i))).map (fun i => 8 * k + i))
  else none

/-- 13 R415, 16 R479: such a read: the line goes, and the core takes a precise access-fault exception. -/
def cacheTrap (m w : Nat) (s : State) : State :=
  hartTrap m 5 { arrError 28 w s with ctl := { (arrError 28 w s).ctl with dcache := s.ctl.dcache.filter (fun e => e.1 != w / 8) } }

/-- 16 R479: the line that a core has read is in its data cache; the source gives no places (log 161, DESIGN CHOICE). -/
def cacheTake (m a : Nat) (s : State) : State :=
  if m < 8 ∧ cacheable s m a ∧ cachePlace s m a = none then
    let (v, s1) := freeDraw s
    { s1 with ctl := { s1.ctl with dcache := smSet none s1.ctl.dcache (1024 * m + v.toNat % 1024) (some (a / 64)) } }
  else s

/-! ## Scrubber (13 R418 to R420) -/

/-- 13 R418: SCRUB (log 44, DESIGN CHOICE). -/
def scrubCmd (t : Nat) (e : BitVec 512) (s : State) : State :=
  let a := eByte e 16 8
  let n := eByte e 24 8
  let rep := eByte e 32 8
  let okRange := inStore a n || (decide (0x2000_0000 ≤ a) && decide (a + n ≤ 0x2008_0000)) || inDramSpace a n
  match eReserved e [(16, 24)] with
  | some i => refuse s t ocRANGE i
  | none =>
    if !bgEnabled s 1 then refuseAll s t ocDISABLED
    else if a % 8 ≠ 0 then refuse s t ocRANGE 16
    else if n % 8 ≠ 0 ∨ n = 0 then refuse s t ocRANGE 24
    else if !okRange then refuse s t ocRANGE 16
    else if rep % 64 ≠ 0 ∨ !(inStore rep 320 || inDramSpace rep 320) then refuse s t ocRANGE 32
    else if (0x1_0000_0000 ≤ a ∨ 0x1_0000_0000 ≤ rep) ∧ !dramReady s then
      refuse s t ocNODRAM (if 0x1_0000_0000 ≤ a then 16 else 32)
    else if 0x1_0000_0000 ≤ a ∧ dramBytes s < a + n - 0x1_0000_0000 then refuse s t ocRANGE 16
    else if 0x1_0000_0000 ≤ rep ∧ dramBytes s < rep + 320 - 0x1_0000_0000 then refuse s t ocRANGE 32
    else if s.ecc.scrub.isSome then refuseAll s t ocBUSY
    else
      let s1 := fset s MEM_STATUS MEM_STATUS_scrub_busy 1
      { s1 with ecc := { s1.ecc with scrub := some ⟨a, n, rep, t, [], [], 0, 0⟩ } }

/-- 00 R3, 11 R335: Freiz time in 16 bytes of a report: fraction, nanoseconds, seconds. -/
def freizBytes (t : Nat) : List Byte := leBytes 4 (freizFrac t) ++ leBytes 4 (freizNs t) ++ leBytes 8 (freizSec t)

/-- 13 R420: the summary, its sequence number last, and the completion. -/
def scrubReport (j : ScrubJob) (oc : Nat) (s : State) : State :=
  let pad := fun (l : List Nat) => ((List.range 16).map (fun i => leBytes 8 ((l[i]?).getD 0))).flatten
  let body := freizBytes s.tim.freiz ++ leBytes 8 j.start ++ leBytes 8 j.len ++ leBytes 8 j.ceN ++ leBytes 8 j.ueN ++
    leBytes 8 0 ++ pad j.ce ++ pad j.ue
  let s1 := memStore (memStoreBytes s (j.report + 8) body) j.report 8 s.ecc.scrubSeq
  let s2 := fset { s1 with ecc := { s1.ecc with scrub := none, scrubSeq := s1.ecc.scrubSeq + 1 } } MEM_STATUS MEM_STATUS_scrub_busy 0
  complete s2 j.ticket oc 0 (Nat.min j.ceN 0xFFFF_FFFF + Nat.min j.ueN 0xFFFF_FFFF * 2 ^ 32)

/-- 13 R419, R420: the range has been read once, in ascending order, and this was found. -/
def doScrubDone (found : List Finding) (s : State) : State :=
  match s.ecc.scrub with
  | none => s
  | some j =>
    let inR := fun (w : Nat) => decide (j.start ≤ 8 * w) && decide (8 * w < j.start + j.len)
    let fs := found.filter (fun f => inR f.word && !s.ecc.bad.contains f.word)
    let fixed := fs.filter (fun f => match findingRead s f with | .fixed _ _ => true | _ => false)
    let hit := fs.map (fun f => f.word) ++ s.ecc.bad.filter inR
    let s1 := readNote s (hit.mergeSort (fun a b => decide (a ≤ b))).eraseDups fs
    let ue := ((s1.ecc.bad.filter inR).mergeSort (fun a b => decide (a ≤ b))).map (8 * ·)
    let ce := (((fixed.map (fun f => f.word)).filter (fun w => !s1.ecc.bad.contains w)).mergeSort (fun a b => decide (a ≤ b))).eraseDups.map (8 * ·)
    scrubReport { j with ce := ce, ue := ue, ceN := ce.length, ueN := ue.length } ocOK s1

/-- 13 R415, R419: the scrub stops after a number of words that its timing decides; the uncorrectable words among them count. -/
def scrubStop (s : State) : State :=
  match s.ecc.scrub with
  | none => s
  | some j =>
    let (v, s1) := freeDraw s
    let n := v.toNat % (j.len / 8 + 1)
    let ue := (s1.ecc.bad.filter (fun w => decide (j.start ≤ 8 * w) && decide (8 * w < j.start + 8 * n))).mergeSort (fun a b => decide (a ≤ b))
    scrubReport { j with ue := ue.map (8 * ·), ueN := ue.length } ocABORTED (readNote s1 ue [])

/-! ## Zero fill and condition reports (13 R421, R422) -/

/-- A Storeroom bank's cells. -/
def inBank (b a : Nat) : Bool := decide (0x4000_0000 ≤ a) && decide (a < 0x4200_0000) && storeBank (a - 0x4000_0000) == b

/-- 13 R421: the fill of a bank, or of the common room (64), starts. -/
def fillStart (b : Nat) (s : State) : State :=
  let out := fun (a : Nat) => if b = 64 then decide (0x2000_0000 ≤ a) && decide (a < 0x2008_0000) else inBank b a
  let s1 := { s with mem := s.mem.filter (fun c => !out c.1),
                     ecc := { s.ecc.cure (fun w => !out (8 * w)) with merge := s.ecc.merge.filter (fun e => !out (8 * e.word)) } }
  let s2 := if b = 64 then { s1 with ecc := { s1.ecc with fillCommon := true } } else fset s1 (MEM_BANK_STATUS b) MEM_BANK_STATUS_filling 1
  fset s2 MEM_STATUS MEM_STATUS_fill_busy 1

/-- 13 R422: CRC-32C over a bank in ascending word index. -/
def bankCrc (s : State) (b : Nat) : BitVec 32 :=
  crc32c (((List.range 65536).map (fun w => memBytes s.mem (0x4000_0000 + bankWordOff b w) 8)).flatten)

def bankBad (s : State) (b : Nat) : Bool := s.ecc.bad.any (fun w => inBank b (8 * w))
def setUnsealed (s : State) (b : Nat) (v : Bool) : State :=
  let s1 := fset s (MEM_BANK_STATUS b) MEM_BANK_STATUS_unsealed (b2n v)
  if b < 32 then fset s1 MEM_UNSEALED_LO ⟨b, 1⟩ (b2n v) else fset s1 MEM_UNSEALED_HI ⟨b - 32, 1⟩ (b2n v)
def setBankPower (s : State) (b v : Nat) : State := fset s (MEM_BANK_STATUS b) MEM_BANK_STATUS_power v

/-- 13 R422: a bank enters RETAIN (2) or OFF (3). -/
def bankDown (b v : Nat) (s : State) : State :=
  let s1 := setUnsealed (setBankPower s b v) b false
  if v = 2 then wr s1 (MEM_COND b) (bankCrc s1 b) else s1

/-- 13 R421, R422: a bank leaves RETAIN or OFF. -/
def bankUp (b : Nat) (s : State) : State :=
  let was := fget s (MEM_BANK_STATUS b) MEM_BANK_STATUS_power
  let s1 := setBankPower s b 0
  if was = 3 then fillStart b s1
  else if was = 2 then
    let c := bankCrc s1 b
    if c = rd s1 (MEM_COND b) ∧ !bankBad s1 b then s1
    else
      let s2 := cnt (setUnsealed s1 b true) MEM_UNSEALED_CNT
      fillStart b (occur s2 0x082 b [rd s1 (MEM_COND b), c])
  else s1

/-- 13 R421: the fill ends and the accesses that stalled for it proceed. -/
def doBankFillDone (b : Fin 65) (s : State) : State :=
  let busy := if b.val = 64 then s.ecc.fillCommon else fbit s (MEM_BANK_STATUS b) MEM_BANK_STATUS_filling
  if !busy then s
  else
    let s1 := if b.val = 64 then { s with ecc := { s.ecc with fillCommon := false } } else fset s (MEM_BANK_STATUS b) MEM_BANK_STATUS_filling 0
    let more := s1.ecc.fillCommon || (List.range 64).any (fun k => fbit s1 (MEM_BANK_STATUS k) MEM_BANK_STATUS_filling)
    let s2 := if more then s1 else fset s1 MEM_STATUS MEM_STATUS_fill_busy 0
    let wait := s2.ecc.stalled
    wait.foldl (fun s x => match x.amo, x.write with
      | some op, d => if h : x.master < 8 then doStoreroomAmo ⟨x.master, h⟩ op (x.size == 8) x.addr (d.getD 0) [] s else s
      | none, none => memReadAcc x.master x.addr x.size [] s
      | none, some d =>
        if 0x5000_0000 ≤ x.addr ∧ x.addr < 0x8000_0000 then
          aliasWrite (decide (x.addr < 0x6000_0000)) x.master x.addr d (BitVec.ofNat 8 x.size) [] s
        else memWriteAcc x.master x.addr (leBytes x.size d.toNat) [] s)
      { s2 with ecc := { s2.ecc with stalled := [] } }

/-! ## Column repair (13 R424) -/

/-- Entries used and void, as MEM_REPAIR_USE shows them. -/
def repairUse (s : State) : State :=
  let used := s.perm.otp.length
  let void := (s.perm.otp.filter (fun (_, w) => bitOf w.toNat 30)).length
  wr s MEM_REPAIR_USE (BitVec.ofNat 32 (void * 2 ^ 16 + used))

/-- A spare column of an array is in use. -/
def spareUsed (s : State) (array : Nat) (spare : Nat) : Bool :=
  (Config.factorySpares (BitVec.ofNat 16 array)).getLsbD spare ||
  ((s.perm.otp.map (·.2)) ++ s.ecc.repair.map (·.1)).any (fun w =>
    bitOf w.toNat 31 && !bitOf w.toNat 30 && bitsOf w.toNat 14 16 == array && bitsOf w.toNat 2 2 == spare)

/-- 13 R424: REPAIR (log 45, DESIGN CHOICE). -/
def repairCmd (t : Nat) (e : BitVec 512) (s : State) : State :=
  let array := eByte e 16 2
  let col := eByte e 18 2
  let spare := eByte e 20 1
  match eReserved e [(16, 5)] with
  | some i => refuse s t ocRANGE i
  | none =>
    if 640 ≤ col then refuse s t ocRANGE 18
    else if 4 ≤ spare then refuse s t ocRANGE 20
    else if s.pin.absent.contains .vppFuse then refuseAll s t ocNOVPP
    else if fbit s MEM_FUSE_SEAL MEM_FUSE_SEAL_fuse then refuseAll s t ocSEALED
    else if 256 ≤ s.perm.otp.length + s.ecc.repair.length then refuseAll s t ocFULL
    else if spareUsed s array spare then refuse s t ocNOSPARE 20
    else
      let w := BitVec.ofNat 32 (2 ^ 31 + array * 2 ^ 14 + col * 2 ^ 4 + spare * 2 ^ 2)
      let s1 := fset s MEM_STATUS MEM_STATUS_repair_busy 1
      { s1 with ecc := { s1.ecc with repair := s1.ecc.repair ++ [(w, t)] } }

/-- 13 R424: the OTP entry has been programmed and read back; this row writes OTP. -/
def doRepairDone (ok : Bool) (s : State) : State :=
  match s.ecc.repair with
  | [] => s
  | (w, t) :: rest =>
    let ent := if ok then w else w ||| 0x4000_0000#32
    let s1 := { s with perm := { s.perm with otp := s.perm.otp ++ [(s.perm.otp.length, ent)] }, ecc := { s.ecc with repair := rest } }
    let s2 := repairUse (fset s1 MEM_STATUS MEM_STATUS_repair_busy (b2n (!rest.isEmpty)))
    complete s2 t (if ok then ocOK else ocFAILED) 0 0

end Sys2Proof.Machine
end

