-- ==== Sys2Proof/Machine/Flags.lean ====
section
/-! DEFINITION. The status words that hardware forms from other state when they are read: SYS_SEALS (spec/15 R463),
SYS_INT_PENDING (15 R465), CTL_CAT_STATUS.key_fused (spec/17), ATL_CORE_BUDGET (06), SCN_DIR (04), ATR_MST_STATUS.tokens (15
R475), DAX_LINK_STATUS.over_budget (10 R319), PRT_MCLK_CFG.refused (11 R367), TIM_HOLD_TIME and TIM_REF_STATUS.present
(spec/11), PRT_GP_IN (08 R275); and a register read (15 R453, R458). -/

namespace Sys2Proof.Machine

/-- 15 R463: SYS_SEALS. -/
def sealsWord (s : State) : W32 :=
  let b := fun (v : Bool) (i : Nat) => b2n v * 2 ^ i
  BitVec.ofNat 32 (b (fbit s (TIM_DOM_SEAL 0) TIM_DOM_SEAL_clock) 0 + b (fbit s (TIM_DOM_SEAL 1) TIM_DOM_SEAL_clock) 1 +
    b (fbit s (TIM_DOM_SEAL 2) TIM_DOM_SEAL_clock) 2 + b (fbit s TIM_REF_SEAL TIM_REF_SEAL_clock) 3 +
    b (fbit s DRC_SEAL DRC_SEAL_timing) 4 + b (fbit s TWN_SEAL TWN_SEAL_role) 5 + b (fbit s MEM_FUSE_SEAL MEM_FUSE_SEAL_fuse) 6 +
    b (fbit s PWR_SEAL PWR_SEAL_policy) 7)

/-! ## Bindings and patch entries -/

def domS (s : State) (i : Nat) : Option Dom := smGet none s.scn.sDom i
def domD (s : State) (d : Nat) : Option Dom := smGet none s.scn.dDom d
def patchReset : PatchEntry := ⟨.nothing, .nothing, false, .steady, 0, 1, 0, none, false⟩
def patchOf (s : State) (e : Nat) : PatchEntry := smGet patchReset s.scn.patch e
def pePend (p : PatchEntry) : PatchVal := if p.live then p.valA else p.valB
def peLive (p : PatchEntry) : PatchVal := if p.live then p.valB else p.valA
/-- 04 R122: the value whose slot gives the entry its domain. -/
def peNow (p : PatchEntry) : PatchVal := if p.state = .fading then pePend p else peLive p
def sumN (l : List Nat) : Nat := l.foldl (· + ·) 0

def vaultBase (s : State) : Nat := get64 s SCN_VAULT_BASE_LO SCN_VAULT_BASE_HI
def vaultSize (s : State) : Nat := fget s SCN_VAULT_SIZE SCN_VAULT_SIZE_size_mib

/-- SCN_DIR: directory entries with the valid byte set. -/
def dirCount (s : State) : Nat :=
  ((List.range 4096).filter (fun i => memRead s (vaultBase s + 32 * i + 17) 1 == 1)).length

/-- 10 R319: units of the transmit channels of a link, with the partial sums it sends at two channels each. -/
def linkUnits (s : State) (sDom dDom : Nat → Option Dom) (vals : Nat → List PatchVal) (l : Nat) : Nat :=
  let cost := fun (x : Option Dom) => match x with | some x => domUnits s x | none => 0
  let costV := fun (v : PatchVal) => match v with
    | .nothing => 0
    | .dslot d => cost (dDom d)
    | .sslot i => cost (sDom i)
  let chans := (smRange s.regs (DAX_TXMAP l 0) (DAX_TXMAP l 0 + 8192)).filter (fun (_, w) => wbit w DAX_TXMAP_valid)
  let ps := (smRange s.regs (DAX_PS l 0) (DAX_PS l 0 + 4096)).filter (fun (_, w) => wbit w DAX_PS_valid && wbit w DAX_PS_tx)
  sumN (chans.map (fun (_, w) => ((vals (wget w DAX_TXMAP_entry)).map costV).foldl Nat.max 0)) + sumN (ps.map (fun (_, w) => 2 * cost (dDom (wget w DAX_PS_d_slot))))

/-! ## Reads -/

/-- 11 R367: the clock of MCLK_OUTi for domain `x`. -/
def mclkHz (s : State) (i : Nat) (x : Dom) : Nat := domHz s x * 128 * 2 ^ fget s (PRT_MCLK_CFG i) PRT_MCLK_CFG_multiple
/-- 11 R367: the rate of an MCLK setting exceeds 50 MHz (log 26, DESIGN CHOICE). -/
def mclkRefused (s : State) (i : Nat) : Bool :=
  let k := PRT_MCLK_CFG i
  match domOf (fget s k PRT_MCLK_CFG_domain) with
  | some x => decide (50000000 < mclkHz s i x)
  | none => false

/-- 08 R275, PRT_GP_IN: a pin's level is what it is driven to, or else what it is seen to be. -/
def gpLevels (s : State) : W32 :=
  BitVec.ofNat 32 ((List.range 32).foldl (fun v g => v + b2n ((smGet none s.prt.gpDrive g).getD (bitOf s.prt.gpRaw g)) * 2 ^ g) 0)

/-- A field of the word that a register shows. -/
def shown (s : State) (k : Nat) (f : Fld) (v : Nat) : W32 := BitVec.ofNat 32 (putBits (rd s k).toNat f.lo f.len v)

/-- The word a read of the register at a key returns. -/
def regView (s : State) (k : Nat) : W32 :=
  if k = SYS_SEALS then sealsWord s
  else if k = SYS_INT_PENDING then BitVec.ofNat 32 (blocksPending s)
  else if k = CTL_CAT_STATUS then
    BitVec.ofNat 32 (putBits (rd s k).toNat CTL_CAT_STATUS_key_fused.lo 1 (b2n (decide (s.perm.fuses ≠ 0))))
  else if k = PRT_GP_IN then gpLevels s
  else if k = TIM_HOLD_TIME then holdSeconds s
  else if k = TIM_REF_STATUS then
    shown s k TIM_REF_STATUS_present ((List.range 9).foldl (fun v i => v + b2n (present s i) * 2 ^ i) 0)
  else if k = SCN_DIR then BitVec.ofNat 32 (dirCount s)
  else if k = DAX_LINK_STATUS 0 ∨ k = DAX_LINK_STATUS 1 then
    shown s k DAX_LINK_STATUS_over_budget (b2n (decide (8192 ≤ linkUnits s (domS s) (domD s) (fun e => [peNow (patchOf s e)]) (if k = DAX_LINK_STATUS 0 then 0 else 1))))
  else if PRT_MCLK_CFG 0 ≤ k ∧ k < PRT_MCLK_CFG 4 then shown s k PRT_MCLK_CFG_refused (b2n (mclkRefused s (k - PRT_MCLK_CFG 0)))
  else if ATR_MST_STATUS 0 ≤ k ∧ k < 0x80000 then (match (List.range 21).find? (fun m => k == ATR_MST_STATUS m) with
    | some m => rd (tokenFill s m) k
    | none => rd s k)
  else match (List.range 68).find? (fun c => k == ATL_CORE_BUDGET c) with
    | some c => BitVec.ofNat 32 (coreBudget s c + coreCutoff s c * 2 ^ 16)
    | none => rd s k

/-- What a 32-bit read of an aligned register offset answers: the word, or why it fails. -/
def regRead (s : State) (o : Nat) : W32 × Option Nat :=
  let b := o / 0x100000 % 16
  match regDecode o with
  | .unmapped => (0, some capUnmapped)
  | .reserved => if domOn s (powerOf b (o % 0x100000)) then (0, none) else (0, some capIslandOff)
  | .reg k => if domOn s (powerOf b (o % 0x100000)) then (regView s k, none) else (0, some capIslandOff)

end Sys2Proof.Machine
end

