-- ==== Sys2Proof/Machine/Ledger.lean ====
section
/-! DEFINITION. The Accession Ledger (spec/19). -/

namespace Sys2Proof.Machine

def degraded (s : State) : Bool := fbit s LDG_STATUS LDG_STATUS_degraded

/-- 19 R553: detail words, then the snapshot set of the code. -/
def ldgWords (s : State) (code : Nat) (det : List W32) : List W32 :=
  let set := fget s (LDG_CODE_CFG code) LDG_CODE_CFG_set
  let d := det.length
  let snap := (List.range (24 - d)).map (fun k =>
    let w := rd s (LDG_SET set k)
    if wbit w LDG_SET_valid then (regRead s (wget w LDG_SET_offset / 4 * 4)).1 else 0)
  (det ++ snap).take 24

/-- 15 R476, 19 R553: snapshot reads that answer with an error are captured, as the Ledger writer's
(log 131, DESIGN CHOICE). -/
def snapErrors (code n : Nat) (s : State) : State :=
  let set := fget s (LDG_CODE_CFG code) LDG_CODE_CFG_set
  (List.range n).foldl (fun s k =>
    let w := rd s (LDG_SET set k)
    let o := wget w LDG_SET_offset / 4 * 4
    if wbit w LDG_SET_valid then (match (regRead s o).2 with
      | some c => capture s c 19 (0x1000_0000 + o) false (if o % 8 = 0 then 0xF else 0xF0)
      | none => s)
    else s) s

/-- 19 R552, R560, R564: an entry is written, to the ring or to a last-resort slot. -/
def ldgWrite (o : Occ) (slot0 : Bool) (s : State) : State :=
  let seq := s.ldg.next
  let e : LdgEntry := ⟨seq, o.time, o.code, o.src, smGet 0 s.ldg.supp o.code, ldgWords s o.code o.det⟩
  let l := { s.ldg with next := seq + 1, supp := smSet 0 s.ldg.supp o.code 0 }
  let l1 := if slot0 then { l with slots := smSet none l.slots 0 (some e) }
    else if degraded s then
      { l with slots := smSet none l.slots l.slotNext (some e), slotNext := if l.slotNext = 3 then 1 else l.slotNext + 1 }
    else { l with ring := smSet none l.ring (seq % 16384) (some e) }
  snapErrors o.code (24 - o.det.length) (cnt (fset { s with ldg := l1 } LDG_STATUS LDG_STATUS_position ((seq + 1) % 16384)) LDG_WRITTEN)

/-- 19 R564, 13 R415: the first uncorrectable word of Ledger memory, at array word index `idx`. -/
def ldgDegrade (idx : Nat) (array : BitVec 16) (s : State) : State :=
  if degraded s then s
  else
    let s1 := fset { s with ldg := { s.ldg with ring := [], slotNext := 1 } } LDG_STATUS LDG_STATUS_degraded 1
    noteUe (ldgWrite ⟨0x3C0, 0, [BitVec.ofNat 32 idx], s.tim.freiz⟩ true s1) 19 array idx

/-- 19 R562: the queue is empty: a FREEZE that waits completes. -/
def freezeDone (s : State) : State :=
  if s.ldg.queue.isEmpty && s.ldg.freezing && !fbit s LDG_STATUS LDG_STATUS_frozen then
    let ts := s.ldg.freezeTickets
    let s1 := fset { s with ldg := { s.ldg with freezeTickets := [] } } LDG_STATUS LDG_STATUS_frozen 1
    ts.foldl (fun s t => complete s t ocOK 0 0) s1
  else s
def doFreezeComplete (s : State) : State := freezeDone s

/-- 19 R553: the writer takes the oldest occurrence; `bad` is an uncorrectable word it meets in Ledger memory. -/
def doLedgerEntryWrite (bad : Option (BitVec 32)) (s : State) : State :=
  match s.ldg.queue with
  | [] => s
  | o :: rest =>
    let s1 := fset { s with ldg := { s.ldg with queue := rest } } LDG_STATUS LDG_STATUS_queue (Nat.min rest.length 255)
    let s2 := match bad with
      | some i => ldgDegrade i.toNat (Config.arrayOf 19 i.toNat) s1
      | none => s1
    ldgWrite o false s2

def doLedgerOccurrence (code : Fin 1024) (src : BitVec 16) (det : List W32) (s : State) : State :=
  occur s code src.toNat (det.take 24)

/-- 19 R559. -/
def doLedgerTokenAdd (code : Fin 1024) (s : State) : State :=
  { s with ldg := { s.ldg with used := smMod 0 s.ldg.used code (· - 1) } }

/-- 19 R556, R559: a write to LDG_CFG; setting enable fills every bucket, and what waited for the Ledger is recorded
(17 R519, 18 R551). -/
def ldgCfg (m : Nat) (w : W32) (s : State) : State :=
  let was := fbit s LDG_CFG LDG_CFG_enable
  let s1 := swWrite s m LDG_CFG w
  if !was && fbit s1 LDG_CFG LDG_CFG_enable then
    let l := s1.ldg.later
    l.foldl (fun s (c, src, d) => occur s c src d) { s1 with ldg := { s1.ldg with used := [], later := [] } }
  else s1

def codeConfig (m c : Nat) (w : W32) (s : State) : State :=
  let s1 := swWrite s m (LDG_CODE_CFG c) w
  { s1 with ldg := { s1.ldg with used := smSet 0 s1.ldg.used c 0 } }

/-- 19 R558. -/
def swEvent (m : Nat) (w : W32) (s : State) : State :=
  let s1 := swWrite s m LDG_SW_EVENT w
  if wbit w LDG_SW_EVENT_go then occur s1 (0x3E0 + wget w LDG_SW_EVENT_n) (wget w LDG_SW_EVENT_source) [] else s1

/-- 19 R562: FREEZE. -/
def freezeCmd (t : Nat) (e : BitVec 512) (s : State) : State :=
  match eReserved e [] with
  | some i => refuse s t ocRANGE i
  | none =>
    if fbit s LDG_STATUS LDG_STATUS_frozen then complete s t ocOK 0 0
    else
      let s1 := fset { s with ldg := { s.ldg with freezing := true, freezeTickets := s.ldg.freezeTickets ++ [t] } }
        LDG_STATUS LDG_STATUS_thawed 0
      freezeDone s1

def thaw (s : State) : State :=
  let ts := s.ldg.freezeTickets
  let s1 := fset { s with ldg := { s.ldg with freezing := false, freezeTickets := [] } } LDG_STATUS LDG_STATUS_frozen 0
  ts.foldl (fun s t => complete s t ocOK 0 0) s1

/-- 19 R563: UNFREEZE (log 130, DEDUCED). -/
def unfreezeCmd (t : Nat) (e : BitVec 512) (s : State) : State :=
  match eReserved e [] with
  | some i => refuse s t ocRANGE i
  | none => complete (thaw s) t ocOK 0 0

def doFreezeTimeout (s : State) : State :=
  if s.ldg.freezing ∧ fget s LDG_CFG LDG_CFG_freeze_max_s ≠ 0 then fset (thaw s) LDG_STATUS LDG_STATUS_thawed 1 else s

/-- 19 R555, R564: the entry at a ring position, or the slot it stands for while degraded. -/
def ldgAt (s : State) (p : Nat) : Option LdgEntry :=
  if degraded s then (if p < 4 then smGet none s.ldg.slots p else none) else smGet none s.ldg.ring p

/-- 19 R552: the 128 bytes of an entry. -/
def ldgBytes (e : LdgEntry) : List Byte :=
  leBytes 8 e.seq ++ freizBytes e.time ++ leBytes 2 e.code ++ leBytes 2 e.src ++ leBytes 4 e.suppressed ++
    (e.words.map (fun w => leBytes 4 w.toNat)).flatten ++ List.replicate (4 * (24 - e.words.length)) 0

/-- 13 R407: what a patrol makes of a changed word of a unit memory. The code is linear, so the bits that have turned over decide. -/
def patrolRead (f : Finding) : EccRead :=
  if parityArray f.region f.word then parityRead f.flips else eccDecode false f.flips

/-- 13 R417: a patrol reads a unit memory: a correction counts; an uncorrectable word waits for its unit's read, but in
Ledger memory it degrades the Ledger (19 R564) (log 55, DESIGN CHOICE). -/
def doPatrol (f : Finding) (s : State) : State :=
  match patrolRead f with
  | .clean _ => s
  | .fixed _ n => noteCorrection s f.region (decide (n = 2)) f.array f.column f.word (f.region.val * 2 ^ 32 + f.word)
  | .uncorrectable => if f.region.val = 19 then ldgDegrade f.word f.array s else patrolBad s f.region f.word

end Sys2Proof.Machine
end

