-- ==== Sys2Proof/Machine/Gallery.lean ====
section
/-! DEFINITION. Gallery tiles: node words, ramp slots, staging and column jobs (spec/03). -/

namespace Sys2Proof.Machine

/-! ## Bindings and tiles -/


/-- The physical tile that serves D-slot `d`, when it is ACTIVE and powered (03 R101 code 5). -/
def tileOf (s : State) (d : Nat) : Option Nat :=
  let p := physOf s 1 (d / 64)
  if roleOf s 1 p = roleActive ∧ fget s (GAL_TILE_STATUS p) GAL_TILE_STATUS_logical = d / 64 ∧ domOn s (unitPower 1 p) then some p else none

/-! ## Node words (03 R75, R76) -/

def nodeReset : BitVec 64 := 0x1FFF#64
/-- Key of a node: physical tile `t`, D-slot, S-slot. -/
def nodeKey (t d i : Nat) : Nat := 262144 * t + 4096 * (d % 64) + i
def node (s : State) (k : Nat) : BitVec 64 := smGet nodeReset s.gal.nodes k
def setNode (s : State) (k : Nat) (w : BitVec 64) : State := { s with gal := { s.gal with nodes := smSet nodeReset s.gal.nodes k w } }

def nSTEADY : Nat := 0
def nSTAGED : Nat := 1
def nARMED : Nat := 2
def nRAMPING : Nat := 3
def ndState (w : BitVec 64) : Nat := bitsOf w.toNat 13 2
def ndSlot (w : BitVec 64) : Nat := bitsOf w.toNat 0 9
def ndGen (w : BitVec 64) : Nat := bitsOf w.toNat 9 4
def ndSel (w : BitVec 64) : Bool := bitOf w.toNat 15
def ndGain (w : BitVec 64) (b : Bool) : G24 := BitVec.ofNat 24 (bitsOf w.toNat (if b then 16 else 40) 24)
def ndLive (w : BitVec 64) : Int := (ndGain w (ndSel w)).toInt
def ndPend (w : BitVec 64) : Int := (ndGain w (!ndSel w)).toInt
def ndPut (w : BitVec 64) (lo len v : Nat) : BitVec 64 := BitVec.ofNat 64 (putBits w.toNat lo len v)
def ndSetState (w : BitVec 64) (st slot : Nat) : BitVec 64 := ndPut (ndPut w 13 2 st) 0 9 slot
/-- 03 R75: the node names a ramp slot (slot 511 in RAMPING; 0x1FF elsewhere names none). -/
def ndHolds (w : BitVec 64) : Bool := ndState w == nRAMPING || (ndState w == nSTAGED && ndSlot w != 0x1FF)
/-- The pending gain is written. -/
def ndSetPend (w : BitVec 64) (g : G24) : BitVec 64 := ndPut w (if ndSel w then 40 else 16) 24 g.toNat
/-- 03 R79: settle, before a deferred write lands. -/
def ndSettle (w : BitVec 64) : BitVec 64 := ndSetState (w ^^^ 0x8000#64) nSTEADY 0x1FF

/-! ## Generations (03 R77, R78) -/

def committedFld (x : Dom) : Fld :=
  match x with | .A => GAL_COMMITTED_committed_a | .B => GAL_COMMITTED_committed_b | .C => GAL_COMMITTED_committed_c
def genC (s : State) (x : Dom) : Nat := fget s GAL_COMMITTED (committedFld x)
def tagCommitted (s : State) (x : Dom) (t : Nat) : Bool := decide ((genC s x + 16 - t) % 16 ≤ 8)
def tagOpen (s : State) (x : Dom) (t : Nat) : Bool := !tagCommitted s x t
/-- 03 R78: an entry after reset. -/
def genEntryReset : GenEntry := ⟨0, 0, 0x20, 0x1E0⟩
def genEntry (s : State) (x : Dom) (t : Nat) : GenEntry := smGet genEntryReset s.gal.genTab (16 * domNo x + t)

/-- 03 R77, R78, R89: generation `g` of domain `x` commits at sample `c`, with every earlier open tag. -/
def galCommit (x : Dom) (g c : Nat) (s : State) : State :=
  let old := genC s x
  let tags := (List.range ((g + 16 - old) % 16)).map (fun i => (old + 1 + i) % 16)
  let us := clampN 500 50000 (fget s GAL_ZC_CFG GAL_ZC_CFG_zc_timeout_us)
  let e : GenEntry := ⟨c, c + us * domHz s x / 1000000, clampN 8 256 (fget s GAL_ZC_CFG GAL_ZC_CFG_fallback_len),
    clampN 8 4096 (fget s GAL_XFADE_CFG GAL_XFADE_CFG_crossfade_len)⟩
  let tab := tags.foldl (fun m t => smSet genEntryReset m (16 * domNo x + t) e) s.gal.genTab
  let held := s.gal.defer.map (fun (f : DeferEntry) =>
    if tags.contains f.gen && domD s (physLogical s f) == some x then { f with committed := true } else f)
  fset { s with gal := { s.gal with genTab := tab, defer := held } } GAL_COMMITTED (committedFld x) g
where
  /-- The D-slot of a deferral entry. -/
  physLogical (s : State) (f : DeferEntry) : Nat :=
    64 * fget s (GAL_TILE_STATUS f.tile) GAL_TILE_STATUS_logical + f.node % 262144 / 4096

/-! ## Ramp slots (03 R82 to R87) -/

def slotFresh : RampSlot := ⟨none, 0, 0, 0, none, 0⟩
def slotOf (s : State) (t k : Nat) : RampSlot := smGet slotFresh s.gal.slots (512 * t + k)
def setSlot (s : State) (t k : Nat) (v : RampSlot) : State :=
  { s with gal := { s.gal with slots := smSet slotFresh s.gal.slots (512 * t + k) v } }

def splitReset : BitVec 32 := 0x02000200#32
/-- 03 R84: a tick of domain `x` takes GAL_RAMP_SPLIT for its allocations. -/
def splitLatch (x : Dom) (s : State) : State :=
  { s with gal := { s.gal with split := smSet splitReset s.gal.split (domNo x) (rd s GAL_RAMP_SPLIT) } }

/-- 03 R82: first slot of a domain's range, and the slot after its last. -/
def rampRange (s : State) (x : Dom) : Nat × Nat :=
  let w := smGet splitReset s.gal.split (domNo x)
  let ae := wget w GAL_RAMP_SPLIT_a_end
  let be := wget w GAL_RAMP_SPLIT_b_end
  let a := Nat.min ae 512
  let b := Nat.min (Nat.max ae be) 512
  match x with | .A => (0, a) | .B => (a, b) | .C => (b, 512)

/-- 03 R79, R83: the slot can be allocated for sample `n` of domain `x`. -/
def slotFree (s : State) (x : Dom) (t n k : Nat) : Bool :=
  let v := slotOf s t k
  v.users == 0 && !(v.relDom == some x && decide (n ≤ v.relIdx))

/-- 03 R83: the lowest free slot of the range; `top` allows slot 511. -/
def slotAlloc (s : State) (x : Dom) (t n : Nat) (top : Bool) : Option Nat :=
  let (lo, hi) := rampRange s x
  ((List.range (hi - lo)).map (· + lo)).find? (fun k => slotFree s x t n k && (top || k != 511))

/-- 03 R87, R88: one name fewer; `staged` says that the node was STAGED. -/
def slotLess (v : RampSlot) (staged : Bool) : RampSlot :=
  { v with users := v.users - 1, staged := if staged then v.staged - 1 else v.staged }
/-- 03 R83, R87: one user of a slot has settled on sample `n`; a slot without users is free from the next sample. -/
def slotDrop (s : State) (x : Dom) (t n k : Nat) (staged : Bool) : State :=
  let v := slotOf s t k
  if v.users ≤ 1 then setSlot s t k ⟨none, 0, 0, 0, some x, n⟩ else setSlot s t k (slotLess v staged)
/-- 03 R88, R93: a slot that no node names any more is free at once. -/
def slotGiveUp (s : State) (t k : Nat) (staged : Bool) : State :=
  let v := slotOf s t k
  if v.users ≤ 1 then setSlot s t k slotFresh else setSlot s t k (slotLess v staged)

/-- 03 R89, R90: the deferral entries of a tile. -/
def defersOf (s : State) (t : Nat) : Nat := (s.gal.defer.filter (fun f => f.tile == t)).length

/-- GAL_TILE_USE and GAL_TILE_DEFER of a tile follow its slots and deferral entries. -/
def tileUse (t : Nat) (s : State) : State :=
  let l := smRange s.gal.slots (512 * t) (512 * t + 512)
  let ramps := (l.filter (fun (_, v) => decide (v.staged < v.users))).length
  let linked := (l.filter (fun (_, v) => decide (0 < v.staged))).length
  let n := defersOf s t
  let s1 := fset (fset s (GAL_TILE_USE t) GAL_TILE_USE_ramps_in_use ramps) (GAL_TILE_USE t) GAL_TILE_USE_linked_reserved linked
  let s2 := fset s1 (GAL_TILE_DEFER t) GAL_TILE_DEFER_entries n
  if fget s2 (GAL_TILE_DEFER t) GAL_TILE_DEFER_high_water < n then fset s2 (GAL_TILE_DEFER t) GAL_TILE_DEFER_high_water n else s2

/-! ## Staging (03 R86, R88 to R94, R100, R101; R603 of 04) -/

def stOK : Nat := 0
def stGENCLOSED : Nat := 1
def stNORAMP : Nat := 2
def stLINK : Nat := 3
def stBUSY : Nat := 4
def stTILE : Nat := 5

def deferAt (s : State) (t k : Nat) : Option DeferEntry := s.gal.defer.find? (fun f => f.tile == t && f.node == k)
def busyNode (w : BitVec 64) : Bool := decide (nARMED ≤ ndState w)

/-- 03 R88: a change staged earlier and linked gives up its slot. -/
def unlink (s : State) (t : Nat) (w : BitVec 64) : State :=
  if ndState w = nSTAGED ∧ ndSlot w ≠ 0x1FF then slotGiveUp s t (ndSlot w) true else s

/-- 03 R93: a staging write to a node of an unbound column lands at once. -/
def landNow (k : Nat) (g : G24) (s : State) : State := setNode s k (ndSettle (ndSetPend (node s k) g))

/-- 03 R88: the pending change of a node in STEADY or STAGED. -/
def stageAt (k slot gen : Nat) (g : G24) (s : State) : State :=
  setNode s k (ndPut (ndSetState (ndSetPend (node s k) g) nSTAGED slot) 9 4 gen)

/-- 03 R101: performs a staging write; none: it stalls, as every write to a tile with a full table does (R90) (log 67,
DEDUCED). -/
def stageNode (w : StgWrite) (s : State) : State × Option Nat :=
  match tileOf s w.d with
  | none => (s, some stTILE)
  | some t =>
    let k := nodeKey t w.d w.s
    let kp := nodeKey t w.d w.partner
    if 64 ≤ defersOf s t then (s, none)
    else if w.linked && w.partner == w.s then (s, some stLINK)
    else match domD s w.d with
      | none =>
        let s1 := landNow k w.gain s
        (if w.linked then landNow kp w.partnerGain s1 else s1, some stOK)
      | some x =>
        if tagCommitted s x w.gen then (s, some stGENCLOSED)
        else if w.linked then
          if busyNode (node s k) || busyNode (node s kp) || (deferAt s t k).isSome || (deferAt s t kp).isSome then (s, some stBUSY)
          else match slotAlloc s x t (nowIdx s x) false with
            | none => (s, some stNORAMP)
            | some sl =>
              let s1 := unlink (unlink s t (node s k)) t (node s kp)
              let s2 := setSlot s1 t sl ⟨none, 0, 2, 2, none, 0⟩
              (tileUse t (stageAt kp sl w.gen w.partnerGain (stageAt k sl w.gen w.gain s2)), some stOK)
        else if busyNode (node s k) then
          let f : DeferEntry := ⟨t, k, w.gain, w.gen, false⟩
          if (deferAt s t k).isSome then
            (tileUse t { s with gal := { s.gal with defer := s.gal.defer.map (fun e => if e.tile == t && e.node == k then f else e) } }, some stOK)
          else (tileUse t { s with gal := { s.gal with defer := s.gal.defer ++ [f] } }, some stOK)
        else (tileUse t (stageAt k 0x1FF w.gen w.gain (unlink s t (node s k))), some stOK)

/-- The staging registers as a write takes them at launch (03 R100). -/
def stgWriteRegs (s : State) : StgWrite :=
  let pg := fget s GAL_STG_PARTNER GAL_STG_PARTNER_partner_gain_hi * 2 ^ 16 +
    fget s GAL_STG_PARTNER GAL_STG_PARTNER_partner_gain_lo * 2 ^ 4
  ⟨fget s GAL_STG_NODE GAL_STG_NODE_d_slot, fget s GAL_STG_NODE GAL_STG_NODE_s_slot,
   BitVec.ofNat 24 (fget s GAL_STG_GAIN GAL_STG_GAIN_gain), fget s GAL_STG_GAIN GAL_STG_GAIN_gen,
   fbit s GAL_STG_GAIN GAL_STG_GAIN_linked, fget s GAL_STG_PARTNER GAL_STG_PARTNER_partner_s, BitVec.ofNat 24 pg⟩

def stgFinish (w : StgWrite) (s : State) : State :=
  match stageNode w s with
  | (s1, some c) =>
    fset (fset { s1 with gal := { s1.gal with stgWait := none } } GAL_STG_CMD GAL_STG_CMD_status c) GAL_STG_CMD GAL_STG_CMD_busy 0
  | (s1, none) => fset { s1 with gal := { s1.gal with stgWait := some w } } GAL_STG_CMD GAL_STG_CMD_busy 1

/-- A write to GAL_STG_CMD (03 R90, R100, 15 R461). -/
def stgCmd (w : W32) (s : State) : State :=
  if !wbit w GAL_STG_CMD_stage || fbit s GAL_STG_CMD GAL_STG_CMD_busy then s
  else
    let r := stgWriteRegs s
    let s1 := stgFinish r s
    if s1.gal.stgWait.isSome then
      (match tileOf s r.d with | some t => cnt s1 (GAL_TILE_STALL t) | none => s1)
    else s1

/-- 03 R90: an entry of the full table has landed. -/
def doStagingStallRelease (s : State) : State :=
  match s.gal.stgWait with
  | some w => stgFinish w s
  | none => s

/-! ## Reading a node (03 R79, R89, R95) -/

/-- What one read did beside its product. -/
inductive NodeEv
  | plain
  | fallback
  | hardStep
  | rampEnd
  deriving DecidableEq, Repr

/-- 03 R89: the deferred write of a node that has just settled lands (log 66, DEDUCED). -/
def landDeferred (x : Dom) (t k n : Nat) (s : State) : State :=
  match deferAt s t k with
  | none => s
  | some f =>
    let s1 := { s with gal := { s.gal with defer := s.gal.defer.erase f } }
    if !f.committed then tileUse t (stageAt k 0x1FF f.gen f.gain s1)
    else match slotAlloc s1 x t n true with
      | some sl =>
        let s2 := setSlot s1 t sl ⟨some (n + 1), (genEntry s1 x f.gen).fallbackLen, 1, 0, none, 0⟩
        tileUse t (cnt (setNode s2 k (ndPut (ndSetState (ndSetPend (node s2 k) f.gain) nRAMPING sl) 9 4 f.gen)) (GAL_TILE_FALLBACK t))
      | none => tileUse t (cnt (landNow k f.gain s1) (GAL_TILE_HARD_STEP t))

/-- 03 R79: settle a node on sample `n`. -/
def settleNode (x : Dom) (t k n : Nat) (s : State) : State := landDeferred x t k n (setNode s k (ndSettle (node s k)))

/-- The RAMPING part of 03 R79: the gain, and the state after the step. -/
def rampStep (x : Dom) (t k n : Nat) (s : State) : Int × State × Bool :=
  let w := node s k
  let sl := slotOf s t (ndSlot w)
  let step := Nat.min (n + 1 - (sl.start.getD n)) sl.len
  let g := rampGain (ndLive w) (ndPend w) step sl.len
  if step = sl.len then (g, settleNode x t k n (slotDrop s x t n (ndSlot w) false), true) else (g, s, false)

/-- 03 R79: the read of node (d, i) for sample `n`: its state, its product, what happened. -/
def readNode (x : Dom) (t d i n : Nat) (s : State) : State × Int × NodeEv :=
  let k := nodeKey t d i
  let foreign := decide (domS s i ≠ some x)
  let v : S64 := if foreign then 0 else smGet 0 s.gal.srcX i
  let zc := foreign || smGet true s.gal.srcZc i
  let prod := fun (g : Int) => if v = 0 ∨ g = 0 then 0 else prodG v g
  let w := node s k
  let e := genEntry s x (ndGen w)
  let staged := decide (ndState w = nSTAGED) && tagCommitted s x (ndGen w)
  if staged && decide (ndSlot w ≠ 0x1FF) then
    let sl := slotOf s t (ndSlot w)
    let sl1 := { sl with staged := sl.staged - 1 }
    let s1 := setSlot s t (ndSlot w) (if sl.start.isNone then { sl1 with start := some n, len := e.xfadeLen } else sl1)
    let (g, s2, fin) := rampStep x t k n (setNode s1 k (ndPut w 13 2 nRAMPING))
    (s2, prod g, if fin then .rampEnd else .plain)
  else if staged || decide (ndState w = nARMED) then
    if zc then (settleNode x t k n s, prod (ndPend w), .plain)
    else if e.deadline ≤ n then
      match slotAlloc s x t n true with
      | some sl =>
        let s1 := setSlot s t sl ⟨some n, e.fallbackLen, 1, 0, none, 0⟩
        let s2 := cnt (setNode s1 k (ndSetState w nRAMPING sl)) (GAL_TILE_FALLBACK t)
        let (g, s3, _) := rampStep x t k n s2
        (s3, prod g, .fallback)
      | none => (cnt (settleNode x t k n s) (GAL_TILE_HARD_STEP t), prod (ndPend w), .hardStep)
    else (setNode s k (ndPut w 13 2 nARMED), prod (ndLive w), .plain)
  else if ndState w = nRAMPING then
    let (g, s1, fin) := rampStep x t k n s
    (s1, prod g, if fin then .rampEnd else .plain)
  else (s, prod (ndLive w), .plain)

/-- 03 R95: a read for sample `n` finds the word uncorrectable; `x` is none in a resolving job. -/
def nodeUe (x : Option Dom) (t d i n : Nat) (s : State) : State :=
  let k := nodeKey t d i
  let w := node s k
  let st := decide (ndState w = nSTAGED)
  let s1 := if !ndHolds w then s
    else match x with
      | some x => slotDrop s x t n (ndSlot w) st
      | none => slotGiveUp s t (ndSlot w) st
  let s2 := setNode s1 k nodeReset
  let s3 := { s2 with gal := { s2.gal with defer := s2.gal.defer.filter (fun f => !(f.tile == t && f.node == k)), badNodes := s2.gal.badNodes.filter (· != k) } }
  let s4 := occur (cnt s3 (GAL_TILE_UE t)) 0x341 t [BitVec.ofNat 32 (d * 4096 + i)]
  accuse (noteUe s4 (t / 17) (Config.arrayOf (t / 17) k) k) 1

/-! ## Column jobs (03 R69 to R74, R93, R97 to R99) -/

/-- The nodes of a column, from S-slot `lo` below `hi`, whose read can do anything: those not in the reset state, and those
that hold an error. -/
def liveNodes (s : State) (t d lo hi : Nat) (ue : List Nat) : List Nat :=
  let base := nodeKey t d 0
  let l := (smRange s.gal.nodes (base + lo) (base + hi)).map (fun (k, _) => k - base)
  let b := (s.gal.badNodes.filter (fun k => decide (base + lo ≤ k) && decide (k < base + hi))).map (· - base)
  ((l ++ b ++ ue.filter (fun i => decide (lo ≤ i) && decide (i < hi))).mergeSort (fun a b => decide (a ≤ b))).eraseDups

/-- Nodes up to `hi` of a job are read, in ascending order. -/
def jobReads (t : Nat) (j : ColJob) (x : Dom) (hi : Nat) (ue : List Nat) (s : State) : State × Int × List (Nat × NodeEv) :=
  (liveNodes s t j.d j.upTo hi ue).foldl (fun (acc : State × Int × List (Nat × NodeEv)) i =>
    let (s, sum, ev) := acc
    if ue.contains i || s.gal.badNodes.contains (nodeKey t j.d i) then (nodeUe (some x) t j.d i j.n s, sum, ev)
    else
      let (s', p, e) := readNode x t j.d i j.n s
      (s', sum + p, if e = .plain then ev else ev ++ [(i, e)])) (s, j.sum, [])

/-- 03 R93: node `i` of a column that is resolved: it settles whatever its tag, and a deferred write lands as a steady gain. -/
def resolveNode (t d i : Nat) (s : State) : State :=
  let k := nodeKey t d i
  let w := node s k
  let s1 := if ndHolds w then slotGiveUp s t (ndSlot w) (decide (ndState w = nSTAGED)) else s
  let s2 := if ndState w ≠ nSTEADY then setNode s1 k (ndSettle w) else s1
  match deferAt s2 t k with
  | some f => landNow k f.gain { s2 with gal := { s2.gal with defer := s2.gal.defer.erase f } }
  | none => s2

/-- 03 R93, R95: the reads of a resolving job. -/
def resolveColumn (t : Nat) (j : ColJob) (ue : List Nat) (s : State) : State :=
  tileUse t ((liveNodes s t j.d 0 4096 ue).foldl (fun s i =>
    if ue.contains i || s.gal.badNodes.contains (nodeKey t j.d i) then nodeUe none t j.d i j.n s
    else resolveNode t j.d i s) s)

def daxLink (s : State) (l : Nat) : DaxLink := if l = 0 then s.dax.link0 else s.dax.link1
def setDaxLink (s : State) (l : Nat) (v : DaxLink) : State :=
  { s with dax := if l = 0 then { s.dax with link0 := v } else { s.dax with link1 := v } }

/-- 01 R34, 10 R322: a tick of domain `x` takes the partial-sum entries of its D-slots. -/
def psLatch (x : Dom) (l : Nat) (s : State) : State :=
  let k := daxLink s l
  let keep := k.ps.filter (fun (e, _) => domD s (e % 4096) != some x)
  let new := (smRange s.regs (DAX_PS l 0) (DAX_PS l 4096)).filter (fun (_, w) =>
    wbit w DAX_PS_valid && domD s (wget w DAX_PS_d_slot) == some x)
  setDaxLink s l { k with ps := new.foldl (fun m (_, w) =>
    smSet none m (4096 * b2n (wbit w DAX_PS_tx) + wget w DAX_PS_d_slot) (some (wget w DAX_PS_channel / 2 * 2))) keep }

/-- 10 R322: the first channel of the partial-sum entry of a D-slot on a link. -/
def psEntry (s : State) (l d : Nat) (tx : Bool) : Option Nat := smGet none (daxLink s l).ps (4096 * b2n tx + d)

/-- 10 R313, R323: the partial sum received for D-slot `d` in frame n − 2. -/
def psIn (s : State) (x : Dom) (d n : Nat) : Int :=
  ((List.range 2).map (fun l => match psEntry s l d false with
    | none => (0 : Int)
    | some c => match (daxLink s l).frames.find? (fun f => f.dom == x && f.k + 2 == n) with
      | none => 0
      | some f => ((smGet 0 f.words (c + 1)) ++ (smGet 0 f.words c)).toInt)).foldl (· + ·) 0

/-- 10 R323: the sum a D-slot sends. -/
def psOut (d : Nat) (v : Int) (s : State) : State :=
  (List.range 2).foldl (fun s l => match psEntry s l d true with
    | none => s
    | some _ =>
      let k := daxLink s l
      setDaxLink s l { k with psOut := smSet 0 k.psOut d (BitVec.ofInt 128 v) }) s

def setDval (d : Nat) (v : S64) (s : State) : State := { s with gal := { s.gal with dval := smSet 0 s.gal.dval d v } }
def jobDrop (j : ColJob) (s : State) : State := { s with gal := { s.gal with jobs := s.gal.jobs.filter (fun x => !(x.d == j.d && x.n == j.n)) } }

/-- 03 R70: `j` comes before `k`: by deadline, then by domain, then by D-slot. -/
def jobBefore (s : State) (j k : ColJob) : Bool :=
  let due : ColJob → Int := fun j => match j.dom with | some x => untilTick s x | none => (0 : Int)
  let no : ColJob → Nat := fun j => match j.dom with | some x => domNo x | none => (0 : Nat)
  decide (due j < due k) || (due j == due k && (decide (no j < no k) || (no j == no k && decide (j.d < k.d))))

/-- 03 R70, R83: the job of D-slot `d`, when it is the one that its tile runs: one that has started runs to completion, else
the first in order does. -/
def jobFor (s : State) (d : Nat) : Option ColJob :=
  match s.gal.jobs.find? (fun j => j.d == d) with
  | none => none
  | some j =>
    let others := s.gal.jobs.filter (fun k => k.d / 64 == d / 64 && k.d != d)
    if others.any (fun k => decide (0 < k.upTo) || (j.upTo == 0 && jobBefore s k j)) then none else some j

/-- 03 R99: a column job of the tile has completed before its deadline. -/
def lateClear (t : Nat) (s : State) : State := fset s (GAL_TILE_STATUS t) GAL_TILE_STATUS_late 0

/-- 03 R69, R93, R99: a column job completes. -/
def columnJob (d : Nat) (ue : List Nat) (s : State) : State :=
  match jobFor s d, tileOf s d with
  | some j, some t =>
    if !clkOk s 1 t then s
    else if j.resolving then lateClear t (setDval d 0 (jobDrop j (resolveColumn t j ue s)))
    else match j.dom with
      | none => jobDrop j s
      | some x =>
        let (s1, sum, _) := jobReads t j x 4096 ue s
        let total := sum + psIn s1 x d j.n
        let (v, sat) := storeVal total
        let s2 := tileUse t (psOut d total (setDval d v (jobDrop j s1)))
        let s3 := if sat then cnt s2 (GAL_TILE_SAT t) else s2
        lateClear t s3
  | _, _ => s
def doColumnJob (d : Fin 4096) (ue : List (Fin 4096)) (s : State) : State := columnJob d (ue.map (·.val)) s

/-- A read inside a released job, up to S-slot `i`, performed when it is the transition that the row names. -/
def readUpTo (d i : Nat) (want : NodeEv → Bool) (s : State) : State :=
  match jobFor s d, tileOf s d with
  | some j, some t => match j.dom with
    | some x =>
      if j.resolving || !clkOk s 1 t || decide (i < j.upTo) then s
      else
        let (s1, sum, ev) := jobReads t j x (i + 1) [] s
        if ev.any (fun (k, e) => k == i && want e) then
          tileUse t { s1 with gal := { s1.gal with jobs := s1.gal.jobs.map (fun q =>
            if q.d == j.d && q.n == j.n then { q with sum := sum, upTo := i + 1 } else q) } }
        else s
    | none => s
  | _, _ => s

/-- 03 R79, R85: an armed node reaches its deadline. -/
def doZcTimeoutFallback (d i : Fin 4096) (s : State) : State := readUpTo d i (fun e => e == .fallback || e == .hardStep) s
/-- 03 R80: a ramp reaches its last step. -/
def doRampEnd (d i : Fin 4096) (s : State) : State := readUpTo d i (fun e => e == .rampEnd) s

/-- 03 R98, R99: a job is unfinished at its deadline. -/
def jobAbandon (j : ColJob) (s : State) : State :=
  let t := physOf s 1 (j.d / 64)
  let s1 := psOut j.d 0 (setDval j.d 0 (jobDrop j s))
  let s2 := fset (cnt s1 (GAL_TILE_LATE t)) (GAL_TILE_STATUS t) GAL_TILE_STATUS_late 1
  let s3 := occur s2 0x340 t (BitVec.ofNat 32 j.d :: det64 j.n)
  let s4 := match j.dom with
    | none => s3
    | some x =>
      let key := 4 * t + domNo x
      let (last, run) := smGet (0, 0) s3.gal.lateRun key
      let run' := if last = j.n ∧ run ≠ 0 then run else if last + 1 = j.n ∧ run ≠ 0 then run + 1 else 1
      let s' := { s3 with gal := { s3.gal with lateRun := smSet (0, 0) s3.gal.lateRun key (j.n, run') } }
      if 4 ≤ run' ∧ roleOf s' 1 t = roleActive then fset s' (GAL_TILE_STATUS t) GAL_TILE_STATUS_failed 1 else s'
  accuse s4 2
def doColumnJobAbandon (d : Fin 4096) (s : State) : State :=
  match s.gal.jobs.find? (fun j => j.d == d.val) with
  | some j => jobAbandon j s
  | none => s

/-- 03 R70: the tick event of domain `x`, tick `n`: the source buffer takes the ring's values, and the jobs of the sample are
released. -/
def galTick (x : Dom) (n : Nat) (vals : List (Nat × S64 × Bool)) (s : State) : State :=
  let sx := vals.foldl (fun m (i, v, _) => smSet 0 m i v) s.gal.srcX
  let sz := vals.foldl (fun m (i, _, z) => smSet true m i z) s.gal.srcZc
  let new := (s.scn.dDom.filter (fun (_, y) => y == some x)).filterMap (fun (d, _) =>
    if domOn s (unitPower 1 (physOf s 1 (d / 64))) then some (⟨d, n, some x, false, 0, 0⟩ : ColJob) else none)
  { s with gal := { s.gal with srcX := sx, srcZc := sz, jobs := s.gal.jobs ++ new } }

/-- 03 R93: D-slot `d` of domain `x` becomes unbound at sample `n`. -/
def galUnbind (d n : Nat) (x : Option Dom) (s : State) : State :=
  let jobs := s.gal.jobs.filter (fun j => j.d != d)
  { s with gal := { s.gal with jobs := jobs ++ [⟨d, n, x, true, 0, 0⟩] } }

end Sys2Proof.Machine
end

