-- ==== Sys2Proof/Machine/Levels.lean ====
section
/-! DEFINITION. Levels and gains of the strips' dynamics and of the loudness meters (spec/05 R149 to R153, R163): dB
words, their exact rounding, and the fixed-point logarithm and exponential behind it. The fixed-point values carry more
than 60 guard bits, so that rounding them rounds the real value (log 60, DESIGN CHOICE). -/

namespace Sys2Proof.Machine

/-- `num / den` rounded to nearest, ties to even; `den` is positive. -/
def roundRat (num : Int) (den : Nat) : Int :=
  let q := num / den
  let r := num % den
  if 2 * r > den ∨ (2 * r = den ∧ q % 2 = 1) then q + 1 else q

/-- Bits of the fraction of log2, highest first, by repeated squaring of a mantissa with 224 fraction bits. -/
def logBits : Nat → Nat → Nat → Nat
  | 0, _, acc => acc
  | fuel + 1, m, acc =>
    let q := m * m / 2 ^ 224
    if 2 ^ 225 ≤ q then logBits fuel (q / 2) (2 * acc + 1) else logBits fuel q (2 * acc)

/-- log2 of a positive number, with 110 fraction bits. -/
def log2Fix (n : Nat) : Nat :=
  let e := Nat.log2 n
  logBits 110 (n * 2 ^ 224 / 2 ^ e) e

/-- 10 × log10(2) with 160 fraction bits. -/
def tenLog2 : Nat := 4399558315486231227741499288331724690707022214106

/-- 10 log10(num / 2^sh) with 100 fraction bits; `num` is positive. -/
def tenLog (num sh : Nat) : Int := ((log2Fix num : Int) - sh * 2 ^ 110) * tenLog2 / 2 ^ 170

/-- 05 R149: one dB in dB words. -/
def dB (n : Int) : Int := n * 65536
/-- 05 R149: the level 10 log10(num / 2^sh) as a dB word, −192 dB at least. -/
def levelDb (num sh : Nat) : Int :=
  if num = 0 then dB (-192) else
    let l := roundShift (tenLog num sh) 84
    if l < dB (-192) then dB (-192) else l

/-- ln 2 with 160 fraction bits. -/
def ln2Fix : Nat := 1013035739299659071135698605846798551586536899366
/-- ln 10 / 20 with 160 fraction bits. -/
def lnStep : Nat := 168261594175226356256455599071078406007068975768

/-- exp(z) with 160 fraction bits for 0 ≤ z < 1, by Horner's rule from term `n` down. -/
def expHorner (z : Nat) : Nat → Nat → Nat
  | 0, acc => acc
  | n + 1, acc => expHorner z n (2 ^ 160 + z * acc / 2 ^ 160 / (n + 1))

/-- 10^(e / (20 × 65536)) × 2^frac rounded toward minus infinity, where `e` is a sum of dB words; `half` adds 1/2 first. -/
def dbFactor (e : Int) (frac : Nat) (half : Bool) : Nat :=
  let z := e * lnStep / 65536
  let q := z / ln2Fix
  let r := (z % ln2Fix).toNat
  let m := expHorner r 60 (2 ^ 160)
  let sh : Int := q + frac - 160
  if sh < -400 then 0
  else if 0 ≤ sh then m * 2 ^ sh.toNat
  else
    let d := 2 ^ (-sh).toNat
    (m + m / 2 ^ 130 + (if half then d / 2 else 0)) / d

/-- 05 R152: 10^(e / 20) as a G24 gain, rounded to nearest and saturated. -/
def dbGain (e : Int) : Int := if dB 30 < e then 0x7F_FFFF else Nat.min (dbFactor e 19 true) 0x7F_FFFF
/-- 05 R153: the same rounded toward zero. -/
def dbGainFloor (e : Int) : Int := if dB 30 < e then 0x7F_FFFF else Nat.min (dbFactor e 19 false) 0x7F_FFFF

/-- The largest r ≤ 2^bits − 1 with r² ≤ v. -/
def isqrtGo (v : Nat) : Nat → Nat → Nat
  | 0, r => r
  | b + 1, r => isqrtGo v b (if (r + 2 ^ b) * (r + 2 ^ b) ≤ v then r + 2 ^ b else r)
def isqrt (v : Nat) : Nat := isqrtGo v 40 0

end Sys2Proof.Machine
end

