-- ==== Sys2Proof/Machine/Strips.lean ====
section
/-! DEFINITION. Channel strips: parameters, sections, gains, switches and fades, dynamics, delay, insert and direct out
(spec/05 R136 to R159, R602, R605). Input strip s is strip s, output strip d is strip 4,096 + d. -/

namespace Sys2Proof.Machine

/-! ## Parameters (05 R159, R602) -/

def isOut (strip : Nat) : Bool := decide (4096 ≤ strip)
/-- The domain of a strip's slot. -/
def stripDom (s : State) (strip : Nat) : Option Dom := if isOut strip then domD s (strip - 4096) else domS s strip
/-- 05 R137: the physical unit that runs a strip. -/
def stripUnit (s : State) (strip : Nat) : Nat := physOf s 3 (strip % 32)

/-- 05 R602: a parameter after reset. -/
def paramReset (idx : Nat) : BitVec 64 :=
  if idx = 0 then 0x08_0000
  else if idx = 2 then 1
  else if idx = 0x92 ∨ idx = 0xA3 then 0x100
  else if idx = 0xB0 ∨ (0x10 ≤ idx ∧ idx < 0x90 ∧ idx % 8 = 0) then 0x10_0000_0000
  else 0
def param (s : State) (strip idx : Nat) : BitVec 64 := smGet (paramReset idx) s.str.live (65536 * strip + idx)
def setParam (strip idx : Nat) (v : BitVec 64) (s : State) : State :=
  { s with str := { s.str with live := smSet (paramReset idx) s.str.live (65536 * strip + idx) v } }

/-- How W1 of a strip parameter is coded. -/
inductive ParamForm
  | gain
  | flags (n : Nat)
  | control
  | route
  | delay
  | c40
  | coef01
  | word
  | positive
  | ratio
  | ratioMin
  | dynB
  | slot
  | hold
  | ceiling
  deriving DecidableEq, Repr

/-- 05 R159: the parameter index map. -/
def paramForm (out : Bool) (idx : Nat) : Option ParamForm :=
  if idx = 0 then some .gain
  else if idx = 1 then some (.flags 1)
  else if idx = 2 then some .control
  else if idx = 3 then (if out then none else some .route)
  else if idx = 4 then some .delay
  else if 0x10 ≤ idx ∧ idx < 0x90 then
    (if !out ∧ 0x70 ≤ idx then none
     else if idx % 8 < 5 then some .c40
     else if idx % 8 = 5 then some (.flags 2)
     else none)
  else if idx = 0x90 then some (.flags 3)
  else if idx = 0x91 ∨ idx = 0x96 then some .word
  else if idx = 0x92 then some .ratioMin
  else if idx = 0x93 then some .positive
  else if idx = 0x94 ∨ idx = 0x95 then some .coef01
  else if idx = 0xA0 then some .dynB
  else if idx = 0xA1 then some .slot
  else if idx = 0xA2 then some .word
  else if idx = 0xA3 then some .ratio
  else if idx = 0xA4 ∨ idx = 0xA5 then some .positive
  else if idx = 0xA6 then some .hold
  else if idx = 0xA7 ∨ idx = 0xA8 then some .coef01
  else if 0xB0 ≤ idx ∧ idx < 0xB5 then some .c40
  else if idx = 0xB5 then some (.flags 2)
  else if !out then none
  else if idx = 0xC0 then some (.flags 1)
  else if idx = 0xC1 then some .ceiling
  else if idx = 0xC2 then some .coef01
  else none

/-- The signed dB word of W1. -/
def dbVal (v : BitVec 64) : Int := (v.setWidth 32).toInt

/-- 05 R159: the value lies in the parameter's range, and its reserved bits are zero. -/
def paramOk (out : Bool) (f : ParamForm) (v : BitVec 64) : Bool :=
  let n := v.toNat
  match f with
  | .gain => decide (n < 2 ^ 24)
  | .flags k => decide (n < 2 ^ k)
  | .control => if out then decide (n < 4) else
      decide (n < 64) && !bitOf n 1 && decide (bitsOf n 2 2 < 3) && decide (bitsOf n 4 2 < 3)
  | .route => decide (n < 2 ^ 22) && decide (bitsOf n 14 2 = 0) && decide (bitsOf n 6 2 = 0)
  | .delay => decide (n ≤ 480000)
  | .c40 => true
  | .coef01 => decide (0 ≤ c40Val v) && decide (c40Val v ≤ 2 ^ 36)
  | .word => decide (n < 2 ^ 32)
  | .positive => decide (n < 2 ^ 31)
  | .ratio => decide (n < 2 ^ 16)
  | .ratioMin => decide (n < 2 ^ 16) && decide (0x100 ≤ n)
  | .dynB => decide (n < 32) && decide (n % 4 < 3)
  | .slot => decide (n < 4096)
  | .hold => decide (n < 2 ^ 19)
  | .ceiling => decide (n < 2 ^ 32) && decide (dB (-60) ≤ dbVal v) && decide (dbVal v ≤ dB 42)

/-- The value as the set holds it: a C40 value in its container (02 R42). -/
def paramStore (f : ParamForm) (v : BitVec 64) : BitVec 64 :=
  match f with | .c40 => c40Container v | .coef01 => c40Container v | _ => v

/-! ## Running state (05 R141) -/

def stripFresh : StripRun :=
  { sec := [], gA := 0, gB := 0, gL := 0, gateOpen := true, hold := 0, winA := [], winB := [], fades := [], held := [],
    dip := none, line := [], since := 0, lastDelay := 0, mode := 0, ins1 := 0, ins2 := 0, lateStages := [], dlyLate := false }
def stripRun (s : State) (strip : Nat) : StripRun := smGet stripFresh s.str.run strip
def setRun (strip : Nat) (r : StripRun) (s : State) : State :=
  { s with str := { s.str with run := smSet stripFresh s.str.run strip r } }

/-- Fade keys of the switches of the control word; gains and the delay use their parameter index, a gain without its
polarity (05 R147) index 1, a section's enable its index j = 5, a coefficient its own. -/
def kProcess : Nat := 0xF000
def kMute : Nat := 0xF001
def kMode : Nat := 0xF002

def fadeOf (r : StripRun) (key : Nat) : Option Fade := r.fades.find? (fun f => f.key == key)
def dropFade (r : StripRun) (key : Nat) : StripRun := { r with fades := r.fades.filter (fun f => f.key != key) }
def startFade (r : StripRun) (key : Nat) (old : Int) : StripRun :=
  { r with fades := r.fades.filter (fun f => f.key != key) ++ [⟨key, old, 0⟩] }

/-- 05 R146: the effective gain of a strip's parameters. -/
def effGain (s : State) (strip : Nat) : Int :=
  let g := g24Val (param s strip 0)
  if bitOf (param s strip 1).toNat 0 then (if -g > 0x7F_FFFF then 0x7F_FFFF else -g) else g
/-- A value that moves by ramp_gain over 64 samples. -/
def inForce (r : StripRun) (key : Nat) (target : Int) : Int :=
  match fadeOf r key with | some f => rampGain f.old target f.k 64 | none => target
def coefInForce (s : State) (strip : Nat) (r : StripRun) (idx : Nat) : Int := inForce r idx (c40Val (param s strip idx))
def gainInForce (s : State) (strip : Nat) (r : StripRun) : Int := inForce r 0 (effGain s strip)
def plainInForce (s : State) (strip : Nat) (r : StripRun) : Int := inForce r 1 (g24Val (param s strip 0))

/-- Fields of the control word. -/
def ctlProcess (s : State) (strip : Nat) : Nat := bitsOf (param s strip 2).toNat 0 1
def ctlMute (s : State) (strip : Nat) : Nat := bitsOf (param s strip 2).toNat 1 1
def ctlTap (s : State) (strip : Nat) : Nat := bitsOf (param s strip 2).toNat 2 2
def ctlMode (s : State) (strip : Nat) : Nat := bitsOf (param s strip 2).toNat 4 2

/-! ## Landing of records (05 R143 to R148, R156) -/

/-- 05 R147, R148: a switch of the control word takes a value: bits [lo+len-1 : lo], fade key `key`. -/
def landSwitch (strip lo len key v : Nat) (s : State) : State :=
  let r := stripRun s strip
  let cur := bitsOf (param s strip 2).toNat lo len
  let busy := (fadeOf r key).isSome || (key == kMode && r.dip.isSome)
  if busy then setRun strip { r with held := smSet 0 r.held key (BitVec.ofNat 64 (v + 1)) } s
  else if v = cur then s
  else
    let s1 := setParam strip 2 (BitVec.ofNat 64 (putBits (param s strip 2).toNat lo len v)) s
    if key = kMode ∧ (cur = 0 ∨ v = 0) then setRun strip { r with dip := some ⟨cur, v, 0⟩ } s1
    else setRun strip { startFade r key cur with mode := if key = kMode then v else r.mode } s1

/-- 05 R156: a delay takes a value. -/
def landDelay (strip : Nat) (v : BitVec 64) (s : State) : State :=
  let r := stripRun s strip
  if (fadeOf r 4).isSome then setRun strip { r with held := smSet 0 r.held 4 (v + 1) } s
  else setRun strip (startFade r 4 (param s strip 4).toNat) (setParam strip 4 v s)

/-- 05 R145: the enable record (enable and interp bits) of the section at `base`; it is held while an enable crossfade of the
section runs. -/
def landEnable (strip base : Nat) (v : BitVec 64) (s : State) : State :=
  let r := stripRun s strip
  let old := (param s strip (base + 5)).toNat
  if (fadeOf r (base + 5)).isSome then setRun strip { r with held := smSet 0 r.held (base + 5) (v + 1) } s
  else
    let s1 := setParam strip (base + 5) v s
    if v.toNat % 2 = old % 2 then s1 else setRun strip (startFade r (base + 5) (old % 2)) s1

/-- 05 R143, R144: coefficients of the section at `base` land together. -/
def landCoefs (strip base : Nat) (l : List (Nat × BitVec 64)) (s : State) : State :=
  let r := stripRun s strip
  let keys := (List.range 5).map (base + ·)
  let olds := keys.map (fun i => (i, coefInForce s strip r i))
  let r0 := { r with fades := r.fades.filter (fun f => !keys.contains f.key) }
  let s1 := l.foldl (fun s (i, v) => setParam strip i v s) s
  if bitOf (param s strip (base + 5)).toNat 1 then
    setRun strip (olds.foldl (fun r (i, o) => startFade r i o) r0) s1
  else setRun strip r0 s1

/-- 05 R146: trim, output gain or polarity. -/
def landGain (strip idx : Nat) (v : BitVec 64) (s : State) : State :=
  let r := stripRun s strip
  let r1 := startFade (startFade r 0 (gainInForce s strip r)) 1 (plainInForce s strip r)
  setRun strip r1 (setParam strip idx v s)

/-- 05 R147: a control word. -/
def landControl (strip : Nat) (v : BitVec 64) (s : State) : State :=
  let n := v.toNat
  let s1 := landSwitch strip 0 1 kProcess (bitsOf n 0 1) s
  if isOut strip then landSwitch strip 1 1 kMute (bitsOf n 1 1) s1
  else
    let s2 := setParam strip 2 (BitVec.ofNat 64 (putBits (param s1 strip 2).toNat 2 2 (bitsOf n 2 2))) s1
    landSwitch strip 4 2 kMode (bitsOf n 4 2) s2

/-- The section a parameter index belongs to: its base. -/
def secBase (idx : Nat) : Option Nat :=
  if 0x10 ≤ idx ∧ idx < 0x90 then some (idx / 8 * 8)
  else if 0xB0 ≤ idx ∧ idx < 0xB6 then some 0xB0
  else none

/-- The records of one commit land in the strip of a bound slot (04 R119, 05 R143). -/
def stripLand (strip : Nat) (l : List (Nat × BitVec 64)) (s : State) : State :=
  let s1 := l.foldl (fun s (i, v) =>
    if i ≤ 1 then landGain strip i v s
    else if i = 2 then landControl strip v s
    else if i = 4 then landDelay strip v s
    else match secBase i with
      | some b => if i = b + 5 then landEnable strip b v s else s
      | none => setParam strip i v s) s
  let bases := (l.filterMap (fun (i, _) => match secBase i with | some b => if i = b + 5 then none else some b | none => none)).eraseDups
  bases.foldl (fun s b => landCoefs strip b (l.filter (fun (i, _) => secBase i == some b && i != b + 5)) s) s1

/-- 05 R141: a record lands in the live set of an unbound strip at once. -/
def stripLandNow (strip idx : Nat) (v : BitVec 64) (s : State) : State := setParam strip idx v s

/-- A held record lands, in the live set alone (05 R141) or with its own fade (R145, R147, R156). -/
def landHeld (strip key : Nat) (plain : Bool) (s : State) : State :=
  let r := stripRun s strip
  match r.held.find? (fun e => e.1 == key) with
  | none => s
  | some (_, w) =>
    let v := w - 1
    let s1 := setRun strip { r with held := smSet 0 r.held key 0 } s
    let ctl := fun (lo len : Nat) => if plain then
        setParam strip 2 (BitVec.ofNat 64 (putBits (param s1 strip 2).toNat lo len v.toNat)) s1
      else landSwitch strip lo len key v.toNat s1
    if key = kProcess then ctl 0 1
    else if key = kMute then ctl 1 1
    else if key = kMode then ctl 4 2
    else if key = 4 then (if plain then setParam strip 4 v s1 else landDelay strip v s1)
    else if plain then setParam strip key v s1
    else landEnable strip (key - 5) v s1

/-- The fade of `key` ends, and its held record lands (05 R145, R147, R156). -/
def fadeEnd (strip key : Nat) (s : State) : State :=
  landHeld strip key false (setRun strip (dropFade (stripRun s strip) key) s)

/-- 05 R143: the interpolation of the section that `key` belongs to ends. -/
def interpEnd (strip key : Nat) (s : State) : State :=
  match secBase key with
  | some b => setRun strip { stripRun s strip with fades := (stripRun s strip).fades.filter (fun f => !(decide (b ≤ f.key) && decide (f.key < b + 5))) } s
  | none => s
def gainEnd (strip : Nat) (s : State) : State := setRun strip (dropFade (dropFade (stripRun s strip) 0) 1) s
/-- 05 R148: half of the dip. -/
def dipHalf (strip : Nat) (s : State) : State :=
  let r := stripRun s strip
  match r.dip with | some d => setRun strip { r with mode := d.newMode } s | none => s
def dipEnd (strip : Nat) (s : State) : State := landHeld strip kMode false (setRun strip { stripRun s strip with dip := none } s)
def gateClose (strip : Nat) (s : State) : State := setRun strip { stripRun s strip with gateOpen := false } s

/-- 05 R141: a slot becomes bound on index `c`: its strip starts from its live set. -/
def stripBind (strip c : Nat) (s : State) : State :=
  setRun strip { stripFresh with since := c, mode := if isOut strip then 0 else ctlMode s strip } s

/-- 05 R141: a slot becomes unbound: what is held lands, and the strip stops. Staged records land in Machine/Staging.lean. -/
def stripUnbind (strip : Nat) (s : State) : State :=
  let keys := (stripRun s strip).held.map (·.1)
  let s1 := keys.foldl (fun s k => landHeld strip k true s) s
  setRun strip stripFresh s1

/-! ## Crossfades of one sample -/

/-- What a switch gives: `old` and `new` are the outputs under its old and its live position; the count is of saturating
stores (02 R54). -/
def switchMix (r : StripRun) (key : Nat) (old : Int → S64) (new : S64) : S64 × Nat :=
  match fadeOf r key with
  | none => (new, 0)
  | some f => let (v, sat) := xfadeStep (old f.old) new f.k 64; (v, b2n sat)

/-- 05 R145, R147: a switch between a processed value and the input. -/
def enableMix (r : StripRun) (key : Nat) (live : Bool) (on off : S64) : S64 × Nat :=
  switchMix r key (fun o => if o = 0 then off else on) (if live then on else off)

/-! ## Sections (05 R142) -/

/-- One second-order section on states kept at 4 × idx. -/
def biquad (sec : SMap S64) (idx : Nat) (b0 b1 b2 a1 a2 : Int) (x : S64) : SMap S64 × S64 × Bool :=
  let q := fun (i : Nat) => smGet 0 sec (4 * idx + i)
  let acc := prodC x b0 + prodC (q 0) b1 + prodC (q 1) b2 - prodC (q 2) a1 - prodC (q 3) a2
  let (y, sat) := storeVal acc
  let put := fun (m : SMap S64) (i : Nat) (v : S64) => smSet 0 m (4 * idx + i) v
  (put (put (put (put sec 1 (q 0)) 0 x) 3 (q 2)) 2 y, y, sat)

/-- A section of a strip, with its enable crossfade. -/
def sectionRun (s : State) (strip base idx : Nat) (x : S64) (r : StripRun) : StripRun × S64 × Nat :=
  let c := fun (j : Nat) => coefInForce s strip r (base + j)
  let (sec, y, sat) := biquad r.sec idx (c 0) (c 1) (c 2) (c 3) (c 4) x
  let (o, n) := enableMix r (base + 5) (bitOf (param s strip (base + 5)).toNat 0) y x
  ({ r with sec := sec }, o, n + b2n sat)

def sectionsRun (s : State) (strip : Nat) (x : S64) (r : StripRun) : StripRun × S64 × Nat :=
  (List.range (if isOut strip then 16 else 12)).foldl (fun (r, x, n) k =>
    let (r1, y, m) := sectionRun s strip (0x10 + 8 * k) k x r
    (r1, y, n + m)) (r, x, 0)

/-- 02 R44, R55: one product and one store. -/
def gainStore (x : S64) (g : Int) : S64 × Nat := let (v, sat) := storeVal (prodG x g); (v, b2n sat)

/-! ## Dynamics (05 R149 to R153) -/

def keyLevel (rms : Bool) (k : S64) (win : List S64) : Int :=
  if rms then levelDb ((win.map (fun v => v.toInt.natAbs * v.toInt.natAbs)).foldl (· + ·) 0) 121
  else levelDb (k.toInt.natAbs * k.toInt.natAbs) 112

/-- A value of the dynamics as a dB word; one outside 32 bits is not stated (log 61, DESIGN CHOICE). -/
def asDb (v : Int) : Int := if -(2 ^ 31) ≤ v ∧ v < 2 ^ 31 then v else (Config.dbOver v).toInt

/-- 05 R152: one step of a gain state. -/
def gainStep (g target attack release : Int) : Int :=
  let c := if target < g then attack else release
  asDb (g + roundShift ((target - g) * c) 36)

/-- 05 R150: the target of dynamics A, out − L. -/
def compTarget (l t : Int) (ratio : Nat) (w : Int) (limit : Bool) : Int :=
  let num : Int := if limit then -1 else 256 - ratio
  let den : Nat := if limit then 1 else ratio
  let d := l - t
  if 2 * d < -w then 0
  else if 2 * d.natAbs ≤ w ∧ 0 < w then asDb (roundRat (num * (2 * d + w) * (2 * d + w)) (den * (8 * w.toNat)))
  else asDb (roundRat (d * num) den)

/-- Dynamics A (05 R150, R152) (log 73, DESIGN CHOICE). -/
def dynA (s : State) (strip : Nat) (x : S64) (r : StripRun) : StripRun × S64 × Nat :=
  let ctl := (param s strip 0x90).toNat
  let win := (x :: r.winA).take 512
  let l := keyLevel (bitOf ctl 2) x win
  let t := compTarget l (dbVal (param s strip 0x91)) (param s strip 0x92).toNat (dbVal (param s strip 0x93)) (bitOf ctl 1)
  let g := gainStep r.gA t (c40Val (param s strip 0x94)) (c40Val (param s strip 0x95))
  let (y, n) := gainStore x (dbGain (g + dbVal (param s strip 0x96)))
  let r1 := { r with winA := win, gA := g }
  if bitOf ctl 0 then (r1, y, n) else (r1, x, 0)

/-- 05 R151: gate: whether it is open, and the hold counter. -/
def gateStep (l t h : Int) (n : Nat) (open_ : Bool) (hold : Nat) : Bool × Nat :=
  if t ≤ l then (true, n)
  else if !open_ then (false, hold)
  else if t - h ≤ l then (true, n)
  else (decide (1 < hold), hold - 1)

/-- Dynamics B (05 R151, R152); `ext` is the pre-strip value of the key S-slot. The last result says that the gate or
ducker closes on this tick. -/
def dynB (s : State) (strip : Nat) (x ext : S64) (r : StripRun) : StripRun × S64 × Nat × Bool :=
  let ctl := (param s strip 0xA0).toNat
  let p := fun (i : Nat) => dbVal (param s strip (0xA0 + i))
  let k0 := if bitOf ctl 3 then ext else x
  let (r0, k, n0) := sectionRun s strip 0xB0 16 k0 r
  let win := (k :: r0.winB).take 512
  let l := keyLevel (bitOf ctl 4) k win
  let mode := ctl % 4
  let (op, hold) := if mode = 1 then (r.gateOpen, r.hold) else gateStep l (p 2) (p 5) (param s strip 0xA6).toNat r.gateOpen r.hold
  let target := if mode = 0 then (if op then 0 else -(p 4))
    else if mode = 2 then (if op then -(p 4) else 0)
    else if l < p 2 then
      (let v := roundRat ((l - p 2) * ((param s strip 0xA3).toNat - 256)) 256
       if v < -(p 4) then -(p 4) else asDb v)
    else 0
  let g := gainStep r.gB target (c40Val (param s strip 0xA7)) (c40Val (param s strip 0xA8))
  let (y, n) := gainStore x (dbGain g)
  let closes := r.gateOpen && !op
  let r1 := { r0 with winB := win, gB := g, hold := hold, gateOpen := op || closes }
  if bitOf ctl 2 then (r1, y, n0 + n, closes) else (r1, x, n0, closes)

/-- 05 R153: the brick-wall limiter; the count is of clamps and saturating stores. -/
def limiter (s : State) (strip : Nat) (x : S64) (r : StripRun) : StripRun × S64 × Nat :=
  let c := dbVal (param s strip 0xC1)
  let l := keyLevel false x []
  let d := c - l
  let t := if d < 0 then d else 0
  let g := if t < r.gL then t else gainStep r.gL t 0 (c40Val (param s strip 0xC2))
  let (y, n) := gainStore x (dbGainFloor g)
  let top : Int := dbFactor c 56 false
  let v := y.toInt
  let r1 := { r with gL := g }
  if !bitOf (param s strip 0xC0).toNat 0 then (r1, x, 0)
  else if top < v then (r1, BitVec.ofInt 64 top, n + 1)
  else if v < -top then (r1, BitVec.ofInt 64 (-top), n + 1)
  else (r1, y, n)

/-! ## Delay (05 R154 to R156) -/

/-- Atrium address of sample n of a strip's delay ring. -/
def dlyAddr (s : State) (strip n : Nat) : Nat := get64 s STR_DLY_BASE_LO STR_DLY_BASE_HI + 0x40_0000 * strip + 8 * (n % 524288)
def dlyRegion (s : State) (strip : Nat) : Bool := decide (strip < Nat.min (rd s STR_DLY_REGIONS).toNat 8192) && dramReady s

/-- A failed DRAM access of a strip: address, cause, and whether it is a write. -/
abbrev DmaErr := Nat × Nat × Bool

/-- The delay line read `d` samples back at sample `n`; the flag is an uncorrectable word. -/
def dlyRead (s : State) (strip n d : Nat) (r : StripRun) : S64 × Bool × List DmaErr :=
  if n < r.since + d then (0, false, [])
  else if d < 64 then (r.line.getD d 0, false, [])
  else
    let a := dlyAddr s strip (n - d)
    match dmaRefuse s 15 a 8 with
    | some c => (0, false, [(a, c, false)])
    | none => (BitVec.ofNat 64 (memRead s a 8), !(lostWords s [a / 8]).isEmpty, [])

/-- The sample enters the delay ring of its strip in DRAM. -/
def dlyStore (s : State) (strip n : Nat) (v : S64) : State :=
  if !dlyRegion s strip then s
  else
    let a := dlyAddr s strip n
    match dmaRefuse s 15 a 8 with
    | some c => dmaError s 15 a 8 c true
    | none => memStore s a 8 v.toNat

/-- What one stage of a strip did. -/
structure StageOut where
  run : StripRun
  val : S64
  sats : Nat
  ues : Nat
  errs : List DmaErr
  deriving DecidableEq, Repr

/-- The delay of a strip at sample `n`: the value enters the line (and its ring in DRAM), and the read point gives
(log 74, DEDUCED). -/
def delayRun (s : State) (strip n : Nat) (x : S64) (r : StripRun) : StageOut :=
  let r1 := { r with line := (x :: r.line).take 64 }
  let (new, ue, er) := dlyRead s strip n (param s strip 4).toNat r1
  if r.dlyLate then ⟨{ r1 with dlyLate := false }, r.lastDelay, 0, 0, []⟩
  else match fadeOf r 4 with
    | none => ⟨{ r1 with lastDelay := new }, new, 0, b2n ue, er⟩
    | some f =>
      let (old, ue', er') := dlyRead s strip n f.old.toNat r1
      let (v, sat) := xfadeStep old new f.k 64
      ⟨{ r1 with lastDelay := v }, v, b2n sat, b2n ue + b2n ue', er ++ er'⟩

/-! ## Insert (05 R147, R148, R157) -/

/-- Fields of the insert route. -/
def routeCore (s : State) (strip : Nat) : Nat := bitsOf (param s strip 3).toNat 16 6
def routeRet (s : State) (strip : Nat) : Nat := bitsOf (param s strip 3).toNat 8 6
def routeSend (s : State) (strip : Nat) : Nat := bitsOf (param s strip 3).toNat 0 6

/-- The insert runs its send on this tick (05 R148). -/
def sendRuns (s : State) (strip : Nat) (r : StripRun) : Bool :=
  match r.dip with
  | some d => decide (d.oldMode ≠ 0) || decide (d.newMode ≠ 0)
  | none => decide (ctlMode s strip ≠ 0) || (match fadeOf r kMode with | some f => decide (f.old ≠ 0) | none => false)

/-- The strip value behind the insert point, from the delay's value. -/
def insertRun (s : State) (x : Dom) (strip : Nat) (v : S64) (r : StripRun) : StripRun × S64 × Nat :=
  let j := routeCore s strip
  let ret := if coreDom s j = some x then smGet 0 s.atlOut (64 * j + routeRet s strip) else 0
  let of := fun (mode : Nat) => if mode = 0 then v else if mode = 1 then ret else r.ins2
  let r1 := { r with ins1 := v, ins2 := r.ins1 }
  match r.dip with
  | some d =>
    let g := if d.k ≤ 32 then rampGain unityG 0 d.k 32 else rampGain 0 unityG (d.k - 32) 32
    let (y, n) := gainStore (of r.mode) g
    (r1, y, n)
  | none =>
    let (y, n) := switchMix r kMode (fun o => of o.toNat) (of r.mode)
    (r1, y, n)

/-! ## Occupants (04 R126) -/

/-- Occupant code of an S-slot: 65,536 × kind + index (04 R126). -/
def occCode (s : State) (i : Nat) : Nat := smGet 0 s.scn.occ i
/-- 03 R97, 10 R316: a slot with this occupant bypasses its strip. -/
def occBypass (code : Nat) : Bool := code / 65536 == 8 || code / 65536 == 4

/-! ## One tick of a strip (05 R139, R140) -/

/-- Pipeline registers: written on one tick, read on the next. Input strips: M0, I1, trim after I1, I2, trim after I2, I3,
direct-out tap, four holding stages and the value an output patch entry reads, the source ring, M0 of the tick before.
Output strips: O1, O2, O3 and the value the patch read on the last tick. -/
def pM0 : Nat := 0
def pI1 : Nat := 1
def pT1 : Nat := 2
def pI2 : Nat := 3
def pT2 : Nat := 4
def pI3 : Nat := 5
def pTap : Nat := 6
def pHold (k : Nat) : Nat := 6 + k
def pRing : Nat := 12
def pM0old : Nat := 13
def pO1 : Nat := 16
def pO2 : Nat := 17
def pO3 : Nat := 18
def pO3old : Nat := 19
def pipe (s : State) (stage slot : Nat) : S64 := smGet 0 s.str.pipe (8192 * stage + slot)
def setPipe (stage slot : Nat) (v : S64) (s : State) : State :=
  { s with str := { s.str with pipe := smSet 0 s.str.pipe (8192 * stage + slot) v } }

/-- The word of D-slot `d` that a bus return of domain `x` carries; a D-slot of another domain gives zero (01 R23). -/
def busWord (s : State) (x : Option Dom) (d : Nat) : S64 := if x.isSome && domD s d == x then smGet 0 s.gal.dval d else 0
/-- The newest value of S-slot `i` on the source ring (03 R97, 05 R605). -/
def ringVal (s : State) (i : Nat) : S64 :=
  let code := occCode s i
  if code / 65536 = 8 then busWord s (domS s i) (code % 65536) else pipe s pRing i
/-- 05 R151: the value of the key S-slot that strip `strip` of domain `x` names. A key whose strip is bypassed gives the
newest value the ring carries (log 147, DESIGN CHOICE). -/
def keyVal (s : State) (x : Dom) (strip : Nat) : S64 :=
  let k := (param s strip 0xA1).toNat % 4096
  if domS s k ≠ some x then 0
  else if occBypass (occCode s k) then ringVal s k
  else pipe s pM0old k

/-- Every fade and dip of a strip takes its step for the tick. -/
def fadesStep (r : StripRun) : StripRun :=
  { r with fades := r.fades.map (fun f => { f with k := f.k + 1 }), dip := r.dip.map (fun d => { d with k := d.k + 1 }) }

/-- The ends that this tick's steps have reached. -/
def fadesDue (strip : Nat) (r : StripRun) : List Due :=
  let done := r.fades.filter (fun f => f.k == 64)
  done.filterMap (fun f =>
    if f.key = 0 then some (.gainEnd strip 0)
    else if f.key = 1 then none
    else if f.key = 4 then some (.delayEnd strip)
    else if 0xF000 ≤ f.key then some (.switchEnd strip f.key)
    else match secBase f.key with
      | some b => if f.key = b + 5 then some (.enableEnd strip f.key) else if f.key = b then some (.interpEnd strip b) else none
      | none => none) ++
  (match r.dip with | some d => if d.k = 32 then [.dipHalf strip] else if d.k = 64 then [.dipEnd strip] else [] | none => [])

def dlyErrors (l : List DmaErr) (s : State) : State := l.foldl (fun s (a, c, w) => dmaError s 15 a 8 c w) s

/-- Saturations and errors of a strip go to its unit's counters; an error in a delay word is an integrity fault. -/
def stripCount (strip sats ues : Nat) (s : State) : State :=
  let u := stripUnit s strip
  let s1 := cntN s (STR_UNIT_SAT u) sats
  if ues = 0 then s1 else accuse (cntN s1 (STR_UNIT_UE u) ues) 1

/-- 13 R415: words of a strip's state that a patrol has found uncorrectable read as zero and are rewritten as zero. Word
256 × strip + q is section state q, gain state q − 100, or sample q − 128 of the delay tail (log 62, DESIGN CHOICE). -/
def stateErrs (strip : Nat) (s : State) : State :=
  let l := s.str.badState.filter (fun w => w / 256 == strip)
  if l.isEmpty then s
  else
    let zero := fun (r : StripRun) (w : Nat) =>
      let q := w % 256
      if q = 100 then { r with gA := 0 }
      else if q = 101 then { r with gB := 0 }
      else if q = 102 then { r with gL := 0 }
      else if 128 ≤ q then { r with line := r.line.set (q - 128) 0 }
      else { r with sec := smSet 0 r.sec q 0 }
    let s1 := setRun strip (l.foldl zero (stripRun s strip)) s
    let s2 := { s1 with str := { s1.str with badState := s1.str.badState.filter (fun w => w / 256 != strip) } }
    l.foldl (fun s w => noteUe (stripCount strip 0 1 s) 8 (Config.arrayOf 8 w) w) s2

/-- One tick `n` of the input strip of S-slot `i` in domain `x`: the three stages read the registers of the last tick. The
list is the insert send. While the stage of the delay is late, the delay line takes no sample (log 148, DESIGN CHOICE). -/
def inputTick (x : Dom) (n i : Nat) (s0 : State) : State × List (Nat × S64) :=
  let s := stateErrs i s0
  let r0 := fadesStep (stripRun s i)
  let late := fun (k : Nat) => r0.lateStages.contains k
  let proc := ctlProcess s i = 1
  -- I1
  let m0 := pipe s pM0 i
  let (tr, n1) := gainStore m0 (gainInForce s i r0)
  let (r1, y, n2) := sectionsRun s i tr r0
  let (o1, n3) := enableMix r1 kProcess proc y m0
  let (tap1, _) := enableMix r1 kProcess proc tr m0
  let (ra, o1, tap1, c1) := if late 0 then (r0, 0, 0, 0) else (r1, o1, tap1, n1 + n2 + n3)
  -- I2
  let v2 := pipe s pI1 i
  let (r2, ya, n4) := dynA s i v2 ra
  let (r3, yb, n5, closes) := dynB s i ya (keyVal s x i) r2
  let (o2, n6) := enableMix r3 kProcess proc yb v2
  let (rb, o2, closes, c2) := if late 1 then (ra, 0, false, 0) else (r3, o2, closes, n4 + n5 + n6)
  -- I3
  let v3 := pipe s pI2 i
  let d := delayRun s i n v3 rb
  let (r4, o3, n7) := insertRun s x i d.val d.run
  let tap := match ctlTap s i with | 0 => o3 | 1 => v3 | _ => pipe s pT2 i
  let sends := if sendRuns s i r4 && !late 2 then [(64 * routeCore s i + routeSend s i, d.val)] else []
  let (rc, o3, tap, c3, ue, er) := if late 2 then (rb, 0, 0, 0, 0, []) else (r4, o3, tap, d.sats + n7, d.ues, d.errs)
  let s1 := if late 2 then s else dlyErrors er (dlyStore s i n v3)
  let s2 := setPipe pT2 i (pipe s pT1 i) (setPipe pI3 i o3 (setPipe pTap i tap s1))
  let s3 := setPipe pI2 i o2 (setPipe pI1 i o1 (setPipe pT1 i tap1 s2))
  let s4 := setRun i { rc with lateStages := [] } s3
  let s5 := { s4 with due := s4.due ++ fadesDue i rc ++ (if closes then [.gateClose i 0xA0] else []) }
  (stripCount i (c1 + c2 + c3) ue s5, sends)

/-- One tick `n` of the output strip of D-slot `d`; a late stage of the delay as in inputTick (log 148, DESIGN CHOICE). -/
def outputTick (x : Dom) (n d : Nat) (s0 : State) : State :=
  let p := 4096 + d
  let s := stateErrs p s0
  let r0 := fadesStep (stripRun s p)
  let late := fun (k : Nat) => r0.lateStages.contains k
  let proc := ctlProcess s p = 1
  -- O1
  let m0 := smGet 0 s.gal.dval d
  let (r1, y, n1) := sectionsRun s p m0 r0
  let (o1, n2) := enableMix r1 kProcess proc y m0
  let (ra, o1, c1) := if late 0 then (r0, 0, 0) else (r1, o1, n1 + n2)
  -- O2
  let v2 := pipe s pO1 d
  let (r2, ya, n3) := dynA s p v2 ra
  let (r3, yb, n4, closes) := dynB s p ya (keyVal s x p) r2
  let (r4, yl, n5) := limiter s p yb r3
  let (o2, n6) := enableMix r4 kProcess proc yl v2
  let (rb, o2, closes, c2) := if late 1 then (ra, 0, false, 0) else (r4, o2, closes, n3 + n4 + n5 + n6)
  -- O3
  let v3 := pipe s pO2 d
  let dl := delayRun s p n v3 rb
  let (eff, plain) := (gainInForce s p dl.run, plainInForce s p dl.run)
  let (g1, n7) := gainStore dl.val eff
  let (g0, n7') := gainStore dl.val plain
  let n7 := n7 + (if eff ≠ plain ∧ (!proc ∨ (fadeOf dl.run kProcess).isSome) then n7' else 0)
  let (o3, n8) := enableMix dl.run kProcess proc g1 g0
  let (o3, n9) := switchMix dl.run kMute (fun o => if o = 1 then 0 else o3) (if ctlMute s p = 1 then 0 else o3)
  let (rc, o3, c3, ue, er) := if late 2 then (rb, 0, 0, 0, []) else (dl.run, o3, dl.sats + n7 + n8 + n9, dl.ues, dl.errs)
  let s1 := if late 2 then s else dlyErrors er (dlyStore s p n v3)
  let s2 := setPipe pO3old d (pipe s pO3 d) s1
  let s3 := setPipe pO1 d o1 (setPipe pO2 d o2 (setPipe pO3 d o3 s2))
  let s4 := setRun p { rc with lateStages := [] } s3
  let s5 := { s4 with due := s4.due ++ fadesDue p rc ++ (if closes then [.gateClose p 0xA0] else []) }
  stripCount p (c1 + c2 + c3) ue s5

/-- 01 R36: with the strip units without power the values pass unprocessed through the same stages. -/
def inputPass (i : Nat) (s : State) : State :=
  setPipe pI3 i (pipe s pI2 i) (setPipe pTap i (pipe s pI2 i) (setPipe pI2 i (pipe s pI1 i) (setPipe pI1 i (pipe s pM0 i) s)))
def outputPass (d : Nat) (s : State) : State :=
  setPipe pO3old d (pipe s pO3 d) (setPipe pO3 d (pipe s pO2 d) (setPipe pO2 d (pipe s pO1 d) (setPipe pO1 d (smGet 0 s.gal.dval d) s)))

/-! ## Events (05 R139, R155) -/

/-- 05 R139: a stage of the coming tick misses its deadline. -/
def doStripStageLate (out : Bool) (strip : Fin 4096) (stage : Fin 4) (s : State) : State :=
  let p := strip.val + (if out then 4096 else 0)
  match stripDom s p with
  | none => s
  | some x =>
    if 3 ≤ stage.val then s
    else
      let u := stripUnit s p
      let r := stripRun s p
      let s1 := setRun p { r with lateStages := r.lateStages ++ [stage.val] } s
      let s2 := fset (cnt s1 (STR_UNIT_LATE u)) (STR_UNIT_STATUS u) STR_UNIT_STATUS_late 1
      accuse (occur s2 0x2C0 u (det64 (nowIdx s x + 1))) 3

/-- 05 R155: the delay read of the coming tick arrives late. -/
def doDelayReadLate (strip : Fin 8192) (s : State) : State :=
  let r := stripRun s strip
  let old := match fadeOf r 4 with | some f => f.old.toNat | none => 0
  if (stripDom s strip).isNone ∨ ((param s strip 4).toNat < 64 ∧ old < 64) ∨ r.dlyLate then s
  else cnt (setRun strip { r with dlyLate := true } s) (STR_UNIT_DLY_LATE (stripUnit s strip))

/-! ## Units and budgets (01 R19, R20; 05 R138) -/

/-- STR_UNIT_STATUS.units and GAL_TILE_STATUS.units follow the bindings. -/
def unitsShow (s : State) : State :=
  let cost := fun (p : Nat) => match stripDom s p with
    | some x => if !isOut p && occBypass (occCode s p) then 0 else domUnits s x
    | none => 0
  let bound := (s.scn.sDom.map (·.1)) ++ (s.scn.dDom.map (fun e => e.1 + 4096))
  let s1 := (List.range 32).foldl (fun s j =>
    let u := ((bound.filter (fun p => p % 32 == j)).map cost).foldl (· + ·) 0
    let k := STR_UNIT_STATUS (physOf s 3 j)
    if fget s k STR_UNIT_STATUS_units = u then s else fset s k STR_UNIT_STATUS_units u) s
  (List.range 64).foldl (fun s j =>
    let u := ((s.scn.dDom.filter (fun e => e.1 / 64 == j)).map (fun e => match e.2 with | some x => domUnits s x | none => 0)).foldl (· + ·) 0
    let k := GAL_TILE_STATUS (physOf s 1 j)
    if fget s k GAL_TILE_STATUS_units = u then s else fset s k GAL_TILE_STATUS_units u) s1

/-- 18 R541: every strip of a bound slot starts from cleared state (05 R141), with what was held in its live set. -/
def stripsClear (s : State) : State :=
  let bound := s.scn.sDom.map (·.1) ++ s.scn.dDom.map (fun e => e.1 + 4096)
  let one := fun (s : State) (p : Nat) => match stripDom s p with
    | some x => stripBind p (genOf s x).next (stripUnbind p s)
    | none => s
  { bound.foldl one s with str := { (bound.foldl one s).str with pipe := [] } }

/-- 05 R602, 04 R122: every strip and every output patch entry after the domain STR returns from OFF. -/
def stripsRestart (s : State) : State :=
  let s1 := fset s SCN_PATCH_DEFER SCN_PATCH_DEFER_entries 0
  stripsClear { s1 with str := { s1.str with live := [], run := [], badState := [] },
                        scn := { s1.scn with recs := s1.scn.recs.filter (fun r => bitsOf r.w0.toNat 60 4 != 5), patch := [], patchDefer := [] } }

end Sys2Proof.Machine
end

