-- ==== Sys2Proof/Machine/Frames.lean ====
section
/-! DEFINITION. Atelier cores in the engine: binding, frames, exchange, long memory, windows, and the issue of one
instruction (spec/06 R170 to R212, spec/07 R217). -/

namespace Sys2Proof.Machine

def coreOf (s : State) (c : Nat) : Core := smGet coreZero s.cores c
def setCore (c : Nat) (k : Core) (s : State) : State := { s with cores := smSet coreZero s.cores c k }

def coreActive (s : State) (c : Nat) : Bool := roleOf s 2 c == roleActive

/-- The physical cores that run the frames of logical core `j`: the active one, and one in shadow. -/
def coresFor (s : State) (j : Nat) : List Nat := (List.range 68).filter (fun c => coreServes s c == some j && domOn s (unitPower 2 c))

/-! ## Budgets and long memory (06 R187, R201, R204) -/

def lmSize (s : State) (j : Nat) : Nat := fget s (ATL_LCORE_STATUS j) ATL_LCORE_STATUS_lm_size
/-- 06 R201, R202: the Atrium address of a word offset of a logical core's region (log 140, DESIGN CHOICE). -/
def lmAddr (s : State) (j off : Nat) : Nat :=
  get64 s ATL_LM_BASE_LO ATL_LM_BASE_HI + j * fget s ATL_LM_STRIDE ATL_LM_STRIDE_stride_mib * 2 ^ 20 + 8 * (off % (131072 * lmSize s j))

/-! ## Events (06 R178, R190, R191, R204; 07 R217) -/

/-- A Ledger entry and a self-accusation of an active core. -/
def coreFault (c code : Nat) (det : List W32) (cause : Nat) (s : State) : State :=
  let s1 := occur s code c det
  if coreActive s c then accuse s1 cause else s1

def coreUe (c space word : Nat) (s : State) : State :=
  let s1 := noteUe (cnt s (ATL_CORE_UE c)) (if space = 3 then 29 else 4 + c / 17) (Config.arrayOf (4 + c / 17) (badKey space word))
    (c % 17 * 2 ^ 20 + badKey space word)
  coreFault c 0x383 [BitVec.ofNat 32 space, BitVec.ofNat 32 word] 1 s1

def lmRefuse (c : Nat) (s : State) : State := cnt (setCore c { coreOf s c with lmRefused := true } s) (ATL_CORE_LM_REFUSED c)

/-- 06 R202 to R204: a request issued at frame cycle `cyc`. A refused read keeps its answer positions, which hold zero.
The request has retired at issue (log 138, DESIGN CHOICE). -/
def lmRequest (c cyc : Nat) (len : Nat) (off : Nat) (wr_ : Option S64) (s : State) : State :=
  let k := coreOf s c
  let j := (coreServes s c).getD 0
  let pos := k.lmPos
  let isWr := wr_.isSome
  let bad := decide (64 ≤ k.lmIssued) || decide (coreCutoff s c < cyc) || decide (lmSize s j = 0) ||
    (!isWr && decide (256 < pos + len))
  let k1 := { k with lmIssued := k.lmIssued + 1, lmPos := if isWr then pos else pos + len }
  let s1 := setCore c k1 s
  if bad then (let s2 := lmRefuse c s1; if isWr || decide (256 ≤ pos) then s2 else setCore c { coreOf s2 c with lmZero := true } s2)
  else if !coreActive s c then s1
  else match wr_ with
    | some v =>
      let a := lmAddr s j off
      (match dmaRefuse s 13 a 8 with
      | some cause => cnt (dmaError s1 13 a 8 cause true) (ATL_CORE_UE c)
      | none => memStore s1 a 8 v.toNat)
    | none =>
      let l := (List.range len).map (fun i => lmAddr s j (off + i))
      let err := l.findSome? (fun a => (dmaRefuse s 13 a 8).map (fun cause => (a, cause)))
      match err with
      | some (a, cause) =>
        let s2 := cnt (dmaError s1 13 a 8 cause false) (ATL_CORE_UE c)
        setCore c { coreOf s2 c with lmZero := true } s2
      | none =>
        setCore c { k1 with lmReads := k1.lmReads ++ [⟨pos, len, l, l.map (fun a => BitVec.ofNat 64 (memRead s a 8))⟩] } s1

/-- 06 R189, ATL_CORE_FEND, ATL_CORE_LM_USE: a frame has ended. -/
def frameShow (c last : Nat) (s : State) : State :=
  let k := coreOf s c
  let s1 := fset (fset s (ATL_CORE_FEND c) ATL_CORE_FEND_last last) (ATL_CORE_LM_USE c) ATL_CORE_LM_USE_answer_words (Nat.min k.lmPos 256)
  fset s1 (ATL_CORE_LM_USE c) ATL_CORE_LM_USE_requests (Nat.min k.lmIssued 127)

/-- 06 R212: in the gap after a FEND of the core that a rotation leaves, the next 512 words of its P are copied (log 133, DESIGN CHOICE);
posted words that still wait in its queue stand in the spare already. -/
def rotGap (c : Nat) (s : State) : State :=
  match s.twn.rot with
  | some r =>
    if r.kind = 2 ∧ r.old = c ∧ rotPhase s = 1 ∧ r.copied < 16384 then
      let k := coreOf s c
      let sp := coreOf s r.spare
      let lo := r.copied
      let hi := r.copied + 512
      let inP := fun (b : Nat) => decide (lo ≤ b) && decide (b < hi)
      let sp1 := { sp with pm := (smRange k.pm lo hi).foldl (fun m (a, v) => smSet 0 m a v) (smDrop sp.pm lo hi),
                           bad := sp.bad.filter (fun b => !inP b) ++ k.bad.filter inP }
      let sp3 := k.pq.foldl (fun x (a, w) => coreWr x 0 a w) sp1
      setRot (setCore r.spare sp3 s) (some { r with copied := r.copied + 512 })
    else s
  | none => s

/-- What an instruction at frame cycle `cyc` and P address `pc` does outside its core. -/
def coreEvent (c cyc pc : Nat) (s : State) (e : CoreEv) : State :=
  match e with
  | .xlost => coreFault c 0x381 [BitVec.ofNat 32 pc] 6 (cnt s (ATL_CORE_XLOST c))
  | .sat => cnt s (ATL_CORE_SAT c)
  | .ue space word => coreUe c space word s
  | .lmRead off len => lmRequest c cyc len off none s
  | .lmWrite off v => lmRequest c cyc 1 off (some v) s
  | .fend cy =>
    let s1 := rotGap c <| fset (frameShow c cy s) (ATL_CORE_STATUS c) ATL_CORE_STATUS_late 0
    if fget s1 (ATL_CORE_FEND c) ATL_CORE_FEND_high_water < cy then fset s1 (ATL_CORE_FEND c) ATL_CORE_FEND_high_water cy else s1
  | .halt _ a => occur s 0x382 c [BitVec.ofNat 32 a, BitVec.ofNat 32 (b2n (coreOf s c).inHandler)]

/-- A field shows a value: it is written when it differs. -/
def fieldShow (k : Nat) (f : Fld) (v : Nat) (s : State) : State := if fget s k f = v then s else fset s k f v

/-- A core takes a new state, and what it did outside follows. -/
def coreStep (c cyc pc : Nat) (k : Core) (evs : List CoreEv) (s : State) : State :=
  fieldShow (ATL_CORE_PQ c) ATL_CORE_PQ_level k.pq.length
    (fieldShow (ATL_CORE_STATUS c) ATL_CORE_STATUS_in_handler (b2n k.inHandler) (evs.foldl (coreEvent c cyc pc) (setCore c k s)))

/-- The core can issue: its clock is locked (06 R171) and its frame is at work. -/
def coreIssues (s : State) (c : Nat) : Bool := decide ((coreOf s c).phase = .run) && clkOk s 2 c && (coreRunDom s c).isSome

/-- 07 R240: a WAIT ends when the frame cycle reaches its target. -/
def waitDone (k : Core) : Core :=
  match k.wait with
  | some (u, _) => { k with wait := none, cyc := Nat.max k.cyc u }
  | none => k

/-- The boundary before the next instruction: loops pop, interrupts become pending and are taken, also during a stall;
the stall ends, and a compare interrupt of the cycle that follows it is taken before that instruction (06 R197, 07 R240). -/
def boundary (k : Core) : Core × List CoreEv :=
  let (k1, e1) := coreBoundary k
  let (k2, e2) := coreBoundary (waitDone k1)
  (k2, e1 ++ e2)

/-- Core `c` issues the instruction coded `w`, when that is the word its pc fetches (log 77, DEDUCED). -/
def issue (c : Nat) (w : BitVec 64) (cls : OpClass) (eff : Core → IssueEff) (s : State) : State :=
  let (k1, e1) := boundary (coreOf s c)
  if coreIssues s c ∧ smGet 0 k1.pm k1.pc = w ∧ atlLegal w k1.pc then
    let (k2, e2) := coreIssue cls eff k1
    coreStep c k1.cyc k1.pc k2 (e1 ++ e2) s
  else s

/-- 07 R217, R238, R239: the word at the pc is illegal, or it breaks a rule of loops: the core halts. -/
def doIllegalInstruction (c : Fin 68) (s : State) : State :=
  let (k1, e1) := boundary (coreOf s c)
  let w := smGet 0 k1.pm k1.pc
  let cause := if atlLegal w k1.pc then loopHalt k1 (opClassOf w) else some haltIllegal
  match cause with
  | some h =>
    if coreIssues s c then
      let (k2, e2) := if isBad k1 0 k1.pc then (coreAbandon k1, [.ue 0 k1.pc]) else coreHalt h k1
      coreStep c k1.cyc k1.pc k2 (e1 ++ e2) s
    else s
  | none => s

/-- 06 R198: a pending interrupt is taken at an eligible boundary, after loop levels that have ended pop. -/
def doInterruptTake (c : Fin 68) (s : State) : State :=
  let k := loopPops (coreOf s c)
  if coreIssues s c ∧ coreEligible k ∧ (k.landPend ∨ k.cmpPend) then
    let (k1, e) := coreTake k
    coreStep c k.cyc k.pc k1 e s
  else s
/-- 06 R197: the frame cycle reaches cmp_cycle. -/
def doCompareInterrupt (c : Fin 68) (s : State) : State :=
  let k := coreOf s c
  if coreIssues s c ∧ cmpDue k then setCore c (cmpRaise k) s else s
/-- 07 R240: the count reaches the WAIT target. An interrupt that is pending, or due before that, is taken during the
stall instead, with the address of the WAIT. -/
def doWaitEnd (c : Fin 68) (s : State) : State :=
  let k := coreOf s c
  if coreIssues s c ∧ k.wait.isSome then
    let (k1, e) := coreBoundary k
    coreStep c k.cyc k.pc (waitDone k1) e s
  else s
/-- 07 R238: a loop level whose last pass has issued pops. -/
def doLoopExit (c : Fin 68) (s : State) : State :=
  let k := coreOf s c
  if coreIssues s c ∧ k.loopDue then setCore c (loopPop k) s else s

/-! ## Posted P writes (06 R210) -/

/-- Every queued word is written. -/
def pqDrain (c : Nat) (s : State) : State :=
  let k := coreOf s c
  if k.pq.isEmpty then s
  else coreStep c k.cyc k.pc { k.pq.foldl (fun k (a, w) => coreWr k 0 a w) k with pq := [] } [] s
/-- The oldest queued word is written: one a cycle, after FEND or in a core that does not run. -/
def doPQueueDrain (c : Fin 68) (s : State) : State :=
  let k := coreOf s c
  match k.pq with
  | [] => s
  | (a, w) :: rest =>
    if k.phase = .ended ∨ (coreRunDom s c).isNone then coreStep c k.cyc k.pc { coreWr k 0 a w with pq := rest } [] s else s

/-! ## Binding (06 R174) -/

/-- 06 R192: every register after a binding. -/
def coreClear (k : Core) : Core :=
  { coreZero with pm := k.pm, xm := k.xm, ym := k.ym, em := k.em, bad := k.bad, pq := k.pq, first := true }

/-- Words lo to hi − 1 of physical E read zero. -/
def eZero (lo hi : Nat) (k : Core) : Core :=
  { k with em := smDrop k.em lo hi, bad := k.bad.filter (fun b => !(decide (badKey 3 lo ≤ b) && decide (b < badKey 3 hi))) }

/-- A physical core starts to run the frames of its logical core. -/
def coreStart (c : Nat) (s : State) : State :=
  let k := eZero 384 448 (eZero 512 768 (eZero 0 64 (eZero 128 384 (coreClear (coreOf s c)))))
  let s1 := fset (setCore c k s) (ATL_CORE_STATUS c) ATL_CORE_STATUS_running 1
  let s2 := fset (fset s1 (ATL_CORE_FEND c) ATL_CORE_FEND_high_water 0) (ATL_CORE_FEND c) ATL_CORE_FEND_last 0xFFFF
  wr s2 (ATL_CORE_LM_USE c) 0

/-- A binding of the unbound logical core `j` to domain `x` lands. -/
def coreBind (j : Nat) (x : Dom) (s : State) : State :=
  let s1 := fset s (ATL_LCORE_STATUS j) ATL_LCORE_STATUS_domain (domNo x + 1)
  (coresFor s1 j).foldl (fun s c => coreStart c s) s1

/-- A physical core stops running (06 R210: queued P writes are written at once). A frame that has not issued FEND ends
here without counting an overrun (log 134, DESIGN CHOICE). -/
def coreStop (c : Nat) (s : State) : State :=
  let s1 := pqDrain c s
  let k := { coreOf s1 c with phase := .idle, inHandler := false, wait := none, delay := none, lmReads := [] }
  fset (coreStep c 0 0 k [] s1) (ATL_CORE_STATUS c) ATL_CORE_STATUS_running 0

/-- 06 R174: an unbinding lands: no frame runs, and the output words read as zero. -/
def coreUnbind (j : Nat) (s : State) : State :=
  let cs := coresFor s j
  let s1 := fset s (ATL_LCORE_STATUS j) ATL_LCORE_STATUS_domain 0
  cs.foldl (fun s c => coreStop c s) { s1 with atlOut := smDrop s1.atlOut (64 * j) (64 * j + 64) }

/-! ## Windows (06 R208 to R210) -/

/-- 06 R208: memory and word behind a window offset. -/
def windowWord (o : Nat) : Option (Nat × Nat) :=
  let w := o / 8
  if o < 0x20000 then some (0, w)
  else if o < 0x40000 then some (1, w - 0x4000)
  else if o < 0x50000 then some (2, w - 0x8000)
  else if o < 0x52000 then
    let e := w - 0xA000
    some (3, if e < 384 then e else if e < 400 then 768 + (e - 384) else if e < 640 then 784 + (e - 400) else 384 + (e - 640))
  else none

/-- 06 R209: the access is allowed. -/
def windowAllows (s : State) (c mem w : Nat) (write : Bool) : Bool :=
  let busy := roleOf s 2 c == roleShadow || (coreRunDom s c).isSome
  if !busy then true
  else match mem with
    | 0 => write
    | 3 => decide (784 ≤ w) || !write
    | _ => false

/-- The word of a window, and whether it holds an error. -/
def windowGet (s : State) (c mem w : Nat) : BitVec 64 × Bool :=
  let k := coreOf s c
  ((coreRd k mem w).1, isBad k mem w)

/-- A whole word is written to a core: a P word of a running core is posted (06 R210). The flag says that a full queue
dropped it. -/
def corePost (c mem w : Nat) (v : BitVec 64) (s : State) : State × Bool :=
  let k := coreOf s c
  if mem = 0 ∧ (coreRunDom s c).isSome then
    if 256 ≤ k.pq.length then (s, false) else (coreStep c k.cyc k.pc { k with pq := k.pq ++ [(w, v)] } [] s, true)
  else (setCore c (coreWr k mem w v) s, true)

/-- 06 R209, R210: a whole word is written through a window; the flag says that a full queue dropped it. A posted P write
made while its core is being copied goes to both cores (06 R212). -/
def windowPut (s : State) (c mem w : Nat) (v : BitVec 64) : State × Bool :=
  let (s1, ok) := corePost c mem w v s
  match s1.twn.rot with
  | some r =>
    if mem = 0 ∧ ok ∧ r.kind = 2 ∧ r.old = c ∧ rotPhase s1 ≠ 0 ∧ !coreActive s1 r.spare then ((corePost r.spare 0 w v s1).1, true)
    else (s1, ok)
  | none => (s1, ok)

/-- What a window access of `n` bytes at offset `o` of core `c` does. -/
inductive WinRes
  | refused (cause : Nat)
  | stalled
  | word (mem w : Nat)
  deriving DecidableEq, Repr

def windowAt (s : State) (c o : Nat) (write : Bool) : WinRes :=
  if !domOn s (unitPower 2 c) || roleOf s 2 c == roleOff then .refused capIslandOff
  else match windowWord o with
    | none => .refused capWindow
    | some (mem, w) =>
      if !windowAllows s c mem w write then .refused capWindow
      else if s.atlFill.contains c then .stalled
      else .word mem w

/-- 13 R410: the oldest merge entry of a window's port completes. -/
def windowMergeDone (c : Nat) (s : State) : State :=
  match s.ecc.merge.find? (fun e => e.port == portWindow c) with
  | none => s
  | some e =>
    let s1 := { s with ecc := { s.ecc with merge := s.ecc.merge.erase e } }
    match windowWord (8 * e.word % 0x10_0000) with
    | none => s1
    | some (mem, w) =>
      let (old, bad) := windowGet s1 c mem w
      if bad then capture s1 capMergeLost e.master (8 * e.word) true e.strobes.toNat
      else
        let v := leVal ((List.range 8).map (fun i =>
          BitVec.ofNat 8 (if bitOf e.strobes.toNat i then bitsOf e.data.toNat (8 * i) 8 else bitsOf old.toNat (8 * i) 8)))
        let (s2, ok) := windowPut s1 c mem w (BitVec.ofNat 64 v)
        if ok then s2 else capture s2 capWindow e.master (8 * e.word) true e.strobes.toNat

/-- One access of master `m` to a window, of at most 8 bytes within a word. A word with an error reads as zero, under an
error response that is captured (log 135, DESIGN CHOICE). -/
def windowPiece (m c o n : Nat) (write : Option Nat) (s : State) : State :=
  let a := 0x8000_0000 + 0x10_0000 * c + o
  let port := portWindow c
  let isWr := write.isSome
  match windowAt s c o isWr with
  | .refused cause => accessError s cause m a isWr (strobesOf a n)
  | .stalled => { s with ecc := { s.ecc with stalled := s.ecc.stalled ++ [⟨m, a, n, write.map (BitVec.ofNat 64), none⟩] } }
  | .word mem w =>
    let held := s.ecc.merge.find? (fun e => e.port == port && e.word == a / 8)
    match write with
    | none =>
      let (v, bad) := windowGet s c mem w
      let s1 := if bad then capture (coreUe c mem w s) capUncorr m a false (strobesOf a n) else s
      let byte := fun (i : Nat) => match held with
        | some e => if bitOf e.strobes.toNat i then bitsOf e.data.toNat (8 * i) 8 else bitsOf v.toNat (8 * i) 8
        | none => bitsOf v.toNat (8 * i) 8
      respond s1 m false (!bad) ((List.range n).foldl (fun acc i => acc + byte (o % 8 + i) * 256 ^ i) 0)
    | some v =>
      let data := leBytes n v
      if n = 8 then
        let s0 := { s with ecc := { s.ecc with merge := s.ecc.merge.filter (fun e => !(e.port == port && e.word == a / 8)) } }
        let (s1, ok) := windowPut s0 c mem w (BitVec.ofNat 64 v)
        if ok then respond s1 m true true 0 else accessError s1 capWindow m a true 0xFF
      else
        let old := match held with | some e => e.data | none => 0
        let strb := (match held with | some e => e.strobes | none => 0) ||| BitVec.ofNat 8 (strobesOf a n)
        let e : MergeEnt := ⟨port, a / 8, BitVec.ofNat 64 (overlay old.toNat (8 * (a / 8)) 8 a data), strb, m⟩
        let rest := s.ecc.merge.filter (fun e => !(e.port == port && e.word == a / 8))
        if strb = 0xFF#8 then
          let (s1, ok) := windowPut { s with ecc := { s.ecc with merge := rest } } c mem w e.data
          if ok then respond s1 m true true 0 else accessError s1 capWindow m a true 0xFF
        else
          let s1 := { s with ecc := { s.ecc with merge := rest } }
          let s2 := if held.isNone && decide (16 ≤ (rest.filter (fun e => e.port == port)).length) then windowMergeDone c s1 else s1
          respond { s2 with ecc := { s2.ecc with merge := s2.ecc.merge ++ [e] } } m true true 0

/-- An access of master `m` to a window: word by word in ascending order (15 R473). -/
def windowAccess (m c o n : Nat) (write : Option Nat) (s : State) : State :=
  (wordsIn o n).foldl (fun s w =>
    let lo := Nat.max o (8 * w)
    let len := Nat.min (o + n) (8 * w + 8) - lo
    windowPiece m c lo len (write.map (fun v => v / 256 ^ (lo - o) % 256 ^ len)) s) s

def doAtelierWindowAccess (m : Fin 21) (addr : Nat) (size : Fin 4) (wr_ : Option (BitVec 64)) (s : State) : State :=
  match target addr (2 ^ size.val) with
  | .window c o => windowAccess m c o (2 ^ size.val) (wr_.map (fun v => bitsOf v.toNat 0 (8 * 2 ^ size.val))) s
  | _ => accessError s capUnmapped m addr wr_.isSome (strobesOf addr (2 ^ size.val))

/-- 13 R410: the oldest entry of a port has been held for 64 cycles. -/
def doMergeEntryComplete (port : Fin 256) (found : List Finding) (s : State) : State :=
  if port.val < 74 then memMergeComplete port found s
  else if port.val < 142 then windowMergeDone (port.val - 74) s
  else s

/-- 06 R179: the zero fill of a core ends, and what waited for it is served. -/
def fillEnd (c : Nat) (s : State) : State :=
  if !s.atlFill.contains c then s
  else
    let k := coreOf s c
    let s1 := setCore c { k with pm := [], xm := [], ym := [], em := [], bad := [] } { s with atlFill := s.atlFill.filter (· != c) }
    let mine := fun (q : Stalled) => match target q.addr q.size with | .window d _ => d == c | _ => false
    let l := s1.ecc.stalled.filter mine
    l.foldl (fun s q => windowPiece q.master c (q.addr % 0x10_0000) q.size (q.write.map (·.toNat)) s)
      { s1 with ecc := { s1.ecc with stalled := s1.ecc.stalled.filter (fun q => !mine q) } }
def doAtelierMemoryFill (c : Fin 68) (s : State) : State := fillEnd c s

/-- 06 R173: a word of a record reaches the core that serves `j`, after its zero fill (06 R179); a Y word lands as a
container (06 R207). -/
def coreWord (j mem a : Nat) (v : BitVec 64) (s : State) : State :=
  if mem = 2 then fset s (ATL_LCORE_STATUS j) ATL_LCORE_STATUS_lm_size v.toNat
  else (coresFor s j).foldl (fun s0 c =>
    let s := fillEnd c s0
    setCore c (coreWr (coreOf s c) (if mem = 0 then 1 else 2) a (if mem = 0 then v else c40Container v)) s) s

/-! ## Frame entry (06 R181 to R190, R203) -/

/-- 06 R190: a frame that has not issued FEND is abandoned. -/
def overrun (c : Nat) (s : State) : State :=
  let k := coreOf s c
  if k.phase = .run ∨ k.phase = .halted ∨ k.phase = .abandoned then
    let k1 := { coreAbandon k with phase := .idle, overran := true, lastFend := 0xFFFF }
    let s1 := frameShow c 0xFFFF (coreStep c k.cyc k.pc k1 [] s)
    let s2 := fset (cnt s1 (ATL_CORE_OVERRUN c)) (ATL_CORE_STATUS c) ATL_CORE_STATUS_late 1
    coreFault c 0x380 (det64 k.frame) 5 s2
  else s
def doFrameOverrun (c : Fin 68) (s : State) : State := if (coreRunDom s c).isSome then overrun c s else s

/-- 06 R204: a read answer that has not arrived. -/
def lmLate (c : Nat) (r : LmRead) (s : State) : State :=
  let k := coreOf s c
  cntN (setCore c { k with lmReads := k.lmReads.erase r, lmZero := true } s) (ATL_CORE_LM_LATE c) r.len
def doLmAnswerLate (c : Fin 68) (s : State) : State :=
  match (coreOf s c).lmReads with
  | r :: _ => lmLate c r s
  | [] => s

/-- 06 R203: the oldest read is answered: its words go to the answer words of the next frame, here and in a shadow. -/
def doLmAnswer (c : Fin 68) (read : List Finding) (s : State) : State :=
  let k := coreOf s c
  match k.lmReads with
  | [] => s
  | r :: rest =>
    let s1 := readNote s (r.addrs.map (· / 8)) read
    let lost := lostWords s1 (r.addrs.map (· / 8))
    let vals := (r.addrs.zip r.words).map (fun (a, v) => if lost.contains (a / 8) then (0 : S64) else v)
    let base := (k.frame + 1) % 2 * 384 + 128 + r.pos
    let put := fun (k : Core) => (vals.zip (List.range vals.length)).foldl (fun k (v, i) =>
      if r.pos + i < 256 then coreWr k 3 (base + i) v else k) k
    let s2 := setCore c (put { coreOf s1 c with lmReads := rest, lmZero := k.lmZero || !lost.isEmpty }) s1
    let s3 := match coreServes s2 c with
      | some j => ((coresFor s2 j).filter (· != c.val)).foldl (fun s c' => setCore c' (put (coreOf s c')) s) s2
      | none => s2
    if lost.isEmpty then s3 else accuse (cntN s3 (ATL_CORE_UE c) lost.length) 1

/-- 06 R181, R182: the inputs of the coming frame of logical core `j` of domain `x`, and whether a word has two drivers.
A mapped entry whose word was formed in another domain gives zero (01 R27). -/
def exchangeIn (s : State) (x : Dom) (j : Nat) : List (Nat × S64) × Bool :=
  let sends := s.str.sends.filterMap (fun e => if e.1 = x ∧ e.2.1 / 64 = j then some e.2 else none)
  let maps := (List.range 64).filterMap (fun w =>
    let m := smGet 0 s.xmap (64 * j + w)
    if wbit m (Fld.mk 31 1) then
      let (d, v) := smGet (0, 0) s.str.freeOut (m.toNat % 16384)
      some (64 * j + w, if d = domNo x + 1 then v else 0)
    else none)
  let all := sends ++ maps
  let words := (List.range 64).filterMap (fun w => (all.find? (fun e => e.1 == 64 * j + w)).map (fun e => (w, e.2)))
  (words, (List.range 64).any (fun w => decide (1 < (all.filter (fun e => e.1 == 64 * j + w)).length)))

/-- 04 R120, 06 R207: the X and Y words of logical core `j` that land at this entry, in staging order. -/
def landingWords (s : State) (x : Dom) (j : Nat) : List StagedRec :=
  s.scn.recs.filter (fun r => bitsOf r.w0.toNat 60 4 == 6 && bitsOf r.w0.toNat 32 6 == j && decide (bitsOf r.w0.toNat 16 2 < 2) &&
    r.dom == x && tagCommitted s x r.gen)

/-- 06 R184: the landing fields of frame record word 1. -/
def landFields (s : State) (x : Dom) (l : List StagedRec) : Nat :=
  if l.isEmpty then 0
  else
    let bits := (List.range 16).foldl (fun acc r => acc + b2n (l.any (fun q =>
      bitsOf q.w0.toNat 16 2 == 0 && bitsOf q.w0.toNat 0 14 / 1024 == r)) * 2 ^ r) 0
    let ybits := (List.range 8).foldl (fun acc r => acc + b2n (l.any (fun q =>
      bitsOf q.w0.toNat 16 2 == 1 && bitsOf q.w0.toNat 0 14 / 1024 == r)) * 2 ^ (16 + r)) 0
    let age := fun (g : Nat) => (genC s x + 16 - g) % 16
    let latest := l.foldl (fun b q => if age q.gen < age b then q.gen else b) ((l.head?.map (·.gen)).getD 0)
    bits + ybits + 2 ^ 24 + latest * 2 ^ 28

/-- 06 R186: the entry sequence of frame `n` in one core: the landing words have been listed, the inputs formed. -/
def frameEntry (c n : Nat) (x : Dom) (land : List StagedRec) (ins : List (Nat × S64)) (s : State) : State :=
  let k := coreOf s c
  let bank := n % 2 * 384
  let other := (n + 1) % 2 * 384
  let k1 := eZero other (other + 64) (eZero (other + 128) (other + 384) (eZero (bank + 64) (bank + 128) (eZero bank (bank + 64) k)))
  let k2 := ins.foldl (fun k (w, v) => coreWr k 3 (bank + w) v) k1
  let k3 := land.foldl (fun k q =>
    if bitsOf q.w0.toNat 16 2 = 0 then coreWr k 1 (bitsOf q.w0.toNat 0 14) q.w1
    else coreWr k 2 (bitsOf q.w0.toNat 0 14) (c40Container q.w1)) k2
  let w1 := landFields s x land + b2n k.overran * 2 ^ 32 + b2n k.lmZero * 2 ^ 33 + b2n k.lmRefused * 2 ^ 34 + b2n k.first * 2 ^ 35
  let w2 := Nat.min k.lmPos 256 + Nat.min k.lmIssued 127 * 2 ^ 16
  let w3 := if k.first || k.overran then 0xFFFF else k.lastFend
  let recd := [n, w1, w2, w3]
  let k4 := (recd.zip (List.range 4)).foldl (fun k (v, i) => coreWr k 3 (768 + i) (BitVec.ofNat 64 v)) (eZero 768 784 k3)
  let vec := rd s (ATL_CORE_VEC c)
  let cmp := rd s (ATL_CORE_CMP c)
  let landEn := wbit cmp ATL_CORE_CMP_land_en
  let k5 := { k4 with main := { k4.main with loops := [] }, phase := .run, pc := 0, cyc := 0, frame := n, first := false, inHandler := false,
                      wait := none, delay := none, loopDue := false, landPend := landEn && !land.isEmpty, cmpPend := false, cmpRaised := false }
  let k6 := { k5 with landVec := wget vec ATL_CORE_VEC_land_vec, cmpVec := wget vec ATL_CORE_VEC_cmp_vec, landEn := landEn }
  let k7 := { k6 with cmpCycle := wget cmp ATL_CORE_CMP_cmp_cycle, cmpEn := wbit cmp ATL_CORE_CMP_cmp_en }
  coreStep c 0 0 { k7 with lmIssued := 0, lmPos := 0, lmRefused := false, lmZero := false, overran := false } [] s

/-- 06 R183, R190: what consumers read of the frame that has just ended. -/
def outputsTake (j c : Nat) (s : State) : State :=
  let k := coreOf s c
  let base := k.frame % 2 * 384 + 64
  let vals := if k.overran || k.first then [] else (List.range 64).map (fun w => (w, (coreRd k 3 (base + w)).1))
  let m := vals.foldl (fun m (w, v) => smSet 0 m (64 * j + w) v) (smDrop s.atlOut (64 * j) (64 * j + 64))
  let ues := if k.overran || k.first then [] else (List.range 64).filter (fun w => isBad k 3 (base + w))
  ues.foldl (fun s w => coreUe c 3 (base + w) s) { s with atlOut := m }

/-- 06 R204, R212: answers that have not arrived are late; a core in shadow received the active core's answer words. -/
def answersEnd (cs : List Nat) (s : State) : State :=
  let s1 := cs.foldl (fun s c => ((coreOf s c).lmReads).foldl (fun s r => lmLate c r s) s) s
  match cs.find? (fun c => coreActive s1 c) with
  | none => s1
  | some a => (cs.filter (· != a)).foldl (fun s c =>
      setCore c { coreOf s c with lmZero := (coreOf s1 a).lmZero, lmRefused := (coreOf s1 a).lmRefused } s) s1

/-- The output words of the frame that a core has ended (06 R183, R190). -/
def frameOut (s : State) (c : Nat) : List S64 :=
  let k := coreOf s c
  if k.overran || k.first then List.replicate 64 0 else (List.range 64).map (fun w => (coreRd k 3 (k.frame % 2 * 384 + 64 + w)).1)

/-- 06 R212, phases 2 and 3 of a core's rotation, as a frame ends: a frame more without a FEND that qualifies, or the
comparison of the shadow core's output words with the active one's. -/
def rotFrame (cs : List Nat) (s : State) : State :=
  match s.twn.rot with
  | some r =>
    if r.kind = 2 ∧ cs.contains r.old then
      if rotPhase s = 1 then (if 16384 ≤ r.copied then setRot s (some { r with frames := r.frames + 1 }) else s)
      else if rotPhase s ≤ 3 ∧ cs.contains r.spare ∧ frameOut s r.spare ≠ frameOut s r.old then setRot s (some { r with diff := true })
      else s
    else s
  | none => s

/-- 06 R186: the tick event `n` of domain `x` reaches logical core `j`. A core whose memories are being filled runs no
frame yet; words that land end the fill first (06 R179). -/
def coreTick (x : Dom) (n j : Nat) (s : State) : State :=
  if coreDom s j ≠ some x then s
  else
    let sF := if (landingWords s x j).isEmpty then s else (coresFor s j).foldl (fun s c => fillEnd c s) s
    let cs := (coresFor sF j).filter (fun c => !sF.atlFill.contains c)
    let s0 := rotFrame cs (cs.foldl (fun s c => overrun c s) sF)
    let s1 := answersEnd cs s0
    let s2 := match cs.find? (fun c => coreActive s1 c) with
      | some c => outputsTake j c s1
      | none => { s1 with atlOut := smDrop s1.atlOut (64 * j) (64 * j + 64) }
    let land := landingWords s2 x j
    let (ins, two) := exchangeIn s2 x j
    let s3 := cs.foldl (fun s c => frameEntry c n x land ins (if two then cnt s (ATL_CORE_XCONF c) else s)) s2
    { s3 with scn := { s3.scn with recs := s3.scn.recs.filter (fun r => !land.contains r) } }

/-! ## Exchange maps (06 R182) -/

/-- A write to ATL_XMAP word `w` of logical core `j`. -/
def xmapWrite (m j w : Nat) (v : W32) (s : State) : State :=
  if wbit v ATL_XMAP_valid ∧ wget v ATL_XMAP_entry < 4256 then s else swWrite s m (ATL_XMAP j w) v

/-- The written map reaches the core's island (log 78, DESIGN CHOICE). -/
def xmapApply (j : Nat) (s : State) : State :=
  let l := smRange s.regs (ATL_XMAP j 0) (ATL_XMAP j 0 + 64)
  let m := l.foldl (fun m (k, v) => smSet 0 m (64 * j + (k - ATL_XMAP j 0)) v) (smDrop s.xmap (64 * j) (64 * j + 64))
  { s with xmap := m }
def doXmapApply (l : Fin 64) (s : State) : State := xmapApply l s

/-- 18 R541: the cores of domain ATL`a` that serve a bound logical core start as on a binding (06 R174); every memory keeps its
contents (06 R179). -/
def coresClear (a : Nat) (s : State) : State :=
  (List.range 17).foldl (fun s i => if (coreRunDom s (17 * a + i)).isSome then coreStart (17 * a + i) s else s) s
/-- 06 R179, 18 R529: the cores of ATLa return from OFF: their memories are filled with zero. -/
def coresRestart (a : Nat) (s : State) : State :=
  (List.range 17).foldl (fun s i =>
    let c := 17 * a + i
    let k := coreOf s c
    let s1 := setCore c { coreZero with first := true, frame := k.frame } { s with atlFill := s.atlFill.filter (· != c) ++ [c] }
    let run := (coreRunDom s1 c).isSome
    if fbit s1 (ATL_CORE_STATUS c) ATL_CORE_STATUS_running = run then s1 else fset s1 (ATL_CORE_STATUS c) ATL_CORE_STATUS_running (b2n run)) s

end Sys2Proof.Machine
end

