-- ==== Sys2Proof/Machine/Atelier.lean ====
section
/-! DEFINITION. The instructions of the Atelier cores, one per row of the opcode map of 07 R219: the word of each form
(07 R214, R216), its class, and its effect (Machine/AtlIsa.lean). The core issues it when it is the legal word that its
program counter fetches; otherwise the command leaves the state unchanged. -/

namespace Sys2Proof.Machine

/-- 07 R219 NOP. -/
def doNop (c : Fin 68) (s : State) : State := issue c (encA 0x00 0 0 0 0 0) .plain (effPlain) s
/-- 07 R219 FEND. -/
def doFend (c : Fin 68) (s : State) : State := issue c (encA 0x01 0 0 0 0 0) .fend (effPlain) s
/-- 07 R219 RTI. -/
def doRti (c : Fin 68) (s : State) : State := issue c (encA 0x02 0 0 0 0 0) .rti (effRti) s
/-- 07 R219 WAIT. -/
def doWait (c : Fin 68) (cyc : Fin 65536) (s : State) : State := issue c (encB 0x03 0 0 cyc 0) .wait (effWait cyc) s
/-- 07 R219 BR. -/
def doBr (c : Fin 68) (cc : Fin 16) (t : Fin 16384) (s : State) : State :=
  issue c (encB 0x04 cc 0 0 t) .branch (fun k => effBranch (condHolds k cc) t k) s
/-- 07 R219 BRL. -/
def doBrl (c : Fin 68) (pk : Fin 8) (t : Fin 16384) (s : State) : State := issue c (encB 0x05 0 pk 0 t) .branch (effBrl t pk) s
/-- 07 R219 BRR. -/
def doBrr (c : Fin 68) (cc : Fin 16) (pk : Fin 8) (s : State) : State := issue c (encB 0x06 cc pk 0 0) .branch (effBrr cc pk) s
/-- 07 R219 LOOP. -/
def doLoop (c : Fin 68) (n : Fin 65536) (e : Fin 16384) (s : State) : State := issue c (encB 0x07 0 0 n e) .loop (effLoop n e) s
/-- 07 R219 LOOPR. -/
def doLoopr (c : Fin 68) (ra : Fin 16) (e : Fin 16384) (s : State) : State :=
  issue c (encB 0x08 0 ra 0 e) .loop (fun k => effLoop ((coreD k ra).toNat % 65536) e k) s
/-- 07 R219 MOV. -/
def doMov (c : Fin 68) (rd ra : Fin 16) (s : State) : State := issue c (encA 0x10 rd ra 0 0 0) .plain (eff1 id .exact rd ra) s
/-- 07 R219 ADD. -/
def doAdd (c : Fin 68) (rd ra rb : Fin 16) (s : State) : State := issue c (encA 0x11 rd ra rb 0 0) .plain (eff2 (· + ·) .wrapping rd ra rb) s
/-- 07 R219 ADDS. -/
def doAdds (c : Fin 68) (rd ra rb : Fin 16) (s : State) : State := issue c (encA 0x12 rd ra rb 0 0) .plain (eff2 (· + ·) .saturating rd ra rb) s
/-- 07 R219 SUB. -/
def doSub (c : Fin 68) (rd ra rb : Fin 16) (s : State) : State := issue c (encA 0x13 rd ra rb 0 0) .plain (eff2 (· - ·) .wrapping rd ra rb) s
/-- 07 R219 SUBS. -/
def doSubs (c : Fin 68) (rd ra rb : Fin 16) (s : State) : State := issue c (encA 0x14 rd ra rb 0 0) .plain (eff2 (· - ·) .saturating rd ra rb) s
/-- 07 R219 NEG. -/
def doNeg (c : Fin 68) (rd ra : Fin 16) (s : State) : State := issue c (encA 0x15 rd ra 0 0 0) .plain (eff1 (- ·) .wrapping rd ra) s
/-- 07 R219 ABS. -/
def doAbs (c : Fin 68) (rd ra : Fin 16) (s : State) : State :=
  issue c (encA 0x16 rd ra 0 0 0) .plain (eff1 (fun v => (v.natAbs : Int)) .saturating rd ra) s
/-- 07 R219 MIN. -/
def doMin (c : Fin 68) (rd ra rb : Fin 16) (s : State) : State := issue c (encA 0x17 rd ra rb 0 0) .plain (eff2 min .exact rd ra rb) s
/-- 07 R219 MAX. -/
def doMax (c : Fin 68) (rd ra rb : Fin 16) (s : State) : State := issue c (encA 0x18 rd ra rb 0 0) .plain (eff2 max .exact rd ra rb) s
/-- 07 R219 AND. -/
def doAnd (c : Fin 68) (rd ra rb : Fin 16) (s : State) : State := issue c (encA 0x19 rd ra rb 0 0) .plain (effBits (· &&& ·) rd ra rb) s
/-- 07 R219 OR. -/
def doOr (c : Fin 68) (rd ra rb : Fin 16) (s : State) : State := issue c (encA 0x1A rd ra rb 0 0) .plain (effBits (· ||| ·) rd ra rb) s
/-- 07 R219 XOR. -/
def doXor (c : Fin 68) (rd ra rb : Fin 16) (s : State) : State := issue c (encA 0x1B rd ra rb 0 0) .plain (effBits (· ^^^ ·) rd ra rb) s
/-- 07 R219 SHL. -/
def doShl (c : Fin 68) (rd ra : Fin 16) (sh : Fin 64) (s : State) : State :=
  issue c (encA 0x1C rd ra 0 0 sh) .plain (eff1 (· * 2 ^ sh.val) .wrapping rd ra) s
/-- 07 R219 SHLS. -/
def doShls (c : Fin 68) (rd ra : Fin 16) (sh : Fin 64) (s : State) : State :=
  issue c (encA 0x1D rd ra 0 0 sh) .plain (eff1 (· * 2 ^ sh.val) .saturating rd ra) s
/-- 07 R219 SHR. -/
def doShr (c : Fin 68) (rd ra : Fin 16) (sh : Fin 64) (s : State) : State :=
  issue c (encA 0x1E rd ra 0 0 sh) .plain (eff1 (· / 2 ^ sh.val) .exact rd ra) s
/-- 07 R219 SHRL. -/
def doShrl (c : Fin 68) (rd ra : Fin 16) (sh : Fin 64) (s : State) : State := issue c (encA 0x1F rd ra 0 0 sh) .plain (effShrl rd ra sh) s
/-- 07 R219 CMP. -/
def doCmp (c : Fin 68) (ra rb : Fin 16) (s : State) : State := issue c (encA 0x20 0 ra rb 0 0) .plain (effCmp ra rb) s
/-- 07 R219 MOVI. -/
def doMovi (c : Fin 68) (rd : Fin 16) (imm : BitVec 32) (s : State) : State :=
  issue c (encI 0x28 rd 0 0 imm.toNat) .plain (aluWrite rd imm.toInt .exact) s
/-- 07 R219 MOVIH. -/
def doMovih (c : Fin 68) (rd : Fin 16) (imm : BitVec 32) (s : State) : State := issue c (encI 0x29 rd 0 0 imm.toNat) .plain (effMovih rd imm) s
/-- 07 R219 ADDI. -/
def doAddi (c : Fin 68) (rd ra : Fin 16) (imm : BitVec 32) (s : State) : State :=
  issue c (encI 0x2A rd ra 0 imm.toNat) .plain (eff1 (· + imm.toInt) .wrapping rd ra) s
/-- 07 R219 MOVK. -/
def doMovk (c : Fin 68) (rd : Fin 8) (ra : Fin 16) (s : State) : State := issue c (encA 0x30 rd ra 0 0 0) .plain (effMovk rd ra) s
/-- 07 R219 MOVDK. -/
def doMovdk (c : Fin 68) (rd : Fin 16) (ra : Fin 8) (s : State) : State := issue c (encA 0x31 rd ra 0 0 0) .plain (effMovdk rd ra) s
/-- 07 R219 MOVR. -/
def doMovr (c : Fin 68) (file : Fin 4) (rd : Fin 8) (ra : Fin 16) (s : State) : State :=
  issue c (encA 0x32 rd ra 0 file 0) .plain (effMovr file rd ra) s
/-- 07 R219 MOVD. -/
def doMovd (c : Fin 68) (file : Fin 4) (rd : Fin 16) (ra : Fin 8) (s : State) : State :=
  issue c (encA 0x33 rd ra 0 file 0) .plain (effMovd file rd ra) s
/-- 07 R219 MOVSW. -/
def doMovsw (c : Fin 68) (rd : Fin 16) (s : State) : State := issue c (encA 0x34 rd 0 0 0 0) .plain (effMovsw rd) s
/-- 07 R219 CLRSW. -/
def doClrsw (c : Fin 68) (bits : Fin 8) (s : State) : State := issue c (encA 0x35 0 0 0 0 (4 * bits)) .plain (effClrsw (4 * bits)) s
/-- 07 R219 SETR. -/
def doSetr (c : Fin 68) (file : Fin 4) (rd : Fin 8) (imm : BitVec 16) (s : State) : State :=
  issue c (encI 0x36 rd 0 file imm.toNat) .plain (effSetr file rd imm) s
/-- 07 R219 LD. -/
def doLd (c : Fin 68) (rd : Fin 16) (sp : Fin 3) (nm : Bool) (px mx : Fin 8) (s : State) : State :=
  issue c (encM 0x40 rd 0 sp nm px mx false 0 0) .plain (effLd rd sp nm px mx) s
/-- 07 R219 LDK. -/
def doLdk (c : Fin 68) (rd : Fin 8) (sp : Fin 3) (nm : Bool) (px mx : Fin 8) (s : State) : State :=
  issue c (encM 0x41 rd 0 sp nm px mx false 0 0) .plain (effLdk rd sp nm px mx) s
/-- 07 R219 ST. -/
def doSt (c : Fin 68) (ra : Fin 16) (sp : Fin 3) (nm : Bool) (px mx : Fin 8) (s : State) : State :=
  issue c (encM 0x42 0 ra sp nm px mx false 0 0) .plain (effSt ra sp nm px mx) s
/-- 07 R219 STK. -/
def doStk (c : Fin 68) (ra : Fin 8) (sp : Fin 3) (nm : Bool) (px mx : Fin 8) (s : State) : State :=
  issue c (encM 0x43 0 ra sp nm px mx false 0 0) .plain (effStk ra sp nm px mx) s
/-- 07 R219 XCH. -/
def doXch (c : Fin 68) (rd : Fin 16) (e : Bool) (nm : Bool) (px mx : Fin 8) (s : State) : State :=
  issue c (encM 0x44 rd 0 (2 * b2n e) nm px mx false 0 0) .plain (effXch rd (2 * b2n e) nm px mx) s
/-- 07 R219 MAC. -/
def doMac (c : Fin 68) (rd : Fin 4) (ra : Fin 16) (rb : Fin 8) (s : State) : State := issue c (encA 0x50 rd ra rb 0 0) .plain (effMac rd ra rb) s
/-- 07 R219 MSU. -/
def doMsu (c : Fin 68) (rd : Fin 4) (ra : Fin 16) (rb : Fin 8) (s : State) : State := issue c (encA 0x51 rd ra rb 0 0) .plain (effMsu rd ra rb) s
/-- 07 R219 MPY. -/
def doMpy (c : Fin 68) (rd : Fin 4) (ra : Fin 16) (rb : Fin 8) (s : State) : State := issue c (encA 0x52 rd ra rb 0 0) .plain (effMpy rd ra rb) s
/-- 07 R219 MACG. -/
def doMacg (c : Fin 68) (rd : Fin 4) (ra rb : Fin 16) (s : State) : State := issue c (encA 0x53 rd ra rb 0 0) .plain (effMacg rd ra rb) s
/-- 07 R219 MPYG. -/
def doMpyg (c : Fin 68) (rd : Fin 4) (ra rb : Fin 16) (s : State) : State := issue c (encA 0x54 rd ra rb 0 0) .plain (effMpyg rd ra rb) s
/-- 07 R219 MACY. -/
def doMacy (c : Fin 68) (rd : Fin 4) (ra : Fin 16) (nm : Bool) (py my : Fin 8) (s : State) : State :=
  issue c (encM 0x55 rd ra 0 false 0 0 nm py my) .plain (effMacy rd ra nm py my) s
/-- 07 R219 MSUY. -/
def doMsuy (c : Fin 68) (rd : Fin 4) (ra : Fin 16) (nm : Bool) (py my : Fin 8) (s : State) : State :=
  issue c (encM 0x56 rd ra 0 false 0 0 nm py my) .plain (effMsuy rd ra nm py my) s
/-- 07 R219 MPYY. -/
def doMpyy (c : Fin 68) (rd : Fin 4) (ra : Fin 16) (nm : Bool) (py my : Fin 8) (s : State) : State :=
  issue c (encM 0x57 rd ra 0 false 0 0 nm py my) .plain (effMpyy rd ra nm py my) s
/-- 07 R219 TAP. -/
def doTap (c : Fin 68) (rd : Fin 4) (ra : Fin 16) (nmx : Bool) (px mx : Fin 8) (nmy : Bool) (py my : Fin 8) (s : State) : State :=
  issue c (encM 0x58 rd ra 0 nmx px mx nmy py my) .plain (effTap false rd ra nmx px mx nmy py my) s
/-- 07 R219 TAPW. -/
def doTapw (c : Fin 68) (rd : Fin 4) (ra : Fin 16) (nmx : Bool) (px mx : Fin 8) (nmy : Bool) (py my : Fin 8) (s : State) : State :=
  issue c (encM 0x59 rd ra 0 nmx px mx nmy py my) .plain (effTap true rd ra nmx px mx nmy py my) s
/-- 07 R219 TAP2. -/
def doTap2 (c : Fin 68) (pair : Bool) (h : Fin 8) (nmx : Bool) (px mx : Fin 8) (nmy : Bool) (py my : Fin 8) (s : State) : State :=
  issue c (encM 0x5A (2 * b2n pair) (2 * h) 0 nmx px mx nmy py my) .plain (effTap2 (2 * b2n pair) (2 * h) nmx px mx nmy py my) s
/-- 07 R219 CLRA. -/
def doClra (c : Fin 68) (rd : Fin 4) (s : State) : State := issue c (encA 0x60 rd 0 0 0 0) .plain (effAccLoad rd 0) s
/-- 07 R219 LDA. -/
def doLda (c : Fin 68) (rd : Fin 4) (ra : Fin 16) (s : State) : State := issue c (encA 0x61 rd ra 0 0 0) .plain (effLda rd ra) s
/-- 07 R219 MOVA. -/
def doMova (c : Fin 68) (rd ra : Fin 4) (s : State) : State := issue c (encA 0x62 rd ra 0 0 0) .plain (effMova rd ra) s
/-- 07 R219 NEGA. -/
def doNega (c : Fin 68) (rd ra : Fin 4) (s : State) : State :=
  issue c (encA 0x63 rd ra 0 0 0) .plain (fun k => effAccSet rd (negAcc (coreA k ra)) k) s
/-- 07 R219 ADDA. -/
def doAdda (c : Fin 68) (rd ra rb : Fin 4) (s : State) : State :=
  issue c (encA 0x64 rd ra rb 0 0) .plain (fun k => effAccSet rd (addAcc (coreA k ra) (coreA k rb)) k) s
/-- 07 R219 SUBA. -/
def doSuba (c : Fin 68) (rd ra rb : Fin 4) (s : State) : State :=
  issue c (encA 0x65 rd ra rb 0 0) .plain (fun k => effAccSet rd (subAcc (coreA k ra) (coreA k rb)) k) s
/-- 07 R219 SHA. -/
def doSha (c : Fin 68) (rd ra : Fin 4) (sh : BitVec 8) (s : State) : State :=
  issue c (encA 0x66 rd ra 0 0 sh.toNat) .plain (fun k => effAccSet rd (shaAcc (coreA k ra) sh.toInt) k) s
/-- 07 R219 STA. -/
def doSta (c : Fin 68) (rd : Fin 16) (ra : Fin 4) (s : State) : State := issue c (encA 0x67 rd ra 0 0 0) .plain (effSta rd ra) s
/-- 07 R219 LMR. -/
def doLmr (c : Fin 68) (ra : Fin 16) (len : Fin 9) (imm : BitVec 32) (s : State) : State :=
  issue c (encL 0x70 ra 0 len imm.toNat) .plain (effLmr ra len imm) s
/-- 07 R219 LMW. -/
def doLmw (c : Fin 68) (ra rb : Fin 16) (imm : BitVec 32) (s : State) : State := issue c (encL 0x71 ra rb 0 imm.toNat) .plain (effLmw ra rb imm) s

end Sys2Proof.Machine
end

