-- ==== Sys2Proof/Machine/Digest.lean ====
section
/-! DEFINITION. The digests and the signature that a catalogue image carries (17 R507, R509): SHA-256 and SHA-512 of FIPS 180-4,
and the verification of Ed25519 (RFC 8032), written from those standards (log 13, PRESUMED). -/

namespace Sys2Proof.Machine

/-! ## SHA-2 -/

/-- Round constants 0 to 15 of SHA-512; SHA-256 uses the upper halves of the first 64. -/
def shaConst0 : List (BitVec 64) :=
  [0x428A2F98D728AE22, 0x7137449123EF65CD, 0xB5C0FBCFEC4D3B2F, 0xE9B5DBA58189DBBC,
   0x3956C25BF348B538, 0x59F111F1B605D019, 0x923F82A4AF194F9B, 0xAB1C5ED5DA6D8118,
   0xD807AA98A3030242, 0x12835B0145706FBE, 0x243185BE4EE4B28C, 0x550C7DC3D5FFB4E2,
   0x72BE5D74F27B896F, 0x80DEB1FE3B1696B1, 0x9BDC06A725C71235, 0xC19BF174CF692694]
/-- Round constants 16 to 31 of SHA-512; SHA-256 uses the upper halves of the first 64. -/
def shaConst1 : List (BitVec 64) :=
  [0xE49B69C19EF14AD2, 0xEFBE4786384F25E3, 0x0FC19DC68B8CD5B5, 0x240CA1CC77AC9C65,
   0x2DE92C6F592B0275, 0x4A7484AA6EA6E483, 0x5CB0A9DCBD41FBD4, 0x76F988DA831153B5,
   0x983E5152EE66DFAB, 0xA831C66D2DB43210, 0xB00327C898FB213F, 0xBF597FC7BEEF0EE4,
   0xC6E00BF33DA88FC2, 0xD5A79147930AA725, 0x06CA6351E003826F, 0x142929670A0E6E70]
/-- Round constants 32 to 47 of SHA-512; SHA-256 uses the upper halves of the first 64. -/
def shaConst2 : List (BitVec 64) :=
  [0x27B70A8546D22FFC, 0x2E1B21385C26C926, 0x4D2C6DFC5AC42AED, 0x53380D139D95B3DF,
   0x650A73548BAF63DE, 0x766A0ABB3C77B2A8, 0x81C2C92E47EDAEE6, 0x92722C851482353B,
   0xA2BFE8A14CF10364, 0xA81A664BBC423001, 0xC24B8B70D0F89791, 0xC76C51A30654BE30,
   0xD192E819D6EF5218, 0xD69906245565A910, 0xF40E35855771202A, 0x106AA07032BBD1B8]
/-- Round constants 48 to 63 of SHA-512; SHA-256 uses the upper halves of the first 64. -/
def shaConst3 : List (BitVec 64) :=
  [0x19A4C116B8D2D0C8, 0x1E376C085141AB53, 0x2748774CDF8EEB99, 0x34B0BCB5E19B48A8,
   0x391C0CB3C5C95A63, 0x4ED8AA4AE3418ACB, 0x5B9CCA4F7763E373, 0x682E6FF3D6B2B8A3,
   0x748F82EE5DEFB2FC, 0x78A5636F43172F60, 0x84C87814A1F0AB72, 0x8CC702081A6439EC,
   0x90BEFFFA23631E28, 0xA4506CEBDE82BDE9, 0xBEF9A3F7B2C67915, 0xC67178F2E372532B]
/-- Round constants 64 to 79 of SHA-512; SHA-256 uses the upper halves of the first 64. -/
def shaConst4 : List (BitVec 64) :=
  [0xCA273ECEEA26619C, 0xD186B8C721C0C207, 0xEADA7DD6CDE0EB1E, 0xF57D4F7FEE6ED178,
   0x06F067AA72176FBA, 0x0A637DC5A2C898A6, 0x113F9804BEF90DAE, 0x1B710B35131C471B,
   0x28DB77F523047D84, 0x32CAAB7B40C72493, 0x3C9EBE0A15C9BEBC, 0x431D67C49C100D4C,
   0x4CC5D4BECB3E42B6, 0x597F299CFC657E2A, 0x5FCB6FAB3AD6FAEC, 0x6C44198C4A475817]
def shaConsts : List (BitVec 64) := shaConst0 ++ shaConst1 ++ shaConst2 ++ shaConst3 ++ shaConst4
/-- The initial hash of SHA-512; SHA-256 uses the upper halves. -/
def shaInit : List (BitVec 64) :=
  [0x6A09E667F3BCC908, 0xBB67AE8584CAA73B, 0x3C6EF372FE94F82B, 0xA54FF53A5F1D36F1,
   0x510E527FADE682D1, 0x9B05688C2B3E6C1F, 0x1F83D9ABFB41BD6B, 0x5BE0CD19137E2179]

/-- What tells SHA-256 (words of 32 bits) from SHA-512 (words of 64): the rotations and shifts of Σ0, Σ1, σ0 and σ1. -/
structure ShaKind where
  word : Nat
  s0 : Nat × Nat × Nat
  s1 : Nat × Nat × Nat
  m0 : Nat × Nat × Nat
  m1 : Nat × Nat × Nat
  rounds : Nat
  deriving DecidableEq, Repr

def sha256Kind : ShaKind := ⟨32, (2, 13, 22), (6, 11, 25), (7, 18, 3), (17, 19, 10), 64⟩
def sha512Kind : ShaKind := ⟨64, (28, 34, 39), (14, 18, 41), (1, 8, 7), (19, 61, 6), 80⟩

/-- Σ0 and Σ1: three rotations. -/
def shaBig {w : Nat} (r : Nat × Nat × Nat) (x : BitVec w) : BitVec w := x.rotateRight r.1 ^^^ x.rotateRight r.2.1 ^^^ x.rotateRight r.2.2
/-- σ0 and σ1: two rotations and a shift. -/
def shaSmall {w : Nat} (r : Nat × Nat × Nat) (x : BitVec w) : BitVec w := x.rotateRight r.1 ^^^ x.rotateRight r.2.1 ^^^ (x >>> r.2.2)

/-- The message schedule, newest word first: `n` more words. -/
def shaExpand (k : ShaKind) : Nat → List (BitVec k.word) → List (BitVec k.word)
  | 0, l => l
  | n + 1, l => shaExpand k n ((shaSmall k.m1 (l.getD 1 0) + l.getD 6 0 + shaSmall k.m0 (l.getD 14 0) + l.getD 15 0) :: l)

/-- One round over the working variables a to h: constant and schedule word added. -/
def shaRound (k : ShaKind) (v : List (BitVec k.word)) (x : BitVec k.word) : List (BitVec k.word) :=
  match v with
  | [a, b, c, d, e, f, g, h] =>
    let t1 := h + shaBig k.s1 e + ((e &&& f) ^^^ (~~~e &&& g)) + x
    let t2 := shaBig k.s0 a + ((a &&& b) ^^^ (a &&& c) ^^^ (b &&& c))
    [t1 + t2, a, b, c, d + t1, e, f, g]
  | v => v

/-- The words of a list of bytes, most significant byte first. -/
def shaWords (w : Nat) (l : List Byte) : Nat → List (BitVec w)
  | 0 => []
  | n + 1 => BitVec.ofNat w (beVal (l.take (w / 8))) :: shaWords w (l.drop (w / 8)) n

/-- The upper `w` bits of a constant. -/
def shaTop (w : Nat) (x : BitVec 64) : BitVec w := (x >>> (64 - w)).setWidth w

/-- The hash after one block of 16 words. -/
def shaBlock (k : ShaKind) (h : List (BitVec k.word)) (block : List Byte) : List (BitVec k.word) :=
  let ws := (shaExpand k (k.rounds - 16) (shaWords k.word block 16).reverse).reverse
  let xs := (ws.zip shaConsts).map (fun e => e.1 + shaTop k.word e.2)
  (h.zip (xs.foldl (shaRound k) h)).map (fun e => e.1 + e.2)

/-- The hash after `n` blocks. -/
def shaBlocks (k : ShaKind) : Nat → List (BitVec k.word) → List Byte → List (BitVec k.word)
  | 0, h, _ => h
  | n + 1, h, l => shaBlocks k n (shaBlock k h (l.take (2 * k.word))) (l.drop (2 * k.word))

/-- The digest of a message: padded with a one bit, zeros and the length in bits. -/
def sha (k : ShaKind) (msg : List Byte) : List Byte :=
  let block := 2 * k.word
  let tail := k.word / 4
  let zeros := (block - (msg.length + 1 + tail) % block) % block
  let padded := msg ++ [0x80] ++ List.replicate zeros 0 ++ beBytes tail (8 * msg.length)
  ((shaBlocks k (padded.length / block) (shaInit.map (shaTop k.word)) padded).map (fun w => beBytes (k.word / 8) w.toNat)).flatten

def sha256 (msg : List Byte) : List Byte := sha sha256Kind msg
def sha512 (msg : List Byte) : List Byte := sha sha512Kind msg

/-! ## Ed25519 -/

def edP : Nat := 2 ^ 255 - 19
/-- The order of the base point. -/
def edL : Nat := 2 ^ 252 + 27742317777372353535851937790883648493
def edMul (a b : Nat) : Nat := a * b % edP
def edAdd (a b : Nat) : Nat := (a + b) % edP
def edSub (a b : Nat) : Nat := (a + edP - b % edP) % edP
/-- b to the power e, for e below 2^256. -/
def edPow (b e : Nat) : Nat := (List.range 256).reverse.foldl (fun r i => let q := edMul r r; if bitOf e i then edMul q b else q) 1
/-- d = −121665 / 121666. -/
def edD : Nat := edMul (edP - 121665) (edPow 121666 (edP - 2))

/-- A point in extended homogeneous coordinates: X, Y, Z, T with x = X / Z, y = Y / Z, x y = T / Z. -/
structure EdPoint where
  x : Nat
  y : Nat
  z : Nat
  t : Nat
  deriving DecidableEq, Repr

def edZero : EdPoint := ⟨0, 1, 1, 0⟩
def edPlus (p q : EdPoint) : EdPoint :=
  let a := edMul (edSub p.y p.x) (edSub q.y q.x)
  let b := edMul (edAdd p.y p.x) (edAdd q.y q.x)
  let c := edMul (edMul p.t (2 * edD)) q.t
  let d := edMul (2 * p.z) q.z
  let e := edSub b a
  let f := edSub d c
  let g := edAdd d c
  let h := edAdd b a
  ⟨edMul e f, edMul g h, edMul f g, edMul e h⟩
/-- n times a point, for n below 2^256. -/
def edTimes (n : Nat) (p : EdPoint) : EdPoint :=
  (List.range 256).reverse.foldl (fun r i => let q := edPlus r r; if bitOf n i then edPlus q p else q) edZero
def edSame (p q : EdPoint) : Bool := edMul p.x q.z == edMul q.x p.z && edMul p.y q.z == edMul q.y p.z

/-- RFC 8032, 5.1.3: the point that 32 bytes encode, if they do. -/
def edDecode (l : List Byte) : Option EdPoint :=
  let v := leVal l
  let y := v % 2 ^ 255
  let sign := v / 2 ^ 255
  if edP ≤ y then none
  else
    let u := edSub (edMul y y) 1
    let w := edAdd (edMul edD (edMul y y)) 1
    let w3 := edMul (edMul w w) w
    let r := edMul (edMul u w3) (edPow (edMul u (edMul (edMul w3 w3) w)) ((edP - 5) / 8))
    let x := if edMul w (edMul r r) = u then some r
      else if edMul w (edMul r r) = edSub 0 u then some (edMul r (edPow 2 ((edP - 1) / 4)))
      else none
    match x with
    | none => none
    | some x =>
      if x = 0 ∧ sign = 1 then none
      else
        let x1 := if x % 2 = sign then x else edP - x
        some ⟨x1, y, 1, edMul x1 y⟩

/-- The base point. -/
def edBase : EdPoint :=
  let x := 15112221349535400772501151409588531511454012693041857206046113283949847762202
  let y := 46316835694926478169428394003475163141307993866256225615783033603165251855960
  ⟨x, y, 1, edMul x y⟩

/-- RFC 8032, 5.1.7: the signature of 64 bytes verifies over the message under the key. -/
def ed25519 (key msg sig : List Byte) : Bool :=
  let s := leVal (sig.drop 32)
  match edDecode key, edDecode (sig.take 32) with
  | some a, some r =>
    let k := leVal (sha512 (sig.take 32 ++ key ++ msg)) % edL
    decide (s < edL) && edSame (edTimes 8 (edTimes s edBase)) (edPlus (edTimes 8 r) (edTimes 8 (edTimes k a)))
  | _, _ => false

end Sys2Proof.Machine
end

