-- ==== Sys2Proof/Machine/Control.lean ====
section
/-! DEFINITION. Control cores, completion rings and the Docent (spec/16 R478 to R500). Command acceptance stands in
Machine/Commands.lean. -/

namespace Sys2Proof.Machine

/-! ## Completion rings (16 R493, R494) -/

/-- Held completions of a ring are written while it has room; `fuel` bounds the loop by their number. -/
def ringDrain (fw : Bool) : Nat → State → State
  | 0, s => s
  | fuel + 1, s =>
    match s.ctl.held.find? (fun h => h.fw == fw) with
    | none => if fw then fset s CTL_STATUS CTL_STATUS_fw_cq_full 0 else fset s CTL_STATUS CTL_STATUS_cq_full 0
    | some h =>
      if ringFull s fw then s
      else ringDrain fw fuel (recordWrite { s with ctl := { s.ctl with held := s.ctl.held.erase h } } h)

/-- 16 R494: the reader writes the head of a ring. -/
def ringRoom (m : Nat) (fw : Bool) (w : W32) (s : State) : State :=
  let s1 := swWrite s m (if fw then CTL_FW_CQ_HEAD else CTL_CQ_HEAD) w
  ringDrain fw (s1.ctl.held.length + 1) s1

/-- 16 R493: the oldest completion that waits for its ring is written. -/
def doCompletionRecordWrite (s : State) : State :=
  match s.ctl.held.find? (fun h => !ringFull s h.fw) with
  | none => s
  | some h => recordWrite { s with ctl := { s.ctl with held := s.ctl.held.erase h } } h

/-! ## Docent: descriptors and ready lists (16 R495, R498) -/

def docValid (s : State) (t : Nat) : Bool := fbit s (CTL_DOC_CFG t) CTL_DOC_CFG_valid
def docPinned (s : State) (t : Nat) : Bool := fbit s (CTL_DOC_CFG t) CTL_DOC_CFG_pinned
def docState (s : State) (t : Nat) : Nat := fget s (CTL_DOC_STATE t) CTL_DOC_STATE_state
def docSetState (s : State) (t v : Nat) : State := fset s (CTL_DOC_STATE t) CTL_DOC_STATE_state v
def docHome (s : State) (t : Nat) : Nat := fget s (CTL_DOC_STATE t) CTL_DOC_STATE_home
def docList (s : State) (c : Nat) : List Nat := smGet [] s.ctl.ready c
def docSetList (s : State) (c : Nat) (l : List Nat) : State := { s with ctl := { s.ctl with ready := smSet [] s.ctl.ready c l } }

/-- 16 R498: the list a thread joins. -/
def docJoinList (s : State) (t : Nat) : Nat :=
  let h := docHome s t
  if docPinned s t then h
  else (((List.range 8).map (fun i => (h + i) % 8)).find? (fun c => decide ((docList s c).length < 512))).getD h

/-- 16 R498: a thread becomes READY. -/
def docReady (s : State) (t : Nat) : State :=
  let c := docJoinList s t
  docSetList (docSetState s t 1) c (docList s c ++ [t])

def docRemove (s : State) (t : Nat) : State :=
  (List.range 8).foldl (fun s c => docSetList s c ((docList s c).filter (· != t))) s

/-- 16 R495, R498: a write to CTL_DOC_CFG (log 114, DEDUCED). -/
def docConfig (t : Nat) (w : W32) (s : State) : State :=
  let old := docValid s t
  let new := wbit w CTL_DOC_CFG_valid
  let home := wget w CTL_DOC_CFG_home
  if old && new then s
  else if new then
    let pins := ((List.range 4096).filter (fun u => docValid s u && docPinned s u && docHome s u == home)).length
    if wbit w CTL_DOC_CFG_pinned && decide (512 ≤ pins) then s
    else
      let s1 := fieldsWrite s (CTL_DOC_CFG t) w
      let r := wget w CTL_DOC_CFG_reload
      let s2 := wr s1 (CTL_DOC_STATE t) (BitVec.ofNat 32 (home * 2 ^ CTL_DOC_STATE_home.lo + r))
      if r = 0 then docReady s2 t else s2
  else
    let s1 := fieldsWrite s (CTL_DOC_CFG t) w
    if old then
      let s2 := docRemove s1 t
      if docState s2 t = 1 then docSetState s2 t 0 else s2
    else s1

/-! ## Completions (16 R496, R497) -/

/-- 16 R497: one completion for a thread is applied. -/
def docApply (s : State) (t : Nat) : State :=
  if !docValid s t then occur s 0x142 t []
  else
    let c := fget s (CTL_DOC_STATE t) CTL_DOC_STATE_counter
    if c = 0 then occur (cnt s CTL_DOC_UNDERFLOW) 0x141 t []
    else if c ≠ 1 then fset s (CTL_DOC_STATE t) CTL_DOC_STATE_counter (c - 1)
    else
      let s1 := fset s (CTL_DOC_STATE t) CTL_DOC_STATE_counter (fget s (CTL_DOC_CFG t) CTL_DOC_CFG_reload)
      if docState s1 t = 0 then docReady s1 t
      else if fbit s1 (CTL_DOC_STATE t) CTL_DOC_STATE_pending then cnt s1 CTL_DOC_OVERRUN
      else fset s1 (CTL_DOC_STATE t) CTL_DOC_STATE_pending 1

/-- The thread of a source: an interrupt source below 32, tick source 32 + x. -/
def docSrcKey (src : Nat) : Nat := if src < 32 then CTL_DOC_IRQ src else CTL_DOC_TICK (src - 32)

/-- 16 R496: an interrupt or tick source gives a completion, or its entry holds it. -/
def docSource (s : State) (src : Nat) : State :=
  let w := (rd s (docSrcKey src)).toNat
  if !bitOf w 31 then s
  else if s.ctl.fifo.length < 1024 then docPush s (bitsOf w 0 12)
  else { s with ctl := { s.ctl with heldCnt := smMod 0 s.ctl.heldCnt src (fun n => Nat.min 65535 (n + 1)) } }

def docIrqNow (src : Nat) (s : State) : State := docSource s src
def docTickNow (x : Dom) (s : State) : State := docSource s (32 + domNo x)

/-- 16 R496: room has appeared in the FIFO: register and ticket completions that stall, then held counts. -/
def docRefill (s : State) : State :=
  if 1024 ≤ s.ctl.fifo.length then s
  else match s.ctl.fifoWait with
    | t :: rest => docPush { s with ctl := { s.ctl with fifoWait := rest } } t
    | [] => match s.ctl.heldCnt with
      | (src, n) :: _ =>
        docPush { s with ctl := { s.ctl with heldCnt := smSet 0 s.ctl.heldCnt src (n - 1) } } (bitsOf (rd s (docSrcKey src)).toNat 0 12)
      | [] => s

/-- 16 R497: the Docent applies the oldest completion. -/
def doDocentCompletion (s : State) : State :=
  match s.ctl.fifo with
  | [] => s
  | t :: rest =>
    let s1 := fset { s with ctl := { s.ctl with fifo := rest } } CTL_DOC_FIFO CTL_DOC_FIFO_level rest.length
    docRefill (docApply s1 t)

/-- 16 R496: a write to CTL_DOC_SIGNAL. -/
def docSignal (w : W32) (s : State) : State := docPush s (bitsOf w.toNat 0 12)

/-- 16 R496: one tick of a domain. -/
def docTickCount (x : Dom) (s : State) : State :=
  let w := rd s (CTL_DOC_TICK (domNo x))
  let n := pdGet s.ctl.tickCnt x + 1
  let div := Nat.max 1 (bitsOf w.toNat 12 16)
  if !bitOf w.toNat 31 then s
  else if n < div then { s with ctl := { s.ctl with tickCnt := pdSet s.ctl.tickCnt x n } }
  else addDue { s with ctl := { s.ctl with tickCnt := pdSet s.ctl.tickCnt x 0 } } (.docTick x)

/-! ## Taking and ending work (16 R499, R500) -/

/-- 16 R499: the thread a taking core gets, and the list it comes from. -/
def docPick (s : State) (c : Nat) : Option (Nat × Nat) :=
  match docList s c with
  | t :: _ => some (t, c)
  | [] =>
    let free := fun (k : Nat) => (docList s k).filter (fun t => !docPinned s t)
    let cand := (List.range 8).filter (fun k => k != c && !(free k).isEmpty)
    let best := cand.foldl (fun b k => match b with
      | none => some k
      | some j => if (docList s j).length < (docList s k).length then some k else some j) none
    match best with
    | none => none
    | some k => ((free k).head?).map (fun t => (t, k))

def docTake (c : Nat) (w : W32) (s : State) : State :=
  if !bitOf w.toNat 0 then s
  else
    let s0 := fset s (CTL_DOC_TAKE c) CTL_DOC_TAKE_take 0
    match docPick s0 c with
    | none => wr s0 (CTL_DOC_GOT c) 0
    | some (t, k) =>
      let s1 := docSetState (docSetList s0 k ((docList s0 k).filter (· != t))) t 2
      let stolen := k ≠ c
      let s2 := if stolen then fset s1 (CTL_DOC_STATE t) CTL_DOC_STATE_home c else s1
      wr s2 (CTL_DOC_GOT c) (BitVec.ofNat 32 (2 ^ 31 + b2n (decide stolen) * 2 ^ 12 + t))

def docDone (w : W32) (s : State) : State :=
  let t := bitsOf w.toNat 0 12
  if docState s t ≠ 2 then occur s 0x143 t []
  else if fbit s (CTL_DOC_STATE t) CTL_DOC_STATE_pending && docValid s t then docReady (fset s (CTL_DOC_STATE t) CTL_DOC_STATE_pending 0) t
  else docSetState s t 0

/-! ## Control cores (16 R478, R482) -/

/-- 16 R478: a write to CTL_CORE_RUN (log 116, DESIGN CHOICE). -/
def coreRun (m : Nat) (w : W32) (s : State) : State :=
  let old := (rd s CTL_CORE_RUN).toNat
  let s1 := swWrite s m CTL_CORE_RUN w
  let new := (rd s1 CTL_CORE_RUN).toNat
  (List.range 8).foldl (fun s c =>
    if bitOf new c && !bitOf old c then
      let pc := if c = 0 then 0 else get64 s (CTL_BOOT_LO c) (CTL_BOOT_HI c) / 4 * 4
      hartStart c pc s
    else if bitOf old c && !bitOf new c then
      hartStart c 0 { s with ctl := { s.ctl with resv := s.ctl.resv.filter (fun (_, k, _) => k != c), dcache := s.ctl.dcache.filter (fun e => e.1 / 1024 != c) } }
    else s) s1

/-- 16 R482: a core's machine timer interrupt is pending while mtime is at or above its mtimecmp. -/
def timersDue (s : State) : List Nat := (List.range 8).filter (fun c => decide (get64 s (CTL_MTIMECMP_LO c) (CTL_MTIMECMP_HI c) ≤ s.ctl.mtime))
def mtipHold (l : List Nat) (s : State) : State := { s with ctl := { s.ctl with mtip := l } }
def timerPend (s : State) : State := mtipHold (timersDue s) s

/-- 16 R482: time comes to the instant at which mtime reaches the core's mtimecmp. -/
def doMachineTimerInterrupt (c : Fin 8) (s : State) : State :=
  let at_ := get64 s (CTL_MTIMECMP_LO c) (CTL_MTIMECMP_HI c) * (100 * nsU)
  timerPend (timeTo s (s.tim.freiz + (at_ - s.tim.elapsed)))

/-! ## Copies (16 R491) -/

def copyCmd (t : Nat) (e : BitVec 512) (s : State) : State :=
  let len := eByte e 32 4
  let q := fun (g : Nat) => (s.ctl.copies.filter (fun j => j.eng == g)).length
  let idle := fun (g : Nat) => !s.ctl.running.any (fun j => j.eng == g) && q g == 0
  let want := eByte e 36 1
  match eReserved e [(16, 21)] with
  | some i => refuse s t ocRANGE i
  | none =>
    if len % 8 ≠ 0 then refuse s t ocRANGE 32
    else if 4 ≤ want ∧ want ≠ 0xFF then refuse s t ocRANGE 36
    else
      let en := (List.range 4).filter (fun g => bgEnabled s (4 + g))
      let pick := if want ≠ 0xFF then (if en.contains want then some want else none)
        else match en.find? idle with
          | some g => some g
          | none => en.foldl (fun b g => match b with
            | none => some g
            | some h => if q g < q h then some g else some h) none
      match pick with
      | none => refuseAll s t ocDISABLED
      | some g =>
        let j : CopyJob := ⟨g, eByte e 16 8, eByte e 24 8, len, t⟩
        if idle g then { s with ctl := { s.ctl with running := s.ctl.running ++ [j] } }
        else if 16 ≤ q g then refuseAll s t ocBUSY
        else { s with ctl := { s.ctl with copies := s.ctl.copies ++ [j] } }

/-- 16 R491: an idle engine starts its next queued copy. -/
def doCopyStart (eng : Fin 4) (s : State) : State :=
  if s.ctl.running.any (fun j => j.eng == eng.val) then s
  else match s.ctl.copies.find? (fun j => j.eng == eng.val) with
    | none => s
    | some j => { s with ctl := { s.ctl with copies := s.ctl.copies.erase j, running := s.ctl.running ++ [j] } }

/-- 16 R501: a DMA engine is disabled: its copies end. -/
def copyStop (g : Nat) (s : State) : State :=
  let mine := (s.ctl.running ++ s.ctl.copies).filter (fun j => j.eng == g)
  let s1 := { s with ctl := { s.ctl with running := s.ctl.running.filter (fun j => j.eng != g), copies := s.ctl.copies.filter (fun j => j.eng != g) } }
  mine.foldl (fun s j => complete s j.ticket ocABORTED 0 0) s1

end Sys2Proof.Machine
end

