-- ==== Sys2Proof/Machine/Rotation.lean ====
section
/-! DEFINITION. Rotation of tiles, Atelier cores and strip units (spec/12 R394 to R397, spec/06 R212, R213). -/

namespace Sys2Proof.Machine

/-- The rotation ends: its keys go, its ticket completes. -/
def rotEnd (s : State) (r : Rotation) (oc : Nat) : State :=
  let s1 := setKey (setKey (setRot s none) 9 (unitPower r.kind r.spare) false) 9 (unitPower r.kind r.old) false
  complete (wr s1 TWN_ROT_STATUS 0) r.ticket oc 0 0

/-- The spare returns to SPARE; queued P writes of a core are written (06 R210). -/
def rotFail (s : State) (r : Rotation) (oc : Nat) : State :=
  let s0 := if r.kind = 2 then coreStop r.spare s else s
  let s1 := setRole s0 r.kind r.spare roleSpare 0
  rotEnd { s1 with twn := { s1.twn with spares := s1.twn.spares ++ [(r.kind, r.spare)] } } r oc

/-- 12 R394, R395: ROTATE with ticket `t`. -/
def rotateCmd (t : Nat) (e : BitVec 512) (s : State) : State :=
  let kind := eByte e 16 1
  let j := eByte e 17 1
  let sp := eByte e 18 1
  let fate := eByte e 19 1
  match eReserved e [(16, 4)] with
  | some i => refuse s t ocRANGE i
  | none =>
    if kind < 1 ∨ 3 < kind then refuse s t ocRANGE 16
    else if logicalCount kind ≤ j then refuse s t ocRANGE 17
    else if sp ≠ 0xFF ∧ unitCount kind ≤ sp then refuse s t ocRANGE 18
    else if 1 < fate then refuse s t ocRANGE 19
    else if !fbit s CTL_BG_EN CTL_BG_EN_rotation then refuseAll s t ocDISABLED
    else if s.twn.rot.isSome ∨ (sp ≠ 0xFF ∧ underTest s kind sp) then refuseAll s t ocBUSY
    else
      let pick := if sp = 0xFF then (s.twn.spares.find? (fun (k, u) => k == kind && canSpare s k u)).map (·.2)
        else if canSpare s kind sp then some sp else none
      match pick with
      | none => refuseAll s t ocNOSPARE
      | some u =>
        let old := physOf s kind j
        let r : Rotation := ⟨kind, j, u, old, fate = 1, t, 0, 0, 0, 0, 0, false, none⟩
        let s1 := { s with twn := { s.twn with rot := some r, spares := s.twn.spares.filter (· != (kind, u)) } }
        setRotStatus (setKey (setKey s1 9 (unitPower kind u) true) 9 (unitPower kind old) true) kind u j 1

/-- 12 R395: the tables and memory of tile `a` are in tile `b`; its run of late samples starts afresh (03 R99). -/
def tileCopy (s : State) (a b : Nat) : State :=
  let n := 262144
  let g := s.gal
  { s with gal := { g with
      nodes := smCopy 0x1FFF g.nodes (a * n) (b * n) n,
      badNodes := (g.badNodes.filter (fun k => !(decide (b * n ≤ k) && decide (k < (b + 1) * n)))) ++
        (g.badNodes.filter (fun k => decide (a * n ≤ k) && decide (k < (a + 1) * n))).map (fun k => k - a * n + b * n),
      slots := smCopy ⟨none, 0, 0, 0, none, 0⟩ g.slots (a * 512) (b * 512) 512,
      defer := (g.defer.filter (fun e => e.tile != b)) ++ (g.defer.filter (fun e => e.tile == a)).map (fun e => { e with tile := b }),
      lateRun := smDrop g.lateRun (b * 4) (b * 4 + 4) } }

/-- 06 R212: the spare core `b` holds what core `a` holds; its P has been copied before, and `a` alone has requests in
long memory and posted words. -/
def coreCopy (s : State) (a b : Nat) : State :=
  let k := coreOf s a
  let sp := coreOf s b
  let isP := fun (w : Nat) => decide (w < 65536)
  let bad := sp.bad.filter isP ++ k.bad.filter (fun w => !isP w)
  let s1 := setCore b { k with pm := sp.pm, bad := bad, pq := [], lmReads := [] } s
  let s2 := if (coreRunDom s a).isSome then fset s1 (ATL_CORE_STATUS b) ATL_CORE_STATUS_running 1 else s1
  fset (fset s2 (ATL_CORE_FEND b) ATL_CORE_FEND_high_water 0) (ATL_CORE_FEND b) ATL_CORE_FEND_last 0xFFFF

/-- 12 R395, 06 R212: the spare holds what the active unit holds. Strip state is kept by strip and needs no copy. -/
def unitCopy (s : State) (kind a b : Nat) : State :=
  match kind with
  | 1 => tileCopy s a b
  | 2 => coreCopy s a b
  | _ => s

/-- 12 R395 phase 1 ends: the spare runs in SHADOW. -/
def rotShadow (s : State) (r : Rotation) : State :=
  setRotStatus (setRole (unitCopy s r.kind r.old r.spare) r.kind r.spare roleShadow r.logical) r.kind r.spare r.logical 2

/-- 12 R395: errors that the copy reads are handled as a read of their unit handles them (03 R95, 13 R415). -/
def copyErrors (s : State) (r : Rotation) : State :=
  match r.kind with
  | 1 => ((s.gal.badNodes.filter (fun k => k / 262144 == r.old)).map (· % 262144)).foldl (fun s k =>
      let d := 64 * r.logical + k / 4096
      let x := domD s d
      nodeUe x r.old d (k % 4096) (match x with | some x => nowIdx s x | none => 0) s) s
  | 3 => (((s.str.badState.map (· / 256)).filter (fun p => p % 32 == r.logical)).eraseDups).foldl (fun s p => stateErrs p s) s
  | _ => s

/-- Tiles and strip units. -/
def doRotationCopyDone (s : State) : State :=
  match s.twn.rot with
  | some r => if rotPhase s = 1 ∧ r.kind ≠ 2 then rotShadow (copyErrors s r) r else s
  | none => s

/-- 06 R212 phase 2: with P copied, the first FEND of the active core at frame cycle budget − 200 or earlier. -/
def doCoreStateCopy (s : State) : State :=
  match s.twn.rot with
  | some r =>
    let c := coreOf s r.old
    if rotPhase s = 1 ∧ r.kind = 2 ∧ 16384 ≤ r.copied ∧ c.phase = .ended ∧
        c.lastFend + 200 ≤ coreBudget s r.old then rotShadow s r
    else s
  | none => s

/-- 06 R212: 4,096 frames have passed without one. -/
def doRotationNoGap (s : State) : State :=
  match s.twn.rot with
  | some r => if rotPhase s = 1 ∧ r.kind = 2 ∧ 4096 ≤ r.frames then rotFail s r ocNOGAP else s
  | none => s

def rotGood (r : Rotation) (x : Dom) : Nat := match x with | .A => r.goodA | .B => r.goodB | .C => r.goodC
/-- 12 R395 phase 3: two consecutive matching blocks of every domain that the unit serves. -/
def rotReady (s : State) (r : Rotation) : Bool :=
  allDoms.all (fun x => !unitServes s r.kind r.logical x || decide (2 ≤ rotGood r x))

/-- 12 R395: the switch tick: the next tick of the unit's first running domain. -/
def rotTick (s : State) (r : Rotation) : Option (Dom × Nat) :=
  (allDoms.find? (fun x => running s x && unitServes s r.kind r.logical x)).map (fun x => (x, (genOf s x).next))

/-- 12 R395, 06 R213: a block of 64 samples or frames of domain `x` ends. The words of a core in shadow have been compared
frame by frame; `same` is what the comparator found between the words that the two physical units formed, where
the model forms them once (log 136, DESIGN CHOICE). -/
def doShadowBlockCompare (x : Dom) (same : Bool) (s : State) : State :=
  match s.twn.rot with
  | some r0 =>
    let r := { r0 with diff := false }
    if rotPhase s ≠ 2 ∨ !unitServes s r.kind r.logical x then s
    else if !same || r0.diff then rotFail s r ocMISMATCH
    else
      let r1 := match x with
        | .A => { r with goodA := r.goodA + 1 }
        | .B => { r with goodB := r.goodB + 1 }
        | .C => { r with goodC := r.goodC + 1 }
      if rotReady s r1 then setRotStatus (setRot s (some { r1 with switchAt := rotTick s r1 })) r.kind r.spare r.logical 3
      else setRot s (some r1)
  | none => s

/-- 12 R395 phase 3: the chosen tick is the next one of its domain, and the work of the tick before it is done in both
units (06 R212: frame m − 1 of both cores has ended). -/
def switchDue (s : State) (r : Rotation) : Bool :=
  (match r.switchAt with
   | some (x, m) => !running s x || decide (m ≤ (genOf s x).next)
   | none => true) &&
  (r.kind != 2 || (decide ((coreOf s r.old).phase ≠ .run) && decide ((coreOf s r.spare).phase ≠ .run)))

/-- 06 R212: core `a` runs no further frame; answers that it still awaits, and its queued P writes, are done (06 R210). -/
def coreHandOver (a b : Nat) (s : State) : State :=
  let k := coreOf s a
  let s1 := setCore b { coreOf s b with lmReads := k.lmReads, lmZero := k.lmZero, lmRefused := k.lmRefused } s
  coreStop a s1

/-- 12 R395 phase 3: the spare becomes ACTIVE, once its clock is locked (03 R68, 06 R171). Writes to a tile's memory or
tables during the rotation have been made in the spare too. -/
def doRotationSwitch (s : State) : State :=
  match s.twn.rot with
  | some r =>
    if (rotPhase s = 3 ∨ (rotPhase s = 2 ∧ rotReady s r)) ∧ clkOk s r.kind r.spare ∧ switchDue s r then
      let s1 := if r.kind = 1 then tileCopy s r.old r.spare else if r.kind = 2 then coreHandOver r.old r.spare s else s
      let s2 := setRole (setRole s1 r.kind r.spare roleActive r.logical) r.kind r.old roleSpare 0
      setRotStatus (setPhys s2 r.kind r.logical r.spare) r.kind r.spare r.logical 4
    else s
  | none => s

/-- 12 R395 phase 4: the old unit's self-test has ended. -/
def doRotationRelease (pass : Bool) (s : State) : State :=
  match s.twn.rot with
  | some r =>
    if rotPhase s ≠ 4 then s
    else
      let s1 := setRole s r.kind r.old (if r.fateOff then roleOff else roleSpare) 0
      let s2 := if r.fateOff then s1 else { s1 with twn := { s1.twn with spares := s1.twn.spares ++ [(r.kind, r.old)] } }
      let s3 := if pass then s2 else { s2 with twn := { s2.twn with failed := s2.twn.failed ++ [(r.kind, r.old)] } }
      rotEnd s3 r (if pass then ocOK else ocOLDFAILED)
  | none => s

/-- 16 R501, R502: the rotation engine is disabled; a rotation whose switch tick is chosen goes on. -/
def rotDisable (s : State) : State :=
  match s.twn.rot with
  | some r => if rotPhase s ≤ 2 then rotFail s r ocABORTED else s
  | none => s

/-- 12 R397: the next unit in the order of kinds and logical numbers, from place `p` of 160. -/
def schedPick (s : State) (p : Nat) : Option Nat :=
  let kinds := fget s TWN_ROT_SCHED TWN_ROT_SCHED_kinds
  ((List.range 160).map (fun i => (p + i) % 160)).find? (fun q => bitOf kinds (q / 64))

/-- The ROTATE entry of a scheduled rotation: fate SPARE, any spare. -/
def schedEntry (q : Nat) : BitVec 512 :=
  BitVec.ofNat 512 (0x0502 + 2 ^ 16 + (q / 64 + 1) * 2 ^ 128 + q % 64 * 2 ^ 136 + 0xFF * 2 ^ 144)

end Sys2Proof.Machine
end

