-- ==== Sys2Proof/Machine/Staging.lean ====
section
/-! DEFINITION. Generations, records, commits, the output patch and recalls (spec/04, with the budgets of spec/01 R21,
spec/05 R138 and spec/10 R319). -/

namespace Sys2Proof.Machine

/-! ## Generations and claims (04 R103 to R106) -/

def claimedBits (s : State) (x : Dom) : Nat := fget s (SCN_GEN (domNo x)) SCN_GEN_claimed
def isClaimed (s : State) (x : Dom) (g : Nat) : Bool := bitOf (claimedBits s x) g

/-- 04 R104: the tag a claim would be for, when it is open. -/
def claimTag (s : State) (x : Dom) : Option Nat :=
  let t := ((if claimedBits s x = 0 then genC s x else fget s (SCN_GEN (domNo x)) SCN_GEN_last_claimed) + 1) % 16
  if tagOpen s x t then some t else none
def claim (x : Dom) (t : Nat) (s : State) : State :=
  let k := SCN_GEN (domNo x)
  fset (fset s k SCN_GEN_claimed (putBits (claimedBits s x) t 1 1)) k SCN_GEN_last_claimed t

/-- A write to SCN_GEN_CLAIM. -/
def genClaim (m : Nat) (w : W32) (s : State) : State :=
  let s1 := swWrite s m SCN_GEN_CLAIM w
  if !wbit w SCN_GEN_CLAIM_claim then s1
  else match domOf (fget s1 SCN_GEN_CLAIM SCN_GEN_CLAIM_domain + 1) with
    | none => fset s1 SCN_GEN_CLAIM SCN_GEN_CLAIM_ok 0
    | some x => match claimTag s1 x with
      | none => fset s1 SCN_GEN_CLAIM SCN_GEN_CLAIM_ok 0
      | some t => fset (fset (claim x t s1) SCN_GEN_CLAIM SCN_GEN_CLAIM_tag t) SCN_GEN_CLAIM SCN_GEN_CLAIM_ok 1

/-- 04 R105: who stages: software, the catalogue loader, or a recall. -/
inductive Stager
  | software
  | loader
  | recall (id : Nat)
  deriving DecidableEq, Repr

/-- The owner recorded for a tag: the loader is 0, recalls count from 1. -/
def ownerCode (w : Stager) : Option Nat := match w with | .software => none | .loader => some 0 | .recall i => some i
def tagOwner (s : State) (x : Dom) (g : Nat) : Option Nat := (s.scn.owned.find? (fun e => e.1 == x && e.2.1 == g)).map (·.2.2)
/-- The stager has claimed the tag, and it is open. -/
def mayUse (s : State) (w : Stager) (x : Dom) (g : Nat) : Bool :=
  isClaimed s x g && tagOpen s x g && tagOwner s x g == ownerCode w

/-! ## Fields of records (04 R126) -/

def rKind (w0 : BitVec 64) : Nat := bitsOf w0.toNat 60 4
def rSlot (w0 : BitVec 64) : Nat := bitsOf w0.toNat 0 12
def rDslot (w0 : BitVec 64) : Nat := bitsOf w0.toNat 16 12
def rEntry (w0 : BitVec 64) : Nat := bitsOf w0.toNat 0 14
/-- Strip of a kind 5 record. -/
def rStrip (w0 : BitVec 64) : Nat := bitsOf w0.toNat 0 13
def rParam (w0 : BitVec 64) : Nat := bitsOf w0.toNat 16 16
def rCore (w0 : BitVec 64) : Nat := bitsOf w0.toNat 32 6
def rMem (w0 : BitVec 64) : Nat := bitsOf w0.toNat 16 2
def rAddr (w0 : BitVec 64) : Nat := bitsOf w0.toNat 0 14
/-- Flow of a kind 7 record: 1,024 more when it transmits. -/
def rFlow (w0 : BitVec 64) : Nat := bitsOf w0.toNat 0 10 + 1024 * bitsOf w0.toNat 16 1
def rChan (w0 : BitVec 64) : Nat := bitsOf w0.toNat 10 6
def rIsD (w0 : BitVec 64) : Bool := bitOf w0.toNat 12
def rOcc (w1 : BitVec 64) : Nat := bitsOf w1.toNat 32 4 * 65536 + bitsOf w1.toNat 0 16
def rBind (w1 : BitVec 64) : Option Dom := domOf (bitsOf w1.toNat 0 2)
def rVal (w1 : BitVec 64) : PatchVal :=
  if bitOf w1.toNat 13 then .nothing else if bitOf w1.toNat 12 then .sslot (bitsOf w1.toNat 0 12) else .dslot (bitsOf w1.toNat 0 12)

/-- Bits a kind lists in W0 (beside the kind) and W1. -/
def recMask (kind : Nat) : Nat × Nat :=
  match kind with
  | 1 => (0x0FFF_0FFF, 0xFF_FFFF)
  | 2 => (0xFFF_0FFF_0FFF, 0xFFFF_F0FF_FFFF)
  | 3 => (0xFFF, 0xF_0000_FFFF)
  | 4 => (0x3FFF, 0x1FFF_3FFF)
  | 5 => (0xFFFF_1FFF, 2 ^ 64 - 1)
  | 6 => (0x3F_0003_3FFF, 2 ^ 64 - 1)
  | 7 => (0x1_FFFF, 0xFFF)
  | _ => (0x1FFF, 0x3)
def maskOk (w0 w1 : BitVec 64) : Bool :=
  let (a, b) := recMask (rKind w0)
  (w0 &&& ~~~BitVec.ofNat 64 (a + 0xF * 2 ^ 60)) == 0 && (w1 &&& ~~~BitVec.ofNat 64 b) == 0

/-- 04 R126: the occupant index lies in the range of its kind. -/
def occOk (code : Nat) : Bool :=
  let i := code % 65536
  match code / 65536 with
  | 0 => decide (i = 0)
  | 1 => decide (i < 4096)
  | 2 => decide (i < 64)
  | 3 => decide (i < 96)
  | 4 => decide (i < 16384)
  | 5 => decide (i < 4096)
  | 6 => decide (i < 256)
  | 7 => decide (i < 64)
  | 8 => decide (i < 4096)
  | 9 => decide (i = 0)
  | _ => false

/-! ## Flows and their maps (09 R285 to R288) -/

/-- The configuration word of a flow: latched while it runs, else the register. -/
def flowCfg (s : State) (f : Nat) : W32 :=
  if f < 1024 then (match smGet none s.net.rx f with | some r => r.cfg | none => rd s (NET_RXF_CFG f))
  else (match smGet none s.net.tx (f - 1024) with | some r => r.cfg | none => rd s (NET_TXF_CFG (f - 1024)))
def flowRuns (s : State) (f : Nat) : Bool :=
  if f < 1024 then (smGet none s.net.rx f).isSome else (smGet none s.net.tx (f - 1024)).isSome
/-- Map base, channel count and domain of a flow's configuration word; the two halves are coded alike. -/
def cfgBase (w : W32) : Nat := wget w NET_RXF_CFG_map_base
def cfgChans (w : W32) : Nat := wget w NET_RXF_CFG_channels
def cfgDom (w : W32) : Option Dom := domOf (wget w NET_RXF_CFG_domain)
/-- The channel that map entry `e` names for sample index `m`. -/
def mapChan (s : State) (e m : Nat) : Nat :=
  match (s.scn.mapWait.filter (fun (e', _, _, c) => e' == e && decide (c ≤ m))).getLast? with
  | some (_, ch, _, _) => ch
  | none => match (smGet [] s.scn.mapOld e).find? (fun c => decide (m < c.1)) with
    | some (_, old) => old
    | none => fget s (NET_MAP e) NET_MAP_channel

/-- 09 R293: Lr. -/
def linkTicks (s : State) (r : RxFlow) : Nat :=
  match cfgDom r.cfg with
  | some x => (clampN 125 20000 (wget r.timing NET_RXF_TIMING_offset_us) * domHz s x + 999999) / 1000000
  | none => 0
/-- The sample index that a running receive flow delivers on the newest tick of its domain. -/
def playIdx (s : State) (r : RxFlow) : Nat := match cfgDom r.cfg with | some x => nowIdx s x - linkTicks s r | none => 0

/-- 09 R288: the running receive flow and the map entry that deliver into a network receive channel, under the map in force for
the index that `at_` gives for each flow. -/
def chanFlow (s : State) (ch : Nat) (at_ : Nat → RxFlow → Nat) : Option (Nat × Nat) :=
  let cand := (s.net.rx.map (fun (f, r) => match r with
    | some r => ((List.range (cfgChans r.cfg)).filter (fun k => mapChan s (cfgBase r.cfg + k) (at_ f r) == ch)).map (fun k => (f, cfgBase r.cfg + k))
    | none => [])).flatten
  cand.foldl (fun b c => match b with
    | none => some c
    | some a => if c.2 < a.2 then some c else some a) none
/-- The delivery of the newest tick. -/
def chanFlowNow (s : State) (ch : Nat) : Option (Nat × Nat) := chanFlow s ch (fun _ r => playIdx s r)
def netChanDom (s : State) (ch : Nat) : Option Dom :=
  match chanFlowNow s ch with
  | some (f, _) => cfgDom (flowCfg s f)
  | none => none
/-- The domain of the running transmit flow that carries a network transmit channel. -/
def netTxDom (s : State) (ch : Nat) : Option Dom :=
  s.net.tx.findSome? (fun (_, r) => match r with
    | some r => if (List.range (cfgChans r.cfg)).any (fun k => fget s (NET_MAP (4096 + cfgBase r.cfg + k)) NET_MAP_channel == ch)
        then cfgDom r.cfg else none
    | none => none)

/-! ## Domains of targets (01 R23, R27; 04 R116) -/

def side (s : State) (i : Nat) : Option Side := smGet none s.prt.sides i
def sideDom (s : State) (i : Nat) : Option Dom :=
  match side s i with | some d => domOf (wget d.cfg PRT_SIDE_CFG_domain) | none => none
def bridge (s : State) (b : Nat) : Option Bridge := smGet none s.prt.bridges b

/-- 01 R22, R23: the domain an occupant is bound to. -/
def occDom (s : State) (code : Nat) : Option Dom :=
  let i := code % 65536
  match code / 65536 with
  | 1 => netChanDom s i
  | 2 => sideDom s (96 + i / 2)
  | 3 => sideDom s (i / 2 * 2)
  | 5 => coreDom s (i / 64)
  | 6 => (bridge s i).map (·.outDom)
  | 7 => (smGet none s.str.pb i).map (·.dom)
  | 8 => domD s i
  | _ => none

def setPatch (e : Nat) (v : PatchEntry) (s : State) : State := { s with scn := { s.scn with patch := smSet patchReset s.scn.patch e v } }
def valDom (s : State) (v : PatchVal) : Option Dom :=
  match v with | .nothing => none | .dslot d => domD s d | .sslot i => domS s i
/-- 04 R122: the entry domain; the crossfade of a record that named no bound slot runs on its record's domain (R603). -/
def entryDom (s : State) (p : PatchEntry) : Option Dom :=
  if p.state = .fading then (match valDom s (pePend p) with | some x => some x | none => if p.toZero then p.recDom else none)
  else valDom s (peLive p)

/-- 01 R28: the domains of the outputs that an entry drives. -/
def outDoms (s : State) (e : Nat) : List Dom :=
  if e < 4096 then (netTxDom s e).toList
  else if e < 4192 then (sideDom s ((e - 4096) / 2 * 2 + 1)).toList
  else if e < 4256 then (sideDom s (128 + (e - 4192) / 2)).toList
  else (s.xmap.filter (fun (_, w) => wbit w ATL_XMAP_valid && wget w ATL_XMAP_entry == e)).filterMap (fun (k, _) => coreDom s (k / 64))

/-- The staged binding of the target of `w0`, if one is uncommitted. -/
def stagedBinding (s : State) (w0 : BitVec 64) : Option StagedRec := s.scn.recs.find? (fun r => r.w0 == w0 && tagOpen s r.dom r.gen)

/-- The record binds or unbinds a slot or a core (04 R116, 06 R174): the domain now in force and the one it names. -/
def bindingOf (s : State) (w0 w1 : BitVec 64) : Option (Option Dom × Option Dom) :=
  if rKind w0 = 8 then some (if rIsD w0 then domD s (rSlot w0) else domS s (rSlot w0), rBind w1)
  else if rKind w0 = 6 ∧ rMem w0 = 2 ∧ rAddr w0 = 0 then some (coreDom s (rCore w0), rBind w1)
  else none

/-- 04 R116, R117, R603: the domain a record belongs to; none: it lands at once. -/
def recDomain (s : State) (w0 w1 : BitVec 64) : Option Dom :=
  match bindingOf s w0 w1 with
  | some (_, some x) => some x
  | some (some y, none) => some y
  | some (none, none) => (stagedBinding s w0).map (·.dom)
  | none => match rKind w0 with
    | 1 => domD s (rDslot w0)
    | 2 => domD s (rDslot w0)
    | 3 => domS s (rSlot w0)
    | 4 => (match valDom s (rVal w1) with | some x => some x | none => entryDom s (patchOf s (rEntry w0)))
    | 5 => stripDom s (rStrip w0)
    | 6 => coreDom s (rCore w0)
    | 7 => cfgDom (flowCfg s (rFlow w0))
    | _ => none

/-! ## Checks of a record (04 R125) -/

def rcOK : Nat := 0
def rcGENCLOSED : Nat := 1
def rcOVERBUDGET : Nat := 6
def rcDOMAIN : Nat := 7
def rcNODRAM : Nat := 8
def rcRANGE : Nat := 9
def rcFULL : Nat := 10
def rcKIND : Nat := 12
def rcTARGET : Nat := 13

/-- 04 R125 RANGE, R126, 05 R154, R159, 06 R173, R175, 09 R286. -/
def recRange (s : State) (w0 w1 : BitVec 64) : Bool :=
  maskOk w0 w1 && (match rKind w0 with
    | 3 => occOk (rOcc w1)
    | 4 => decide (bitsOf w1.toNat 16 13 ≤ 4096) && (!bitOf w1.toNat 13 || bitsOf w1.toNat 0 13 == 0)
    | 5 => (match paramForm (isOut (rStrip w0)) (rParam w0) with
      | none => false
      | some f => paramOk (isOut (rStrip w0)) f w1 && (rParam w0 != 4 || decide (w1.toNat < 64) ||
          decide (rStrip w0 < Nat.min (rd s STR_DLY_REGIONS).toNat 8192)))
    | 6 => (match rMem w0 with
      | 0 => true
      | 1 => decide (rAddr w0 < 8192)
      | 2 => (rAddr w0 == 0 && decide (w1.toNat < 4)) ||
          (rAddr w0 == 1 && decide (w1.toNat ≤ fget s ATL_LM_STRIDE ATL_LM_STRIDE_stride_mib))
      | _ => false)
    | 7 => decide (rChan w0 < cfgChans (flowCfg s (rFlow w0)))
    | _ => true)

/-- The core is present, enabled and powered (06 R170). -/
def coreServed (s : State) (j : Nat) : Bool := coreActive s (physOf s 2 j) && domOn s (unitPower 2 (physOf s 2 j))

/-- 04 R125 TARGET, 05 R157, 09 R286. -/
def recTarget (s : State) (w0 w1 : BitVec 64) : Bool :=
  match rKind w0 with
  | 3 => domOn s 10
  | 4 => domOn s 10
  | 5 => domOn s 10 && (rParam w0 != 3 || coreServed s (bitsOf w1.toNat 16 6))
  | 6 => coreServed s (rCore w0)
  | 7 => domOn s 11 && (cfgDom (flowCfg s (rFlow w0))).isSome
  | _ => true

/-- Two domains differ when both are set. -/
def mixes (x y : Option Dom) : Bool := x.isSome && y.isSome && x != y

/-- 04 R125 DOMAIN: no domain is mixed (01 R23, R27; 04 R117; 05 R151, R157; 06 R174). -/
def recDomains (s : State) (w0 w1 : BitVec 64) : Bool :=
  match bindingOf s w0 w1 with
  | some (cur, new) => !mixes cur new
  | none => match rKind w0 with
    | 3 => !mixes (domS s (rSlot w0)) (occDom s (rOcc w1))
    | 4 => (outDoms s (rEntry w0)).all (fun y => !mixes (valDom s (rVal w1)) (some y))
    | 5 => if rParam w0 = 3 then !mixes (stripDom s (rStrip w0)) (coreDom s (bitsOf w1.toNat 16 6))
        else if rParam w0 = 0xA1 then !mixes (stripDom s (rStrip w0)) (domS s (bitsOf w1.toNat 0 12))
        else true
    | _ => true

/-- 04 R125 NO_DRAM (01 R37). -/
def recDram (s : State) (w0 w1 : BitVec 64) : Bool :=
  dramReady s || (match rKind w0 with
    | 5 => rParam w0 != 4 || decide (w1.toNat < 64)
    | 6 => rMem w0 != 2 || rAddr w0 != 1 || w1 == 0
    | _ => true)

/-- 04 R120: the core's staging area has room. The binding and the lm_size word of a core (06 R173) count among its 256 staged
words (log 153, DESIGN CHOICE). -/
def recRoom (s : State) (w0 : BitVec 64) : Bool :=
  if rKind w0 = 6 then
    let l := s.scn.recs.filter (fun r => rKind r.w0 == 6 && rCore r.w0 == rCore w0)
    decide (l.length < 256) || l.any (fun r => r.w0 == w0 && tagOpen s r.dom r.gen)
  else true

/-! ## Budgets (01 R21, 05 R138, 10 R319) -/

/-- What the check at staging assumes: the bindings in force with the staged bindings, but no unbinding, landed; the occupants
with the staged ones landed; the values that an output patch entry may come to name. -/
structure Plan where
  sDom : Nat → Option Dom
  dDom : Nat → Option Dom
  occ : Nat → Nat
  vals : Nat → List PatchVal

/-- The plan with the record (`w0`, `w1`) among the staged ones. -/
def planOf (s : State) (w0 w1 : BitVec 64) : Plan :=
  let all := (s.scn.recs.filter (fun r => r.w0 != w0)).map (fun r => (r.w0, r.w1)) ++ [(w0, w1)]
  let bound := fun (d : Bool) (i : Nat) =>
    (all.find? (fun r => rKind r.1 == 8 && rIsD r.1 == d && rSlot r.1 == i && (rBind r.2).isSome)).bind (fun r => rBind r.2)
  { sDom := fun i => (bound false i).orElse (fun _ => domS s i)
    dDom := fun i => (bound true i).orElse (fun _ => domD s i)
    occ := fun i => match all.find? (fun r => rKind r.1 == 3 && rSlot r.1 == i) with | some r => rOcc r.2 | none => occCode s i
    vals := fun e =>
      let p := patchOf s e
      let held := (s.scn.patchDefer.filter (fun f => f.e == e)).map (·.val)
      let own := if rKind w0 = 4 ∧ rEntry w0 = e then [rVal w1] else if p.state = .staged then pePend p :: held else held
      peNow p :: own }

/-- The plan keeps every budget. -/
def planFits (s : State) (p : Plan) : Bool :=
  let cost := fun (x : Option Dom) => match x with | some x => domUnits s x | none => 0
  let sCost := (List.range 4096).map (fun i => (i, cost (p.sDom i), if occBypass (p.occ i) then 0 else cost (p.sDom i)))
  let dCost := (List.range 4096).map (fun i => (i, cost (p.dDom i)))
  let sTot := sumN (sCost.map (fun e => e.2.1))
  let dTot := sumN (dCost.map (·.2))
  let strips := sumN (sCost.map (fun e => e.2.2)) + dTot
  decide (sTot ≤ 4096) && decide (dTot ≤ 4096) && decide (strips ≤ 8192) &&
    (List.range 64).all (fun t => decide (sumN ((dCost.filter (fun e => e.1 / 64 == t)).map (·.2)) ≤ 64)) &&
    (List.range 32).all (fun j => decide (sumN ((sCost.filter (fun e => e.1 % 32 == j)).map (fun e => e.2.2)) +
      sumN ((dCost.filter (fun e => e.1 % 32 == j)).map (·.2)) ≤ 256)) &&
    (List.range 2).all (fun l => decide (linkUnits s p.sDom p.dDom p.vals l ≤ 8192))

/-- 04 R125 OVER_BUDGET, 01 R21: a slot binding, a source patch record that puts a strip to work, and an output patch record of
a free entry can exceed a budget. -/
def recBudget (s : State) (w0 w1 : BitVec 64) : Bool :=
  if (rKind w0 = 8 ∧ (rBind w1).isSome) ∨ (rKind w0 = 3 ∧ !occBypass (rOcc w1)) ∨ (rKind w0 = 4 ∧ 4256 ≤ rEntry w0) then
    planFits s (planOf s w0 w1)
  else true

/-! ## Landing at once (04 R603) and on commit (04 R116 to R121) -/

/-- The words and holding stages of an S-slot start empty (01 R17, log 63, DESIGN CHOICE). -/
def slotClear (i : Nat) (s : State) : State :=
  { s with str := { s.str with pipe := s.str.pipe.filter (fun e => !(decide (e.1 / 8192 < 16) && e.1 % 8192 == i)), zcPrev := smSet 0 s.str.zcPrev i 0,
                               arcFirst := smSet none s.str.arcFirst i none,
                               arcHist := smSet [] s.str.arcHist i [], arcBuf := smSet [] s.str.arcBuf i [] },
           gal := { s.gal with srcX := smSet 0 s.gal.srcX i 0, srcZc := smSet true s.gal.srcZc i true } }
def colClear (d : Nat) (s : State) : State :=
  { s with str := { s.str with pipe := s.str.pipe.filter (fun e => !(decide (16 ≤ e.1 / 8192) && e.1 % 8192 == d)) },
           gal := { s.gal with dval := smSet 0 s.gal.dval d 0 } }

/-- 05 R141: the staged records of a strip whose slot becomes unbound land in the live set, whatever their tag. -/
def stripRecsLand (strip : Nat) (s : State) : State :=
  let mine := fun (r : StagedRec) => rKind r.w0 == 5 && rStrip r.w0 == strip
  let l := s.scn.recs.filter mine
  l.foldl (fun s r => landStore strip r s) { s with scn := { s.scn with recs := s.scn.recs.filter (fun r => !mine r) } }
where
  /-- One record into the live set. -/
  landStore (strip : Nat) (r : StagedRec) (s : State) : State :=
    match paramForm (isOut strip) (rParam r.w0) with
    | some f => stripLandNow strip (rParam r.w0) (paramStore f r.w1) s
    | none => s

def setSDom (i : Nat) (x : Option Dom) (s : State) : State := { s with scn := { s.scn with sDom := smSet none s.scn.sDom i x } }
def setDDom (d : Nat) (x : Option Dom) (s : State) : State := { s with scn := { s.scn with dDom := smSet none s.scn.dDom d x } }

/-- 04 R117, 05 R141: a slot binding lands on index `c`. -/
def slotBind (isD : Bool) (i c : Nat) (new : Option Dom) (s : State) : State :=
  let cur := if isD then domD s i else domS s i
  if cur = new then s
  else
    let strip := if isD then 4096 + i else i
    match cur, new with
    | some x, none =>
      let s1 := stripRecsLand strip (stripUnbind strip s)
      if isD then galUnbind i c (some x) (colClear i (setDDom i none s1)) else slotClear i (setSDom i none s1)
    | _, some x =>
      let s1 := if isD then colClear i (setDDom i (some x) s) else slotClear i (setSDom i (some x) s)
      stripBind strip c s1
    | _, none => s

/-- 09 R286, 04 R121: a flow map record lands: with the first packet at or after `c` in a running flow, at once else
(log 96, DEDUCED). -/
def mapLand (flow e ch c : Nat) (s : State) : State :=
  if flowRuns s flow then { s with scn := { s.scn with mapWait := s.scn.mapWait ++ [(e, ch, flow, c)] } }
  else fset s (NET_MAP e) NET_MAP_channel ch

/-- A record that waits in the list lands on index `c`, but for strip parameters and Atelier words, which land together. -/
def recLand (x : Dom) (c : Nat) (s : State) (r : StagedRec) : State :=
  match rKind r.w0 with
  | 3 => { s with scn := { s.scn with occ := smSet 0 s.scn.occ (rSlot r.w0) (rOcc r.w1) } }
  | 6 =>
    if rMem r.w0 = 2 ∧ rAddr r.w0 = 0 then
      (match coreDom s (rCore r.w0), rBind r.w1 with
      | some _, none => coreUnbind (rCore r.w0) s
      | none, some y => coreBind (rCore r.w0) y s
      | _, _ => s)
    else if rMem r.w0 = 2 then coreWord (rCore r.w0) 2 1 r.w1 s
    else s
  | 7 => mapLand (rFlow r.w0) (r.w1.toNat / 2 ^ 16) (bitsOf r.w1.toNat 0 12) c s
  | 8 => slotBind (rIsD r.w0) (rSlot r.w0) c (rBind r.w1) s
  | _ => let _ := x; s

/-- 04 R120, R127: an uncommitted record for the same target no longer lands. -/
def recDrop (w0 : BitVec 64) (s : State) : State :=
  let old := fun (r : StagedRec) => r.w0 == w0 && rKind w0 != 7 && tagOpen s r.dom r.gen
  { s with scn := { s.scn with recs := s.scn.recs.filter (fun r => !old r) } }

/-- 04 R603: a record whose target has no domain; it replaces an earlier one that has not landed. -/
def recLandNow (w0 w1 : BitVec 64) (s0 : State) : State :=
  let s := recDrop w0 s0
  match rKind w0 with
  | 3 => { s with scn := { s.scn with occ := smSet 0 s.scn.occ (rSlot w0) (rOcc w1) } }
  | 4 =>
    let p := patchOf s (rEntry w0)
    setPatch (rEntry w0) { p with valA := if p.live then p.valA else rVal w1, valB := if p.live then rVal w1 else p.valB,
                                  state := .steady, len := patchLen w1 s, k := 0, recDom := none, toZero := false } s
  | 5 => (match paramForm (isOut (rStrip w0)) (rParam w0) with
    | some f => stripLandNow (rStrip w0) (rParam w0) (paramStore f w1) s
    | none => s)
  | 6 => if rMem w0 = 2 ∧ rAddr w0 = 0 then s else coreWord (rCore w0) (rMem w0) (rAddr w0) w1 s
  | _ => s
where
  /-- 04 R122: the length of an output patch record. -/
  patchLen (w1 : BitVec 64) (s : State) : Nat :=
    let n := bitsOf w1.toNat 16 13
    if n = 0 then clampN 1 4096 (fget s SCN_PATCH_CFG SCN_PATCH_CFG_default_xfade) else n

/-! ## Output patch entries (04 R122 to R124) -/

def deferShow (s : State) : State :=
  let n := s.scn.patchDefer.length
  let s1 := fset s SCN_PATCH_DEFER SCN_PATCH_DEFER_entries n
  if fget s1 SCN_PATCH_DEFER SCN_PATCH_DEFER_high_water < n then fset s1 SCN_PATCH_DEFER SCN_PATCH_DEFER_high_water n else s1

/-- The non-live value and the length of an entry are written. -/
def patchPend (p : PatchEntry) (v : PatchVal) (len gen : Nat) (x : Option Dom) (toZero : Bool) (st : PatchState) : PatchEntry :=
  { p with valA := if p.live then v else p.valA, valB := if p.live then p.valB else v, len := len, gen := gen, k := 0, recDom := x,
           toZero := toZero, state := st }

/-- 04 R122 to R124: an output patch record of domain `x` is staged; none: it stalls (log 75, DESIGN CHOICE). -/
def patchStage (e : Nat) (v : PatchVal) (len gen : Nat) (x : Dom) (s : State) : State × Option Nat :=
  let p := patchOf s e
  let toZero := (valDom s v).isNone
  if p.state = .fading then
    let f : PatchDefer := ⟨e, v, len, gen, some x, false, toZero⟩
    if s.scn.patchDefer.any (fun q => q.e == e) then
      ({ s with scn := { s.scn with patchDefer := s.scn.patchDefer.map (fun q => if q.e == e then f else q) } }, some rcOK)
    else if s.scn.patchDefer.length < 256 then
      (deferShow { s with scn := { s.scn with patchDefer := s.scn.patchDefer ++ [f] } }, some rcOK)
    else (s, none)
  else (setPatch e (patchPend p v len gen (some x) toZero .staged) s, some rcOK)

/-- 04 R122, R123: the crossfade of an entry ends, and a deferred record lands. -/
def patchEnd (e : Nat) (s : State) : State :=
  let p := patchOf s e
  if p.state ≠ .fading then s
  else
    let p1 := { p with live := !p.live, state := .steady, k := 0, recDom := none, toZero := false }
    match s.scn.patchDefer.find? (fun q => q.e == e) with
    | none => setPatch e p1 s
    | some f =>
      let st : PatchState := if f.committed then .fading else .staged
      deferShow (setPatch e (patchPend p1 f.val f.len f.gen f.dom f.toZero st)
        { s with scn := { s.scn with patchDefer := s.scn.patchDefer.filter (fun q => q.e != e) } })

/-! ## Staging a record (04 R125, R127) -/

/-- The staging write of a node or linked-pair record. -/
def recNode (w0 w1 : BitVec 64) (gen : Nat) : StgWrite :=
  ⟨rDslot w0, rSlot w0, BitVec.ofNat 24 (bitsOf w1.toNat 0 24), gen, rKind w0 == 2, bitsOf w0.toNat 32 12,
   BitVec.ofNat 24 (bitsOf w1.toNat 24 24)⟩

/-- The word that a staged record keeps: a flow map record with the map entry it writes (09 R286), a strip parameter as its
inactive set holds it (02 R42). -/
def recWord (w0 w1 : BitVec 64) (s : State) : BitVec 64 :=
  match rKind w0 with
  | 5 => (match paramForm (isOut (rStrip w0)) (rParam w0) with | some f => paramStore f w1 | none => w1)
  | 7 => w1 ||| BitVec.ofNat 64 ((cfgBase (flowCfg s (rFlow w0)) + rChan w0 + (if rFlow w0 < 1024 then 0 else 4096)) * 2 ^ 16)
  | _ => w1

/-- 04 R127: the record joins the list; an uncommitted record for the same target no longer lands. -/
def recPut (w0 w1 : BitVec 64) (gen : Nat) (x : Dom) (s : State) : State :=
  let s1 := recDrop w0 s
  { s1 with scn := { s1.scn with recs := s1.scn.recs ++ [⟨w0, recWord w0 w1 s, gen, x⟩] } }

/-- 04 R125: a record with tag `gen` reaches the port or the loader: the new state and the status; none: it stalls
(log 68, DEDUCED). -/
def stageRec (who : Stager) (w0 w1 : BitVec 64) (gen : Nat) (s : State) : State × Option Nat :=
  if rKind w0 = 0 ∨ 8 < rKind w0 then (s, some rcKIND)
  else if !recRange s w0 w1 then (s, some rcRANGE)
  else
    let dom := recDomain s w0 w1
    let shut := match dom with | some x => !mayUse s who x gen | none => false
    if shut then (s, some rcGENCLOSED)
    else if !recTarget s w0 w1 then (s, some rcTARGET)
    else if !recDomains s w0 w1 then (s, some rcDOMAIN)
    else if rKind w0 ≤ 2 then stageNode (recNode w0 w1 gen) s
    else if !recDram s w0 w1 then (s, some rcNODRAM)
    else if !recRoom s w0 then (s, some rcFULL)
    else if !recBudget s w0 w1 then (s, some rcOVERBUDGET)
    else match dom with
      | none => (recLandNow w0 w1 s, some rcOK)
      | some x =>
        if rKind w0 = 4 then patchStage (rEntry w0) (rVal w1) (recLandNow.patchLen w1 s) gen x s
        else (recPut w0 w1 gen x s, some rcOK)

/-- The record port: its outcome is shown, or it stalls. -/
def portRecord (w0 w1 : BitVec 64) (gen : Nat) (first : Bool) (s : State) : State :=
  match stageRec .software w0 w1 gen s with
  | (s1, some c) =>
    let s2 := { s1 with scn := { s1.scn with recWait := none } }
    let s3 := fset (fset s2 SCN_REC_CMD SCN_REC_CMD_status c) SCN_REC_CMD SCN_REC_CMD_busy 0
    if c = 0 then s3 else cnt s3 SCN_REFUSED
  | (s1, none) =>
    let s2 := fset { s1 with scn := { s1.scn with recWait := some (w0, w1, gen) } } SCN_REC_CMD SCN_REC_CMD_busy 1
    if !first then s2
    else if rKind w0 = 4 then cnt s2 SCN_PATCH_STALL
    else match tileOf s2 (rDslot w0) with | some t => cnt s2 (GAL_TILE_STALL t) | none => s2

/-- A write to SCN_REC_CMD (04 R116, 15 R461). -/
def recCmd (m : Nat) (w : W32) (s : State) : State :=
  let s1 := swWrite s m SCN_REC_CMD w
  if !wbit w SCN_REC_CMD_stage then s1
  else if fbit s SCN_REC_CMD SCN_REC_CMD_busy then s
  else portRecord (BitVec.ofNat 64 (get64 s1 SCN_REC_W0_LO SCN_REC_W0_HI)) (BitVec.ofNat 64 (get64 s1 SCN_REC_W1_LO SCN_REC_W1_HI))
    (wget w SCN_REC_CMD_gen) true s1

/-- 04 R123, 03 R90: an entry of the full table has landed. -/
def doPatchStallRelease (s : State) : State :=
  match s.scn.recWait with
  | some (w0, w1, g) => portRecord w0 w1 g false s
  | none => s

/-! ## Commits (04 R107 to R114) -/

/-- 04 R107, R108: why a commit is refused: outcome, byte offset of the parameter, code of SCN_CMT_STATUS. -/
def cmtRefusal (s : State) (r : CmtReq) : Option (Nat × Nat × Nat) :=
  match r.dom with
  | none => some (ocGENCLOSED, 17, 1)
  | some x =>
    if 2 < r.mode then some (ocTIMEBASE, 18, 3)
    else if r.mode = 2 ∧ 1000000000 ≤ r.ns then some (ocRANGE, 32, 4)
    else if 16 ≤ r.gen ∨ !isClaimed s x r.gen ∨ 0 < (tagOwner s x r.gen).getD 0 then some (ocGENCLOSED, 16, 1)
    else if s.scn.commits.any (fun c => c.dom == x && c.gen == r.gen) then some (ocDUPLICATE, 16, 2)
    else if r.mode = 2 ∧ isIndep s x then some (ocTIMEBASE, 0xFFFF, 3)
    else none

/-- 04 R107, R108: an accepted commit is queued. -/
def cmtQueue (r : CmtReq) (x : Dom) (ticket : Nat) (s : State) : State :=
  let target := match r.mode with
    | 0 => none
    | 1 => some r.t
    | _ => some (indexAt s x (domHz s x) ((r.t * 1000000000 + r.ns) * nsU) true)
  { s with scn := { s.scn with commits := s.scn.commits ++ [⟨x, r.gen, target, r.expire, ticket, none⟩] } }

/-- The COMMIT command with ticket `t` (16 R490). -/
def commitCmd (t : Nat) (e : BitVec 512) (s : State) : State :=
  match eReserved e [(16, 4), (24, 12)] with
  | some i => refuse s t ocRANGE i
  | none =>
    if 16 ≤ eByte e 16 1 then refuse s t ocRANGE 16
    else if (domOf (eByte e 17 1)).isNone then refuse s t ocRANGE 17
    else if 2 < eByte e 18 1 then refuse s t ocRANGE 18
    else if 1 < eByte e 19 1 then refuse s t ocRANGE 19
    else
      let r : CmtReq := ⟨domOf (eByte e 17 1), eByte e 16 1, eByte e 18 1, eByte e 19 1 = 1, eByte e 24 8, eByte e 32 4⟩
      match cmtRefusal s r, r.dom with
      | some (oc, at_, _), _ => refuse s t oc at_
      | none, some x => cmtQueue r x t s
      | none, none => s

/-- The commit that the SCN registers hold (04 Registers). -/
def portReq (s : State) : CmtReq :=
  let k := SCN_CMT_CTRL
  ⟨domOf (fget s k SCN_CMT_CTRL_domain + 1), fget s k SCN_CMT_CTRL_gen, fget s k SCN_CMT_CTRL_mode, fbit s k SCN_CMT_CTRL_expire,
   get64 s SCN_CMT_T0 SCN_CMT_T1, (rd s SCN_CMT_T2).toNat⟩

/-- A commit of the register path, by issuer `iss`: it takes a ticket when it is accepted (log 64, DEDUCED). -/
def portCommit (iss : Nat) (r : CmtReq) (s : State) : State :=
  let done := fun (s : State) (code : Nat) => fset (fset { s with scn := { s.scn with cmtWait := none } } SCN_CMT_STATUS SCN_CMT_STATUS_status code)
    SCN_CMT_STATUS SCN_CMT_STATUS_busy 0
  match cmtRefusal s r, r.dom with
  | some (_, _, code), _ => done s code
  | none, some x =>
    let (t, s1) := newTicket s iss 0x0102 true none
    done (wr (cmtQueue r x t s1) SCN_CMT_TICKET (BitVec.ofNat 32 t)) 0
  | none, none => s

/-- 04 R116: the records of domain `x` whose tags have committed land on index `c`, in staging order; strip parameters of
one strip land together (05 R143), Atelier words wait for the frame entry when their core runs. -/
def landRecs (x : Dom) (c : Nat) (s : State) : State :=
  let mine := fun (r : StagedRec) => r.dom == x && tagCommitted s x r.gen
  let l := s.scn.recs.filter mine
  let word := fun (r : StagedRec) => rKind r.w0 == 6 && decide (rMem r.w0 < 2)
  let s1 := { s with scn := { s.scn with recs := s.scn.recs.filter (fun r => !mine r || word r) } }
  let s2 := l.foldl (recLand x c) s1
  let par := l.filter (fun r => rKind r.w0 == 5)
  let strips := (par.map (fun r => rStrip r.w0)).eraseDups
  let s3 := strips.foldl (fun s p =>
    let vs := (par.filter (fun r => rStrip r.w0 == p)).map (fun r =>
      (rParam r.w0, match paramForm (isOut p) (rParam r.w0) with | some f => paramStore f r.w1 | none => r.w1))
    if (stripDom s p).isSome then stripLand p vs s else vs.foldl (fun s (i, v) => stripLandNow p i v s) s) s2
  let idle := l.filter (fun r => word r && coreDom s3 (rCore r.w0) != some x)
  let s4 := idle.foldl (fun s r => coreWord (rCore r.w0) (rMem r.w0) (rAddr r.w0) r.w1 s)
    { s3 with scn := { s3.scn with recs := s3.scn.recs.filter (fun r => !idle.contains r) } }
  unitsShow { s4 with scn := { s4.scn with patchDefer := s4.scn.patchDefer.map (fun f =>
    if f.dom == some x && tagCommitted s4 x f.gen then { f with committed := true } else f) } }

/-- Result bytes 8 to 31 of a RECALL record (16 R493). -/
def recallResult (r : Recall) : Nat :=
  Nat.min r.late 0xFFFF_FFFF + r.staged * 2 ^ 64 + r.refused * 2 ^ 96 +
    (match r.firstRefused with | some (i, c) => i * 2 ^ 128 + c * 2 ^ 160 | none => 0xFFFF_FFFF * 2 ^ 128)

/-- SCN_LOADER follows the recalls in progress. -/
def loaderShow (s : State) : State :=
  let w := (s.scn.recalls.filter (fun r => r.phase == .committing)).length
  let l := s.scn.recalls.length - w
  fset (fset s SCN_LOADER SCN_LOADER_waiting w) SCN_LOADER SCN_LOADER_loading l
def setRecall (r : Recall) (s : State) : State :=
  { s with scn := { s.scn with recalls := s.scn.recalls.map (fun q => if q.id == r.id then r else q) } }
/-- 04 R132: when none is staging, the recall that has waited longest starts. -/
def recallNext (s : State) : State :=
  if s.scn.recalls.any (fun r => r.phase == .staging) then s
  else match s.scn.recalls.find? (fun r => r.phase == .waiting) with
    | some r => setRecall { r with phase := .staging } s
    | none => s
def dropRecall (r : Recall) (s : State) : State :=
  loaderShow (recallNext { s with scn := { s.scn with recalls := s.scn.recalls.filter (fun q => q.id != r.id) } })
/-- 04 R113: what a recall leaves claimed is software's to stage again and to commit (log 154, DEDUCED). -/
def recallLeave (r : Recall) (s : State) : State :=
  { s with scn := { s.scn with owned := s.scn.owned.filter (fun e => e.2.2 != r.id) } }
/-- 04 R135: a recall completes. -/
def recallDone (r : Recall) (oc : Nat) (s : State) : State :=
  complete (dropRecall r (recallLeave r s)) r.ticket oc (if oc = ocLATE then domCode r.lateDom else 0) (recallResult r)

/-- 04 R110, R135: an applied commit completes, with its lateness at index `n`. -/
def cmtDone (n : Nat) (s0 : State) (c : Commit) : State :=
  let s := { s0 with cat := { s0.cat with initial := s0.cat.initial.erase (c.dom, c.gen) } }
  let late := n - c.target.getD n
  let s1 := if late = 0 then s else wr (cnt s SCN_LATE) SCN_LATENESS (BitVec.ofNat 32 (Nat.min late 0xFFFF_FFFF))
  match c.ofRecall with
  | none => complete s1 c.ticket (if late = 0 then ocOK else ocLATE) (domNo c.dom + 1) (Nat.min late 0xFFFF_FFFF + n * 2 ^ 64)
  | some id => match s1.scn.recalls.find? (fun r => r.id == id) with
    | none => s1
    | some r =>
      let r1 := if r.late < late then { r with late := late, lateDom := some c.dom, left := r.left - 1 } else { r with left := r.left - 1 }
      if r1.left = 0 then recallDone r1 (if r1.late = 0 then ocOK else ocLATE) s1 else setRecall r1 s1

/-- 04 R111. -/
def cmtExpire (s : State) (c : Commit) : State :=
  complete (cnt { s with scn := { s.scn with commits := s.scn.commits.erase c } } SCN_EXPIRED) c.ticket ocEXPIRED (domNo c.dom + 1) 0

/-- 04 R109, R112: the commits that the tick event `n` applies: from the first uncommitted claimed tag on, as long as each
has a commit whose target has come. -/
def applicable (s : State) (x : Dom) (n : Nat) : Nat → Nat → List Commit
  | 0, _ => []
  | fuel + 1, g =>
    match s.scn.commits.find? (fun c => c.dom == x && c.gen == g) with
    | none => []
    | some c =>
      if isClaimed s x g ∧ c.target.getD n ≤ n then c :: applicable s x n fuel ((g + 1) % 16) else []

/-- The commits of domain `x` meet the tick event `n`, the first after the event `last` (04 R109 to R112). A commit that expires
has had its test when its target had come by `last`. -/
def commitTick (x : Dom) (n : Nat) (last : Option Nat) (s : State) : State :=
  if !s.scn.commits.any (fun c => c.dom == x) then s
  else
    let s0 := { s with scn := { s.scn with commits := s.scn.commits.map (fun (c : Commit) =>
      if c.dom == x && c.target.isNone then { c with target := some n } else c) } }
    let gone := s0.scn.commits.filter (fun c => c.dom == x && c.expire && (match last with | some k => decide (c.target.getD n ≤ k) | none => false))
    let s1 := gone.foldl cmtExpire s0
    let l := applicable s1 x n 7 ((genC s1 x + 1) % 16)
    let held := s1.scn.commits.filter (fun c => c.dom == x && decide (c.target.getD n ≤ n) && !l.contains c)
    let s2 := (held.filter (fun c => c.expire)).foldl cmtExpire s1
    let k := SCN_GEN (domNo x)
    let s3 := fset s2 k SCN_GEN_hold (b2n (held.any (fun c => !c.expire)))
    match l.getLast? with
    | none => s3
    | some last =>
      let tags := l.map (·.gen)
      let s4 := galCommit x last.gen n s3
      let bits := tags.foldl (fun b g => putBits b g 1 0) (claimedBits s4 x)
      let s5 := fset (fset s4 k SCN_GEN_claimed bits) k SCN_GEN_committed last.gen
      let keep := fun (y : Dom) (g : Nat) => !(y == x && tags.contains g)
      let s6 := { s5 with scn := { s5.scn with commits := s5.scn.commits.filter (fun c => !l.contains c),
                                               owned := s5.scn.owned.filter (fun e => keep e.1 e.2.1) },
                          cat := { s5.cat with initial := s5.cat.initial.filter (fun e => keep e.1 e.2) } }
      l.foldl (cmtDone n) (landRecs x n s6)

/-- 04 R109: the commits that the coming tick event of the domain applies (log 65, DESIGN CHOICE). -/
def doCommitApply (x : Dom) (s : State) : State := if running s x then commitTick x (genOf s x).next (genOf s x).last s else s

/-! ## Recall (04 R128 to R135) -/

/-- 04 R604: the directory entry of a scene, when it is valid: offset, count, CRC, domain mask. -/
def dirEntry (s : State) (scene : Nat) : Option (Nat × Nat × Nat × Nat) :=
  let a := vaultBase s + 32 * scene
  let off := memRead s a 8
  let n := memRead s (a + 8) 4
  let mask := memRead s (a + 16) 1 % 8
  if memRead s (a + 17) 1 = 1 ∧ (lostWords s (wordsIn a 32)).isEmpty ∧ off % 16 = 0 ∧ 0x2_0000 ≤ off ∧
      off + 16 * n ≤ vaultSize s * 2 ^ 20 ∧ n ≤ 1048576 ∧ mask ≠ 0
  then some (off, n, memRead s (a + 12) 4, mask) else none

def maskHas (mask : Nat) (x : Dom) : Bool := bitOf mask (domNo x)

/-- 04 R131: a recall's time base can be converted. -/
def recallBaseOk (s : State) (mode mask : Nat) (dom : Option Dom) : Bool :=
  let c := isIndep s .C
  if mode = 0 then true
  else if mode = 1 then !(c && (maskHas mask .C || dom == some .C)) || (mask == 4 && dom == some .C)
  else !(c && maskHas mask .C)

/-- 04 R131: the target of a touched domain. -/
def recallTarget (s : State) (mode t ns : Nat) (dom : Option Dom) (x : Dom) : Option Nat :=
  if mode = 0 then none
  else if mode = 1 then
    if dom = some x then some t
    else match dom with
      | some y => some (indexAt s x (domHz s x) (tickTime s y (domHz s y) t) true)
      | none => some t
  else some (indexAt s x (domHz s x) ((t * 1000000000 + ns) * nsU) true)

/-- The RECALL command with ticket `t` (04 R131, R132). -/
def recallCmd (t : Nat) (e : BitVec 512) (s : State) : State :=
  let scene := eByte e 16 2
  let mode := eByte e 18 1
  let flags := eByte e 19 1
  let dom := domOf (flags % 4)
  match eReserved e [(16, 4), (24, 12)] with
  | some i => refuse s t ocRANGE i
  | none =>
    if 4096 ≤ scene then refuse s t ocRANGE 16
    else if 2 < mode then refuse s t ocRANGE 18
    else if flags / 4 % 32 ≠ 0 ∨ (if mode = 1 then dom.isNone else flags % 4 ≠ 0) then refuse s t ocRANGE 19
    else if mode = 2 ∧ 1000000000 ≤ eByte e 32 4 then refuse s t ocRANGE 32
    else if vaultSize s = 0 ∨ !bgEnabled s 0 then refuseAll s t ocDISABLED
    else match dirEntry s scene with
      | none => refuseAll s t ocINVALID
      | some (off, n, crc, mask) =>
        let touched := allDoms.filter (maskHas mask)
        if !recallBaseOk s mode mask dom then refuseAll s t ocTIMEBASE
        else if touched.any (fun x => (claimTag s x).isNone) then refuseAll s t ocNOTAG
        else
          let id := s.scn.nextRecall + 1
          let tag := fun (x : Dom) => if maskHas mask x then claimTag s x else none
          let tgt := fun (x : Dom) => if maskHas mask x then recallTarget s mode (eByte e 24 8) (eByte e 32 4) dom x else none
          let s1 := touched.foldl (fun s x => match claimTag s x with
            | some g => { claim x g s with scn := { (claim x g s).scn with owned := (claim x g s).scn.owned ++ [(x, g, id)] } }
            | none => s) s
          let r : Recall :=
            { id := id, scene := scene, mode := mode, targets := ⟨tgt .A, tgt .B, tgt .C⟩, expire := decide (128 ≤ flags), ticket := t,
              phase := if s.scn.recalls.any (fun r => r.phase == .staging) then .waiting else .staging,
              addr := vaultBase s + off, count := n, crc := crc, mask := mask, tags := ⟨tag .A, tag .B, tag .C⟩, staged := 0, refused := 0,
              crcAcc := 0xFFFF_FFFF, stalled := false, firstRefused := none, left := 0, late := 0, lateDom := none }
          loaderShow { s1 with scn := { s1.scn with recalls := s1.scn.recalls ++ [r], nextRecall := id } }

/-- 04 R132: the loader starts the recall that has waited longest. -/
def doRecallLoadStart (s : State) : State := recallNext s

/-- 04 R129, R134: records `i` up to the last are read and staged; a stall stops the loader (log 69, DESIGN CHOICE). -/
def recallLoad : Nat → Recall → State → Recall × State
  | 0, r, s => (r, s)
  | fuel + 1, r, s =>
    let i := r.staged + r.refused
    if r.count ≤ i then (r, s)
    else
      let a := r.addr + 16 * i
      let w0 := BitVec.ofNat 64 (memRead s a 8)
      let w1 := BitVec.ofNat 64 (memRead s (a + 8) 8)
      let gen := match recDomain s w0 w1 with | some x => (pdGet r.tags x).getD 0 | none => 0
      match stageRec (.recall r.id) w0 w1 gen s with
      | (s1, none) =>
        let s2 := if r.stalled then s1 else if rKind w0 = 4 then cnt s1 SCN_PATCH_STALL
          else (match tileOf s1 (rDslot w0) with | some t => cnt s1 (GAL_TILE_STALL t) | none => s1)
        ({ r with stalled := true }, s2)
      | (s1, some c) =>
        let crc := (viewBytes s false a 16).foldl (crcByte 0x82F6_3B78#32) r.crcAcc
        let r1 := { r with crcAcc := crc, stalled := false }
        if c = 0 then recallLoad fuel { r1 with staged := r.staged + 1 } s1
        else recallLoad fuel { r1 with refused := r.refused + 1, firstRefused := some (r.firstRefused.getD (i, c)) } (cnt s1 SCN_REFUSED)

/-- 04 R132 to R135: the loader finishes staging the recall it works on. -/
def doRecallStaged (read : List Finding) (s0 : State) : State :=
  let s := doRecallLoadStart s0
  match s.scn.recalls.find? (fun r => r.phase == .staging) with
  | none => s
  | some r0 =>
    let i0 := r0.staged + r0.refused
    let s1 := readNote s (wordsIn (r0.addr + 16 * i0) (16 * (r0.count - i0))) read
    let (r, s2) := recallLoad (r0.count - i0 + 1) r0 s1
    let s3 := setRecall r s2
    if r.staged + r.refused < r.count then s3
    else if (~~~r.crcAcc).toNat ≠ r.crc then recallDone r ocCORRUPT s3
    else
      let touched := allDoms.filter (maskHas r.mask)
      let past := touched.any (fun x => match pdGet r.targets x with | some n => decide (n < (genOf s3 x).next) | none => false)
      if r.expire ∧ past then recallDone r ocEXPIRED (cnt s3 SCN_EXPIRED)
      else
        let cs := touched.filterMap (fun x => (pdGet r.tags x).map (fun g => (⟨x, g, pdGet r.targets x, false, r.ticket, some r.id⟩ : Commit)))
        let s4 := setRecall { r with phase := .committing, left := cs.length } s3
        loaderShow (recallNext { s4 with scn := { s4.scn with commits := s4.scn.commits ++ cs } })

/-- 04 R135, 16 R492, R501: the loader gives up the recalls that it has not staged and that `p` picks. -/
def recallsAbort (p : Recall → Bool) (s : State) : State :=
  (s.scn.recalls.filter (fun r => r.phase != .committing && p r)).foldl (fun s r => recallDone r ocABORTED s) s

end Sys2Proof.Machine
end

