-- ==== Sys2Proof/Machine/Meters.lean ====
section
/-! DEFINITION. Meter points, true peaks, meter frames, loudness groups, the Archive and its playback channels
(spec/05 R160 to R169, R605). -/

namespace Sys2Proof.Machine

/-- STR, the power domain of the meters and the Archive writer (18 R526). -/
def strOn (s : State) : Bool := domOn s 10

/-! ## Meter points (05 R160, R605) -/

/-- The value of meter point `pt` of a strip on the tick that has just run. -/
def meterVal (s : State) (strip pt : Nat) : S64 :=
  if isOut strip then
    let d := strip - 4096
    match pt with | 0 => smGet 0 s.gal.dval d | 1 => pipe s pO1 d | 2 => pipe s pO2 d | _ => pipe s pO3 d
  else if occBypass (occCode s strip) then ringVal s strip
  else match pt with | 0 => pipe s pM0 strip | 1 => pipe s pI1 strip | 2 => pipe s pI2 strip | _ => pipe s pI3 strip

def meterZero : MeterAcc := ⟨0, 0, 0⟩
/-- 05 R160: peak and RMS. -/
def meterPeak (m : MeterAcc) : Nat := m.peak / 2 ^ 32
def meterRms (m : MeterAcc) : Nat := if m.cnt = 0 then 0 else isqrt (m.sumSq / m.cnt)
def meterTake (v : S64) (m : MeterAcc) : MeterAcc :=
  let q := v.toInt / 2 ^ 32
  ⟨Nat.max m.peak v.toInt.natAbs, m.sumSq + q.natAbs * q.natAbs, m.cnt + 1⟩

/-- 05 R161: the interpolating filter of BS.1770-4 Annex 2, in units of 2^-13: phases 0 and 1; phases 2 and 3 are their
reverses (log 70, PRESUMED). -/
def tpPhase0 : List Int := [14, 90, -161, 272, -487, 1125, 7964, -838, 390, -218, 122, -68]
def tpPhase1 : List Int := [-239, 240, -424, 730, -1364, 3810, 6388, -1641, 832, -477, 271, -155]
def tpPhases : List (List Int) := [tpPhase0, tpPhase1, tpPhase1.reverse, tpPhase0.reverse]

/-- One interpolated point over the newest twelve samples, newest first. -/
def tpPoint (c : List Int) (h : List S64) : S64 :=
  (storeVal ((List.zipWith (fun (k : Int) (x : S64) => prodC x (k * 2 ^ 23)) c h).foldl (· + ·) 0)).1

/-- The true-peak filter of output strip `d` takes the sample of a tick. -/
def tpTake (d : Nat) (s : State) : State :=
  let h := (meterVal s (4096 + d) 3 :: smGet [] s.str.tpHist d).take 12
  let full := h ++ List.replicate (12 - h.length) 0
  let pk := (full.headD 0 :: tpPhases.map (fun c => tpPoint c full)).foldl (fun m v => Nat.max m v.toInt.natAbs) (smGet 0 s.str.tpPeak d)
  { s with str := { s.str with tpHist := smSet [] s.str.tpHist d h, tpPeak := smSet 0 s.str.tpPeak d pk } }

/-- Period of the meter frames, in Hz (05 R164). -/
def meterHz (s : State) : Nat := clampN 10 1000 (fget s STR_MTR_CFG STR_MTR_CFG_rate_hz)
/-- The instant that begins meter frame period `k`. -/
def meterEdge (s : State) (k : Nat) : Nat := (k * secU + meterHz s - 1) / meterHz s

/-- 05 R164: while no frame is written, a new frame period begins with nothing gathered. -/
def metersBegin (s : State) : State :=
  let t := meterEdge s (s.tim.freiz * meterHz s / secU)
  if !fbit s STR_MTR_CFG STR_MTR_CFG_enable && decide (s.str.meterAt < t) && decide (t ≤ s.tim.freiz) then
    { s with str := { s.str with meters := [], tpPeak := [], meterAt := t } }
  else s

/-- The meter points of every strip of domain `x` take the tick's values. -/
def metersTick (x : Dom) (s0 : State) : State :=
  let s := metersBegin s0
  if !strOn s then s
  else
    let ins := (s.scn.sDom.filter (fun e => e.2 == some x)).map (·.1)
    let outs := (s.scn.dDom.filter (fun e => e.2 == some x)).map (·.1)
    let one := fun (s : State) (p : Nat) => (List.range 4).foldl (fun s pt =>
      { s with str := { s.str with meters := smMod meterZero s.str.meters (4 * p + pt) (meterTake (meterVal s p pt)) } }) s
    outs.foldl (fun s d => tpTake d s) ((ins ++ outs.map (4096 + ·)).foldl one s)

/-! ## Loudness (05 R162, R163) -/

def groupZero : LoudGroup :=
  { flt := [], members := [], sum := 0, n := 0, blocks := [], hist := [], count := 0, resetReq := false,
    momentary := 0x8000_0000, short := 0x8000_0000, integrated := 0x8000_0000 }
def group (s : State) (g : Nat) : LoudGroup := smGet groupZero s.str.groups g
def setGroup (g : Nat) (v : LoudGroup) (s : State) : State := { s with str := { s.str with groups := smSet groupZero s.str.groups g v } }

/-- K-weighting sections by rate code: b0, b1, b2, a1, a2 of the first; b0 (which is b2), b1, a1, a2 of the second, as C40
values (log 70, PRESUMED). -/
def kWeight (code : Nat) : List Int × List Int :=
  match code with
  | 0 => ([105198608295, -182173958105, 80338502635, -114325508852, 48969184942], [68689244602, -137378489203, -136694699111, 67977240127])
  | 1 => ([105492977075, -184971953668, 82352926886, -116181221966, 50335695523], [68719476736, -137438953472, -136755019776, 68037246976])
  | 2 => ([107031641618, -199673172522, 93550158595, -125819863518, 58009014473], [68875604869, -137751209738, -137066323171, 68347352240])
  | 3 => ([107182745673, -201124149799, 94713388629, -126760597553, 58813105320], [68890779891, -137781559782, -137096561753, 68377512061])
  | 4 => ([107966222527, -208669749291, 100940088568, -131620428430, 63137513498], [68969069112, -137938138225, -137252512201, 68533162087])
  | _ => ([108042631531, -209407696770, 101565417183, -132092731468, 63573606676], [68976671429, -137953342858, -137267651130, 68548281288])

/-- Fields of a member word. -/
def memStrip (w : Nat) : Nat := bitsOf w 0 12 + 4096 * bitsOf w 12 1
def memPoint (w : Nat) : Nat := bitsOf w 13 2
/-- 05 R162: the weight, in hundredths; code 3, which the source does not list, counts as unused (log 149, DESIGN CHOICE). -/
def memWeight (w : Nat) : Nat := match bitsOf w 16 2 with | 1 => 100 | 2 => 141 | _ => 0
/-- The domain of a group: that of its first used member. -/
def groupDom (s : State) (g : LoudGroup) : Option Dom :=
  match g.members.find? (fun w => decide (memWeight w ≠ 0)) with
  | some w => stripDom s (memStrip w)
  | none => none

def lgTable (s : State) : Nat := (rd s STR_LG_BASE).toNat / 64 * 64
/-- The member table as read at the start of a block. -/
def membersRead (s : State) (g : Nat) : List Nat :=
  let a := lgTable s + 64 * g
  if inStore a 64 then (List.range 16).map (fun i => memRead s (a + 4 * i) 4) else []

/-- Two K-weighting sections of member `m`. -/
def kFilter (code m : Nat) (x : S64) (flt : SMap S64) : SMap S64 × S64 :=
  let (c, e) := kWeight code
  let q := fun (i : Nat) => c.getD i 0
  let p := fun (i : Nat) => e.getD i 0
  let (f1, y1, _) := biquad flt (2 * m) (q 0) (q 1) (q 2) (q 3) (q 4) x
  let (f2, y2, _) := biquad f1 (2 * m + 1) (p 0) (p 1) (p 0) (p 2) (p 3) y1
  (f2, y2)

/-- 10 log10 of the weighted mean square in LKFS (without a window of zero sum), as a Q16.16 word: `sum` holds hundredths
over `n` samples. -/
def lkfs (sum n : Nat) : W32 :=
  BitVec.ofInt 32 (roundShift (tenLog sum 112 - tenLog (100 * n) 0 - 691 * 2 ^ 100 / 1000) 84)

/-- A loudness over the newest `k` blocks; the source states none for a sum of zero (log 71, DESIGN CHOICE). -/
def loudOf (g : LoudGroup) (k len : Nat) (s : State) : W32 × State :=
  if g.blocks.length < k then (0x8000_0000, s)
  else
    let sum := (g.blocks.take k).foldl (· + ·) 0
    if sum = 0 then
      let (v, s1) := freeDraw s
      (v.setWidth 32, s1)
    else (lkfs sum (k * len), s)

/-- Energy 10^(c/10) of the centre of bin `b`, −70 + 0.01 b + 0.005 LKFS, with 120 fraction bits. -/
def binEnergy (b : Nat) : Nat :=
  let z : Int := ((10 * b : Nat) + 5 - 70000 : Int) * 2 * lnStep / 1000
  let m := expHorner ((z % ln2Fix).toNat) 60 (2 ^ 160)
  let sh : Int := z / ln2Fix - 40
  if 0 ≤ sh then m * 2 ^ sh.toNat else m / 2 ^ (-sh).toNat

/-- 05 R163: the bin of a window above −70 LKFS: its loudness in units of 2^-100. -/
def binOf (sum n : Nat) : Option Nat :=
  if sum = 0 then none
  else
    let l := tenLog sum 112 - tenLog (100 * n) 0 - 691 * 2 ^ 100 / 1000
    let q := l + 70 * 2 ^ 100
    if q ≤ 0 then none else some (q * 100 / 2 ^ 100).toNat

/-- 05 R163: integrated loudness over the histogram, with the relative gate at −10 LU. -/
def integratedOf (h : SMap Nat) : W32 :=
  let total := fun (l : SMap Nat) => l.foldl (fun (e, n) (b, c) => (e + c * binEnergy b, n + c)) (0, 0)
  let (e, n) := total h
  if n = 0 then 0x8000_0000
  else
    let gate := tenLog e 120 - tenLog n 0 - 10 * 2 ^ 100
    let (e2, n2) := total (h.filter (fun (b, _) => decide (gate < ((10 * b : Nat) + 5 - 70000 : Int) * 2 ^ 100 / 1000)))
    if n2 = 0 then 0x8000_0000 else BitVec.ofInt 32 (roundShift (tenLog e2 120 - tenLog n2 0) 84)

/-- Samples of a 100 ms block in domain `x`. -/
def blockLen (s : State) (x : Dom) : Nat := domHz s x / 10

/-- 05 R163: a block of group `g` ends; a reset takes effect with the next block, so the block that ends belongs to the time
before it. -/
def blockEnd (g len : Nat) (s : State) : State :=
  let r := group s g
  let r1 := { r with blocks := (r.sum :: r.blocks).take 30, count := if r.resetReq then 0 else r.count + 1,
                     hist := if r.resetReq then [] else r.hist, resetReq := false, members := [], sum := 0, n := 0 }
  let win := (r1.blocks.take 4).foldl (· + ·) 0
  let r2 := if 4 ≤ r1.count ∧ 4 ≤ r1.blocks.length then
    match binOf win (4 * len) with | some b => { r1 with hist := smMod 0 r1.hist b (· + 1) } | none => r1 else r1
  let (mo, s1) := loudOf r2 4 len s
  let (sh, s2) := loudOf r2 30 len s1
  setGroup g { r2 with momentary := mo, short := sh, integrated := integratedOf r2.hist } s2

/-- A block of the group has taken all its samples. -/
def blockDone (s : State) (g : Nat) : Option Nat :=
  match groupDom s (group s g) with
  | some x => if blockLen s x ≤ (group s g).n then some (blockLen s x) else none
  | none => none
def loudnessBlock (g : Nat) (s : State) : State := match blockDone s g with | some len => blockEnd g len s | none => s
def doLoudnessBlock (g : Fin 512) (s : State) : State := loudnessBlock g s

/-- 05 R162, R163: group `g` takes the tick of domain `x`. A group whose first used member has lost its domain begins its
block anew. -/
def groupTick (x : Dom) (s0 : State) (g : Nat) : State :=
  let s := loudnessBlock g s0
  let r0 := group s g
  let r1 := if r0.n = 0 ∨ groupDom s r0 = none then { r0 with members := membersRead s g, n := 0, sum := 0 } else r0
  if groupDom s r1 ≠ some x then (if r1.members.all (fun w => memWeight w == 0) then s else setGroup g r1 s)
  else
    let (r2, _) := r1.members.foldl (fun ((r : LoudGroup), m) w =>
      if memWeight w = 0 ∨ stripDom s (memStrip w) ≠ some x then (r, m + 1)
      else
        let (f, y) := kFilter (domRate s x) m (meterVal s (memStrip w) (memPoint w)) r.flt
        ({ r with flt := f, sum := r.sum + memWeight w * (y.toInt.natAbs * y.toInt.natAbs) }, m + 1)) (r1, 0)
    setGroup g { r2 with n := r2.n + 1 } s

def loudnessTick (x : Dom) (s : State) : State :=
  if strOn s && inStore (lgTable s) (64 * 512) then (List.range 512).foldl (groupTick x) s else s

/-- A write to STR_LG_RESET (05 R163). -/
def lgReset (m : Nat) (w : W32) (s : State) : State :=
  let s1 := swWrite s m STR_LG_RESET w
  if bitOf w.toNat 16 then
    let g := bitsOf w.toNat 0 9
    setGroup g { group s1 g with resetReq := true } s1
  else s1

/-! ## Meter frames (05 R164) -/

/-- Zero bytes from `a`, a multiple of 8, over `n`, a multiple of 8: as memStoreBytes does. -/
def memZero (s : State) (a n : Nat) : State :=
  let hit := fun (w : Nat) => decide (a ≤ 8 * w) && decide (8 * w < a + n)
  { s with mem := s.mem.filter (fun c => !(decide (a ≤ c.1) && decide (c.1 < a + n))),
           ecc := { s.ecc.cure (fun w => !hit w) with merge := s.ecc.merge.map (fun e => if hit e.word then { e with data := 0 } else e) },
           ctl := s.ctl.snoop hit }

/-- The instant of the frame that closes next: the last multiple of the period that has passed unclosed, else the next one
(log 72, DEDUCED). -/
def frameClose (s : State) : Nat :=
  let k := s.tim.freiz * meterHz s / secU
  if s.str.meterAt < meterEdge s k ∧ meterEdge s k ≤ s.tim.freiz then meterEdge s k else meterEdge s (k + 1)

/-- 05 R164: the meter writer closes a frame. A frame whose place falls outside the Storeroom is not written: its error is
captured, its sequence number is used up, and it is not counted (log 150, DESIGN CHOICE). -/
def doMeterFrameClose (s : State) : State :=
  if !(strOn s && fbit s STR_MTR_CFG STR_MTR_CFG_enable) then s
  else
    let t := frameClose s
    let s1 := timeTo s t
    let depth := clampN 2 16 (fget s STR_MTR_CFG STR_MTR_CFG_depth)
    let seq := s.str.meterSeq
    let a := (rd s STR_MTR_BASE).toNat / 4096 * 4096 + seq % depth * 0x4_8000
    let done := fun (s : State) => { s with str := { s.str with meters := [], tpPeak := [], meterSeq := seq + 1, meterAt := t } }
    if !inStore a 286784 then done (capture s1 capUnmapped 15 a true 0xFF)
    else
      let s2 := memStoreBytes (memZero s1 a 286784) (a + 8) (freizBytes t)
      let s3 := s1.str.meters.foldl (fun s (k, m) => memStore s (a + 64 + 8 * k) 8 (meterPeak m + meterRms m * 2 ^ 32)) s2
      let s4 := s1.str.tpPeak.foldl (fun s (d, p) => memStore s (a + 262208 + 4 * d) 4 (p / 2 ^ 32)) s3
      let s5 := (List.range 512).foldl (fun s g =>
        let r := group s1 g
        memStore s (a + 278592 + 16 * g) 16 (r.momentary.toNat + r.short.toNat * 2 ^ 32 + r.integrated.toNat * 2 ^ 64 + r.count * 2 ^ 96)) s4
      cnt (done (memStore s5 a 8 seq)) STR_MTR_SEQ

/-! ## The Archive (05 R165 to R167) -/

/-- 05 R166: bytes of an S-slot's region. -/
def arcSize (s : State) : Nat := fget s STR_ARC_SIZE STR_ARC_SIZE_size_mib * 256 / 192 * 192
def arcDepth (s : State) : Nat := 64 * arcSize s / 192
def arcEnabled (s : State) : Bool := fbit s STR_ARC_CTRL STR_ARC_CTRL_enable && decide (arcSize s ≠ 0)
/-- The block of index `n` in the region of slot `i`. -/
def arcBlock (s : State) (i n : Nat) : Nat :=
  get64 s STR_ARC_BASE_LO STR_ARC_BASE_HI + i * arcSize s + n / 64 % (arcSize s / 192) * 192

/-- 05 R167: a block is discarded. -/
def blockDrop (i : Nat) (first : Nat) (s : State) : State :=
  let s1 := occur (cnt s STR_ARC_DROP) 0x2C1 i (det64 first)
  match smGet none s1.str.arcFirst i with
  | some (x, f) => { s1 with str := { s1.str with arcFirst := smSet none s1.str.arcFirst i (some (x, Nat.max f (first + 64))) } }
  | none => s1

def doArchiveBlockDrop (slot : Fin 4096) (s : State) : State :=
  match s.str.arcPend.find? (fun e => e.1 == slot.val) with
  | none => s
  | some e => blockDrop slot e.2.2.1 { s with str := { s.str with arcPend := s.str.arcPend.erase e } }

/-- Complete blocks of domain `x` are written. -/
def arcWrite (x : Dom) (s : State) : State :=
  let l := s.str.arcPend.filter (fun e => e.2.1 == x)
  if l.isEmpty then s
  else l.foldl (fun s (i, _, first, words) =>
    let a := arcBlock s i first
    if arcSize s = 0 then blockDrop i first s
    else match dmaRefuse s 16 a 192 with
      | some c => blockDrop i first (dmaError s 16 a 192 c true)
      | none => memStoreBytes s a (((List.range 64).map (fun k => leBytes 3 (smGet 0 words k))).flatten))
    { s with str := { s.str with arcPend := s.str.arcPend.filter (fun e => e.2.1 != x) } }

/-- 05 R165, R166: the M0 value of slot `i` is captured under index `n`. An index of the five ticks before the first captured
one moves the first index back: a slot that bypasses its strip is captured that much later (05 R605). -/
def arcCapture (x : Dom) (i n : Nat) (v : S64) (s : State) : State :=
  let (w, sat) := toPcm 24 v 0
  let s1 := if sat then cnt s STR_ARC_SAT else s
  let first := match smGet none s1.str.arcFirst i with
    | some (y, f) => if y = x ∧ n < f ∧ f ≤ n + 5 then (x, n) else (y, f)
    | none => (x, n)
  let word := (BitVec.ofInt 24 w).toNat + 2 ^ 24
  { s1 with str := { s1.str with arcFirst := smSet none s1.str.arcFirst i (some first),
                                 arcBuf := smMod [] s1.str.arcBuf i (fun bs => smMod [] bs (n / 64) (fun ws => smSet 0 ws (n % 64) word)) } }

/-- The blocks of slot `i` that can take no further sample on or after tick `n` of domain `x` wait for their write. -/
def arcFull (x : Dom) (n i : Nat) (s : State) : State :=
  let done := fun (b : Nat) => decide (64 * b + 68 ≤ n) || decide (n < 64 * b)
  let bs := smGet [] s.str.arcBuf i
  { s with str := { s.str with arcBuf := smSet [] s.str.arcBuf i (bs.filter (fun e => !done e.1)),
                               arcPend := s.str.arcPend ++ (bs.filter (fun e => done e.1)).map (fun e => (i, x, 64 * e.1, e.2)) } }

/-! ## Playback (05 R168, R169) -/

def pbOf (s : State) (ch : Nat) : Option Playback := smGet none s.str.pb ch
def setPb (ch : Nat) (v : Option Playback) (s : State) : State := { s with str := { s.str with pb := smSet none s.str.pb ch v } }
def pbState (s : State) (ch : Nat) : Nat := fget s (STR_PB_STATUS ch) STR_PB_STATUS_state
def setPbState (ch v : Nat) (s : State) : State := fset s (STR_PB_STATUS ch) STR_PB_STATUS_state v

/-- 05 R168: why arming is refused; 0: it is not. -/
def pbRefusal (s : State) (ch : Nat) : Nat :=
  let start := get64 s (STR_PB_START_LO ch) (STR_PB_START_HI ch)
  let from_ := get64 s (STR_PB_FROM_LO ch) (STR_PB_FROM_HI ch)
  match domOf (fget s (STR_PB_SRC ch) STR_PB_SRC_domain) with
  | none => 4
  | some x =>
    if !arcEnabled s then 3
    else if domS s (fget s (STR_PB_SRC ch) STR_PB_SRC_s_slot) ≠ some x then 2
    else if start < from_ + 256 ∨ from_ + arcDepth s < start + 256 then 1
    else 0

/-- A write to STR_PB_CTRL: stop, then arm. -/
def pbCtrl (m ch : Nat) (w : W32) (s : State) : State :=
  let s0 := swWrite s m (STR_PB_CTRL ch) w
  let s1 := if bitOf w.toNat 1 then (match pbOf s0 ch with | some p => setPb ch (some { p with stopReq := true }) s0 | none => s0) else s0
  if !bitOf w.toNat 0 then s1
  else
    let code := pbRefusal s1 ch
    let s2 := fset s1 (STR_PB_STATUS ch) STR_PB_STATUS_refusal code
    if code ≠ 0 then s2
    else match domOf (fget s2 (STR_PB_SRC ch) STR_PB_SRC_domain) with
      | none => s2
      | some x =>
        let start := get64 s2 (STR_PB_START_LO ch) (STR_PB_START_HI ch)
        let late := running s2 x && decide (start ≤ nowIdx s2 x)
        let p : Playback :=
          { src := fget s2 (STR_PB_SRC ch) STR_PB_SRC_s_slot, dom := x, idxFrom := get64 s2 (STR_PB_FROM_LO ch) (STR_PB_FROM_HI ch),
            start := start, len := (rd s2 (STR_PB_LEN ch)).toNat, stopReq := false, late := late, prev := 0, lateRead := false }
        setPbState ch 1 (setPb ch (some p) (fset s2 (STR_PB_STATUS ch) STR_PB_STATUS_late (b2n late)))

/-- The channel reaches its start_index at tick `n`. -/
def pbStart (ch n : Nat) (s : State) : State :=
  match pbOf s ch with
  | some p => if pbState s ch = 1 ∧ !p.stopReq ∧ p.start ≤ n then setPbState ch 2 s else s
  | none => s
/-- The channel has been stopped, or has played its length before tick `n`: it yields zero from then on. -/
def pbEnd (ch n : Nat) (s : State) : State :=
  match pbOf s ch with
  | some p => if p.stopReq ∨ (p.len ≠ 0 ∧ p.start + p.len ≤ n) then setPbState ch 0 (setPb ch none s) else s
  | none => s

/-- Rows PLAYBACK_START and PLAYBACK_END act for the coming tick of the channel's domain. -/
def doPlaybackStart (ch : Fin 64) (s : State) : State :=
  match pbOf s ch with | some p => if running s p.dom then pbStart ch (genOf s p.dom).next s else s | none => s
def doPlaybackEnd (ch : Fin 64) (s : State) : State :=
  match pbOf s ch with | some p => if running s p.dom then pbEnd ch (genOf s p.dom).next s else s | none => s
/-- 05 R168: the read for the coming tick arrives late. -/
def doPlaybackReadLate (ch : Fin 64) (s : State) : State :=
  match pbOf s ch with
  | some p => if pbState s ch = 2 ∧ !p.lateRead then cnt (setPb ch (some { p with lateRead := true }) s) STR_PB_LATE else s
  | none => s

/-- The archived value of index `idx` of a channel's source (05 R167; 13 R415: an uncorrectable word plays as zero). -/
def pbRead (p : Playback) (idx : Nat) (s : State) : S64 × State :=
  match smGet none s.str.arcFirst p.src with
  | none => (0, s)
  | some (x, first) =>
    if x ≠ p.dom ∨ idx < first ∨ arcSize s = 0 then (0, s)
    else
      let a := arcBlock s p.src idx + 3 * (idx % 64)
      match dmaRefuse s 16 a 3 with
      | some c => (0, dmaError s 16 a 3 c false)
      | none => if (lostWords s (wordsIn a 3)).isEmpty then (fromPcm24 (BitVec.ofNat 24 (memRead s a 3)), s) else (0, s)

/-- What a playing channel yields on tick `n`. -/
def pbYield (ch n : Nat) (s : State) : State :=
  match pbOf s ch with
  | some p =>
    if pbState s ch ≠ 2 then s
    else if p.lateRead then setPb ch (some { p with lateRead := false }) s
    else
      let (v, s1) := pbRead p (p.idxFrom + (n - p.start)) s
      setPb ch (some { p with prev := v }) s1
  | none => s

/-- All channels of domain `x` on tick `n`. -/
def playbackTick (x : Dom) (n : Nat) (s : State) : State :=
  let l := (s.str.pb.filter (fun e => match e.2 with | some p => p.dom == x | none => false)).map (·.1)
  l.foldl (fun s ch => pbYield ch n (pbStart ch n (pbEnd ch n s))) s
/-- The value of a channel while it plays. -/
def pbVal (s : State) (ch : Nat) : S64 := match pbOf s ch with | some p => if pbState s ch = 2 then p.prev else 0 | none => 0

end Sys2Proof.Machine
end

