-- ==== Sys2Proof/Machine/Ports.lean ====
section
/-! DEFINITION. Local port sides and general-purpose pins (spec/08 R257 to R275). Sides are numbered: receive side of SPp
2p, transmit side 2p + 1, AIi 96 + i, AOi 128 + i. -/

namespace Sys2Proof.Machine

/-! ## Side configuration (08 R257, R258) -/

def isRx (i : Nat) : Bool := if i < 96 then i % 2 == 0 else decide (i < 128)
def isAes (i : Nat) : Bool := decide (96 ≤ i)
def sideMaster (i : Nat) (d : Side) : Bool := if isAes i then !isRx i else wbit d.cfg PRT_SIDE_CFG_master
/-- Slot code: 0 16, 1 24, 2 32 bits, 3 keeps the side STARTING; AES3 words have 24 bits. -/
def slotCode (i : Nat) (d : Side) : Nat := if isAes i then 1 else wget d.cfg PRT_SIDE_CFG_slot
def setSide (i : Nat) (v : Option Side) (s : State) : State := { s with prt := { s.prt with sides := smSet none s.prt.sides i v } }

def stSTARTING : Nat := 1
def stLOCKED : Nat := 2
def stABSENT : Nat := 3
def stMISMATCH : Nat := 4
def stSLIPPING : Nat := 5
def sideState (s : State) (i : Nat) : Nat := fget s (PRT_SIDE_STATUS i) PRT_SIDE_STATUS_state
def setSideState (i v : Nat) (s : State) : State := fset s (PRT_SIDE_STATUS i) PRT_SIDE_STATUS_state v
def goodFrames (s : State) (i : Nat) : Nat := fget s (PRT_SIDE_STATUS i) PRT_SIDE_STATUS_good_frames
def setGood (i v : Nat) (s : State) : State := fset s (PRT_SIDE_STATUS i) PRT_SIDE_STATUS_good_frames v
def sideLocked (s : State) (i : Nat) : Bool := sideState s i == stLOCKED
def maskReg (s : State) (i : Nat) : Nat := (rd s (PRT_SIDE_MASK i)).toNat % 4

/-- 20 R581: the I/O supply of a side's pins. -/
def sideSupply (i : Nat) : Supply := if 96 ≤ i then .vddio2 else if i < 48 then .vddio0 else .vddio1
def prtOn (s : State) : Bool := domOn s 13
/-- The slip monitor of the side works: its domain runs and its slot code is valid. -/
def sideWorks (s : State) (i : Nat) (d : Side) : Bool :=
  prtOn s && decide (slotCode i d ≠ 3) && (match domOf (wget d.cfg PRT_SIDE_CFG_domain) with | some x => running s x | none => false)

def sideFresh (cfg : W32) (mask : Nat) : Side :=
  { cfg := cfg, closing := false, again := none, fresh := true, gain := 0, fadeFrom := 0, fadeTo := 0, fadeK := 64, wordL := 0, wordR := 0,
    sentL := 0, sentR := 0, sentN := 0, lastBit := false, frames := 0, sending := none, missed := false, stepped := false, cause := 0, lockFrom := none,
    glitchRun := 0, times := [], drift := none, mask := mask, heldMask := mask }

/-- 08 R257, R272: the side latches its configuration and is STARTING, muted. -/
def sideStart (i : Nat) (cfg : W32) (s : State) : State :=
  let s1 := setSide i (some (sideFresh cfg (maskReg s i))) s
  fset (setGood i 0 (setSideState i stSTARTING s1)) (PRT_SIDE_STATUS i) PRT_SIDE_STATUS_muted 1
/-- 08 R274: the side is disabled. -/
def sideOff (i : Nat) (s : State) : State :=
  let drop := fun (m : SMap S64) => smSet 0 (smSet 0 m (2 * i) 0) (2 * i + 1) 0
  let s1 := setSide i none { s with prt := { s.prt with rxOut := drop s.prt.rxOut, txIn0 := drop s.prt.txIn0, txIn1 := drop s.prt.txIn1 } }
  wr s1 (PRT_SIDE_STATUS i) (regReset (PRT_SIDE_STATUS i))

/-- A write to PRT_SIDE_CFG (08 R257, R274): a side whose frame in progress has still to end ends with it, and starts again if
enable has been set anew. -/
def sideCfg (m i : Nat) (w : W32) (s : State) : State :=
  let s1 := swWrite s m (PRT_SIDE_CFG i) w
  match side s i with
  | none => if wbit w PRT_SIDE_CFG_enable then sideStart i (rd s1 (PRT_SIDE_CFG i)) s1 else s1
  | some d =>
    if wbit w PRT_SIDE_CFG_enable then
      (if d.closing && d.again.isNone then setSide i (some { d with again := some (rd s1 (PRT_SIDE_CFG i)) }) s1 else s1)
    else match sideDom s i with
      | some x => if running s x then setSide i (some { d with closing := true, again := none }) s1 else sideOff i s1
      | none => sideOff i s1

/-! ## Slip monitor (08 R266 to R270) -/

/-- 08 R266: a side enters, or stays in, the fault state of cause `c`; the first cause of the table's order stands within
one tick, and a return to LOCKED on the same tick has not happened (R269) (log 84, DESIGN CHOICE). -/
def sideCause (i c : Nat) (s : State) : State :=
  match side s i with
  | none => s
  | some d =>
    let s0 := setGood i 0 s
    if d.cause ≠ 0 ∧ d.cause ≤ c then s0
    else
      let prev := match d.lockFrom with | some p => p | none => sideState s i
      let s1 := setSide i (some { d with cause := c, lockFrom := none, drift := none, times := if c = stABSENT then [] else d.times }) s0
      let s2 := setSideState i c s1
      if prev = c then s2
      else if c = stABSENT then cnt s2 (PRT_SIDE_ABSENT i)
      else if c = stMISMATCH then cnt s2 (PRT_SIDE_MISMATCH i)
      else cnt s2 (PRT_SIDE_SLIP i)

/-- 08 R268: the mean rate over the instants, as a fraction of the domain's rate: frames × 2^32 over the span
(log 83, DESIGN CHOICE). -/
def meanRate (l : List Nat) : Option (Nat × Nat) :=
  match l.head?, l.getLast? with
  | some a, some b => if b < a then some ((l.length - 1) * 2 ^ 32, a - b) else none
  | _, _ => none

/-- 08 R268: the drift after a frame at the instant `t`: the phase step taken to the nearest turn. -/
def driftStep (s : State) (t : Nat) (d : Option (Nat × Nat × Int)) : Option (Nat × Nat × Int) × Bool :=
  match d with
  | none => (some (t, 0, 0), false)
  | some (last, n, acc) =>
    let step : Int := (t : Int) - last
    let acc' := acc + step - (step + 2 ^ 31) / 2 ^ 32 * 2 ^ 32
    let window := clampN 1024 1000000 (rd s PRT_SLIP_CFG).toNat
    (if window ≤ n + 1 then some (t, 0, 0) else some (t, n + 1, acc'), decide (2 ^ 32 ≤ acc'.natAbs))

/-- A frame of a slave side meets the slip monitor (08 R266 to R269). -/
def sideFrame (i : Nat) (good : Bool) (frac : Nat) (s : State) : State :=
  match side s i with
  | none => s
  | some d =>
    let x := (sideDom s i).getD .A
    let t := nowIdx s x * 2 ^ 32 + frac
    let times := (t :: d.times).take 256
    let run := if good then 0 else d.glitchRun + 1
    let (dr, slip) := driftStep s t d.drift
    let rate := meanRate times
    let bad := match rate with | some (a, b) => decide (b < 1000 * ((a : Int) - b).natAbs) | none => false
    let s1 := setSide i (some { d with frames := d.frames + 1, times := times, glitchRun := run, drift := dr }) s
    let s2 := if good then s1 else cnt s1 (PRT_SIDE_GLITCH i)
    let s3 := match rate with
      | some (a, b) => wr s2 (PRT_SIDE_RATE i) (BitVec.ofNat 32 ((domHz s x * 100 * a + b / 2) / b))
      | none => s2
    let cause := if 3 ≤ run then stABSENT else if bad then stMISMATCH else if slip ∨ 1 ≤ d.frames then stSLIPPING else 0
    if cause ≠ 0 then sideCause i cause s3
    else setGood i (if good && d.cause == 0 then Nat.min 8 (goodFrames s i + 1) else 0) s3

/-- 08 R267: a tick of a slave side has passed with no frame. -/
def sideMissing (i : Nat) (s : State) : State :=
  match side s i with
  | none => s
  | some d =>
    let run := d.glitchRun + 1
    let s1 := setGood i 0 (cnt (setSide i (some { d with missed := true, glitchRun := run }) s) (PRT_SIDE_GLITCH i))
    if 3 ≤ run then sideCause i stABSENT s1 else s1

/-- A slave side in a tick of its domain without a frame so far. -/
def sideQuietTick (s : State) (i : Nat) : Option Side :=
  match side s i with
  | some d =>
    let began := match sideDom s i with | some x => (genOf s x).last.isSome | none => false
    if sideWorks s i d && began && !sideMaster i d && !d.fresh && d.frames == 0 then some d else none
  | none => none
def doMissingFrame (i : Fin 160) (s : State) : State :=
  match sideQuietTick s i with | some d => if d.missed then s else sideMissing i s | none => s
/-- 08 R266: no clock edge for 4 Ts. -/
def doClockAbsent (i : Fin 160) (s : State) : State :=
  match sideQuietTick s i with | some _ => sideCause i stABSENT s | none => s

/-- 08 R269: the return to LOCKED. -/
def sideLock (i : Nat) (s : State) : State :=
  match side s i with
  | some d =>
    if d.cause = 0 ∧ sideState s i ≠ stLOCKED then
      setSideState i stLOCKED (setSide i (some { d with lockFrom := some (sideState s i), drift := none }) s)
    else s
  | none => s

/-! ## Fades (08 R271, R272, 18 R536) -/

/-- One step of a side's gain, once in a tick, or anew when its target has changed. -/
def sideStep (i : Nat) (s : State) : State :=
  match side s i with
  | none => s
  | some d =>
    let target : Int := if sideLocked s i && !(s.prt.quiet && !isRx i) then unityG else 0
    let turn := decide (target ≠ d.fadeTo)
    let d1 := if turn then { d with fadeFrom := d.gain, fadeTo := target, fadeK := 0 } else d
    if d.stepped && !turn then s
    else if 64 ≤ d1.fadeK then setSide i (some { d1 with stepped := true }) s
    else
      let k := d1.fadeK + 1
      let s1 := setSide i (some { d1 with gain := rampGain d1.fadeFrom d1.fadeTo k 64, fadeK := k, stepped := true }) s
      let s2 := fset s1 (PRT_SIDE_STATUS i) PRT_SIDE_STATUS_muted 1
      if k = 64 then addDue s2 (.sideFade i) else s2
/-- 08 R271: the fade has reached its target. -/
def sideFadeEnd (i : Nat) (s : State) : State :=
  match side s i with
  | some d => fset s (PRT_SIDE_STATUS i) PRT_SIDE_STATUS_muted (b2n (decide (d.gain ≠ unityG)))
  | none => s
/-- 18 R536, R537: enabled transmit sides fade out before a drop of PRT, or in again. -/
def sidesFade (out : Bool) (s : State) : State := { s with prt := { s.prt with quiet := out } }

/-- 08 R272: a word under the gain in force. -/
def gained (g : Int) (v : S64) : S64 := if g = unityG then v else if g = 0 then 0 else (gainStore v g).1

/-! ## Receive frames (08 R260, R263, R267, R273, 02 R56) -/

/-- 08 R261: the bits of a slot. -/
def slotBits (code : Nat) : Nat := if code = 0 then 16 else if code = 2 then 32 else 24
/-- 08 R261: the word select at each bit clock of a frame, from the most significant bit of the left slot on. -/
def wsShape (lj : Bool) (n : Nat) : List Bool :=
  if lj then List.replicate n true ++ List.replicate n false else List.replicate (n - 1) false ++ List.replicate n true ++ [false]
/-- 08 R261: bits as shifted, most significant first. -/
def msbWord (l : List Bool) : Nat := l.foldl (fun v b => 2 * v + b2n b) 0
def msbBits (n v : Nat) : List Bool := (List.range n).map (fun i => bitOf v (n - 1 - i))
/-- 08 R262: the parity of time slots 4 to 31 is odd, which is an error (R263). -/
def parityOdd (s : BitVec 28) : Bool := (List.range 28).foldl (fun p i => p != s.getLsbD i) false
/-- 08 R262, R267: the frame is whole: bit counts and word select, or preambles and biphase code, are right. -/
def waveGood (i : Nat) (d : Side) (w : PortWave) : Bool :=
  match w with
  | .serial bits => !isAes i && bits.map (·.1) == wsShape (wbit d.cfg PRT_SIDE_CFG_format) (slotBits (slotCode i d))
  | .aes p0 p1 _ _ intact => isAes i && intact && p0 != .Y && p1 == .Y
/-- 08 R261, R262: the slot words of a frame, left and right. -/
def waveWords (i : Nat) (d : Side) (w : PortWave) : BitVec 32 × BitVec 32 :=
  match w with
  | .serial bits =>
    let n := slotBits (slotCode i d)
    (BitVec.ofNat 32 (msbWord ((bits.take n).map (·.2))), BitVec.ofNat 32 (msbWord (((bits.drop n).take n).map (·.2))))
  | .aes _ _ s0 s1 _ => ((s0.setWidth 24).setWidth 32, (s1.setWidth 24).setWidth 32)
/-- 08 R263: parity errors of the two channels. -/
def waveParity (w : PortWave) : Bool × Bool :=
  match w with | .serial _ => (false, false) | .aes _ _ s0 s1 _ => (parityOdd s0, parityOdd s1)

/-- 02 R56: a slot word as S64. -/
def slotWord (code : Nat) (w : BitVec 32) : S64 :=
  if code = 0 then fromPcm16 (w.setWidth 16) else if code = 2 then fromPcm24 ((w >>> 8).setWidth 24) else fromPcm24 (w.setWidth 24)

/-- 18 R545: the side that sentinel `n` watches. -/
def sentSide (s : State) (n : Nat) : Nat :=
  let p := fget s (PWR_SENT_CFG n) PWR_SENT_CFG_port
  if fbit s (PWR_SENT_CFG n) PWR_SENT_CFG_aes then 96 + p % 32 else 2 * p
/-- Whole frames feed the sentinels of their side. -/
def sentFeed (i : Nat) (l r : S64) (s : State) : State :=
  (List.range 32).foldl (fun s n =>
    if fbit s (PWR_SENT_CFG n) PWR_SENT_CFG_enable && sentSide s n == i && sideLocked s i then
      let v := if fbit s (PWR_SENT_CFG n) PWR_SENT_CFG_channel then r else l
      { s with pwr := { s.pwr with sentN := smMod 0 s.pwr.sentN n (· + 1),
                                   sentPk := smMod 0 s.pwr.sentPk n (fun p => Nat.max p (v.toInt.natAbs / 2 ^ 33)) } }
    else s) s

/-- 08 R260, R263, R267: a frame is latched at a receive side. -/
def doPortFrameReceived (i : Fin 160) (f : RxFrame) (s : State) : State :=
  match side s i with
  | none => s
  | some d =>
    let began := match sideDom s i with | some x => (genOf s x).last.isSome | none => false
    if !isRx i || !sideWorks s i d || !began || isAbsent s (sideSupply i) then s
    else
      let master := sideMaster i d
      let good := waveGood i d f.wave
      let (parL, parR) := waveParity f.wave
      let s1 := if master then s else sideFrame i good f.at_.toNat s
      let s2 := cntN s1 (PRT_SIDE_PARITY i) (b2n parL + b2n parR)
      let s3 := if master then s2
        else
          let ph := f.at_.toNat / 2 ^ 24
          let near := decide (f.at_.toNat < 8 * 2 ^ 24) || decide (248 * 2 ^ 24 < f.at_.toNat)
          fset (fset s2 (PRT_SIDE_STATUS i) PRT_SIDE_STATUS_phase ph) (PRT_SIDE_STATUS i) PRT_SIDE_STATUS_marginal (b2n near)
      match side s3 i with
      | none => s3
      | some e =>
        let code := slotCode i e
        let whole := good || master
        let (left, right) := waveWords i d f.wave
        let l := if !whole || parL then e.wordL else slotWord code left
        let r := if !whole || parR then e.wordR else slotWord code right
        let s4 := setSide i (some { e with wordL := l, wordR := r, heldMask := e.mask, mask := maskReg s3 i }) s3
        if whole && !master then sentFeed i l r s4 else s4
where
  isAbsent (s : State) (v : Supply) : Bool := s.pin.absent.contains v

/-- The side delivers the frame it holds (08 R271 to R273). -/
def sideDeliver (i : Nat) (s : State) : State :=
  match side s i with
  | none => s
  | some d =>
    let v := fun (c : Nat) (w : S64) => if bitOf d.heldMask c then gained d.gain w else 0
    { s with prt := { s.prt with rxOut := smSet 0 (smSet 0 s.prt.rxOut (2 * i) (v 0 d.wordL)) (2 * i + 1) (v 1 d.wordR) } }

/-! ## Transmit frames (08 R260, R262, R264, R267, R272, 02 R57 to R61) -/

/-- AES3 CRC of the channel-status block, x^8 + x^4 + x^3 + x^2 + 1 from all ones, least significant bits first (log 80, PRESUMED). -/
def crcAes (l : List Byte) : Byte :=
  l.foldl (fun c b => (List.range 8).foldl (fun (c : Byte) _ => if c.getLsbD 0 then (c >>> 1) ^^^ 0xB8#8 else c >>> 1) (c ^^^ b)) 0xFF#8
/-- 08 R264: byte `k` of the channel-status block of AO`o`. -/
def csByte (s : State) (o k : Nat) : Byte :=
  let raw := fun (k : Nat) => match smGet none s.prt.chanStatus (24 * o + k) with | some b => b | none => if k = 0 then 1#8 else 0#8
  if k = 23 then crcAes ((List.range 23).map raw) else raw k

/-- The engine drives the pins of a transmit side (08 R274, 12 R385, 17 R524). -/
def sideDrives (s : State) (i : Nat) : Bool := drivesLocal s && prtOn s && !s.pin.absent.contains (sideSupply i)

/-- The word of one channel of frame `n`, and whether it saturated. -/
def txWord (s : State) (i c n : Nat) (d : Side) (v : S64) : Int × Bool :=
  if !bitOf d.mask c ∨ d.gain = 0 then (0, false)
  else
    let bits := if slotCode i d = 0 then 16 else 24
    let seed := BitVec.ofNat 64 (get64 s (PRT_SIDE_SEED_LO i) (PRT_SIDE_SEED_HI i))
    let dth := if wbit d.cfg PRT_SIDE_CFG_dither then ditherVal seed c (n - 2) (57 - bits) else 0
    toPcm bits (gained d.gain v) dth

/-- A slot as it is shifted out (02 R58). -/
def slotOut (code : Nat) (w : Int) : Nat :=
  match code with
  | 0 => (BitVec.ofInt 16 w).toNat
  | 2 => (BitVec.ofInt 24 w).toNat * 256
  | _ => (BitVec.ofInt 24 w).toNat

/-- 08 R261: the bit clocks of a serial frame, which follows a frame whose last bit was `last`: in the I2S-style format the data
lies one bit clock behind the word select. -/
def serialBits (lj : Bool) (code : Nat) (l r : Int) (last : Bool) : List (Bool × Bool) :=
  let n := slotBits code
  let data := msbBits n (slotOut code l) ++ msbBits n (slotOut code r)
  if lj then (wsShape true n).zip data else (List.replicate n false ++ List.replicate n true).zip (last :: data)
/-- 08 R262: time slots 4 to 31 of a subframe sent: the word, V = 0, U = 0, the status bit, even parity. -/
def aesSlots (w : Int) (c : Bool) : BitVec 28 :=
  let v := BitVec.ofNat 28 ((BitVec.ofInt 24 w).toNat + b2n c * 2 ^ 26)
  if parityOdd v then v ||| 0x8000000#28 else v

/-- The frame of index `n` goes out. One that starts at a glitch carries the words of the last complete frame sent, under the
gain in force (08 R267, R271, R272) (log 85, DESIGN CHOICE). -/
def sideSend (i n : Nat) (good : Bool) (s : State) : State :=
  match side s i with
  | none => s
  | some d =>
    let (m, wl, wr) := if good then (n, d.wordL, d.wordR) else (d.sentN, d.sentL, d.sentR)
    let (l, satL) := txWord s i 0 m d wl
    let (r, satR) := txWord s i 1 m d wr
    let code := slotCode i d
    let d1 := { d with sentL := wl, sentR := wr, sentN := m, lastBit := bitOf (slotOut code r) 0, sending := none }
    let s1 := cntN (setSide i (some d1) s) (PRT_SIDE_SAT i) (if good then b2n satL + b2n satR else 0)
    if !sideDrives s i then s1
    else if isAes i then
      let c := bitOf (csByte s (i - 128) (n % 192 / 8)).toNat (n % 8)
      emit s1 (.port i (.aes (if n % 192 = 0 then .Z else .X) .Y (aesSlots l c) (aesSlots r c) true))
    else emit s1 (.port i (.serial (serialBits (wbit d.cfg PRT_SIDE_CFG_format) code l r d.lastBit)))

/-- 08 R260: a transmit side begins a frame: a master one at its tick; a slave one at its word-select edge. A slave frame goes
out when the next one begins or the tick ends: the earlier of two in one tick repeats the last frame sent. -/
def doPortFrameTransmit (i : Fin 160) (good : Bool) (at_ : BitVec 32) (s : State) : State :=
  match side s i with
  | none => s
  | some d =>
    match sideDom s i with
    | none => s
    | some x =>
      if isRx i || !sideWorks s i d || (genOf s x).last.isNone || !outputsOpen s then s
      else if sideMaster i d then
        (match d.sending with
         | some g => sideSend i (nowIdx s x) g (sideStep i s)
         | none => s)
      else
        let s1 := match d.sending with | some _ => sideSend i (nowIdx s x) false s | none => s
        let s2 := sideFrame i good at_.toNat s1
        match side s2 i with
        | some e => setSide i (some { e with sending := some good, mask := maskReg s i }) s2
        | none => s2

/-! ## Ticks of a side's domain -/

/-- 08 R257, R274: a disabled side's frame has ended; one enabled again since then starts with what it latched. -/
def sideEnd (i : Nat) (d : Side) (s : State) : State :=
  match d.again with | some cfg => sideStart i cfg (sideOff i s) | none => sideOff i s

/-- Tick `n` has ended: what the side owes it. -/
def sideClose (x : Dom) (n i : Nat) (s : State) : State :=
  match side s i with
  | none => s
  | some d =>
    if d.fresh then (if d.closing then sideEnd i d s else setSide i (some { d with fresh := false }) s)
    else
      let master := sideMaster i d
      let works := sideWorks s i d
      let s1 := if !works then s
        else if master then
          wr (if d.cause = 0 then setGood i (Nat.min 8 (goodFrames s i + 1)) s else s) (PRT_SIDE_RATE i) (BitVec.ofNat 32 (domHz s x * 100))
        else if d.frames = 0 ∧ !d.missed ∧ (isRx i || outputsOpen s) then sideMissing i s
        else s
      let s2 := sideStep i s1
      let s3 := if isRx i then
          let s' := if master && d.frames == 0 then
            (match side s2 i with | some e => setSide i (some { e with heldMask := e.mask, mask := maskReg s2 i }) s2 | none => s2) else s2
          sideDeliver i s'
        else match d.sending with
          | some g => sideSend i n g s2
          | none => s2
      if d.closing then sideEnd i d s3 else s3

/-- 08 R266: the cause shown at a discontinuous tick: an earlier one of the table's order that still holds, or SLIPPING. -/
def causeHeld (s : State) (i : Nat) (d : Side) : Nat :=
  let off : Bool := match meanRate d.times with | some (a, b) => decide (b < 1000 * ((a : Int) - b).natAbs) | none => false
  if sideState s i = stABSENT ∧ (d.times.isEmpty ∨ 3 ≤ d.glitchRun) then stABSENT
  else if sideState s i = stMISMATCH ∧ off then stMISMATCH else stSLIPPING

/-- Tick `m` begins; `disc` says that its event is discontinuous. -/
def sideOpen (m i : Nat) (disc : Bool) (s : State) : State :=
  match side s i with
  | none => s
  | some d =>
    let shut := !isRx i && !outputsOpen s
    let d1 := { d with frames := 0, missed := false, stepped := false, cause := 0, lockFrom := none,
                       wordL := if isRx i then d.wordL else smGet 0 s.prt.txIn0 (2 * i),
                       wordR := if isRx i then d.wordR else smGet 0 s.prt.txIn0 (2 * i + 1),
                       mask := if !isRx i && sideMaster i d then maskReg s i else d.mask,
                       sending := if !isRx i && sideMaster i d && !shut && slotCode i d != 3 then some true else none }
    if shut then
      let s1 := setSide i (some { d1 with gain := 0, fadeFrom := 0, fadeTo := 0, fadeK := 64, glitchRun := 0, times := [], drift := none }) s
      fset (setGood i 0 (setSideState i stSTARTING s1)) (PRT_SIDE_STATUS i) PRT_SIDE_STATUS_muted 1
    else
      let s1 := setSide i (some d1) s
      if slotCode i d = 3 then s1
      else if disc then sideCause i (causeHeld s1 i d1) s1
      else if m ≠ 0 ∧ goodFrames s1 i = 8 ∧ sideState s1 i ≠ stLOCKED then addDue s1 (.sideLock i)
      else s1

/-- Sides of domain `x`. -/
def sidesOf (s : State) (x : Dom) : List Nat :=
  (s.prt.sides.filter (fun (i, _) => sideDom s i == some x)).map (·.1)
/-- What the last tick `n` of domain `x` left to its sides. -/
def sidesEnd (x : Dom) (n : Option Nat) (s : State) : State :=
  match n with
  | some n => if prtOn s then (sidesOf s x).foldl (fun s i => sideClose x n i s) s else s
  | none => s
/-- The tick `m` of domain `x` begins at its sides. The words formed for port outputs move on. -/
def sidesBegin (x : Dom) (m : Nat) (disc : Bool) (s : State) : State :=
  if !prtOn s then s
  else
    let l := sidesOf s x
    let s2 := l.foldl (fun s i => sideOpen m i disc s) s
    let move := fun (t0 t1 : SMap S64) => l.foldl (fun m i => smSet 0 (smSet 0 m (2 * i) (smGet 0 t1 (2 * i))) (2 * i + 1) (smGet 0 t1 (2 * i + 1))) t0
    { s2 with prt := { s2.prt with txIn0 := move s2.prt.txIn0 s2.prt.txIn1 } }

/-- 08 R273: a frame of the side is in progress: a master side's follow each other while its domain ticks, a slave's while its
clock runs (log 146, DEDUCED). -/
def inFrame (s : State) (i : Nat) (d : Side) : Bool :=
  if sideMaster i d then sideWorks s i d && (match sideDom s i with | some x => (genOf s x).last.isSome | none => false)
  else if isRx i then !d.times.isEmpty else d.sending.isSome
/-- 08 R273: the mask written applies with the frame that starts now; one in progress keeps its own. -/
def doMaskApply (i : Fin 160) (s : State) : State :=
  match side s i with
  | some d => if inFrame s i d then s else setSide i (some { d with mask := maskReg s i }) s
  | none => s

/-- 20 R581: the supply of a bank of sides has gone. -/
def sidesClockLost (v : Supply) (s : State) : State :=
  (s.prt.sides.map (·.1)).foldl (fun s i => match side s i with
    | some d => if sideSupply i = v ∧ !sideMaster i d ∧ sideWorks s i d then sideCause i stABSENT s else s
    | none => s) s

/-- 18 R541: PRT is ON again: enabled sides are STARTING. -/
def sidesRestart (s : State) : State :=
  (s.prt.sides.map (·.1)).foldl (fun s i => match side s i with | some d => sideStart i d.cfg s | none => s)
    { s with prt := { s.prt with quiet := false } }

/-! ## General-purpose pins (08 R275) -/

def gpFun (s : State) (g : Nat) : Nat := fget s (PRT_GP_CFG g) PRT_GP_CFG_function
/-- The debounced level of a pin as seen from outside. -/
def doGpInputChange (g : Fin 32) (v : Bool) (s : State) : State :=
  { s with prt := { s.prt with gpRaw := putBits s.prt.gpRaw g 1 (b2n v) } }
/-- The gain that node (d, i) applies on this tick. -/
def appliedGain (s : State) (d i : Nat) : Int :=
  match tileOf s d, domD s d with
  | some t, some x =>
    if domS s i ≠ some x then 0
    else
      let w := node s (nodeKey t d i)
      if ndState w = nRAMPING then
        let sl := slotOf s t (ndSlot w)
        rampGain (ndLive w) (ndPend w) (Nat.min (nowIdx s x - (sl.start.getD 0)) sl.len) (Nat.max 1 sl.len)
      else ndLive w
  | _, _ => 0

/-- A pin's output function is active. -/
def gpActive (s : State) (g : Nat) : Bool :=
  let a := fun (f : Fld) => fget s (PRT_GP_ARG g) f
  match gpFun s g with
  | 1 => bitOf (rd s PRT_GP_OUT).toNat g
  | 3 => decide (appliedGain s (a PRT_GP_ARG_lead_or_d % 4096) (a PRT_GP_ARG_scene_s_sent) ≠ 0)
  | 4 => bitOf s.prt.gpSent g
  | _ => false
/-- What a pin of an output function is driven to, an open-drain one only to low; other pins are not driven. -/
def gpDriven (s : State) (g : Nat) : Option Bool :=
  let f := gpFun s g
  let v := gpActive s g != fbit s (PRT_GP_CFG g) PRT_GP_CFG_invert
  if (f = 1 ∨ f = 3 ∨ f = 4) ∧ !(v && fbit s (PRT_GP_CFG g) PRT_GP_CFG_open_drain) then some v else none
/-- Pins of the given functions take their level; a change is seen outside (log 56, DEDUCED). -/
def gpUpdate (fs : List Nat) (s : State) : State :=
  if !outputsOpen s || !prtOn s then s
  else (List.range 32).foldl (fun s g =>
    let v := gpDriven s g
    if !fs.contains (gpFun s g) || smGet none s.prt.gpDrive g == v then s
    else emit { s with prt := { s.prt with gpDrive := smSet none s.prt.gpDrive g v } } (.gp g v)) s

/-- A write to PRT_GP_OUT, or to a pin's configuration. -/
def gpWrite (m k : Nat) (w : W32) (s : State) : State := gpUpdate [0, 1, 2, 5, 6, 7] (swWrite s m k w)
/-- 08 R275: PRT_GP_SENT_CLR (log 86, DESIGN CHOICE). -/
def sentClear (w : W32) (s : State) : State := { s with prt := { s.prt with gpSent := s.prt.gpSent &&& (w.toNat ^^^ 0xFFFF_FFFF) } }

end Sys2Proof.Machine
end

