-- ==== Sys2Proof/Machine/Domains.lean ====
section
/-! DEFINITION. Tick generators and bridges (spec/08 R242 to R256). -/

namespace Sys2Proof.Machine

/-! ## Tick generators (08 R242 to R246) -/

def setGen (x : Dom) (g : Gen) (s : State) : State := { s with tim := { s.tim with gens := pdSet s.tim.gens x g } }
def genRefuse (x : Dom) (code : Nat) (s : State) : State := fset s (TIM_DOM_STATUS (domNo x)) TIM_DOM_STATUS_refusal code

/-- 08 R244: the first index: the one asked for, or the earliest that begins 1 ms from now or later. -/
def firstIndex (s : State) (x : Dom) (f : Nat) : Nat :=
  let early := indexAt s x f (s.tim.freiz + msU) true
  let want := get64 s (TIM_DOM_START_LO (domNo x)) (TIM_DOM_START_HI (domNo x))
  if want = 0 ∨ want < early then early else want

/-- 08 R243, R244: start. -/
def genStart (x : Dom) (s : State) : State :=
  let cfg := rd s (TIM_DOM_CFG (domNo x))
  let rate := wget cfg TIM_DOM_CFG_rate
  if running s x then genRefuse x 3 s
  else if 5 < rate then genRefuse x 2 s
  else
    let indep := x == .C && wbit cfg TIM_DOM_CFG_independent
    let s1 := islandsResume s
    let s0 := if indep then s1 else { s1 with tim := { s1.tim with rho := pdSet s1.tim.rho x 0 } }
    let n := firstIndex s0 x (rateHz rate)
    let due := if indep then s.tim.elapsed + (tickTime s0 x (rateHz rate) n - s.tim.freiz) else 0
    let s2 := setGen x ⟨true, rate, indep, n, none, due⟩ s0
    let k := TIM_DOM_STATUS (domNo x)
    genRefuse x 0 (fset (fset s2 k TIM_DOM_STATUS_running 1) k TIM_DOM_STATUS_independent (b2n indep))

/-- 08 R245: a unit is bound to the domain. -/
def domBound (s : State) (x : Dom) : Bool :=
  s.scn.sDom.any (fun e => e.2 == some x) || s.scn.dDom.any (fun e => e.2 == some x) ||
  (List.range 64).any (fun j => coreDom s j == some x) || s.prt.sides.any (fun (i, _) => sideDom s i == some x) ||
  s.net.rx.any (fun (f, r) => r.isSome && cfgDom (flowCfg s f) == some x) ||
  s.net.tx.any (fun (f, r) => r.isSome && cfgDom (flowCfg s (f + 1024)) == some x) ||
  s.prt.bridges.any (fun (_, b) => match b with | some b => b.inDom == x || b.outDom == x | none => false)

/-- 08 R245: stop. -/
def genStop (x : Dom) (s : State) : State :=
  if domBound s x then genRefuse x 1 s
  else genRefuse x 0 (fset (setGen x { genOf s x with running := false } s) (TIM_DOM_STATUS (domNo x)) TIM_DOM_STATUS_running 0)

/-- A write to TIM_DOM_CTRL: start, then stop (log 35, DESIGN CHOICE). -/
def domCtrl (x : Dom) (w : W32) (s : State) : State :=
  let s1 := if wbit w TIM_DOM_CTRL_start then genStart x s else s
  if wbit w TIM_DOM_CTRL_stop then genStop x s1 else s1

/-! ## Bridges (08 R247 to R256) -/

def setBridge (b : Nat) (v : Option Bridge) (s : State) : State := { s with prt := { s.prt with bridges := smSet none s.prt.bridges b v } }
def brState (s : State) (b : Nat) : Nat := fget s (PRT_BR_STATUS b) PRT_BR_STATUS_state
def setBrState (b v : Nat) (s : State) : State := fset s (PRT_BR_STATUS b) PRT_BR_STATUS_state v
def brSTOPPED : Nat := 0
def brWAITING : Nat := 1
def brRUNNING : Nat := 2
def brSTOPPING : Nat := 3

/-- 08 R249: latency of a locked bridge by output rate code. -/
def brLo (code : Nat) : Nat :=
  match code with | 0 => 56 | 1 => 60 | 2 => 111 | 3 => 120 | 4 => 221 | _ => 240
/-- 1.25 ms in output samples, rounded to nearest. -/
def brLat (async : Bool) (code : Nat) : Nat := if async then (rateHz code * 5 + 2000) / 4000 else brLo code

/-- f_in / f_out as a Q4.48 word, rounded to nearest: the increment an asynchronous bridge starts with (log 81, DESIGN CHOICE). -/
def ratioNominal (fin fout : Nat) : Nat := (fin * 2 ^ 48 + fout / 2) / fout

/-- 12 R389, 08 R254: this engine runs the ratio servos. -/
def ratioOwner (s : State) : Bool :=
  !isTwin s || isOwner s || (!roleB s && !bitOf s.twn.peerWord0.toNat 2)

/-- 08 R255: why a start is refused; 0: it is not. -/
def brRefusal (s : State) (b : Nat) : Nat :=
  match domOf (fget s (PRT_BR_CFG b) PRT_BR_CFG_in_domain), domOf (fget s (PRT_BR_CFG b) PRT_BR_CFG_out_domain) with
  | some x, some y => if x = y then 1 else if running s x && running s y then 0 else 2
  | _, _ => 3

/-- 08 R255: the bridge starts with first output index `first` (0: the second output tick from now). -/
def brStartAt (b first : Nat) (s : State) : State :=
  match domOf (fget s (PRT_BR_CFG b) PRT_BR_CFG_in_domain), domOf (fget s (PRT_BR_CFG b) PRT_BR_CFG_out_domain) with
  | some x, some y =>
    let async := isIndep s x || isIndep s y
    let lat := brLat async (domRate s y)
    let v : Bridge :=
      { inDom := x, outDom := y, inD := fbit s (PRT_BR_CFG b) PRT_BR_CFG_in_dslot, slot := fget s (PRT_BR_CFG b) PRT_BR_CFG_in_slot,
        async := async, inRate := domRate s x, outRate := domRate s y,
        s := if first = 0 then (genOf s y).next + 1 else first, lat := lat,
        hist := [], first := none, stamps := [], u := none, r := ratioNominal (domHz s x) (domHz s y), words := [],
        own := false, base := 0, err := 0, integ := 0, steady := false, calm := 0, blocks := 0, block := 0,
        gain := 0, fadeFrom := 0, fadeTo := 0, k := 64, out := 0 }
    let k := PRT_BR_STATUS b
    let s1 := fset (fset (setBridge b (some v) s) k PRT_BR_STATUS_latency lat) k PRT_BR_STATUS_async (b2n async)
    setBrState b brWAITING (fset s1 k PRT_BR_STATUS_ext_ratio (b2n (async && !ratioOwner s)))
  | _, _ => s

/-- The fade of a bridge turns to `goal`. -/
def brFade (goal : Int) (v : Bridge) : Bridge := { v with fadeFrom := v.gain, fadeTo := goal, k := 0 }

/-- A write to PRT_BR_CTRL (08 R255, R256). -/
def brCtrl (b : Nat) (w : W32) (s : State) : State :=
  let s1 := if wbit w PRT_BR_CTRL_start ∧ brState s b = brSTOPPED then
      let code := brRefusal s b
      let s' := fset s (PRT_BR_STATUS b) PRT_BR_STATUS_refusal code
      if code = 0 then brStartAt b (get64 s (PRT_BR_START_LO b) (PRT_BR_START_HI b)) s' else s'
    else s
  match smGet none s1.prt.bridges b with
  | some v =>
    if wbit w PRT_BR_CTRL_stop ∧ brState s1 b ≠ brSTOPPING then setBrState b brSTOPPING (setBridge b (some (brFade 0 v)) s1) else s1
  | none => s1

/-- 08 R255: the output of a locked bridge starts with the coming index `m`. -/
def brOutputStart (b m : Nat) (s : State) : State :=
  match smGet none s.prt.bridges b with
  | some v =>
    if !v.async ∧ brState s b = brWAITING ∧ v.s + v.lat ≤ m then setBrState b brRUNNING (setBridge b (some (brFade unityG v)) s) else s
  | none => s
def doBridgeOutputStart (b : Fin 256) (s : State) : State :=
  match bridge s b with | some v => brOutputStart b (genOf s v.outDom).next s | none => s
/-- 08 R252: the position error of an asynchronous bridge has stayed below one input sample for 64 blocks. -/
def brSettled (b : Nat) (s : State) : State :=
  match smGet none s.prt.bridges b with
  | some v =>
    if v.async ∧ brState s b = brWAITING ∧ 64 ≤ v.calm then setBrState b brRUNNING (setBridge b (some (brFade unityG v)) s) else s
  | none => s
def doBridgeRunning (b : Fin 256) (s : State) : State := brSettled b s
/-- 08 R256: the stop fade has ended. -/
def brStopped (b : Nat) (s : State) : State := setBrState b brSTOPPED (setBridge b none s)

/-- 08 R252: the input position at the Freiz instant `t`, in units of 2^-48 samples, between the two input ticks around it. -/
def brPoint (v : Bridge) (t : Nat) : Option Nat :=
  v.stamps.findSome? (fun (i, a) =>
    let b := smGet 0 v.stamps (i + 1)
    if a ≤ t + 1 ∧ t + 1 < b then some (i * 2 ^ 48 + (t + 1 - a) * 2 ^ 48 / (b - a)) else none)

/-- 08 R252: the error of position `u` on an output tick: against the input position 1.25 ms before the tick. -/
def brError (s : State) (v : Bridge) (u : Nat) : Option Int :=
  (brPoint v (s.tim.freiz - secU / 800)).map (fun p => (p : Int) - u)

/-- 08 R252: the increment the PI loop forms, as a Q4.48 word; the two gains are open (log 81, DESIGN CHOICE). -/
def brServo (v : Bridge) : Nat :=
  let kp := Config.servoKp v.inRate v.outRate
  let ki := Config.servoKi v.inRate v.outRate
  Nat.min (2 ^ 52 - 1) (v.base + roundShift (kp * v.err + ki * v.integ) 48).toNat

/-- 08 R253: the ratio word of block `j`. -/
def ratioWordOf (b j r : Nat) : BitVec 64 := BitVec.ofNat 64 (b * 2 ^ 56 + j % 16 * 2 ^ 52 + r)

/-- 08 R251 to R254, 10 R328: block `j` of an asynchronous bridge starts. The servo, from the last increment applied when it
takes over, forms the increment of block j + 2; the word of block j + 1 goes to the twin; the word of block j is taken, or that
of j − 1 stands. -/
def brBlock (b j : Nat) (s : State) : State :=
  match smGet none s.prt.bridges b with
  | none => s
  | some v =>
    let own := ratioOwner s
    let v0 := if own && !v.own then { v with base := v.r, integ := 0 } else v
    let v1 := { v0 with own := own, integ := v0.integ + v0.err }
    let words := if own then smSet 0 v1.words (j + 2) (brServo v1 + 1) else v1.words
    let next := smGet 0 words (j + 1)
    let s1 := if own && isTwin s && decide (next ≠ 0) then
        daxOwn s 0 { type := 0x21, dest := 0, bcast := false, hops := 0, src := 0,
                     body := [ratioWordOf b (j + 1) (next - 1)] }
      else s
    let got := smGet 0 words j
    let s2 := if got = 0 ∧ !own then cnt s1 (PRT_BR_RATIO_LATE b) else s1
    let s3 := fset s2 (PRT_BR_STATUS b) PRT_BR_STATUS_ext_ratio (b2n !own)
    setBridge b (some { v1 with words := smDrop words 0 (j + 1), r := if got = 0 then v.r else got - 1, blocks := v.blocks + 1, block := j,
                                steady := true, calm := if v.steady then v.calm + 1 else 0 }) s3

/-- The block that the coming index `m` begins. -/
def brBlockDue (v : Bridge) (m : Nat) : Bool := v.async && decide (v.s ≤ m) && decide (v.blocks = 0 ∨ v.block < m / 64)
def doBridgeBlock (b : Fin 256) (s : State) : State :=
  match bridge s b with
  | some v => let m := (genOf s v.outDom).next; if brBlockDue v m then brBlock b (m / 64) s else s
  | none => s

/-- 08 R253, R254: a received ratio word. Block numbers come modulo 16; the next such block from the one in progress. -/
def ratioWord (w : BitVec 64) (s : State) : State :=
  let b := bitsOf w.toNat 56 8
  match smGet none s.prt.bridges b with
  | some v =>
    if v.async && !ratioOwner s then
      let base := if v.blocks = 0 then v.s / 64 else v.block
      let j := base + (bitsOf w.toNat 52 4 + 16 - base % 16) % 16
      setBridge b (some { v with words := smSet 0 v.words j (bitsOf w.toNat 0 52 + 1) }) s
    else s
  | none => s
/-- 08 R254: the words of a RATIO message from the twin. -/
def ratioMsg (l : Nat) (body : List (BitVec 64)) (s : State) : State :=
  if l = 0 ∧ isTwin s ∧ fget s (DAX_LINK_STATUS 0) DAX_LINK_STATUS_state = 5 then body.foldl (fun s w => ratioWord w s) s else s

/-! ### Samples -/

/-- 08 R247: the input sample that a tick of the input domain has made known: its index and value. A bus return's value
on the ring of tick n is known when its column job has ended, on tick n + 1. -/
def brInput (s : State) (v : Bridge) (n : Nat) : Nat × S64 :=
  if v.inD then (n, if domD s v.slot = some v.inDom then pipe s pO3old v.slot else 0)
  else if domS s v.slot ≠ some v.inDom then (n, 0)
  else
    (if occCode s v.slot / 65536 = 8 then n - 1 else n, ringVal s v.slot)

/-- 08 R255: the first input index captured. -/
def brCapture (s : State) (v : Bridge) (n : Nat) : Option Nat :=
  match v.first with
  | some f => some f
  | none =>
    if v.async then (if v.s ≤ nowIdx s v.outDom + v.lat then some n else none)
    else
      let p := rateHz v.inRate
      let q := rateHz v.outRate
      some (((v.s - v.lat) * p + q - 1) / q)

/-- A tick `n` of a bridge's input domain, after the ring has taken its values. -/
def brInTick (n b : Nat) (s : State) : State :=
  match smGet none s.prt.bridges b with
  | none => s
  | some v =>
    let first := brCapture s v n
    let (i, x) := brInput s v n
    let keep := match first with | some f => decide (f ≤ i) | none => false
    let h := smDrop v.hist 0 (n - 600)
    setBridge b (some { v with first := first, hist := if keep then smSet 0 h i x else h,
                               stamps := smSet 0 (smDrop v.stamps 0 (n - 600)) n (s.tim.freiz + 1) }) s

/-- Rows of 64-bit sums: the filter over taps −W + 1 … W around input index `i0`, with coefficient `c tap`. -/
def brSum (v : Bridge) (i0 w : Nat) (c : Nat → Int) : Int :=
  (List.range (2 * w)).foldl (fun acc t =>
    let i := i0 + t + 1
    if i < w then acc else acc + (smGet 0 v.hist (i - w)).toInt * c t) 0

/-- 08 R249: output sample `m` of a locked bridge. -/
def brLocked (v : Bridge) (m : Nat) : S64 × Bool :=
  if v.inRate = v.outRate then (if m < v.lat then 0 else smGet 0 v.hist (m - v.lat), false)
  else if m < v.lat then (0, false)
  else
    let g := Nat.gcd (rateHz v.inRate) (rateHz v.outRate)
    let p := rateHz v.inRate / g
    let q := rateHz v.outRate / g
    let u := (m - v.lat) * p
    let w := v.lat * p / q - 2
    storeVal (brSum v (u / q) w (fun t => (Config.bridgeCoef v.inRate v.outRate false (u % q) t).toInt))

/-- 08 R251: an output sample of an asynchronous bridge at position `u`. The source does not say how a coefficient with 24 more
fraction bits meets A128: the products are summed exactly, and the sum is rounded to nearest even by 24 bits before its store
(log 152, DESIGN CHOICE). -/
def brAsync (v : Bridge) (u : Nat) : S64 × Bool :=
  let w := rateHz v.inRate / 800 - 2
  let frac := u % 2 ^ 48
  let ph := frac / 2 ^ 38
  let f : Int := (frac / 2 ^ 14 % 2 ^ 24 : Nat)
  let c := fun (p t : Nat) => (Config.bridgeCoef v.inRate v.outRate true p t).toInt
  storeVal (roundShift (brSum v (u / 2 ^ 48) w (fun t => c ph t * (2 ^ 24 - f) + c (ph + 1) t * f)) 24)

/-- 08 R251, R252: an asynchronous bridge moves to its position on an output tick and takes the error there. -/
def brMove (s : State) (v : Bridge) : Bridge :=
  let u := match v.u with
    | some u => u + v.r
    | none => nowIdx s v.inDom * 2 ^ 48 - rateHz v.inRate * 2 ^ 48 / 800
  match brError s v u with
  | some e => { v with u := some u, err := e, steady := v.steady && decide (e.natAbs < 2 ^ 48) }
  | none => { v with u := some u, steady := false }

/-- A tick `m` of a bridge's output domain: the value its occupant carries. Before its first index a bridge gives zero, and a
stop fades from the tick after its write all the same (08 R256). -/
def brOutTick (m b : Nat) (s : State) : State :=
  let s0 := brSettled b (brOutputStart b m s)
  let s1 := match smGet none s0.prt.bridges b with | some v => if brBlockDue v m then brBlock b (m / 64) s0 else s0 | none => s0
  match smGet none s1.prt.bridges b with
  | none => s1
  | some v0 =>
    let begun := decide (v0.s ≤ m)
    let v := if begun && v0.async then brMove s1 v0 else v0
    let (raw, sat) := if !begun then (0, false) else if v.async then brAsync v (v.u.getD 0) else brLocked v m
    let fading := decide (v.k < 64)
    let k := if fading then v.k + 1 else v.k
    let g := if fading then rampGain v.fadeFrom v.fadeTo k 64 else v.gain
    let s2 := setBridge b (some { v with k := k, gain := g, out := gained g raw }) s1
    let s3 := if sat then cnt s2 PRT_BR_SAT else s2
    if fading ∧ k = 64 ∧ brState s3 b = brSTOPPING then addDue s3 (.brStopped b) else s3

def bridgesOf (s : State) (p : Bridge → Bool) : List Nat :=
  (s.prt.bridges.filter (fun (_, b) => match b with | some b => p b | none => false)).map (·.1)
/-- Bridges on a tick `n` of domain `x`: those that read it, those that feed it. -/
def bridgesIn (x : Dom) (n : Nat) (s : State) : State :=
  if prtOn s then (bridgesOf s (fun b => b.inDom == x)).foldl (fun s b => brInTick n b s) s else s
def bridgesOut (x : Dom) (n : Nat) (s : State) : State :=
  if prtOn s then (bridgesOf s (fun b => b.outDom == x)).foldl (fun s b => brOutTick n b s) s else s
def brVal (s : State) (b : Nat) : S64 := match smGet none s.prt.bridges b with | some v => v.out | none => 0

/-- 18 R541: running bridges start again under R255 with PRT_BR_START taken as 0. -/
def bridgesRestart (s : State) : State :=
  (s.prt.bridges.map (·.1)).foldl (fun s b =>
    if brState s b = brSTOPPING then brStopped b s
    else match smGet none s.prt.bridges b with
      | some v => if running s v.inDom && running s v.outDom then brRestart b v s else brStopped b s
      | none => s) s
where
  /-- A new start with the configuration latched before. -/
  brRestart (b : Nat) (v : Bridge) (s : State) : State :=
    setBrState b brWAITING (setBridge b (some { v with
      s := (genOf s v.outDom).next + 1, hist := [], first := none, stamps := [], u := none, r := ratioNominal (rateHz v.inRate) (rateHz v.outRate),
      words := [], own := false, base := 0, err := 0, integ := 0, steady := false, calm := 0, blocks := 0, block := 0,
      gain := 0, fadeFrom := 0, fadeTo := 0, k := 64, out := 0 }) s)

end Sys2Proof.Machine
end

