-- ==== Sys2Proof/Machine/Network.lean ====
section
/-! DEFINITION. Network ports, media flows, multicast membership (spec/09 R276 to R301). Management messages are executed
in Machine/Commands.lean. Frames are octets from the destination address on, without the frame check sequence. -/

namespace Sys2Proof.Machine

/-! ## Octets -/

/-- The big-endian number in `n` octets from offset `i`. -/
def oct (l : List Byte) (i n : Nat) : Nat := beVal ((l.drop i).take n)
/-- Sum of the 16-bit words of octets, an odd last octet padded with zero. -/
def sum16 : List Byte → Nat
  | [] => 0
  | [a] => a.toNat * 256
  | a :: b :: t => a.toNat * 256 + b.toNat + sum16 t
/-- The Internet checksum over octets, with `extra` added to the sum. -/
def inetSum (extra : Nat) (l : List Byte) : Nat :=
  let s := sum16 l + extra
  let f := s % 65536 + s / 65536
  let f := f % 65536 + f / 65536
  65535 - (f % 65536 + f / 65536) % 65536
/-- IPv4 addresses are held IPv4-mapped. -/
def mapped (a : Nat) : Nat := 0xFFFF * 2 ^ 32 + a % 2 ^ 32
def isV4 (a : Nat) : Bool := a / 2 ^ 32 == 0xFFFF
/-- The sum of a pseudo header. -/
def pseudo (v6 : Bool) (src dst len proto : Nat) : Nat :=
  sum16 (if v6 then beBytes 16 src ++ beBytes 16 dst ++ beBytes 4 len ++ beBytes 4 proto
         else beBytes 4 src ++ beBytes 4 dst ++ [0, BitVec.ofNat 8 proto] ++ beBytes 2 len)
def isGroupAddr (a : Nat) : Bool := if isV4 a then bitsOf a 28 4 == 14 else bitsOf a 120 8 == 255

/-! ## Ports (09 R276 to R279) -/

def netOn (s : State) : Bool := domOn s 11
def portMac (s : State) (p : Nat) : Nat := get64 s (NET_PORT_MAC_LO p) (NET_PORT_MAC_HI p) % 2 ^ 48
def portV4 (s : State) (p : Nat) : Nat := (rd s (NET_PORT_IPV4 p)).toNat
def portV6 (s : State) (p : Nat) : Nat :=
  (List.range 4).foldl (fun a j => a + (rd s (NET_PORT_IPV6 p j)).toNat * 2 ^ (32 * j)) 0
def portUp (s : State) (p : Nat) : Bool := fbit s (NET_PORT_STATUS p) NET_PORT_STATUS_up
def portPresent (s : State) (p : Nat) : Bool := fbit s (NET_PORT_STATUS p) NET_PORT_STATUS_present
def laneSupply (s : State) : Bool := !(s.pin.absent.contains .vddSds || s.pin.absent.contains .vddhSds)
def jumbo (s : State) (p : Nat) : Bool := fbit s (NET_GRP_CFG (p / 4)) NET_GRP_CFG_jumbo
/-- 09 R276: the mode provides the port; its rate in bits per second. -/
def modePort (mode p : Nat) : Bool := match mode with | 0 => true | 1 => true | 2 => p % 2 == 0 | _ => p % 4 == 0
def modeRate (mode : Nat) : Nat := match mode with | 0 => 10000000000 | 1 => 25000000000 | 2 => 50000000000 | _ => 100000000000
def grpMode (s : State) (g : Nat) : Nat := smGet 0 s.net.grpMode g

/-- 09 R276: the ports of group `g` use RS-FEC. -/
def rsFec (s : State) (g : Nat) : Bool :=
  match grpMode s g with | 0 => false | 1 => fget s (NET_GRP_CFG g) NET_GRP_CFG_fec == 2 | _ => true
/-- NET_PORT_STATUS.fec_lock of a port: RS-FEC is aligned while the port is UP, or none is in use. -/
def fecShow (p : Nat) (s : State) : State :=
  fset s (NET_PORT_STATUS p) NET_PORT_STATUS_fec_lock (b2n (portPresent s p && (portUp s p || !rsFec s (p / 4))))

/-- 09 R278: the port goes DOWN. -/
def portDown (p : Nat) (s : State) : State :=
  let k := NET_PORT_STATUS p
  let s1 := if portUp s p then cnt s (NET_PORT_LINK_DOWN p) else s
  fecShow p (fset (fset s1 k NET_PORT_STATUS_up 0) k NET_PORT_STATUS_fault 1)
/-- 09 R276: a write to NET_GRP_CFG. -/
def grpCfg (m g : Nat) (w : W32) (s : State) : State :=
  let was := fbit s (NET_GRP_CFG g) NET_GRP_CFG_enable
  let s1 := swWrite s m (NET_GRP_CFG g) w
  let now := fbit s1 (NET_GRP_CFG g) NET_GRP_CFG_enable
  if now && !was then
    let mode := fget s1 (NET_GRP_CFG g) NET_GRP_CFG_mode
    let s2 := { s1 with net := { s1.net with grpMode := smSet 0 s1.net.grpMode g mode } }
    (List.range 4).foldl (fun s i => fecShow (4 * g + i) (wr s (NET_PORT_STATUS (4 * g + i)) (BitVec.ofNat 32 (if modePort mode i then 8 else 0)))) s2
  else if was && !now then
    (List.range 4).foldl (fun s i =>
      wr (if portUp s (4 * g + i) then cnt s (NET_PORT_LINK_DOWN (4 * g + i)) else s) (NET_PORT_STATUS (4 * g + i)) 0) s1
  else if now then (List.range 4).foldl (fun s i => fecShow (4 * g + i) s) s1
  else s1
def doPortUp (p : Fin 8) (s : State) : State :=
  if netOn s && portPresent s p && laneSupply s then
    let k := NET_PORT_STATUS p
    fecShow p (fset (fset s k NET_PORT_STATUS_up 1) k NET_PORT_STATUS_fault 0)
  else s
def doPortDown (p : Fin 8) (s : State) : State := if netOn s && portPresent s p then portDown p s else s
/-- 20 R581: the lanes lose their signal. -/
def netSignalLost (s : State) : State := (List.range 8).foldl (fun s p => if portUp s p then portDown p s else s) s

/-! ## Counters (15 R470 target 0x0C) -/

/-- Key of a 64-bit counter: kind 0 port, 1 receive flow, 2 transmit flow; its number; one leg or all; 0 packets received,
1 bytes received, 2 packets sent, 3 bytes sent. -/
def netCntKey (kind num : Nat) (leg : Option Nat) (c : Nat) : Nat :=
  kind * 65536 + (match leg with | none => 0 | some l => 16384 + 4096 * l) + 4 * num + c
def netCount (kind num : Nat) (leg : Option Nat) (sent : Bool) (bytes : Nat) (s : State) : State :=
  let c := if sent then 2 else 0
  let add := fun (m : SMap (BitVec 64)) (k n : Nat) => smMod 0 m k (· + BitVec.ofNat 64 n)
  { s with net := { s.net with counters := add (add s.net.counters (netCntKey kind num leg c) 1) (netCntKey kind num leg (c + 1)) bytes } }

/-! ## Sending -/

/-- The time a port takes over `n` octets, in the units of elapsed time. -/
def lineTime (s : State) (p n : Nat) : Nat := 8 * n * secU / modeRate (grpMode s (p / 4))
/-- 09 R299: a frame of `n` octets can enter the port's transmit queue before `span` has passed: the queue drains at the port's
rate, each frame with its check sequence, preamble and gap. -/
def portRoom (s : State) (p n span : Nat) : Bool :=
  decide (smGet 0 s.net.txFree p + lineTime s p (n + 24) ≤ s.tim.elapsed + span + lineTime s p Config.portQueue)
/-- The frame joins the queue. -/
def portBusy (p n : Nat) (s : State) : State :=
  { s with net := { s.net with txFree := smSet 0 s.net.txFree p (Nat.max (smGet 0 s.net.txFree p) s.tim.elapsed + lineTime s p (n + 24)) } }

/-- 13 R415: the words of region 9 as the model numbers them: position i of channel c is word 4,096 × c + i, and the packet queue of a
port is one word after them (log 55, DESIGN CHOICE). -/
def queueWord (p : Nat) : Nat := 2 ^ 24 + p

/-- 09 R278, R279: a frame leaves a port; false: it is dropped. -/
def netSend (p : Nat) (l : List Byte) (s : State) : State × Bool :=
  if netOn s && portUp s p && decide (portMac s p ≠ 0) then
    let f := l ++ List.replicate (60 - l.length) 0
    (emit (portBusy p f.length (netCount 0 p none true (f.length + 4) s)) (.packet p (f.map (·.toNat))), true)
  else (s, false)
/-- An Ethernet frame with at most one tag. -/
def ethFrame (dst src : Nat) (tag : Option Nat) (etype : Nat) (l : List Byte) : List Byte :=
  beBytes 6 dst ++ beBytes 6 src ++ (match tag with | some t => beBytes 2 0x8100 ++ beBytes 2 t | none => []) ++ beBytes 2 etype ++ l
/-- 09 R280: an IPv4 packet, DF set; `opts` are whole words of options. -/
def ipv4Packet (src dst ttl tos proto : Nat) (opts l : List Byte) : List Byte :=
  let hl := 20 + opts.length
  let hdr := fun (c : Nat) => beBytes 1 (0x40 + hl / 4) ++ beBytes 1 tos ++ beBytes 2 (hl + l.length) ++ [0, 0, 0x40, 0] ++
    beBytes 1 ttl ++ beBytes 1 proto ++ beBytes 2 c ++ beBytes 4 src ++ beBytes 4 dst ++ opts
  hdr (inetSum 0 (hdr 0)) ++ l
def ipv6Packet (src dst hop tc nh : Nat) (l : List Byte) : List Byte :=
  beBytes 4 (6 * 2 ^ 28 + tc * 2 ^ 20) ++ beBytes 2 l.length ++ beBytes 1 nh ++ beBytes 1 hop ++ beBytes 16 src ++ beBytes 16 dst ++ l
/-- A UDP datagram, with its checksum or with 0. -/
def udpData (v6 sums : Bool) (src dst sport dport : Nat) (l : List Byte) : List Byte :=
  let n := 8 + l.length
  let d := fun (c : Nat) => beBytes 2 sport ++ beBytes 2 dport ++ beBytes 2 n ++ beBytes 2 c ++ l
  let c := inetSum (pseudo v6 src dst n 17) (d 0)
  d (if sums then (if c = 0 then 65535 else c) else 0)
/-- The MAC address of a group (RFC 1112, RFC 2464). -/
def groupMac (a : Nat) : Nat := if isV4 a then 0x0100_5E00_0000 + a % 2 ^ 23 else 0x3333_0000_0000 + a % 2 ^ 32

/-- 09 R281, 10 R329: an item joins the control queue. -/
def ctlPut (src : Nat) (data : List Nat) (time addr : Option Nat) (s : State) : State :=
  { s with net := { s.net with ctlq := s.net.ctlq ++ [⟨src, data, time, addr⟩] } }

/-! ## Legs (09 R289) -/

/-- A leg descriptor as one number, byte 0 lowest. -/
def legWord (l : List W32) (leg : Nat) : Nat := ((l.drop (16 * leg)).take 16).foldr (fun w acc => w.toNat + 2 ^ 32 * acc) 0
def lgDst (d : Nat) : Nat := bitsOf d 0 128
def lgSrc (d : Nat) : Nat := bitsOf d 128 128
def lgMac (d : Nat) : Nat := bitsOf d 256 48
def lgDport (d : Nat) : Nat := bitsOf d 304 16
def lgSport (d : Nat) : Nat := bitsOf d 320 16
def lgVlan (d : Nat) : Nat := bitsOf d 336 12
def lgTci (d : Nat) : Nat := bitsOf d 348 3 * 8192 + lgVlan d
def lgTagged (d : Nat) : Bool := bitOf d 351
def lgDscp (d : Nat) : Nat := bitsOf d 352 6
def lgTtl (d : Nat) : Nat := if bitsOf d 360 8 = 0 then 64 else bitsOf d 360 8
def lgPort (d : Nat) : Nat := bitsOf d 368 3
def lgV6 (d : Nat) : Bool := bitOf d 376
def lgFilter (d : Nat) : Bool := bitOf d 377
def lgSums (d : Nat) : Bool := bitOf d 378
/-- The match key of a receive leg. -/
def legKey (d : Nat) : Nat × Bool × Nat × Nat × Nat × Option Nat :=
  (lgPort d, lgTagged d, lgVlan d, lgDst d, lgDport d, if lgFilter d then some (lgSrc d) else none)
def legEn (cfg : W32) (l : Nat) : Bool := bitOf (wget cfg NET_RXF_CFG_leg_en) l
/-- Enabled legs of a configuration, with their descriptors. -/
def legsOn (cfg : W32) (w : List W32) : List (Nat × Nat) := ((List.range 2).filter (legEn cfg)).map (fun l => (l, legWord w l))

/-- 12 R370, R373, R374: the legs on which a transmit flow sends: a twin's own leg, and none of an engine that has withdrawn or is
the arbiter. -/
def txLegs (s : State) (cfg : W32) (w : List W32) : List (Nat × Nat) :=
  if twnMode s = 3 ∨ (isTwin s ∧ s.twn.withdrawn) then []
  else if isTwin s then (legsOn cfg w).filter (fun (l, _) => l == b2n (roleB s))
  else legsOn cfg w

/-- Running flows with their latched words. -/
def rxFlows (s : State) : List (Nat × RxFlow) := s.net.rx.filterMap (fun (f, r) => r.map (fun r => (f, r)))
def txFlows (s : State) : List (Nat × TxFlow) := s.net.tx.filterMap (fun (f, r) => r.map (fun r => (f, r)))
def rxFlow (s : State) (f : Nat) : Option RxFlow := smGet none s.net.rx f
def txFlow (s : State) (f : Nat) : Option TxFlow := smGet none s.net.tx f
def setRx (f : Nat) (r : Option RxFlow) (s : State) : State := { s with net := { s.net with rx := smSet none s.net.rx f r } }
def setTx (f : Nat) (r : Option TxFlow) (s : State) : State := { s with net := { s.net with tx := smSet none s.net.tx f r } }

def sampleBytes (cfg : W32) : Nat := if wbit cfg NET_RXF_CFG_l16 then 2 else 3
def rxS (r : RxFlow) : Nat := wget r.timing NET_RXF_TIMING_spp
def txS (r : TxFlow) : Nat := wget r.pkt NET_TXF_PKT_spp
/-! ## Membership (09 R301) -/

/-- What the running receive flows ask for on each port: group and sources. -/
def memDesired (s : State) : List (Nat × Nat × Option (List Nat)) :=
  let legs := ((rxFlows s).map (fun (_, r) => (legsOn r.cfg r.legs).map (·.2))).flatten.filter (fun d => isGroupAddr (lgDst d))
  let keys := (legs.map (fun d => (lgPort d, lgDst d))).eraseDups
  keys.map (fun (p, g) =>
    let mine := legs.filter (fun d => lgPort d == p && lgDst d == g)
    (p, g, if mine.all lgFilter then some ((mine.map lgSrc).eraseDups) else none))
def sameSources (a b : Option (List Nat)) : Bool :=
  match a, b with
  | none, none => true
  | some x, some y => x.all y.contains && y.all x.contains
  | _, _ => false
/-- The membership states follow the flows; a change has two reports to send. -/
def memUpdate (s : State) : State :=
  let want := memDesired s
  let now := fun (p g : Nat) => match want.find? (fun e => e.1 == p && e.2.1 == g) with | some e => e.2.2 | none => some []
  let old := s.net.members.map (fun m =>
    if sameSources (now m.port m.group) m.sources then m
    else { m with sources := now m.port m.group, changes := m.changes ++ [⟨m.sources, now m.port m.group, 2⟩] })
  let new := (want.filter (fun e => !s.net.members.any (fun m => m.port == e.1 && m.group == e.2.1))).map
    (fun e => (⟨e.1, e.2.1, e.2.2, [⟨some [], e.2.2, 2⟩], false⟩ : Member))
  { s with net := { s.net with members := old ++ new } }

/-- Group records of a state change: type and sources. -/
def changeRecords (m : MemChange) : List (Nat × List Nat) :=
  match m.old, m.new with
  | some _, none => [(4, [])]
  | none, some b => [(3, b)]
  | none, none => []
  | some a, some b =>
    let add := b.filter (fun v => !a.contains v)
    let del := a.filter (fun v => !b.contains v)
    (if add.isEmpty then [] else [(5, add)]) ++ (if del.isEmpty then [] else [(6, del)])
/-- The record of the current state. -/
def stateRecord (m : Member) : List (Nat × List Nat) := match m.sources with | none => [(2, [])] | some l => [(1, l)]

/-- The elapsed time for which an older querier counts as present after its query: twice 125 s, and its response time (RFC 3376,
RFC 3810; log 94, PRESUMED). -/
def olderSpan (resp : Nat) : Nat := 250 * secU + resp
/-- 09 R301: the version of the oldest querier present on a port; 0: none older than the engine's own. -/
def compatVer (s : State) (p : Nat) (v6 : Bool) : Nat :=
  let k := 8 * p + 4 * b2n v6
  if s.tim.elapsed < smGet 0 s.net.compat (k + 1) then 1
  else if s.tim.elapsed < smGet 0 s.net.compat (k + 2) then 2
  else 0

/-- A report of a group's records, in the version that older queriers select. -/
def memFrame (s : State) (p g : Nat) (recs : List (Nat × List Nat)) (leave : Bool) : List Byte :=
  let v6 := !isV4 g
  let compat := compatVer s p v6
  let mac := portMac s p
  let v3 := compat = 0 ∨ (v6 ∧ compat ≠ 1)
  if v6 then
    let body := if v3 then
        beBytes 1 143 ++ [0, 0, 0, 0, 0] ++ beBytes 2 recs.length ++
          ((recs.map (fun (t, l) => beBytes 1 t ++ [0] ++ beBytes 2 l.length ++ beBytes 16 g ++ (l.map (beBytes 16)).flatten)).flatten)
      else beBytes 1 (if leave then 132 else 131) ++ [0, 0, 0, 0, 0, 0, 0] ++ beBytes 16 g
    let dst := if v3 then 0xFF02 * 2 ^ 112 + 0x16 else if leave then 0xFF02 * 2 ^ 112 + 2 else g
    let c := inetSum (pseudo true (portV6 s p) dst body.length 58) body
    let icmp := body.take 2 ++ beBytes 2 c ++ body.drop 4
    ethFrame (groupMac dst) mac none 0x86DD (ipv6Packet (portV6 s p) dst 1 0 0 ([58, 0, 5, 2, 0, 0, 1, 0] ++ icmp))
  else
    let ga := g % 2 ^ 32
    let body := if v3 then
        beBytes 1 0x22 ++ [0, 0, 0, 0, 0] ++ beBytes 2 recs.length ++
          ((recs.map (fun (t, l) => beBytes 1 t ++ [0] ++ beBytes 2 l.length ++ beBytes 4 ga ++ (l.map (beBytes 4)).flatten)).flatten)
      else beBytes 1 (if compat = 1 then 0x12 else if leave then 0x17 else 0x16) ++ [0, 0, 0] ++ beBytes 4 ga
    let dst := if v3 then 0xE000_0016 else if leave then 0xE000_0002 else ga
    let igmp := body.take 2 ++ beBytes 2 (inetSum 0 body) ++ body.drop 4
    ethFrame (groupMac (mapped dst)) mac none 0x0800 (ipv4Packet (portV4 s p) dst 1 0xC0 2 [0x94, 4, 0, 0] igmp)

def memberOf (s : State) (p g : Nat) : Option Member := s.net.members.find? (fun m => m.port == p && m.group == g)
def setMember (v : Member) (s : State) : State :=
  { s with net := { s.net with members := s.net.members.map (fun m => if m.port == v.port && m.group == v.group then v else m) } }
/-- The group operand of a row, held IPv4-mapped unless it is an IPv6 one. -/
def grpKey (g : BitVec 128) (v6 : Bool) : Nat := if v6 then g.toNat else mapped g.toNat
/-- One of the two reports of the oldest change that has `left_` to send goes out; a group that has been left ends with its last
report. IGMPv1 has no message for leaving. -/
def memReport (p g left_ : Nat) (s : State) : State :=
  match memberOf s p g with
  | none => s
  | some m =>
    match m.changes.find? (fun c => c.left_ == left_) with
    | none => s
    | some c =>
      let gone := decide (c.new = some [])
      let mute := gone && isV4 g && compatVer s p false == 1
      let s1 := if mute then s else (netSend p (memFrame s p g (changeRecords c) gone) s).1
      let rest := if left_ = 1 then m.changes.erase c else m.changes.map (fun e => if e == c then { e with left_ := left_ - 1 } else e)
      if rest.isEmpty ∧ m.sources = some [] then
        { s1 with net := { s1.net with members := s1.net.members.filter (fun e => !(e.port == p && e.group == g)) } }
      else setMember { m with changes := rest } s1
def doMembershipReport (p : Fin 8) (grp : BitVec 128) (v6 : Bool) (s : State) : State := memReport p (grpKey grp v6) 2 s
def doStateChangeReportRepeat (p : Fin 8) (grp : BitVec 128) (v6 : Bool) (s : State) : State := memReport p (grpKey grp v6) 1 s

/-- 09 R301: a query, for group `g` or (0) for all, with its response time. An older querier's version is followed while that
querier counts as present; a change of the version followed gives up the answers and reports that wait (RFC 3376, RFC 3810;
log 94, PRESUMED). -/
def memQuery (p g : Nat) (v6 : Bool) (ver resp : Nat) (s : State) : State :=
  let s1 := if ver = 1 ∨ (ver = 2 ∧ !v6) then
      { s with net := { s.net with compat := smSet 0 s.net.compat (8 * p + 4 * b2n v6 + ver) (s.tim.elapsed + olderSpan resp) } } else s
  let mine := fun (m : Member) => m.port == p && isV4 m.group == !v6
  let kept := s1.net.members.filter (fun m => !(mine m && m.sources == some []))
  let s2 := if compatVer s p v6 = compatVer s1 p v6 then s1
    else { s1 with net := { s1.net with members := kept.map (fun m => if mine m then { m with changes := [], queried := false } else m) } }
  { s2 with net := { s2.net with members := s2.net.members.map (fun m =>
      if mine m && (g == 0 || m.group == g) && !(m.sources == some []) then { m with queried := true } else m) } }
def doMembershipQuery (p : Fin 8) (grp : BitVec 128) (v6 : Bool) (ver : Fin 4) (s : State) : State :=
  if portUp s p then memQuery p (if grp = 0 then 0 else grpKey grp v6) v6 ver (10 * secU) s else s
/-- 09 R301: the delay of the answer has ended. -/
def doQueryResponse (p : Fin 8) (grp : BitVec 128) (v6 : Bool) (s : State) : State :=
  let mine := s.net.members.filter (fun m => m.port == p.val && m.queried && isV4 m.group == !v6 && (grp == 0 || m.group == grpKey grp v6))
  mine.foldl (fun s m => (netSend p (memFrame s p m.group (stateRecord m) false) (setMember { m with queried := false } s)).1) s

/-! ## Starting and stopping flows (09 R283, R284, R296, R300) -/

/-- 09 R300: the line rate of one transmit leg in bits per second, as a numerator over S. -/
def lineBits (cfg : W32) (S f : Nat) (d : Nat) : Nat :=
  (S * cfgChans cfg * sampleBytes cfg + 82 + (if lgV6 d then 20 else 0)) * 8 * f
/-- The sum of fractions, as numerator and denominator. -/
def fracSum (l : List (Nat × Nat)) : Nat × Nat := l.foldl (fun a q => (a.1 * q.2 + q.1 * a.2, a.2 * q.2)) (0, 1)
/-- 09 R284, R300: the line rates on each port stay within 90 %. -/
def bandwidthOk (s : State) (cfg : W32) (S : Nat) (w : List W32) : Bool :=
  let rate := fun (cfg : W32) (S : Nat) (d : Nat) => match cfgDom cfg with | some x => (lineBits cfg S (domHz s x) d, S) | none => (0, 1)
  (legsOn cfg w).all (fun (_, d) =>
    let p := lgPort d
    let mine := ((legsOn cfg w).filter (fun e => lgPort e.2 == p)).map (fun e => rate cfg S e.2)
    let others := ((txFlows s).map (fun (_, r) => ((legsOn r.cfg r.legs).filter (fun e => lgPort e.2 == p)).map (fun e => rate r.cfg (txS r) e.2))).flatten
    let (n, q) := fracSum (mine ++ others)
    decide (10 * n ≤ 9 * modeRate (grpMode s (p / 4)) * q))

/-- 09 R284: why the flow start is refused; 0: it is not. -/
def flowRefusal (s : State) (tx : Bool) (cfg : W32) (S : Nat) (w : List W32) : Nat :=
  let legs := legsOn cfg w
  match cfgDom cfg with
  | none => 1
  | some x =>
    let ch := cfgChans cfg
    let bytes := S * ch * sampleBytes cfg
    let lo := cfgBase cfg
    let ranges := if tx then (txFlows s).map (fun e => e.2.cfg) else (rxFlows s).map (fun e => e.2.cfg)
    let keys := ((rxFlows s).map (fun (_, r) => (legsOn r.cfg r.legs).map (fun e => legKey e.2))).flatten
    if !running s x then 1
    else if isIndep s x then 2
    else if !(domRate s x == 0 || domRate s x == 1 || domRate s x == 3) then 3
    else if ch = 0 ∨ 64 < ch ∨ S = 0 ∨ 384 < S ∨ (if legs.all (fun e => jumbo s (lgPort e.2)) && !legs.isEmpty then 8952 else 1440) < bytes then 4
    else if 4096 < lo + ch ∨ ranges.any (fun c => decide (lo < cfgBase c + cfgChans c) && decide (cfgBase c < lo + ch)) ∨
      (!tx ∧ legs.any (fun e => keys.contains (legKey e.2))) then 5
    else if legs.isEmpty ∨ legs.any (fun e => !portPresent s (lgPort e.2)) then 6
    else if tx ∧ !bandwidthOk s cfg S w then 7
    else 0

/-- 09 R288: a position of a running flow that another, with a lower map entry, keeps from delivering. -/
def conflictShow (s : State) : State :=
  (rxFlows s).foldl (fun s (f, r) =>
    let hit := (List.range (cfgChans r.cfg)).any (fun k =>
      let e := cfgBase r.cfg + k
      match chanFlowNow s (mapChan s e (playIdx s r)) with | some (_, e') => e' != e | none => false)
    if fbit s (NET_RXF_STATUS f) NET_RXF_STATUS_conflict = hit then s else fset s (NET_RXF_STATUS f) NET_RXF_STATUS_conflict (b2n hit)) s

/-- A write to NET_RXF_CTRL. -/
def rxfCtrl (f : Nat) (w : W32) (s : State) : State :=
  let k := NET_RXF_STATUS f
  let s1 := match wbit w NET_RXF_CTRL_start, rxFlow s f with
    | true, none =>
      let cfg := rd s (NET_RXF_CFG f)
      let timing := rd s (NET_RXF_TIMING f)
      let legs := (List.range 32).map (fun j => rd s (NET_RXLEG (2 * f + j / 16) (j % 16)))
      let code := flowRefusal s false cfg (wget timing NET_RXF_TIMING_spp) legs
      let s' := fset s k NET_RXF_STATUS_refusal code
      if code ≠ 0 then s'
      else
        let r : RxFlow := { cfg := cfg, timing := timing, ssrc := rd s (NET_RXF_SSRC f), legs := legs, high := none, window := [],
                            below := 0, lastWrite := none, lastLeg0 := none, lastLeg1 := none, stopReq := false }
        conflictShow (memUpdate (setRx f (some r) (wr s' k (BitVec.ofNat 32 1))))
    | _, _ => s
  match wbit w NET_RXF_CTRL_stop, rxFlow s1 f with
  | true, some r => setRx f (some { r with stopReq := true }) s1
  | _, _ => s1

/-- Flow map records of a flow that is no longer running land (09 R286). -/
def mapLandAll (flow : Nat) (s : State) : State :=
  let l := s.scn.mapWait.filter (fun e => e.2.2.1 == flow)
  l.foldl (fun s (e, ch, _, _) => fset s (NET_MAP e) NET_MAP_channel ch)
    { s with scn := { s.scn with mapWait := s.scn.mapWait.filter (fun e => e.2.2.1 != flow) } }
/-- Every channel that map entry `e` names for some index. -/
def mapAny (s : State) (e : Nat) : List Nat :=
  fget s (NET_MAP e) NET_MAP_channel :: (smGet [] s.scn.mapOld e).map (·.2) ++ (s.scn.mapWait.filter (fun w => w.1 == e)).map (fun w => w.2.1)
/-- 04 R121: with the first packet at or after their index `c`, flow map records land. -/
def mapPacket (flow m : Nat) (s : State) : State :=
  let l := s.scn.mapWait.filter (fun (_, _, fl, c) => fl == flow && decide (c ≤ m))
  if l.isEmpty then s
  else l.foldl (fun s (e, ch, _, _) =>
      let olds := (smGet [] s.scn.mapOld e).filter (fun o => decide (m ≤ o.1 + 8192))
      let s1 := { s with scn := { s.scn with mapOld := smSet [] s.scn.mapOld e (olds ++ [(m, fget s (NET_MAP e) NET_MAP_channel)]) } }
      fset s1 (NET_MAP e) NET_MAP_channel ch)
    { s with scn := { s.scn with mapWait := s.scn.mapWait.filter (fun e => !l.contains e) } }

/-- 09 R288, R296: the stop of a receive flow takes effect: the positions of the channels it delivers into are emptied, but not
those of a channel that another running flow delivers into. -/
def rxStopNow (f : Nat) (s : State) : State :=
  match rxFlow s f with
  | none => s
  | some r =>
    let rest := setRx f none s
    let chans := ((List.range (cfgChans r.cfg)).map (fun k =>
      (mapAny s (cfgBase r.cfg + k)).filter (fun c => match chanFlowNow rest c with | some (_, e) => decide (cfgBase r.cfg + k < e) | none => true))).flatten
    let gone := fun (e : Nat) => chans.contains (e / 4096)
    let s1 := { s with net := { s.net with play := s.net.play.filter (fun e => !gone e.1), chanVal := s.net.chanVal.filter (fun e => !chans.contains e.1) } }
    let s2 := wr (setRx f none s1) (NET_RXF_STATUS f) (BitVec.ofNat 32 (fget s1 (NET_RXF_STATUS f) NET_RXF_STATUS_refusal * 256))
    let s3 := { s2 with scn := { s2.scn with mapOld := smDrop s2.scn.mapOld (cfgBase r.cfg) (cfgBase r.cfg + cfgChans r.cfg) } }
    conflictShow (memUpdate (mapLandAll f s3))

/-- A write to NET_TXF_CTRL. -/
def txfCtrl (f : Nat) (w : W32) (s : State) : State :=
  let k := NET_TXF_STATUS f
  let stopped := fun (s : State) => fset (mapLandAll (f + 1024) (setTx f none s)) k NET_TXF_STATUS_state 0
  let s1 := match wbit w NET_TXF_CTRL_start, txFlow s f with
    | true, none =>
      let cfg := rd s (NET_TXF_CFG f)
      let pkt := rd s (NET_TXF_PKT f)
      let S := wget pkt NET_TXF_PKT_spp
      let legs := (List.range 32).map (fun j => rd s (NET_TXLEG (2 * f + j / 16) (j % 16)))
      let code := flowRefusal s true cfg S legs
      let s' := fset s k NET_TXF_STATUS_refusal code
      (match code, cfgDom cfg with
      | 0, some x =>
        let second := (genOf s x).next + 1
        let r : TxFlow := { cfg := cfg, pkt := pkt, ssrc := rd s (NET_TXF_SSRC f),
                            seed := BitVec.ofNat 64 (get64 s (NET_TXF_SEED_LO f) (NET_TXF_SEED_HI f)), legs := legs,
                            next := (second + S - 1) / S * S, stopReq := false }
        fset (setTx f (some r) s') k NET_TXF_STATUS_state 1
      | _, _ => s')
    | _, _ => s
  match wbit w NET_TXF_CTRL_stop, txFlow s1 f with
  | true, some r =>
    (match cfgDom r.cfg with
    | some x => if r.next ≤ nowIdx s1 x ∧ (genOf s1 x).last.isSome then setTx f (some { r with stopReq := true }) s1 else stopped s1
    | none => stopped s1)
  | _, _ => s1

/-! ## Receiving (09 R290 to R297) -/

/-- The value congruent to `v` modulo 2^bits that lies nearest to `near`. -/
def nearest (bits v : Nat) (near : Int) : Int :=
  near + ((v : Int) - near + 2 ^ (bits - 1)) % 2 ^ bits - 2 ^ (bits - 1)

/-- A parsed RTP packet: payload type, sequence number, timestamp, SSRC, payload. -/
structure Rtp where
  pt : Nat
  seq : Nat
  ts : Nat
  ssrc : Nat
  body : List Byte
  deriving DecidableEq, Repr
/-- 09 R280: version 2; padding, CSRC list and extension are skipped (log 92, DESIGN CHOICE). -/
def rtpParse (l : List Byte) : Option Rtp :=
  let b0 := oct l 0 1
  let h0 := 12 + 4 * (b0 % 16)
  let h := if bitOf b0 4 then h0 + 4 + 4 * oct l (h0 + 2) 2 else h0
  let pad := if bitOf b0 5 then oct l (l.length - 1) 1 else 0
  if l.length < 12 ∨ b0 / 64 ≠ 2 ∨ l.length < h + pad then none
  else some ⟨oct l 1 1 % 128, oct l 2 2, oct l 4 4, oct l 8 4, (l.drop h).take (l.length - h - pad)⟩

/-- The samples of a packet whose first index is `m` enter their playout positions. -/
def rxWrite (f : Nat) (r : RxFlow) (m : Nat) (body : List Byte) (s : State) : State :=
  let n := sampleBytes r.cfg
  let ch := cfgChans r.cfg
  (List.range ch).foldl (fun s k =>
    let e := cfgBase r.cfg + k
    let c := mapChan s e m
    if chanFlow s c (fun g r => if g = f then m else playIdx s r) ≠ some (f, e) then s
    else
      let play := (List.range (rxS r)).foldl (fun p j =>
        let w := oct body ((j * ch + k) * n) n
        let v := if n = 2 then fromPcm16 (BitVec.ofNat 16 w) else fromPcm24 (BitVec.ofNat 24 w)
        smSet none p (4096 * c + (m + j) % 4096) (some v)) s.net.play
      { s with net := { s.net with play := play } }) s

/-- 09 R294: a packet that matches an enabled leg of a running receive flow. -/
def rtpPacket (f leg : Nat) (l : List Byte) (s : State) : State :=
  match rxFlow s f with
  | none => s
  | some r =>
    match cfgDom r.cfg with
    | none => s
    | some x =>
      if !legEn r.cfg leg || !running s x || !portUp s (lgPort (legWord r.legs leg)) then s
      else
        let S := rxS r
        let s0 := netCount 1 f (some leg) false l.length (netCount 1 f none false l.length s)
        match rtpParse l with
        | none => cnt s0 (NET_RXF_BAD f)
        | some p =>
          if p.pt ≠ wget r.cfg NET_RXF_CFG_payload_type ∨ (wbit r.cfg NET_RXF_CFG_ssrc_match ∧ p.ssrc ≠ r.ssrc.toNat) ∨
              p.body.length ≠ S * cfgChans r.cfg * sampleBytes r.cfg then cnt s0 (NET_RXF_BAD f)
          else
            let T : Int := nowIdx s x
            let m := nearest 32 p.ts (T + pdGet s.tim.delta x) - pdGet s.tim.delta x
            let Lr : Int := linkTicks s r
            let high : Int := match r.high with | some h => h | none => 2 ^ 32 + p.seq
            let ext0 := if r.window.isEmpty then 2 ^ 32 + p.seq else (nearest 16 p.seq high).toNat
            let high0 := if r.window.isEmpty then ext0 else high.toNat
            let isBelow := decide (ext0 + 1023 < high0)
            let r1 := { r with below := if isBelow then r.below + 1 else 0, high := some high0,
                               lastLeg0 := if leg = 0 then some (nowIdx s x) else r.lastLeg0,
                               lastLeg1 := if leg = 1 then some (nowIdx s x) else r.lastLeg1 }
            let r2 := if 64 ≤ r1.below then { r1 with window := [], below := 0 } else r1
            let s1 := setRx f (some r2) (fset s0 (NET_RXF_STATUS f) (if leg = 0 then NET_RXF_STATUS_leg0_up else NET_RXF_STATUS_leg1_up) 1)
            if !isBelow && r.window.contains ext0 then cnt s1 (NET_RXF_DUP f)
            else if m + Lr ≤ T ∨ isBelow then cnt s1 (NET_RXF_LATE f)
            else if T - Lr + 4095 < m + S - 1 then cnt s1 (NET_RXF_EARLY f)
            else
              let top := Nat.max high0 ext0
              let r3 := { r2 with high := some top, window := ext0 :: r2.window.filter (fun e => decide (top < e + 1024)), lastWrite := some (nowIdx s x) }
              let s2 := setRx f (some r3) (mapPacket f m.toNat s1)
              rxWrite f r3 m.toNat p.body (fset (fset s2 (NET_RXF_STATUS f) NET_RXF_STATUS_receiving 1) (NET_RXF_STATUS f) NET_RXF_STATUS_state 2)
def doRtpPacketReceived (f : Fin 1024) (leg : Fin 2) (rtp : List Byte) (s : State) : State :=
  if netOn s then rtpPacket f leg rtp s else s

/-- 09 R292, R296: nothing has been written for 64 packet times at tick `n`. -/
def rxTimeout (f n : Nat) (s : State) : State :=
  match rxFlow s f with
  | some r => match r.lastWrite with
    | some t => if t + 64 * rxS r < n then
        fset (setRx f (some { r with lastWrite := none, window := [], below := 0 }) s) (NET_RXF_STATUS f) NET_RXF_STATUS_receiving 0 else s
    | none => s
  | none => s
/-- 09 R296: a leg has not been seen for 16 packet times at tick `n`. -/
def legTimeout (f leg n : Nat) (s : State) : State :=
  match rxFlow s f with
  | some r => match (if leg = 0 then r.lastLeg0 else r.lastLeg1) with
    | some t => if t + 16 * rxS r < n then
        fset (setRx f (some (if leg = 0 then { r with lastLeg0 := none } else { r with lastLeg1 := none })) s) (NET_RXF_STATUS f)
          (if leg = 0 then NET_RXF_STATUS_leg0_up else NET_RXF_STATUS_leg1_up) 0 else s
    | none => s
  | none => s
/-- The coming tick of a receive flow's domain. -/
def rxNext (s : State) (f : Nat) : Nat :=
  match rxFlow s f with | some r => (match cfgDom r.cfg with | some x => (genOf s x).next | none => 0) | none => 0
def doReceivingTimeout (f : Fin 1024) (s : State) : State := rxTimeout f (rxNext s f) s
def doLegTimeout (f : Fin 1024) (leg : Fin 2) (s : State) : State := legTimeout f leg (rxNext s f) s

/-- 09 R293: flow `f` delivers on tick `n`. -/
def rxDeliver (n : Nat) (s : State) (f : Nat) : State :=
  match rxFlow s f with
  | none => s
  | some r =>
    if r.stopReq then rxStopNow f s
    else
      let Lr := linkTicks s r
      let (s1, empty) := (List.range (cfgChans r.cfg)).foldl (fun ((s : State), e0) k =>
        let e := cfgBase r.cfg + k
        let m := n - Lr
        let c := mapChan s e m
        if chanFlowNow s c ≠ some (f, e) then (s, e0)
        else
          let key := 4096 * c + m % 4096
          let lost := arrBad s 9 key
          let v := if n < Lr ∨ lost then none else smGet none s.net.play key
          let s := if lost then arrError 9 key s else s
          ({ s with net := { s.net with play := smSet none s.net.play key none, chanVal := smSet 0 s.net.chanVal c (v.getD 0) } },
            e0 || v.isNone)) (s, false)
      if empty then cnt s1 (NET_RXF_EMPTY f) else s1

/-- The receive flows of domain `x` on tick `n`. -/
def netRxTick (x : Dom) (n : Nat) (s : State) : State :=
  if !netOn s then s
  else
    let l := ((rxFlows s).filter (fun e => cfgDom e.2.cfg == some x)).map (·.1)
    if l.isEmpty then s
    else conflictShow (l.foldl (fun s f => rxDeliver n (legTimeout f 1 n (legTimeout f 0 n (rxTimeout f n s))) f) s)

/-! ## Transmitting (09 R298 to R300) -/

/-- The UDP packet of a transmit leg. -/
def legFrame (s : State) (d : Nat) (l : List Byte) : List Byte :=
  let p := lgPort d
  let dst := lgDst d
  let mac := if lgMac d = 0 then groupMac dst else lgMac d
  let tag := if lgTagged d then some (lgTci d) else none
  if lgV6 d then
    ethFrame mac (portMac s p) tag 0x86DD (ipv6Packet (portV6 s p) dst (lgTtl d) (lgDscp d * 4) 17
      (udpData true true (portV6 s p) dst (lgSport d) (lgDport d) l))
  else
    ethFrame mac (portMac s p) tag 0x0800 (ipv4Packet (portV4 s p) (dst % 2 ^ 32) (lgTtl d) (lgDscp d * 4) 17 []
      (udpData false (lgSums d) (portV4 s p) (dst % 2 ^ 32) (lgSport d) (lgDport d) l))

/-- The word of channel `k` for index `i`, as octets, and whether it saturated; a word that another domain formed, or none, gives
zero. -/
def txSample (s : State) (x : Dom) (r : TxFlow) (k i : Nat) : List Byte × Bool :=
  let t := fget s (NET_MAP (4096 + cfgBase r.cfg + k)) NET_MAP_channel
  let (d0, v0) := smGet (0, 0) s.net.txWords (4096 * (i % 1024) + t)
  let v := if d0 = domNo x + 1 then v0 else 0
  let bits := 8 * sampleBytes r.cfg
  let d := if wbit r.cfg NET_TXF_CFG_dither then ditherVal r.seed k i (57 - bits) else 0
  let (w, sat) := toPcm bits v d
  (beBytes (sampleBytes r.cfg) (BitVec.ofInt bits w).toNat, sat)

/-- 11 R339: an instant with the ingress or the egress correction of a port, in steps of 0.25 ns. -/
def ptpStamp (s : State) (p t : Nat) (egress : Bool) : Nat :=
  (((t / 2 ^ 30 : Nat) : Int) + (BitVec.ofNat 16 (bitsOf (rd s (TIM_TS_CORR p)).toNat (if egress then 16 else 0) 16)).toInt).toNat * 2 ^ 30
/-- The UDP datagram that an Ethernet frame carries. -/
def frameUdp (l : List Byte) : Option (List Byte) :=
  let h := if oct l 12 2 = 0x8100 then 18 else 14
  let p := l.drop h
  match oct l (h - 2) 2 with
  | 0x0800 => if oct p 9 1 = 17 then some (p.drop (4 * (oct p 0 1 % 16))) else none
  | 0x86DD => if oct p 6 1 = 17 then some (p.drop 40) else none
  | _ => none
/-- 11 R339, R340: a PTP event message that port `p` sends is stamped with the egress correction, and the stamp enters the port's
FIFO of 64 entries. Event messages are those to UDP port 319 with a messageType of 0 to 3 (log 156, PRESUMED). -/
def ptpSent (p : Nat) (l : List Byte) (s : State) : State :=
  match frameUdp l with
  | none => s
  | some d =>
    let type := oct d 8 1 % 16
    if oct d 2 2 ≠ 319 ∨ 4 ≤ type ∨ !bitOf (fget s TIM_PTP_CFG TIM_PTP_CFG_port_mask) p then s
    else if 64 ≤ (s.net.ptpTs.filter (fun e => e.1 == p)).length then cnt s TIM_TS_OVF
    else { s with net := { s.net with ptpTs := s.net.ptpTs ++ [(p, ptpStamp s p s.tim.freiz true, oct d 38 2, type)] } }

/-- 09 R299: during tick n + S the packet for n to n + S − 1 goes out (log 93, DESIGN CHOICE). -/
def txPacket (f : Nat) (s : State) : State :=
  match txFlow s f with
  | none => s
  | some r =>
    match cfgDom r.cfg with
    | none => s
    | some x =>
      let S := txS r
      let n := r.next
      if (genOf s x).last.isNone ∨ nowIdx s x < n + S then s
      else
        let s0 := mapPacket (f + 1024) n s
        let done := fun (s : State) => if r.stopReq then
            fset (mapLandAll (f + 1024) (setTx f none s)) (NET_TXF_STATUS f) NET_TXF_STATUS_state 0
          else setTx f (some { r with next := n + S }) s
        if !outputsOpen s0 then done s0
        else
          let cells := ((List.range S).map (fun j => (List.range (cfgChans r.cfg)).map (fun k => txSample s0 x r k (n + j)))).flatten
          let ts := ((n : Int) + pdGet s0.tim.delta x) % 2 ^ 32
          let seq := (n / S + wget r.pkt NET_TXF_PKT_seq_base) % 65536
          let rtp := [0x80#8] ++ beBytes 1 (wget r.cfg NET_TXF_CFG_payload_type) ++ beBytes 2 seq ++ beBytes 4 ts.toNat ++
            beBytes 4 r.ssrc.toNat ++ (cells.map (·.1)).flatten
          let s1 := fset (cntN s0 (NET_TXF_SAT f) ((cells.filter (·.2)).length)) (NET_TXF_STATUS f) NET_TXF_STATUS_state 2
          let s2 := (txLegs s1 r.cfg r.legs).foldl (fun s (l, d) =>
            let fr := legFrame s d rtp
            let p := lgPort d
            if arrBad s 9 (queueWord p) then cnt (arrError 9 (queueWord p) s) (NET_TXF_DROP f)
            else if !portRoom s p (Nat.max 60 fr.length) (tickIn s x (n + S + 1)).toNat then cnt s (NET_TXF_DROP f)
            else match netSend p fr s with
            | (s', true) => ptpSent p fr (netCount 2 f (some l) true rtp.length (netCount 2 f none true rtp.length s'))
            | (s', false) => cnt s' (NET_TXF_DROP f)) s1
          done s2

/-- Transmit flows of domain `x` whose packet is due on tick `n`; after a discontinuity the packets of ticks that were not
processed are left out. -/
def netTxTick (x : Dom) (n : Nat) (s : State) : State :=
  if !netOn s then s
  else ((txFlows s).filter (fun e => cfgDom e.2.cfg == some x)).foldl (fun s (f, r) =>
    let S := txS r
    let r1 := if r.next + S < n then { r with next := (n - S + S - 1) / S * S } else r
    let s1 := if r1.next = r.next then s else setTx f (some r1) s
    if r1.next + S ≤ n then addDue s1 (.txSend f) else s1) s

/-! ## Frames (09 R280, R281) -/

/-- A parsed packet above Ethernet. -/
structure NetPkt where
  port : Nat
  bytes : List Byte
  tci : Option Nat
  unicast : Bool
  t : Nat
  deriving DecidableEq, Repr
def dropFrame (p : Nat) (s : State) : State := cnt s (NET_PORT_DROP p)
/-- Firmware's frames: those addressed to the port; unmatched multicast frames are dropped. -/
def toFirmwareQueue (f : NetPkt) (s : State) : State := if f.unicast then ctlPut f.port (f.bytes.map (·.toNat)) none none s else s

/-- The receive leg that a datagram matches. -/
def matchLeg (s : State) (f : NetPkt) (src dst dport : Nat) : Option (Nat × Nat) :=
  (rxFlows s).findSome? (fun (n, r) => ((legsOn r.cfg r.legs).find? (fun (_, d) =>
    lgPort d == f.port && lgDst d == dst && lgDport d == dport && (!lgFilter d || lgSrc d == src) && lgV6 d == !isV4 dst &&
    (match f.tci with | some t => lgTagged d && lgVlan d == t % 4096 | none => !lgTagged d))).map (fun e => (n, e.1)))

def ptpTime (s : State) (p t : Nat) : Nat := ptpStamp s p t false

/-- What a UDP datagram turns out to be. A management message is left to Machine/Commands.lean. -/
inductive UdpKind
  | ptp (event : Bool)
  | flow (f leg : Nat)
  | management
  | other
  deriving DecidableEq, Repr
def udpKind (s : State) (f : NetPkt) (src dst dport : Nat) : UdpKind :=
  if dport = 319 then .ptp true
  else if dport = 320 then .ptp false
  else match matchLeg s f src dst dport with
    | some (n, l) => .flow n l
    | none =>
      if fbit s NET_MGMT_CFG NET_MGMT_CFG_enable && decide (dport = fget s NET_MGMT_CFG NET_MGMT_CFG_udp_port) &&
        bitOf (fget s NET_MGMT_CFG NET_MGMT_CFG_port_mask) f.port then .management else .other

/-- 09 R302: the source is in the list. -/
def mgmtAllowed (s : State) (src : Nat) : Bool :=
  if fget s CTL_CAT_STATUS CTL_CAT_STATUS_state = 6 then decide (src / 2 ^ 118 = 0x3FA) || (isV4 src && decide (src / 2 ^ 16 % 2 ^ 16 = 0xA9FE))
  else src != 0 && (List.range 8).any (fun i => (List.range 4).foldl (fun a j => a + (rd s (NET_MGMT_ALLOW (4 * i + j))).toNat * 2 ^ (32 * j)) 0 == src)
/-- A UDP datagram after its checks; `mgmt` executes a management message: port, source, UDP port, message. -/
def udpIn (mgmt : Nat → Nat → Nat → List Byte → State → State) (f : NetPkt) (src dst : Nat) (l : List Byte) (s : State) : State :=
  let body := (l.take (oct l 4 2)).drop 8
  match udpKind s f src dst (oct l 2 2) with
  | .ptp ev =>
    let stamped := ev && bitOf (fget s TIM_PTP_CFG TIM_PTP_CFG_port_mask) f.port
    ctlPut f.port (f.bytes.map (·.toNat)) (if stamped then some (ptpTime s f.port f.t) else none) none s
  | .flow n leg => rtpPacket n leg body s
  | .management => if mgmtAllowed s src then mgmt f.port src (oct l 0 2) body s else ctlPut f.port (f.bytes.map (·.toNat)) none none s
  | .other => toFirmwareQueue f s

/-- An answer to the port's own address, back with the tag it came with. -/
def answer (f : NetPkt) (dst etype : Nat) (l : List Byte) (s : State) : State :=
  (netSend f.port (ethFrame dst (portMac s f.port) f.tci etype l) s).1

def arpIn (f : NetPkt) (l : List Byte) (s : State) : State :=
  let own := portV4 s f.port
  if oct l 6 2 = 1 ∧ own ≠ 0 ∧ oct l 24 4 = own then
    answer f (oct l 8 6) 0x0806 (beBytes 2 1 ++ beBytes 2 0x0800 ++ [6, 4] ++ beBytes 2 2 ++ beBytes 6 (portMac s f.port) ++ beBytes 4 own ++
      beBytes 6 (oct l 8 6) ++ beBytes 4 (oct l 14 4)) s
  else toFirmwareQueue f s

/-- An IPv4 packet. -/
def ipv4In (mgmt : Nat → Nat → Nat → List Byte → State → State) (f : NetPkt) (l : List Byte) (s : State) : State :=
  let hl := 4 * (oct l 0 1 % 16)
  let len := oct l 2 2
  if oct l 0 1 / 16 ≠ 4 ∨ hl < 20 ∨ l.length < len ∨ len < hl ∨ inetSum 0 (l.take hl) ≠ 0 then dropFrame f.port s
  else if oct l 6 2 % 16384 ≠ 0 then dropFrame f.port s
  else
    let src := oct l 12 4
    let dst := oct l 16 4
    let body := (l.take len).drop hl
    match oct l 9 1 with
    | 17 =>
      if oct body 6 2 ≠ 0 ∧ inetSum (pseudo false src dst (oct body 4 2) 17) (body.take (oct body 4 2)) ≠ 0 then dropFrame f.port s
      else udpIn mgmt f (mapped src) (mapped dst) body s
    | 2 =>
      if oct body 0 1 = 0x11 then
        let g := oct body 4 4
        memQuery f.port (if g = 0 then 0 else mapped g) false (if 12 ≤ body.length then 3 else if oct body 1 1 = 0 then 1 else 2)
          (if oct body 1 1 = 0 then 10 * secU else oct body 1 1 * secU / 10) s
      else toFirmwareQueue f s
    | _ => toFirmwareQueue f s

/-- An ICMPv6 message: MLD queries and neighbour solicitations are the engine's own. -/
def icmp6In (f : NetPkt) (src : Nat) (l : List Byte) (s : State) : State :=
  let own := portV6 s f.port
  if oct l 0 1 = 130 then memQuery f.port (oct l 8 16) true (if 28 ≤ l.length then 2 else 1) (oct l 4 2 * secU / 1000) s
  else if oct l 0 1 = 135 ∧ own ≠ 0 ∧ oct l 8 16 = own then
    let mac := portMac s f.port
    let body := beBytes 4 (136 * 2 ^ 24) ++ beBytes 4 0x6000_0000 ++ beBytes 16 own ++ [2, 1] ++ beBytes 6 mac
    let c := inetSum (pseudo true own src body.length 58) body
    answer f (oct f.bytes 6 6) 0x86DD (ipv6Packet own src 255 0 58 (body.take 2 ++ beBytes 2 c ++ body.drop 4)) s
  else toFirmwareQueue f s

/-- The options of a hop-by-hop header hold Router Alert for MLD (option 5, two octets of zero). -/
def routerAlert : Nat → List Byte → Bool
  | 0, _ => false
  | _, [] => false
  | fuel + 1, t :: r => if t = 0 then routerAlert fuel r
    else if t = 5 then oct r 0 1 == 2 && oct r 1 2 == 0
    else routerAlert fuel (r.drop (1 + oct r 0 1))
/-- Next-header values of IPv6 extension headers. -/
def isExtHeader (n : Nat) : Bool := [0, 43, 44, 50, 51, 60, 135, 139, 140].contains n

/-- An IPv6 packet; one with an extension header other than the hop-by-hop header of MLD goes to the control queue. -/
def ipv6In (mgmt : Nat → Nat → Nat → List Byte → State → State) (f : NetPkt) (l : List Byte) (s : State) : State :=
  let len := oct l 4 2
  if oct l 0 1 / 16 ≠ 6 ∨ l.length < 40 + len then dropFrame f.port s
  else
    let src := oct l 8 16
    let dst := oct l 24 16
    let body := (l.take (40 + len)).drop 40
    match oct l 6 1 with
    | 17 =>
      if oct body 6 2 = 0 ∨ inetSum (pseudo true src dst (oct body 4 2) 17) (body.take (oct body 4 2)) ≠ 0 then dropFrame f.port s
      else udpIn mgmt f src dst body s
    | 58 => icmp6In f src body s
    | 0 =>
      let h := 8 * (oct body 1 1 + 1)
      if oct body 0 1 = 58 ∧ routerAlert h ((body.take h).drop 2) then icmp6In f src (body.drop h) s
      else ctlPut f.port (f.bytes.map (·.toNat)) none none s
    | nh => if isExtHeader nh then ctlPut f.port (f.bytes.map (·.toNat)) none none s else toFirmwareQueue f s

/-- 09 R280, R281: a received frame (log 91, DESIGN CHOICE). -/
def netFrame (mgmt : Nat → Nat → Nat → List Byte → State → State) (p : Nat) (bytes : List Byte) (fcsOk : Bool) (t : Nat) (s : State) : State :=
  if !netOn s || !portUp s p then s
  else if arrBad s 9 (queueWord p) then dropFrame p (arrError 9 (queueWord p) s)
  else
    let e0 := oct bytes 12 2
    let tagged := decide (e0 = 0x8100)
    let etype := if tagged then oct bytes 16 2 else e0
    let dst := oct bytes 0 6
    let mac := portMac s p
    let group := decide (oct bytes 0 1 % 2 = 1)
    let len := bytes.length + 4
    if !fcsOk || decide (len < 64) || decide ((if jumbo s p then 9022 else 1522) < len) || decide (etype = 0x8808) ||
        decide (e0 = 0x88A8) || (tagged && (decide (etype = 0x8100) || decide (etype = 0x88A8))) then dropFrame p s
    else if !group && (decide (mac = 0) || decide (dst ≠ mac)) then s
    else
      let f : NetPkt := { port := p, bytes := bytes, tci := if tagged then some (oct bytes 14 2) else none,
                          unicast := !group || decide (dst = 0xFFFF_FFFF_FFFF), t := t }
      let l := bytes.drop (if tagged then 18 else 14)
      let s1 := netCount 0 p none false len s
      match etype with
      | 0x0806 => arpIn f l s1
      | 0x0800 => ipv4In mgmt f l s1
      | 0x86DD => ipv6In mgmt f l s1
      | _ => toFirmwareQueue f s1

/-! ## Management messages (09 R302, R303) -/

/-- 09 R303, R304: what is wrong with a message; 0: nothing. -/
def mgmtError (l : List Byte) : Nat :=
  if l.length < 16 then 3
  else if leVal (l.take 2) ≠ 0x5A46 ∨ leVal ((l.drop 2).take 1) ≠ 1 then 1
  else if leVal ((l.drop 3).take 1) ≠ 1 then 2
  else if leVal ((l.drop 8).take 2) ≠ 64 ∨ l.length ≠ 80 then 3
  else 0
/-- 09 R303: a message of the engine. -/
def mgmtMsg (type seq : Nat) (body : List Byte) : List Byte :=
  leBytes 2 0x5A46 ++ [1] ++ leBytes 1 type ++ leBytes 4 seq ++ leBytes 2 body.length ++ List.replicate 6 0 ++ body
/-- A message goes to a source address and UDP port. The link-layer destination is not stated: it is the one firmware has
not told the engine, so the broadcast address stands for it (log 90, DESIGN CHOICE). -/
def mgmtSend (p dst udp : Nat) (l : List Byte) (s : State) : State :=
  let own := fget s NET_MGMT_CFG NET_MGMT_CFG_udp_port
  let fr := if isV4 dst then
      ethFrame 0xFFFF_FFFF_FFFF (portMac s p) none 0x0800 (ipv4Packet (portV4 s p) (dst % 2 ^ 32) 64 0 17 []
        (udpData false true (portV4 s p) (dst % 2 ^ 32) own udp l))
    else
      ethFrame 0xFFFF_FFFF_FFFF (portMac s p) none 0x86DD (ipv6Packet (portV6 s p) dst 64 0 17 (udpData true true (portV6 s p) dst own udp l))
  (netSend p fr s).1

/-- 09 R304: completions of the tickets of management commands go out. -/
def mgmtFlush (s : State) : State :=
  s.net.mgmtDone.foldl (fun s (t, rec_) => match s.net.mgmtTickets.find? (fun e => e.1 == t) with
    | some (_, p, src, udp, seq) =>
      mgmtSend p src udp (mgmtMsg 3 seq (leBytes 32 rec_.toNat)) { s with net := { s.net with mgmtTickets := s.net.mgmtTickets.filter (fun e => e.1 != t) } }
    | none => s) { s with net := { s.net with mgmtDone := [] } }

end Sys2Proof.Machine
end

