-- ==== Sys2Proof/Machine/LinkCoding.lean ====
section
/-! DEFINITION. The line coding of a Daxesh link (spec/10 R305 to R308, R310, R325): blocks, the scrambler, the MARKER blocks, the
stripes over four lanes, and the blocks of a frame and of a message. -/

namespace Sys2Proof.Machine

def linkLine (s : State) (l : Nat) : LinkLine := if l = 0 then s.line.line0 else s.line.line1
def setLinkLine (s : State) (l : Nat) (v : LinkLine) : State :=
  { s with line := if l = 0 then { s.line with line0 := v } else { s.line with line1 := v } }

/-- The lines of links without power: only the model's own count of sendings stays. -/
def lineLost (v : LineSt) : LineSt :=
  { line0 := { State.reset.line.line0 with bursts := v.line0.bursts }, line1 := { State.reset.line.line1 with bursts := v.line1.bursts } }

/-! ## Blocks (10 R305, R308) -/

def btIDLE : Nat := 0x1E
def btMARKER : Nat := 0x4B
def btFRAME_START : Nat := 0xD1
def btFRAME_END : Nat := 0xD2
def btMSG_START : Nat := 0xE1
def btMSG_END : Nat := 0xE2
def blockTypes : List Nat := [btIDLE, btMARKER, btFRAME_START, btFRAME_END, btMSG_START, btMSG_END]

def dataBlock (w : BitVec 64) : Block66 := ⟨1, w⟩
/-- A control block; `body` holds the payload at the body bits of the table, above the type. -/
def ctrlBlock (type body : Nat) : Block66 := ⟨2, BitVec.ofNat 64 (type + body)⟩
def idleBlock : Block66 := ctrlBlock btIDLE 0
def markerBlock (id lane : Nat) : Block66 := ctrlBlock btMARKER (lane * 2 ^ 8 + id * 2 ^ 10)
def blockType (b : Block66) : Nat := bitsOf b.body.toNat 0 8
def isCtrl (t : Nat) (b : Block66) : Bool := b.sync == 2 && blockType b == t
/-- 10 R308: an invalid sync header, or a control block of a type outside the table. -/
def blockBad (b : Block66) : Bool := b.sync == 0 || b.sync == 3 || (b.sync == 2 && !blockTypes.contains (blockType b))

/-- Bytes of 64-bit words, least significant first. -/
def wordBytes (l : List (BitVec 64)) : List Byte := (l.map (fun w => leBytes 8 w.toNat)).flatten
/-- The body of FRAME_END and MSG_END above the type: the CRC of the data words. -/
def endBody (words : List (BitVec 64)) : Nat := (crc32c (wordBytes words)).toNat * 2 ^ 8

/-- 10 R325: MSG_START, the data words, MSG_END. -/
def msgBlocks (m : DaxMsg) : List Block66 :=
  ctrlBlock btMSG_START (m.type * 2 ^ 8 + m.dest * 2 ^ 16 + b2n m.bcast * 2 ^ 30 + m.body.length * 2 ^ 31 + m.hops * 2 ^ 38 + m.src * 2 ^ 42) ::
    (m.body.map dataBlock ++ [ctrlBlock btMSG_END (endBody m.body)])

/-- 10 R310: the channel bitmap. -/
def frameBitmap (words : List (Nat × Nat)) : List (BitVec 64) :=
  (List.range 128).map (fun i => words.foldl (fun w (c, _) => if c / 64 = i then w ||| BitVec.ofNat 64 (2 ^ (c % 64)) else w) 0)
/-- The data words of a frame: the sample index, the bitmap, the words of the channels present, ascending. -/
def frameData (f : DaxDue) : List (BitVec 64) :=
  BitVec.ofNat 64 f.k :: (frameBitmap f.words ++ f.words.map (fun (_, w) => BitVec.ofNat 64 w))
/-- 10 R310: the blocks of a tick frame. -/
def frameBlocks (f : DaxDue) : List Block66 :=
  ⟨2, BitVec.ofNat 64 f.header⟩ :: ((frameData f).map dataBlock ++ [ctrlBlock btFRAME_END (endBody (frameData f))])

/-! ## The scrambler (10 R305): x^58 + x^39 + 1, the body's least significant bit first; a state holds the last 58 bits on the
line, the newest in bit 0 -/

def scrBit (st : BitVec 58) (b : Bool) : Bool := b ^^ st.getLsbD 38 ^^ st.getLsbD 57
def scrPush (st : BitVec 58) (b : Bool) : BitVec 58 := (st <<< 1) ||| BitVec.ofNat 58 (b2n b)
/-- The body on the line, and the state after it. -/
def scramble (st : BitVec 58) (w : BitVec 64) : BitVec 64 × BitVec 58 :=
  (List.range 64).foldl (fun (o, st) i =>
    let b := scrBit st (w.getLsbD i)
    (o ||| BitVec.ofNat 64 (b2n b * 2 ^ i), scrPush st b)) (0, st)
/-- The body that a receiver restores, and the state after it: the line bits themselves. -/
def descramble (st : BitVec 58) (w : BitVec 64) : BitVec 64 × BitVec 58 :=
  (List.range 64).foldl (fun (o, st) i =>
    let b := w.getLsbD i
    (o ||| BitVec.ofNat 64 (b2n (scrBit st b) * 2 ^ i), scrPush st b)) (0, st)

/-- Each block goes through the scrambler or descrambler `f` of its lane, the block at line position p on lane p mod 4. -/
def codeLanes (f : BitVec 58 → BitVec 64 → BitVec 64 × BitVec 58) (p : Nat) (st : List (BitVec 58)) : List Block66 → List Block66 × List (BitVec 58)
  | [] => ([], st)
  | b :: bs =>
    let (w, v) := f (st.getD (p % 4) 0) b.body
    let (r, st') := codeLanes f (p + 1) (st.set (p % 4) v) bs
    (⟨b.sync, w⟩ :: r, st')

/-! ## Lanes (10 R306) -/

/-- The stream of an engine with its MARKER blocks, from line position `p`: every 16,384th block of each lane is one
(log 157, DESIGN CHOICE). -/
def withMarkers (id : Nat) : Nat → List Block66 → List Block66
  | _, [] => []
  | p, b :: bs =>
    if p % 65536 = 65532 then (List.range 4).map (markerBlock id) ++ b :: withMarkers id (p + 5) bs
    else b :: withMarkers id (p + 1) bs
/-- What the lane takes of blocks that begin at line position `p`. -/
def laneBlocks (p lane : Nat) (l : List Block66) : List Block66 :=
  (l.zipIdx p).filterMap (fun (b, i) => if i % 4 = lane then some b else none)

/-- 10 R305, R306, R332: blocks go out on the four lanes, after the IDLE blocks since the last ones, whose number is open
(log 157, DESIGN CHOICE). -/
def lineSend (l : Nat) (blocks : List Block66) (s : State) : State :=
  let v := linkLine s l
  let stream := List.replicate (Config.idleBlocks l v.bursts) idleBlock ++ blocks
  let line := withMarkers (daxLink s l).engineId v.pos stream
  let (out, scr) := codeLanes scramble v.pos v.scr line
  emit (setLinkLine s l { v with pos := v.pos + line.length, scr := scr, bursts := v.bursts + 1 })
    (.daxLine l ((List.range 4).map (fun lane => laneBlocks v.pos lane out)))

/-! ## Receiving -/

/-- What the blocks of one frame or message carry: the body of its start, its data words, the CRC of its end. -/
structure LinkUnit where
  header : BitVec 64
  words : List (BitVec 64)
  crc : Option (BitVec 32)
  deriving DecidableEq, Repr

/-- The frame or message that starts with a block of type `start` and ends with one of type `fin`; other blocks are no part of it. -/
def unitOf (start fin : Nat) (l : List Block66) : Option LinkUnit :=
  match l.dropWhile (fun b => !isCtrl start b) with
  | [] => none
  | b :: rest =>
    let body := rest.takeWhile (fun b => !isCtrl fin b)
    some { header := b.body, words := (body.filter (fun b => b.sync == 1)).map (fun b => b.body),
           crc := (rest.find? (isCtrl fin)).map (fun b => BitVec.ofNat 32 (bitsOf b.body.toNat 8 32)) }

/-- A link that has found its lanes takes blocks. -/
def lineOpen (s : State) (l : Nat) : Bool := decide (4 ≤ fget s (DAX_LINK_STATUS l) DAX_LINK_STATUS_state ∧ fget s (DAX_LINK_STATUS l) DAX_LINK_STATUS_state ≤ 5)
/-- The blocks that a link restores from the line, MARKER blocks among them. -/
def lineBlocks (s : State) (l : Nat) (rx : List Block66) : List Block66 :=
  (codeLanes descramble (linkLine s l).rxPos (linkLine s l).rxScr rx).1
/-- 10 R305, R308: the line moves on over blocks received; invalid sync headers and unknown types count. -/
def lineTake (l : Nat) (rx : List Block66) (s : State) : State :=
  let v := linkLine s l
  let (bs, st) := codeLanes descramble v.rxPos v.rxScr rx
  cntN (setLinkLine s l { v with rxPos := v.rxPos + rx.length, rxScr := st }) (DAX_BLOCK_ERR l) (bs.filter blockBad).length

/-- 10 R306, R308, R310: the tick frame, and 10 R325: the message, in blocks received. MARKER and IDLE blocks are no part of it. -/
def lineFrame (s : State) (l : Nat) (rx : List Block66) : Option LinkUnit := unitOf btFRAME_START btFRAME_END (lineBlocks s l rx)
def lineMsg (s : State) (l : Nat) (rx : List Block66) : Option LinkUnit := unitOf btMSG_START btMSG_END (lineBlocks s l rx)

/-- 10 R307: the MARKER blocks seen on the lanes lie within 32 blocks of each other. -/
def skewOk (m : List MarkerSeen) : Bool := decide (m.length = 4) && m.all (fun a => m.all (fun b => decide (a.at_ ≤ b.at_ + 32)))
/-- The MARKER block of a lane, descrambled after the block before it, which holds the last 64 bits of the line. -/
def markerSeen (m : MarkerSeen) : Block66 := ⟨m.marker.sync, (descramble (descramble 0 m.prev).2 m.marker.body).1⟩
def markersOk (m : List MarkerSeen) : Bool := skewOk m && m.all (fun a => isCtrl btMARKER (markerSeen a))
/-- The line of a link that has aligned its lanes: the next block comes on lane 0. -/
def lineAlign (l : Nat) (m : List MarkerSeen) (s : State) : State :=
  setLinkLine s l { linkLine s l with rxPos := 0, rxScr := m.map (fun a => (descramble 0 a.marker.body).2) }

end Sys2Proof.Machine
end

