-- ==== Sys2Proof/Machine/Daxesh.lean ====
section
/-! DEFINITION. The Daxesh links of spec/10: bring-up (R330, R331), tick frames (R310 to R314), transmit maps and partial
sums (R317 to R323), messages (R325 to R329), the wake pattern (R333). -/

namespace Sys2Proof.Machine

/-! ## Link states (10 R330) -/

def lkDISABLED : Nat := 0
def lkSIGNAL : Nat := 1
def lkBLOCK : Nat := 2
def lkALIGN : Nat := 3
def lkIDENT : Nat := 4
def lkUP : Nat := 5
def lkWAKE : Nat := 6
def linkState (s : State) (l : Nat) : Nat := fget s (DAX_LINK_STATUS l) DAX_LINK_STATUS_state
def linkEnabled (s : State) (l : Nat) : Bool := fbit s (DAX_LINK_CFG l) DAX_LINK_CFG_enable

/-- 10 R330, R332: a link changes its state. A departure from UP is counted and recorded, what was received is gone, and
a twin link's peer is LOST (12 R379). Lanes keep their locks from ALIGN and IDENT on. -/
def linkTo (l v : Nat) (s : State) : State :=
  let was := linkState s l
  let s1 := fset s (DAX_LINK_STATUS l) DAX_LINK_STATUS_state v
  let s2 := fset (fset s1 (DAX_LINK_STATUS l) DAX_LINK_STATUS_lane_lock (if 3 ≤ v ∧ v ≤ 5 then 15 else 0))
    (DAX_LINK_STATUS l) DAX_LINK_STATUS_aligned (b2n (v == lkIDENT || v == lkUP))
  if was = lkUP ∧ v ≠ lkUP then
    let s3 := occur (cnt (setDaxLink s2 l { daxLink s2 l with frames := [], live := [], due := [] }) (DAX_LINK_DOWN l)) 0x281 l [BitVec.ofNat 32 v]
    if l = 0 then doPeerLost s3 else s3
  else s2

/-- 10 R309, R330: a write to DAX_LINK_CFG. A link that sends the wake pattern finishes it first (R333)
(log 105, DESIGN CHOICE). -/
def linkCfg (m l : Nat) (w : W32) (s : State) : State :=
  let was := linkEnabled s l
  let s1 := swWrite s m (DAX_LINK_CFG l) w
  let now := linkEnabled s1 l
  let s2 := if now && !was then setDaxLink s1 l { daxLink s1 l with engineId := fget s1 DAX_ID DAX_ID_engine_id } else s1
  if was = now ∨ linkState s l = lkWAKE then s2 else linkTo l (if now then lkSIGNAL else lkDISABLED) s2

/-- 10 R330: a transition of the bring-up, taken in its own state. -/
def linkAdvance (l : Nat) (src dst : Nat) (s : State) : State := if linkState s l = src then linkTo l dst s else s

/-- 10 R330: lanes that lock see line traffic, which does not set off the wake detector (R334). -/
def doLaneSignalLock (l : Fin 2) (s : State) : State :=
  if linkState s l = lkSIGNAL then fset (linkTo l lkBLOCK s) (DAX_WAKE l) DAX_WAKE_detected 0 else s
def doBlockLock (l : Fin 2) (s : State) : State := linkAdvance l lkBLOCK lkALIGN s
/-- 10 R307, R330: the receiver finds the MARKER blocks of its lanes; from here on it knows which lane the next block is on. -/
def doLaneAlign (m : LinkMarkers) (s : State) : State :=
  if linkState s m.link = lkALIGN ∧ markersOk m.seen = true then linkTo m.link lkIDENT (lineAlign m.link m.seen s) else s

/-- 10 R330: a loss condition. -/
def linkDrop (l : Nat) (s : State) : State :=
  if 2 ≤ linkState s l ∧ linkState s l ≤ 5 then linkTo l lkSIGNAL s else s
/-- 10 R305, R330: a loss condition, with the invalid sync headers that led to it. -/
def doLinkLoss (l : Fin 2) (bad : BitVec 16) (s : State) : State := linkDrop l (cntN s (DAX_BLOCK_ERR l) bad.toNat)
def linkSignalLost (s : State) : State := linkDrop 1 (linkDrop 0 s)

/-- 18 R541: the links after their power domain returns. -/
def linksRestart (s : State) : State :=
  (List.range 2).foldl (fun s l => linkTo l (if linkEnabled s l then lkSIGNAL else lkDISABLED) s) s

/-! ## The wake pattern (10 R333) -/

/-- A write to DAX_WAKE. -/
def wakeCtrl (m l : Nat) (w : W32) (s : State) : State :=
  let s1 := swWrite s m (DAX_WAKE l) w
  if wbit w DAX_WAKE_send ∧ linkState s l ≠ lkUP then emit (linkTo l lkWAKE s1) (.daxWake l) else s1
/-- The pattern ends. -/
def doWakePatternEnd (l : Fin 2) (s : State) : State :=
  linkAdvance l lkWAKE (if linkEnabled s l then lkSIGNAL else lkDISABLED) s

/-! ## Messages (10 R325 to R329) -/

/-- The fields of MSG_START (10 R308), with the body. -/
def msgOf (hdr : BitVec 64) (body : List (BitVec 64)) : DaxMsg :=
  let h := hdr.toNat
  { type := bitsOf h 8 8, dest := bitsOf h 16 14, bcast := bitOf h 30, hops := bitsOf h 38 4, src := bitsOf h 42 14, body := body }
def msgTypes : List Nat := [0x01, 0x10, 0x20, 0x21, 0x30]
def msgDrop (l : Nat) (s : State) : State := cnt s (DAX_MSG_DROP l)

/-- 10 R325, R326: what the blocks of a message of type `want` go through before `eff`: CRC, type and length; a link-local
message must come from the link's peer. Messages other than IDENT are taken in UP. A message of another type belongs to
that type's command (log 103, DESIGN CHOICE). -/
def msgIn (l want : Nat) (rx : List Block66) (eff : DaxMsg → State → State) (s0 : State) : State :=
  if !lineOpen s0 l then s0
  else
    let s := lineTake l rx s0
    match lineMsg s0 l rx with
    | none => s
    | some u =>
      let m := msgOf u.header u.words
      let len := bitsOf u.header.toNat 31 7
      if linkState s l ≠ lkUP ∧ want ≠ 0x01 then s
      else if u.crc ≠ some (crc32c (wordBytes u.words)) ∨ !msgTypes.contains m.type ∨ len = 0 ∨ 64 < len ∨ len ≠ u.words.length then msgDrop l s
      else if m.type ≠ want then s
      else if want ≠ 0x01 ∧ want ≠ 0x10 ∧ m.src ≠ fget s (DAX_LINK_STATUS l) DAX_LINK_STATUS_peer_seen then msgDrop l s
      else eff m s

/-- 10 R329: delivery, forwarding, or neither. -/
def firmwareMsg (l : Nat) (m : DaxMsg) (s : State) : State :=
  let own := decide (m.dest = fget s DAX_ID DAX_ID_engine_id)
  let here := m.bcast || own
  let on := fbit s (DAX_LINK_CFG l) DAX_LINK_CFG_forward && (m.bcast || !own) && decide (m.hops ≠ 0)
  let s1 := if here then ctlPut (16 + l) ((wordBytes m.body).map (·.toNat)) none none s else s
  let s2 := if on then daxQueue s1 (1 - l) { m with hops := m.hops - 1 } else s1
  if here || on then s2 else msgDrop l s2

def doFirmwareMessage (l : Fin 2) (rx : List Block66) (s : State) : State :=
  msgIn l 0x10 rx (firmwareMsg l) s
def doProvenanceMessage (l : Fin 2) (rx : List Block66) (s : State) : State :=
  msgIn l 0x20 rx (fun m => provMsgIn l m.body) s
def doRatioMessage (l : Fin 2) (rx : List Block66) (s : State) : State :=
  msgIn l 0x21 rx (fun m => ratioMsg l m.body) s
def doTwinMessage (l : Fin 2) (rx : List Block66) (s : State) : State :=
  msgIn l 0x30 rx (fun m => twinMsgIn l m.body) s

/-- 10 R325: the waiting message that goes out next: its place in the queue. -/
def msgNext (q : List DaxMsg) : Option Nat :=
  [0x21, 0x20, 0x30, 0x10].findSome? (fun t => q.findIdx? (fun m => m.type == t))

/-- 10 R325: a message goes out. -/
def msgSend (l : Nat) (m : DaxMsg) (s : State) : State := lineSend l (msgBlocks m) (emit s (.daxMsg l m))

/-- 10 R311: the tick frames of a link that are due, which became due together, go out: domain A, then B, then C. -/
def framesFlush (l : Nat) (s : State) : State :=
  let k := daxLink s l
  ([Dom.A, .B, .C].flatMap (fun y => k.due.filter (fun f => f.dom == y))).foldl (fun s f => lineSend l (frameBlocks f) (emit s (.daxFrame l f.header f.k f.words)))
    (setDaxLink s l { k with due := [] })

/-- 10 R311, R325: the frames that are due go before any message. -/
def doMessageSend (l : Fin 2) (s0 : State) : State :=
  let s := framesFlush l s0
  let k := daxLink s l
  if linkState s l ≠ lkUP then s
  else match msgNext k.queue with
    | none => s
    | some i =>
      match k.queue[i]? with
      | none => s
      | some m => msgSend l m (setDaxLink s l { k with queue := k.queue.eraseIdx i })

/-! ## IDENT (10 R326, R331) -/

def freizNs64 (s : State) : BitVec 64 := BitVec.ofNat 64 (s.tim.freiz / nsU)

def doIdentSend (l : Fin 2) (s : State) : State :=
  let k := daxLink s l
  if linkState s l ≠ lkIDENT then s
  else
    let now := freizNs64 s
    let (w2, w3) := match k.identRx with
      | some (w, t) => (w, now - BitVec.ofNat 64 t)
      | none => (0, 0)
    let m : DaxMsg := { type := 0x01, dest := 0, bcast := false, hops := 0, src := k.engineId,
                        body := [BitVec.ofNat 64 (k.engineId + 2 ^ 14 * l), now, w2, w3] }
    msgSend l m (setDaxLink s l { k with identTx := now :: k.identTx })

/-- 10 R331: the one-way delay of an IDENT that echoes one sent. Of a result beyond the register, delay_ns
is a free value; delay_warn is not (log 102, DEDUCED). -/
def identDelay (l : Nat) (w2 w3 : BitVec 64) (s : State) : State :=
  let d := (freizNs64 s - w2 - w3).toNat / 2
  let (v, s1) := if d < 2 ^ 32 then (d, s) else (let (f, s') := freeDraw s; (f.toNat % 2 ^ 32, s'))
  fset (wr s1 (DAX_LINK_DELAY l) (BitVec.ofNat 32 v)) (DAX_LINK_STATUS l) DAX_LINK_STATUS_delay_warn (b2n (decide (2000 < d)))

def identMsg (l : Nat) (m : DaxMsg) (s : State) : State :=
  match m.body with
  | [w0, w1, w2, w3] =>
    let peer := bitsOf w0.toNat 0 14
    let k := daxLink s l
    let echo := w2 != 0 && k.identTx.contains w2
    let s1 := fset (setDaxLink s l { k with identRx := some (w1, s.tim.freiz / nsU) }) (DAX_LINK_STATUS l) DAX_LINK_STATUS_peer_seen peer
    let s2 := if echo then identDelay l w2 w3 s1 else s1
    let bad := fbit s (DAX_LINK_CFG l) DAX_LINK_CFG_peer_check && decide (peer ≠ fget s (DAX_LINK_CFG l) DAX_LINK_CFG_peer_id)
    let s3 := fset s2 (DAX_LINK_STATUS l) DAX_LINK_STATUS_id_mismatch (b2n bad)
    if echo && !bad && linkState s l == lkIDENT then linkTo l lkUP s3 else s3
  | _ => s

def doIdentMessage (l : Fin 2) (rx : List Block66) (s : State) : State :=
  msgIn l 0x01 rx (identMsg l) s

/-! ## Tick frames received (10 R312 to R314) -/

/-- 10 R310: the channels that a bitmap names, ascending, with their words. -/
def frameWords (bitmap data : List (BitVec 64)) : SMap S64 :=
  let chans := (List.range 128).flatMap (fun i =>
    let w := (bitmap[i]?.getD 0).toNat
    if w = 0 then [] else (List.range 64).filterMap (fun b => if bitOf w b then some (64 * i + b) else none))
  (chans.zip data).filter (fun e => e.2 != 0)

/-- 10 R312: the first check that a frame fails, 1 to 4. -/
def frameFail (s : State) (f : LinkUnit) : Option Nat :=
  let h := f.header.toNat
  if f.crc ≠ some (crc32c (wordBytes f.words)) then some 1
  else match domOf (bitsOf h 12 2) with
    | none => some 2
    | some x =>
      let k := (f.words.headD 0).toNat
      if !running s x || bitsOf h 8 3 ≠ domRate s x then some 2
      else if (genOf s x).last.isSome ∧ k + 2 ≤ nowIdx s x then some 3
      else if nowIdx s x + 4 < k + 2 then some 4
      else none

/-- 10 R312 to R314: a tick frame is accepted or discarded. -/
def frameIn (l : Nat) (f : LinkUnit) (s : State) : State :=
  match frameFail s f with
    | some c =>
      let s1 := occur (cnt s (if c = 1 then DAX_CRC l else if c = 3 then DAX_LATE l else DAX_INDEX l)) 0x280 l [BitVec.ofNat 32 c]
      if c = 1 then accuse s1 4 else s1
    | none =>
      match domOf (bitsOf f.header.toNat 12 2) with
      | none => s
      | some x =>
        let k := (f.words.headD 0).toNat
        let d := daxLink s l
        let keep := d.frames.filter (fun g => !(g.dom == x && g.k == k))
        setDaxLink s l { d with frames := keep ++ [⟨x, k, frameWords (f.words.drop 1) (f.words.drop 129)⟩] }

/-- 10 R305, R306, R308, R312: the blocks of a tick frame arrive; the link takes frames in UP. -/
def doTickFrameReceived (l : Fin 2) (rx : List Block66) (s0 : State) : State :=
  if !lineOpen s0 l then s0
  else
    let s := lineTake l rx s0
    match lineFrame s0 l rx with
    | some f => if linkState s l = lkUP then frameIn l f s else s
    | none => s

/-- 10 R313, R316: the word of receive channel `c` of link `l` in the work of tick `n` of domain `x`. -/
def daxRx (s : State) (x : Dom) (l c n : Nat) : S64 :=
  match (daxLink s l).frames.find? (fun f => f.dom == x && f.k + 2 == n) with
  | some f => smGet 0 f.words c
  | none => 0
/-- Frames whose tick has passed are forgotten at tick event `n`. -/
def framesForget (x : Dom) (n : Nat) (s : State) : State :=
  (List.range 2).foldl (fun s l =>
    let d := daxLink s l
    setDaxLink s l { d with frames := d.frames.filter (fun f => f.dom != x || decide (n ≤ f.k + 2)) }) s

/-! ## Transmit channels and tick frames sent (10 R310, R311, R317, R318, R323) -/

/-- 10 R318: a link's island takes the transmit map that has been written. -/
def txmapApply (l : Nat) (s : State) : State :=
  setDaxLink s l { daxLink s l with
    txmap := (smRange s.regs (DAX_TXMAP l 0) (DAX_TXMAP l 8192)).map (fun (k, w) => (k - DAX_TXMAP l 0, w)) }
def doTxmapApply (l : Fin 2) (s : State) : State := txmapApply l s

/-- 10 R317: a value as a transmit channel takes it, at the end of the tick: an S-slot's as the ring carried it, a
D-slot's as its output strip handed it on. -/
def daxVal (s : State) (x : Dom) (v : PatchVal) : S64 :=
  if valDom s v ≠ some x then 0
  else match v with
    | .nothing => 0
    | .dslot d => pipe s pO3old d
    | .sslot i =>
      let o := occCode s i
      if o / 65536 = 8 then (if domD s (o % 65536) = some x then smGet 0 s.gal.dval (o % 65536) else 0) else pipe s (pHold 1) i

/-- The word of a transmit channel, and whether patch_out saturated. -/
def daxWord (s : State) (f : Formed) : S64 × Bool :=
  if f.k = 0 then (daxVal s f.dom f.live, false) else xfadeStep (daxVal s f.dom f.live) (daxVal s f.dom f.pend) f.k f.len

/-- The words of the tick of domain `x` that ends, by channel. -/
def linkWords (x : Dom) (l : Nat) (s : State) : List (Nat × S64) × Nat :=
  let f := s.str.formed.filterMap (fun (k, f) => match f with
    | some f => if k / 8192 = l ∧ f.dom = x then some (k % 8192, daxWord s f) else none
    | none => none)
  let ps := (daxLink s l).ps.filterMap (fun (e, c) =>
    match c with
    | some c =>
      let v := smGet 0 (daxLink s l).psOut (e - 4096)
      if 4096 ≤ e ∧ domD s (e - 4096) = some x then some [(c, v.setWidth 64), (c + 1, (v >>> 64).setWidth 64)] else none
    | none => none)
  (f.map (fun (c, w, _) => (c, w)) ++ ps.flatten, (f.filter (fun e => e.2.2)).length)

/-- 10 R310, 12 R374: the frame of tick `k` of domain `x` is due on a link in UP, if the tick began there in UP (R332;
log 101, DEDUCED). -/
def linkFrame (x : Dom) (k l : Nat) (s : State) : State :=
  let (ws, sat) := linkWords x l s
  let s1 := cntN s (DAX_SAT l) sat
  if linkState s1 l ≠ lkUP ∨ !(daxLink s1 l).live.contains x then s1
  else
    let mute := l == 1 && s1.twn.withdrawn && fbit s1 TWN_CFG TWN_CFG_dax1_mute
    let out := if mute then [] else ws.foldl (fun m (c, w) => smSet none m c (some w)) ([] : SMap (Option S64))
    let hdr := btFRAME_START + domRate s1 x * 2 ^ 8 + (domNo x + 1) * 2 ^ 12 + (daxLink s1 l).engineId * 2 ^ 14 + out.length * 2 ^ 28
    let d := daxLink s1 l
    setDaxLink s1 l { d with due := d.due ++ [⟨s1.tim.freiz, x, hdr, k, out.map (fun (c, w) => (c, (w.getD 0).toNat))⟩] }

/-- 10 R311: a frame waits for the frame of an earlier domain whose tick begins at the same moment and has still to be taken
(log 101, DEDUCED). -/
def frameWaits (s : State) (x : Dom) : Bool :=
  [Dom.A, .B].any (fun y => decide (domNo y < domNo x) && running s y && decide (untilTick s y ≤ 0))

/-- 10 R310, R311, R332: a link at the tick event of domain `x` that ends tick `last`. -/
def linkTick (x : Dom) (last : Option Nat) (l : Nat) (s : State) : State :=
  let late := (daxLink s l).due.any (fun f => decide (f.since < s.tim.freiz))
  let s1 := if late then framesFlush l s else s
  let s2 := match last with | some k => linkFrame x k l s1 | none => s1
  let s3 := if frameWaits s2 x then s2 else framesFlush l s2
  let d := daxLink s3 l
  let live := d.live.filter (· != x)
  setDaxLink s3 l { d with psOut := if last.isSome then d.psOut.filter (fun (d, _) => domD s3 d != some x) else d.psOut,
                           live := if linkState s3 l = lkUP then live ++ [x] else live }

def framesTick (x : Dom) (last : Option Nat) (s : State) : State := linkTick x last 1 (linkTick x last 0 s)

/-! ## Table writes (10 R319, R322) -/

def tblRefuse (l c : Nat) (s : State) : State := fset s (DAX_TBL_STATUS l) DAX_TBL_STATUS_refusal c
/-- 10 R319: the link keeps its budget, staged bindings taken as landed (log 104, DESIGN CHOICE). -/
def linkFits (l : Nat) (s : State) : Bool := (let p := planOf s 0 0; decide (linkUnits s p.sDom p.dDom p.vals l ≤ 8192))

/-- The valid partial-sum entries of a link and direction, but for entry `j`. -/
def psOthers (s : State) (l : Nat) (tx : Bool) (j : Option Nat) : List W32 :=
  (smRange s.regs (DAX_PS l 0) (DAX_PS l 4096)).filterMap (fun (k, w) =>
    if wbit w DAX_PS_valid && wbit w DAX_PS_tx == tx && j != some (k - DAX_PS l 0) then some w else none)

/-- A write to DAX_TXMAP. -/
def txmapCtrl (m l j : Nat) (w : W32) (s : State) : State :=
  let s1 := swWrite s m (DAX_TXMAP l j) w
  if !wbit w DAX_TXMAP_valid then s1
  else if wget w DAX_TXMAP_entry < 4256 then tblRefuse l 1 s
  else if (psOthers s l true none).any (fun p => wget p DAX_PS_channel / 2 == j / 2) then tblRefuse l 2 s
  else if !linkFits l s1 then tblRefuse l 3 s
  else s1

/-- A write to DAX_PS. -/
def psCtrl (m l j : Nat) (w : W32) (s : State) : State :=
  let s1 := swWrite s m (DAX_PS l j) w
  let c := wget w DAX_PS_channel
  let d := wget w DAX_PS_d_slot
  let tx := wbit w DAX_PS_tx
  let same := psOthers s l tx (some j)
  let clash := (same ++ psOthers s (1 - l) tx none).any (fun p => wget p DAX_PS_d_slot == d) ||
    same.any (fun p => wget p DAX_PS_channel / 2 == c / 2) ||
    (tx && (wbit (rd s (DAX_TXMAP l c)) DAX_TXMAP_valid || wbit (rd s (DAX_TXMAP l (c + 1))) DAX_TXMAP_valid))
  if !wbit w DAX_PS_valid then s1
  else if c % 2 = 1 ∨ 8190 < c then tblRefuse l 1 s
  else if clash then tblRefuse l 2 s
  else if !linkFits l s1 then tblRefuse l 3 s
  else s1

end Sys2Proof.Machine
end

