-- ==== Sys2Proof/Machine/Power.lean ====
section
/-! DEFINITION. Power states, keys and the Night Watch (spec/18), and the resets (spec/20 R580 to R585, spec/19 R565). -/

namespace Sys2Proof.Machine

def pwrPhase (s : State) : Nat := fget s PWR_STATUS PWR_STATUS_phase
def setPhase (s : State) (v : Nat) : State := fset s PWR_STATUS PWR_STATUS_phase v
def softKeys (s : State) (d : Nat) : Nat := bitsOf (fget s (PWR_DOM_STATUS d) PWR_DOM_STATUS_keys) 0 8

/-- Domains 1 to 14 of a register bit map, in the order of a list. -/
def domsIn (mask : Nat) (order : List Nat) : List Nat := order.filter (bitOf mask)
def maskOf (l : List Nat) : Nat := l.foldl (fun m d => m ||| 2 ^ d) 0
/-- 18 R536, R541: the orders of dropping and raising. -/
def dropOrder : List Nat := [2, 3, 4, 5, 6, 7, 8, 9, 10, 12, 13, 11, 14, 1]
def raiseOrder : List Nat := [1, 14, 11, 13, 12, 10, 6, 7, 8, 9, 2, 3, 4, 5]

/-! ## The quiesce phase (18 R535) -/

def usesDram (j : CopyJob) : Bool := decide (0x1_0000_0000 ≤ j.src + j.len) || decide (0x1_0000_0000 ≤ j.dst + j.len)
def scrubUses (s : State) (doms : Nat) : Bool :=
  match s.ecc.scrub with
  | some j => bitOf doms 1 || (bitOf doms 14 && (decide (0x1_0000_0000 ≤ j.start) || decide (0x1_0000_0000 ≤ j.report)))
  | none => false
def keyIn (s : State) (slot doms : Nat) : Bool := (List.range 15).any (fun d => decide (1 ≤ d) && bitOf doms d && hasKey s slot d)
def staging (s : State) : Bool := s.scn.recalls.any (fun r => r.phase == .staging)
/-- 18 R531: a recall that is being staged reads its scene from DRAM. -/
def stagingDram (s : State) : Bool := staging s && decide (0x1_0000_0000 ≤ vaultBase s)
/-- A unit of sample domain `x` drops. -/
def dropsUnitOf (s : State) (doms : Nat) (x : Dom) : Bool :=
  let d := bitOf doms
  let dslot := s.scn.dDom.filter (fun e => e.2 == some x)
  (d 10 && (s.scn.sDom.any (fun e => e.2 == some x) || !dslot.isEmpty)) ||
  dslot.any (fun e => d (unitPower 1 (physOf s 1 (e.1 / 64)))) ||
  (List.range 64).any (fun j => coreDom s j == some x && d (unitPower 2 (physOf s 2 j))) ||
  (d 13 && (s.prt.sides.any (fun (i, _) => sideDom s i == some x) ||
    s.prt.bridges.any (fun (_, b) => match b with | some b => b.inDom == x || b.outDom == x | none => false))) ||
  (d 11 && (s.net.rx.any (fun (f, r) => r.isSome && cfgDom (flowCfg s f) == some x) ||
    s.net.tx.any (fun (f, r) => r.isSome && cfgDom (flowCfg s (f + 1024)) == some x)))
/-- A tile (1) or core (2) of a dropping domain serves a logical unit or shadows one. -/
def liveUnit (s : State) (kind doms : Nat) : Bool :=
  (List.range 68).any (fun u => bitOf doms (unitPower kind u) && (roleOf s kind u == roleActive || roleOf s kind u == roleShadow))

/-- The units of 18 R535 in their order: unit ID, whether it is asked, whether it refuses. -/
def quiesceUnits (s : State) (doms : Nat) (setState : Bool) : List (Nat × Bool × Bool) :=
  let d := bitOf doms
  let audio := (List.range 14).any (fun i => decide (2 ≤ i) && d i)
  let atl := d 6 || d 7 || d 8 || d 9
  let gal := d 2 || d 3 || d 4 || d 5
  let chBusy := (List.range 4).any (fun c => [chTRAINING, chRETIRING, chREADMITTING].contains (chState s c))
  [(0x01, d 1 || keyIn s 10 doms, false),
   (0x02, d 1 || s.ctl.running.any (fun j => d 14 && usesDram j), false),
   (0x03, d 1 || scrubUses s doms, false),
   (0x04, d 10, false),
   (0x05, d 1 || (d 14 && stagingDram s), false),
   (0x06, d 1 || keyIn s 9 doms || (d 14 && s.drc.migr.isSome), decide (3 ≤ rotPhase s)),
   (0x07, d 1, !s.ecc.repair.isEmpty),
   (0x08, d 1, s.cat.load.isSome),
   (0x09, audio || d 1, s.scn.commits.any (fun c => dropsUnitOf s doms c.dom) || (staging s && audio)),
   (0x0A, d 14, chBusy),
   (0x0B, d 11, false), (0x0C, d 12, false), (0x0D, d 13, false), (0x0E, d 13, false), (0x0F, d 10, false),
   (0x10, atl, !setState && liveUnit s 2 doms),
   (0x11, gal, !setState && liveUnit s 1 doms),
   (0x12, d 1, false), (0x13, d 1, false)]

/-- 18 R534, R535: a drop begins; every unit but a refusing one has answered (log 50, DESIGN CHOICE). -/
def startDrop (doms : Nat) (setState : Option (Nat × Nat)) (withdrawn : List (Nat × Nat)) (s : State) : State :=
  if doms = 0 then s
  else
    let asked := (quiesceUnits s doms setState.isSome).filter (fun (_, a, _) => a)
    let agreed := ((asked.takeWhile (fun (_, _, r) => !r)).map (fun (u, _, _) => u))
    let refused := (asked.find? (fun (_, _, r) => r)).map (fun (u, _, _) => u)
    let s1 := { s with pwr := { s.pwr with drop := some ⟨doms, setState, withdrawn, agreed, refused⟩ } }
    if refused.isSome then setPhase s1 1
    else
      let s2 := setPhase s1 2
      if bitOf doms 13 then sidesFade true s2 else s2

/-- Domains of a map that are ON and hold no software key. -/
def keyless (s : State) (mask : Nat) : Nat :=
  maskOf ((List.range 15).filter (fun d => decide (1 ≤ d) && bitOf mask d && domOn s d && softKeys s d == 0))

/-- 18 R534: the withdrawals held during the drop that ended form the next one. -/
def nextDrop (s : State) : State :=
  let l := s.pwr.later
  if l = [] then s
  else
    let s1 := l.foldl (fun s (slot, m) => (List.range 15).foldl (fun s d => if bitOf m d then setKey s slot d false else s) s)
      { s with pwr := { s.pwr with later := [] } }
    startDrop (keyless s1 (l.foldl (fun a (_, m) => a ||| m) 0)) none l s1

/-- 18 R537 to R539: a drop is refused by unit `u`. -/
def dropRefuse (u : Nat) (s : State) : State :=
  match s.pwr.drop with
  | none => s
  | some d =>
    let s1 := setPhase { s with pwr := { s.pwr with drop := none } } (if s.pwr.raising ≠ 0 then 3 else 0)
    let s2 := occur (cnt (fset s1 PWR_STATUS PWR_STATUS_refusing u) PWR_REFUSED) 0x100 u [BitVec.ofNat 32 d.doms]
    let s3 := if pwrPhase s = 2 ∧ bitOf d.doms 13 then sidesFade false s2 else s2
    match d.setState with
    | some (_, t) =>
      let s4 := d.withdrawn.foldl (fun s (slot, m) =>
        let s' := (List.range 15).foldl (fun s d => if bitOf m d then setKey s slot d true else s) s
        if 1 ≤ slot then wr s' (PWR_FW_KEY slot) (rd s' (PWR_FW_KEY slot) ||| BitVec.ofNat 32 m) else s') s3
      nextDrop (complete s4 t ocREFUSED 0 u)
    | none => nextDrop (if u < 0x100 then { s3 with pwr := { s3.pwr with retry := s3.pwr.retry ||| d.doms } } else s3)

def doDropRefuse (s : State) : State :=
  match s.pwr.drop with
  | some d => match d.refused with | some u => dropRefuse u s | none => s
  | none => s

/-- 18 R535: a unit that was asked has not answered within 100 µs. -/
def doQuiesceTimeout (unit : BitVec 16) (s : State) : State :=
  match s.pwr.drop with
  | some d => if d.agreed.contains unit.toNat then dropRefuse unit.toNat s else s
  | none => s

/-- 18 R539. -/
def doDropRetry (s : State) : State :=
  if s.pwr.retry = 0 ∨ s.pwr.drop.isSome then s
  else startDrop (keyless s s.pwr.retry) none [] { s with pwr := { s.pwr with retry := 0 } }

/-! ## What a domain loses (18 R527, R541) -/

/-- The registers of a power domain take their reset words. -/
def regsLost (d : Nat) (s : State) : State :=
  { s with regs := s.regs.filter (fun (k, _) =>
      (if 0x400000 ≤ k then 14 else powerOf (k / 0x40000) (k % 0x40000 * 4)) != d) }

/-- A domain's power is removed. -/
def domLost (d : Nat) (s : State) : State :=
  let s1 := regsLost d s
  if 2 ≤ d ∧ d ≤ 5 then
    let lo := 17 * (d - 2)
    let own := fun (n : Nat) => !(decide (262144 * lo ≤ n) && decide (n < 262144 * (lo + 17)))
    { s1 with gal := { s1.gal with nodes := smDrop s1.gal.nodes (262144 * lo) (262144 * (lo + 17)), badNodes := s1.gal.badNodes.filter own, slots := smDrop s1.gal.slots (512 * lo) (512 * (lo + 17)) } }
  else if 6 ≤ d ∧ d ≤ 9 then { s1 with cores := smDrop s1.cores (17 * (d - 6)) (17 * (d - 6) + 17) }
  else if d = 10 then { s1 with str := { State.reset.str with meterSeq := s1.str.meterSeq, meterAt := s1.str.meterAt } }
  else if d = 11 then { s1 with net := State.reset.net }
  else if d = 12 then { s1 with dax := State.reset.dax, line := lineLost s1.line }
  else if d = 13 then { s1 with prt := State.reset.prt }
  else if d = 14 then
    { s1 with drc := { State.reset.drc with tokAt := s1.drc.tokAt }, mem := s1.mem.filter (fun c => decide (c.1 < 0x1_0000_0000)), ecc := s1.ecc.cure (fun w => decide (8 * w < 0x1_0000_0000)) }
  else s1

/-- 18 R528: the banks, the common room and the caches follow CTL into `v`. -/
def banksDown (v : Nat) (s : State) : State :=
  let s1 := (List.range 64).foldl (fun s b =>
    let keep := if b < 32 then bitOf (rd s PWR_BANK_RETAIN_LO).toNat b else bitOf (rd s PWR_BANK_RETAIN_HI).toNat (b - 32)
    bankDown b (if v = 2 && keep then 2 else 3) s) s
  { s1 with mem := s1.mem.filter (fun c => !(decide (0x2000_0000 ≤ c.1) && decide (c.1 < 0x2008_0000))) }

/-- A domain enters its low state. -/
def domLow (d v : Nat) (s : State) : State :=
  let s1 := fset s (PWR_DOM_STATUS d) PWR_DOM_STATUS_state v
  if d = 1 then banksDown v s1 else if v = 3 then domLost d s1 else s1

/-- 18 R529, R543: the low state of a domain for device state `target`. -/
def lowOf (s : State) (target d : Nat) : Nat :=
  let code := fun (f : Fld) => let v := fget s (PWR_DOM_CFG d) f; if v = 0 then 2 else v
  if target = 3 then (if d = 14 then code PWR_DOM_CFG_watch_low else 3)
  else if target = 2 then (let v := code PWR_DOM_CFG_watch_low; if v = 1 then 2 else v)
  else code PWR_DOM_CFG_low

/-- 18 R536: paused background work of the units that agreed completes ABORTED. -/
def pausedAbort (d : Drop) (s : State) : State :=
  let a := fun (u : Nat) => d.agreed.contains u
  let s1 := if a 0x01 then (match s.twn.conserve with
    | some c => complete (consStop s) c.ticket ocABORTED 0 0
    | none => s) else s
  let s2 := if a 0x02 then
      let mine := s1.ctl.running.filter (fun j => bitOf d.doms 1 || (bitOf d.doms 14 && usesDram j))
      mine.foldl (fun s j => complete s j.ticket ocABORTED 0 0)
        { s1 with ctl := { s1.ctl with running := s1.ctl.running.filter (fun j => !mine.contains j) } }
    else s1
  let s3 := if a 0x03 then scrubStop s2 else s2
  let s4 := if a 0x05 then recallsAbort (fun r => r.phase == .staging) s3 else s3
  if a 0x06 then rotDisable s4 else s4

/-- 18 R536, R542, R543: the commit tick of a drop that every unit agreed to. -/
def doDropCommit (s : State) : State :=
  match s.pwr.drop with
  | none => s
  | some d =>
    if d.refused.isSome then s
    else
      let target := match d.setState with | some (t, _) => t | none => fget s PWR_STATUS PWR_STATUS_state
      let s1 := pausedAbort d { s with pwr := { s.pwr with drop := none } }
      let l := domsIn d.doms dropOrder
      let s2 := l.foldl (fun s k => (List.range 8).foldl (fun s i => setKey s (8 + i) k false) s) s1
      let s3 := (l.filter (· != 1)).foldl (fun s k => domLow k (lowOf s target k) s) s2
      let s4 := match d.setState with
        | some (v, t) =>
          let s' := if v < 2 then fset s3 PWR_STATUS PWR_STATUS_state v else s3
          if s'.pwr.raising ≠ 0 then { s' with pwr := { s'.pwr with raiseTicket := some t } } else complete s' t ocOK 0 0
        | none => s3
      let s5 := if l.contains 1 then domLow 1 (lowOf s target 1) s4 else s4
      let s6 := setPhase s5 (if s5.pwr.raising ≠ 0 then 3 else 0)
      if 2 ≤ target then
        wr { s6 with pwr := { s6.pwr with state := target, hits := [], wakes := [] }, pin := { s6.pin with pcieUp := false } } PWR_LOOKS 0
      else nextDrop { s6 with pwr := { s6.pwr with state := target } }

/-! ## Raising (18 R533, R541, R542) -/

def raiseStart (mask : Nat) (s : State) : State :=
  let m := maskOf ((List.range 15).filter (fun d => decide (1 ≤ d) && bitOf mask d && !domOn s d))
  if m = 0 then s
  else setPhase { s with pwr := { s.pwr with raising := s.pwr.raising ||| m } } 3

/-- The units of domain `d` restart; `off` says that it returns from OFF. -/
def domRestart (d : Nat) (off : Bool) (s0 : State) : State :=
  let s := if off then islandsPlace d s0 else s0
  if d = 10 then (if off then stripsRestart s else stripsClear s)
  else if 6 ≤ d ∧ d ≤ 9 then (if off then coresRestart (d - 6) s else coresClear (d - 6) s)
  else if d = 13 then bridgesRestart (sidesRestart s)
  else if d = 12 then linksRestart s
  else s

def doRaise (s : State) : State :=
  (domsIn s.pwr.raising raiseOrder).foldl (fun s d =>
    if domOn s d then s else domRestart d (domState s d == 3) (fset s (PWR_DOM_STATUS d) PWR_DOM_STATUS_state 0)) s

def doRaiseComplete (s : State) : State :=
  if s.pwr.raising = 0 ∨ (domsIn s.pwr.raising raiseOrder).any (fun d => !domOn s d) then s
  else
    let s1 := setPhase { s with pwr := { s.pwr with raising := 0, raiseTicket := none } } (if s.pwr.drop.isSome then pwrPhase s else 0)
    match s.pwr.raiseTicket with
    | some t => complete s1 t ocOK 0 0
    | none => s1

/-! ## SET_STATE and firmware keys (18 R530 to R533) -/

def setStateCmd (t : Nat) (e : BitVec 512) (s : State) : State :=
  let v := eByte e 16 1
  match eReserved e [(16, 1)] with
  | some i => refuse s t ocRANGE i
  | none =>
    if 4 ≤ v then refuse s t ocRANGE 16
    else if s.pwr.drop.isSome ∨ s.pwr.raising ≠ 0 then refuseAll s t ocBUSY
    else if v = s.pwr.state then complete s t ocOK 0 0
    else
      let map := if v = 0 then (rd s PWR_MAP_RUN).toNat else if v = 1 then (rd s PWR_MAP_QUIET).toNat else 0
      let ds := (List.range 15).filter (fun d => decide (1 ≤ d))
      let gone := maskOf (ds.filter (fun d => hasKey s 0 d && !bitOf map d))
      let fw := if 2 ≤ v then (List.range 8).filterMap (fun k =>
          let m := (rd s (PWR_FW_KEY k)).toNat
          if 1 ≤ k ∧ m ≠ 0 then some (k, m) else none) else []
      let had := maskOf (ds.filter (fun d => softKeys s d != 0))
      let s1 := ds.foldl (fun s d => setKey s 0 d (bitOf map d)) s
      let s2 := fw.foldl (fun s (k, m) => wr (ds.foldl (fun s d => if bitOf m d then setKey s k d false else s) s) (PWR_FW_KEY k) 0) s1
      let doms := if 2 ≤ v then maskOf (ds.filter (domOn s2)) else keyless s2 had
      let s3 := raiseStart map { s2 with pwr := { s2.pwr with retry := 0 } }
      if doms ≠ 0 then startDrop doms (some (v, t)) ((0, gone) :: fw) s3
      else
        let s4 := fset { s3 with pwr := { s3.pwr with state := v } } PWR_STATUS PWR_STATUS_state v
        if s4.pwr.raising ≠ 0 then { s4 with pwr := { s4.pwr with raiseTicket := some t } } else complete s4 t ocOK 0 0

/-- 18 R531, R533, R538: a write to PWR_FW_KEY of slot `k` (log 52, DEDUCED). -/
def fwKeyWrite (m k : Nat) (w : W32) (s : State) : State :=
  let old := (rd s (PWR_FW_KEY k)).toNat
  let s1 := swWrite s m (PWR_FW_KEY k) (w &&& 0x7FFE#32)
  let new := (rd s1 (PWR_FW_KEY k)).toNat
  let ds := (List.range 15).filter (fun d => decide (1 ≤ d))
  let taken := maskOf (ds.filter (fun d => bitOf new d && !bitOf old d))
  let gone := maskOf (ds.filter (fun d => bitOf old d && !bitOf new d))
  let s2 := ds.foldl (fun s d => if bitOf taken d then setKey s k d true else s) s1
  let s3 := { s2 with pwr := { s2.pwr with retry := maskOf (ds.filter (fun d => bitOf s2.pwr.retry d && !bitOf taken d)) } }
  let s4 := match s3.pwr.drop with
    | some d => if d.doms &&& taken ≠ 0 then dropRefuse (0x100 + k) s3 else s3
    | none => s3
  let s5 := raiseStart taken s4
  if gone = 0 then s5
  else if s5.pwr.drop.isSome then { s5 with pwr := { s5.pwr with later := s5.pwr.later ++ [(k, gone)] } }
  else
    let s6 := ds.foldl (fun s d => if bitOf gone d then setKey s k d false else s) s5
    startDrop (keyless s6 gone) none [(k, gone)] s6

/-! ## Internal keys (18 R531) -/

/-- Slots 8, 12, 13 and the loader's key in CTL follow the work they stand for. -/
def syncKey (slot d : Nat) (v : Bool) (s : State) : State := if hasKey s slot d = v then s else setKey s slot d v
/-- The DRAM work that key slot 8 stands for. -/
def dramWork (s : State) : Bool :=
  (match s.ecc.scrub with | some j => decide (0x1_0000_0000 ≤ j.start) || decide (0x1_0000_0000 ≤ j.report) | none => false) ||
    fbit s DRC_STATUS DRC_STATUS_training || s.drc.migr.isSome
/-- The loader works: slot 11. -/
def loaderWork (s : State) : Bool := s.cat.load.isSome || fget s CTL_CAT_STATUS CTL_CAT_STATUS_state != 5
def syncFour (dram rep stg cat : Bool) (s : State) : State := syncKey 8 14 dram (syncKey 12 1 rep (syncKey 13 14 stg (syncKey 11 1 cat s)))
def syncKeys (s : State) : State :=
  if s.pwr.state ≥ 2 then s else syncFour (dramWork s) (!s.ecc.repair.isEmpty) (stagingDram s) (loaderWork s) s
/-- 18 R533: the domains that are not ON, and do not raise yet, in which a key of slots 8 to 15 is taken. -/
def keyedLow (s : State) : Nat :=
  let taken := fun (d : Nat) => decide (0x100 ≤ fget s (PWR_DOM_STATUS d) PWR_DOM_STATUS_keys) || (d == 14 && (dramWork s || stagingDram s))
  if s.pwr.state ≥ 2 then 0
  else maskOf ((List.range 15).filter (fun d => decide (1 ≤ d) && !domOn s d && !bitOf s.pwr.raising d && taken d))
/-- 18 R533: a domain that is not ON begins to raise when an internal unit takes a key in it. -/
def raiseKeyed (s : State) : State := raiseStart (keyedLow s) s

/-! ## The Night Watch (18 R544 to R548) -/

def inWatch (s : State) : Bool := s.pwr.state == 2
def wakeAdd (c i : Nat) (s : State) : State := { s with pwr := { s.pwr with wakes := s.pwr.wakes ++ [(c, i)] } }

/-- 18 R544: a look: the peaks its sentinels measured (a sentinel not listed saw no frame), the lanes with a signal and the
links with the wake pattern. -/
def doLook (peaks : List (Fin 32 × BitVec 24)) (lanes : BitVec 16) (links : BitVec 2) (s : State) : State :=
  if !inWatch s then s
  else
    let s1 := wr s PWR_LOOKS (rd s PWR_LOOKS + 1)
    let one := fun (s : State) (n : Nat) =>
      if !fbit s (PWR_SENT_CFG n) PWR_SENT_CFG_enable then s
      else
        let p := match peaks.find? (fun (i, _) => i.val == n) with | some (_, v) => v.toNat | none => 0
        let s' := fset s (PWR_SENT_PEAK n) PWR_SENT_PEAK_peak p
        let h := if fget s (PWR_SENT_THR n) PWR_SENT_THR_threshold ≤ p then smGet 0 s.pwr.hits n + 1 else 0
        let s'' := { s' with pwr := { s'.pwr with hits := smSet 0 s'.pwr.hits n h } }
        if Nat.max 1 (fget s (PWR_SENT_CFG n) PWR_SENT_CFG_looks) ≤ h then wakeAdd 1 n s'' else s''
    let s2 := (List.range 32).foldl one s1
    let set := (rd s PWR_NW_LINKS).toNat
    let s3 := match (List.range 16).find? (fun l => bitOf set l && lanes.getLsbD l) with | some l => wakeAdd 2 l s2 | none => s2
    match (List.range 2).find? (fun l => bitOf set (16 + l) && links.getLsbD l) with | some l => wakeAdd 3 l s3 | none => s3

/-- 18 R546. -/
def doLinkSignalDetect (lane : Fin 16) (s : State) : State :=
  if inWatch s ∧ fbit s PWR_NW_CFG PWR_NW_CFG_detect_always ∧ bitOf (rd s PWR_NW_LINKS).toNat lane then wakeAdd 2 lane s else s

/-- 18 R546, 10 R334: a link's wake detector reports the wake pattern in WATCH with detect_always set. -/
def wakePattern (l : Nat) (s : State) : State :=
  if inWatch s ∧ fbit s PWR_NW_CFG PWR_NW_CFG_detect_always ∧ bitOf (rd s PWR_NW_LINKS).toNat (16 + l) then wakeAdd 3 l s else s

/-- 10 R334: the detector reports the pattern. -/
def doWakePatternDetect (l : Fin 2) (s : State) : State :=
  wakePattern l (if domOn s 12 ∧ s.pwr.state < 2 then fset s (DAX_WAKE l) DAX_WAKE_detected 1 else s)

/-- 18 R547: WAKE_N, or a GP pin set in PWR_WAKE_GP. -/
def doWakePin (pin : Option (Fin 32)) (s : State) : State :=
  if s.pwr.state < 2 then s
  else match pin with
    | none => wakeAdd 4 0 s
    | some g => if bitOf (rd s PWR_WAKE_GP).toNat g then wakeAdd 5 g s else s

/-- 18 R545: sentinel `n` has seen 64 frames. -/
def doSentinelPeakUpdate (n : Fin 32) (s : State) : State :=
  if s.pwr.state < 2 ∧ fbit s (PWR_SENT_CFG n) PWR_SENT_CFG_enable ∧ sideLocked s (sentSide s n) ∧ 64 ≤ smGet 0 s.pwr.sentN n then
    let p := smGet 0 s.pwr.sentPk n
    let held := decide (fget s (PWR_SENT_THR n) PWR_SENT_THR_threshold ≤ p)
    let s1 := fset s (PWR_SENT_PEAK n) PWR_SENT_PEAK_peak p
    let s2 := fset s1 PWR_SENT_HELD ⟨n, 1⟩ (b2n held)
    let s3 := { s2 with pwr := { s2.pwr with sentN := smSet 0 s2.pwr.sentN n 0, sentPk := smSet 0 s2.pwr.sentPk n 0 } }
    let pins := (List.range 32).filter (fun g => fget s (PRT_GP_CFG g) PRT_GP_CFG_function == 4 && fget s (PRT_GP_ARG g) ⟨0, 5⟩ == n.val)
    if held then { s3 with prt := { s3.prt with gpSent := pins.foldl (fun b g => b ||| 2 ^ g) s3.prt.gpSent } } else s3
  else s

/-! ## Resets (20 R580, R584, 18 R549, 19 R565, 17 R519) -/

/-- Register keys held in the always-on domain through a wake and a SYS_SW_RESET. -/
def aonKey (k : Nat) : Bool := (decide (0x100000 ≤ k) && decide (k < 0x140000)) || (decide (MEM_COND 0 ≤ k) && decide (k < MEM_COND 64))

def isAbsent (s : State) (v : Supply) : Bool := s.pin.absent.contains v

/-- The PCIe link can train: its lanes have their supplies, the engine is in RUN or QUIET, and PCIE_PERST_N reads 1: without its
supply it reads 0 (20 R581). -/
def pcieTrains (s : State) : Bool :=
  !(isAbsent s .vddSds || isAbsent s .vddhSds || isAbsent s .vddio5 || s.pin.perstLow) && decide (s.pwr.state < 2)

/-- The state after a reset that clears the always-on domain too: power-on and RESET_N (log 41, DEDUCED). -/
def resetAll (cause : Nat) (s : State) : State :=
  repairUse (wr { State.reset with pending := s.pending, perm := s.perm, pin := { s.pin with pcieUp := pcieTrains { s with pwr := State.reset.pwr } }, free := s.free,
                                   out := s.out } SYS_RESET_CAUSE (BitVec.ofNat 32 cause))

/-- SYS_SW_RESET and a wake: the always-on domain keeps its registers, the rejected bits, and a degraded Ledger its slots
(log 53, DEDUCED). -/
def resetHeld (cause : Nat) (s : State) : State :=
  let rej := fget s CTL_CAT_STATUS CTL_CAT_STATUS_rejected
  let deg := b2n (degraded s)
  let s1 := resetAll cause s
  let s2 := { s1 with regs := (s.regs.filter (fun (k, _) => aonKey k)).foldl (fun m (k, v) => smSet (regReset k) m k v) s1.regs,
                      pwr := { s1.pwr with state := fget s PWR_STATUS PWR_STATUS_state },
                      ldg := { s1.ldg with later := s.ldg.later, slots := if deg = 1 then s.ldg.slots else [],
                                           slotNext := if deg = 1 then s.ldg.slotNext else 1 } }
  let s3 := fset (fset s2 CTL_CAT_STATUS CTL_CAT_STATUS_rejected rej) LDG_STATUS LDG_STATUS_degraded deg
  (List.range 15).foldl (fun s d => if 1 ≤ d then setKey (fset s (PWR_DOM_STATUS d) PWR_DOM_STATUS_state 0) 11 d true else s)
    (setPhase s3 0)

/-- 15, 20 R584: SYS_SW_RESET. -/
def swReset (s : State) : State := resetHeld 4 s

def swResetWrite (m : Nat) (w : W32) (s : State) : State :=
  if wbit w SYS_SW_RESET_reset ∧ wget w SYS_SW_RESET_key = 0x52E7 then swReset s else swWrite s m SYS_SW_RESET w

def doPowerOnReset (s : State) : State :=
  let s1 := resetAll 1 s
  { s1 with pin := { s1.pin with ir := .idcode, boundary := 0, preload := 0, bypassBit := false, ppsOut := false } }

/-- 20 R584: RESET_N goes low and holds the engine in reset, or rises and start-up begins. -/
def doResetPin (level : Bool) (s : State) : State :=
  if level then { s with pin := { s.pin with resetLow := false } }
  else
    let s1 := resetAll 2 s
    { s1 with pin := { s1.pin with resetLow := true, ppsOut := false } }

/-- 18 R548 to R551: the engine wakes (log 54, DEDUCED). -/
def doWake (s : State) : State :=
  match s.pwr.wakes with
  | [] => s
  | w0 :: ws =>
    if s.pwr.state < 2 then s
    else
      let (c, i) := ws.foldl (fun (b : Nat × Nat) w => if w.1 < b.1 ∨ (w.1 = b.1 ∧ w.2 < b.2) then w else b) w0
      let dorm := s.pwr.state = 3
      let ctlLow := domState s 1
      let drmKept := domState s 14 = 2
      let s0 := wr s PWR_WAKE_CAUSE (BitVec.ofNat 32 (b2n (decide dorm) * 2 ^ 16 + i * 2 ^ 8 + c))
      let s1 := resetHeld 8 s0
      let run := (rd s1 PWR_MAP_RUN).toNat
      let s2 := (List.range 15).foldl (fun s d => if 1 ≤ d then
        wr s (PWR_DOM_STATUS d) (BitVec.ofNat 32 (0x800 + b2n (bitOf run d))) else s) (wr s1 PWR_SEAL 0)
      let kept := fun (a : Nat) => decide (0x4000_0000 ≤ a ∧ a < 0x4200_0000) || (drmKept && decide (0x1_0000_0000 ≤ a))
      let s3 := { s2 with mem := s.mem.filter (fun x => kept x.1), ecc := { s2.ecc with bad := (s.ecc.cure (fun x => kept (8 * x))).bad, flips := (s.ecc.cure (fun x => kept (8 * x))).flips },
                          pwr := { s2.pwr with state := 0 } }
      let s4 := (List.range 64).foldl (fun t b =>
        bankUp b (setBankPower t b (if ctlLow = 0 then 0 else fget s (MEM_BANK_STATUS b) MEM_BANK_STATUS_power))) s3
      let s5 := fset (fillStart 64 s4) PWR_STATUS PWR_STATUS_state 0
      let lo := rd s5 MEM_UNSEALED_LO
      let hi := rd s5 MEM_UNSEALED_HI
      let s6 := { s5 with ldg := { s5.ldg with later := s5.ldg.later ++ [(0x101, c + i * 256, [lo, hi])] } }
      let s7 := complete (newTicket s6 0 0x0601 true none).2 0x0600_0000 (if lo = 0 ∧ hi = 0 then ocOK else ocDATALOST) 0 0
      let res := get64 s7 PWR_RESUME_LO PWR_RESUME_HI
      let bank := storeBank (res - 0x4000_0000)
      let ok := bitOf res 0 && !decide dorm && decide (0x4000_0000 ≤ res) && decide (res < 0x4200_0000) &&
        fget s (MEM_BANK_STATUS bank) MEM_BANK_STATUS_power == 2 && !fbit s7 (MEM_BANK_STATUS bank) MEM_BANK_STATUS_unsealed
      if ok then
        let s8 := fset s7 CTL_CAT_STATUS CTL_CAT_STATUS_state 4
        setHartReg 0 10 ((rd s8 PWR_WAKE_CAUSE).setWidth 64) (hartJump 0 (res / 4 * 4) s8)
      else s7

end Sys2Proof.Machine
end

