-- ==== Sys2Proof/Machine/Pins.lean ====
section
/-! DEFINITION. Supplies, the host link, JTAG and the key-hash fuses (spec/20 R581 to R585, R597, R598). -/

namespace Sys2Proof.Machine

/-- 20 R581: an optional supply goes; the units behind its pins react (log 58, DESIGN CHOICE). -/
def doOptionalSupplyLoss (v : Supply) (s : State) : State :=
  if isAbsent s v then s
  else
    let s1 := { s with pin := { s.pin with absent := s.pin.absent ++ [v] } }
    match v with
    | .vddSds | .vddhSds => linkSignalLost (netSignalLost { s1 with pin := { s1.pin with pcieUp := false } })
    | .vddio0 | .vddio1 | .vddio2 => sidesClockLost v s1
    | .vddio5 => { s1 with pin := { s1.pin with pcieUp := false } }
    | _ => s1

/-- 20 R581: the supply returns; lanes, sides and training start again by their own steps. -/
def doOptionalSupplyReturn (v : Supply) (s : State) : State :=
  let s1 := { s with pin := { s.pin with absent := s.pin.absent.filter (· != v) } }
  match v with
  | .vddSds | .vddhSds | .vddio5 => if pcieTrains s1 then { s1 with pin := { s1.pin with pcieUp := true } } else s1
  | _ => s1

/-- 20 R585: PCIE_PERST_N goes low (log 57, DEDUCED). -/
def doPcieReset (s : State) : State := { s with pin := { s.pin with perstLow := true, pcieUp := false } }
/-- 20 R585: it rises and the link trains again. -/
def doPciePerstRise (s : State) : State :=
  let s1 := { s with pin := { s.pin with perstLow := false } }
  { s1 with pin := { s1.pin with pcieUp := pcieTrains s1 } }

/-! ## Pin states (20 R581 to R584, R597) -/

/-- The rows of the pin-state table of 20 R582; a single-ended group names the supply of its bank (20 R576). -/
inductive Pins
  | audioOut (bank : Supply)
  | clockOut
  | input (bank : Supply)
  | gp
  | ownOut
  | alive
  | serdesTx
  | serdesRx
  | xspi
  | dram
  deriving DecidableEq, Repr

/-- What a group of pins does. `unit`: what its unit does with it; `scan`: the boundary-scan cells drive it. -/
inductive PinMode
  | highZ
  | released
  | low
  | high
  | receiving
  | wakeWatch
  | idle
  | terminated
  | signalDetect
  | csPulledUp
  | resetLow
  | selfRefresh
  | unit
  | scan
  deriving DecidableEq, Repr

/-- The optional supply of a group; the always-on bank needs none. -/
def pinSupplies : Pins → List Supply
  | .audioOut b | .input b => [b]
  | .clockOut => [.vddio3]
  | .gp | .ownOut | .alive => []
  | .serdesTx | .serdesRx => [.vddSds, .vddhSds]
  | .xspi => [.vddio4]
  | .dram => [.vddqDram]

/-- 20 R597: the test instructions act on every single-ended pin. -/
def pinSingle : Pins → Bool
  | .serdesTx | .serdesRx | .dram => false
  | _ => true

/-- 20 R582: the state of a group of pins of an engine whose core supplies are present. -/
def pinTable (s : State) (g : Pins) : PinMode :=
  if s.pin.resetLow then
    match g with
    | .audioOut _ | .clockOut | .input _ | .gp | .alive => .highZ
    | .ownOut => .released
    | .serdesTx => .idle
    | .serdesRx => .terminated
    | .xspi => .csPulledUp
    | .dram => .resetLow
  else if 2 ≤ s.pwr.state then
    match g with
    | .audioOut _ | .clockOut | .input _ => .highZ
    | .gp => .wakeWatch
    | .ownOut => .released
    | .alive => .low
    | .serdesTx => .idle
    | .serdesRx => .signalDetect
    | .xspi => .csPulledUp
    | .dram => .selfRefresh
  else
    match g with
    | .alive => if twinAlive s then .high else .low
    | .input _ => .receiving
    | .audioOut _ | .gp => if outputsOpen s then .unit else .highZ
    | .clockOut => if outputsOpen s then .unit else .low
    | .ownOut => if outputsOpen s then .unit else .released
    | .serdesTx | .xspi | .dram => .unit
    | .serdesRx => .terminated

/-- 20 R581, R597: what a group of pins does, with its supply and the test port's instruction. -/
def pinMode (s : State) (g : Pins) : PinMode :=
  if (pinSupplies g).any (isAbsent s) then .highZ
  else if pinSingle g && s.pin.ir == .highz then .highZ
  else if pinSingle g && (s.pin.ir == .extest || s.pin.ir == .clamp) then .scan
  else pinTable s g

/-! ## JTAG (20 R597, R598) -/

def setIr (ir : JtagIr) (s : State) : State := { s with pin := { s.pin with ir := ir } }
/-- One bit through the bypass register: what was captured (0 under IEEE 1149.1) or shifted before comes out
(log 10, PRESUMED). -/
def doBypass (tdi : Bool) (s : State) : State :=
  let s1 := emit (setIr .bypass s) (.tdo (b2n s.pin.bypassBit) 1)
  { s1 with pin := { s1.pin with bypassBit := tdi } }
def idcodeWord : Nat := 0x1980_0A97
def doIdcode (s : State) : State := emit (setIr .idcode s) (.tdo idcodeWord 32)
/-- The cells are captured and shifted out, and the next values preloaded. -/
def doSamplePreload (cells preload : Nat) (s : State) : State :=
  let s1 := emit (setIr .sample s) (.tdo cells (Nat.log2 cells + 1))
  { s1 with pin := { s1.pin with boundary := cells, preload := preload } }
def doExtest (s : State) : State := let s1 := setIr .extest s; { s1 with pin := { s1.pin with boundary := s1.pin.preload } }
def doClamp (s : State) : State :=
  let s1 := setIr .clamp s
  { s1 with pin := { s1.pin with boundary := s1.pin.preload, bypassBit := false } }
def doHighz (s : State) : State := let s1 := setIr .highz s; { s1 with pin := { s1.pin with bypassBit := false } }
/-- 20 R598: Update-DR of FUSE_KEY: bits are set while RESET_N is low and VPP_FUSE is present, and never cleared. -/
def doFuseKey (bits : BitVec 256) (s : State) : State :=
  let s1 := setIr .fuseKey s
  if s1.pin.resetLow && !isAbsent s1 .vppFuse then { s1 with perm := { s1.perm with fuses := s1.perm.fuses ||| bits } } else s1
def doFuseRead (s : State) : State := emit (setIr .fuseRead s) (.tdo s.perm.fuses.toNat 256)

end Sys2Proof.Machine
end

