-- ==== Sys2Proof/Machine/Catalogue.lean ====
section
/-! DEFINITION. The catalogue image, slot selection, PHASE1, LOAD_CATALOGUE and the opening of the outputs (spec/17).
PHASE2 stands in Machine/Startup.lean, because it writes registers and stages records. -/

namespace Sys2Proof.Machine

/-! ## Images (17 R504 to R510) -/

/-- Where an image is read: a flash slot, or Atrium memory. -/
inductive Img
  | slot (k : Nat)
  | mem (a : Nat)
  deriving DecidableEq, Repr

def slotBase (k : Nat) : Nat := k * 0x0800_0000
def flashByte (s : State) (o : Nat) : Byte := smGet 0xFF s.perm.flash o
def imgBytes (s : State) (i : Img) (o n : Nat) : List Byte :=
  match i with
  | .slot k => (List.range n).map (fun j => flashByte s (slotBase k + o + j))
  | .mem a => viewBytes s false (a + o) n
def imgNat (s : State) (i : Img) (o n : Nat) : Nat := leVal (imgBytes s i o n)

def imgLen (s : State) (i : Img) : Nat := imgNat s i 16 4
def imgCount (s : State) (i : Img) : Nat := imgNat s i 20 2
def imgSeq (s : State) (i : Img) : Nat := imgNat s i 8 8

/-- 17 R507: a section table entry. -/
structure Section where
  idx : Nat
  type : Nat
  arg : Nat
  off : Nat
  len : Nat
  crc : Nat
  dest : Nat
  entry : Nat
  digest : List Byte

def imgSection (s : State) (i : Img) (k : Nat) : Section :=
  let f := fun (o n : Nat) => imgNat s i (0x1000 + 64 * k + o) n
  ⟨k, f 0 2, f 2 2, f 4 4, f 8 4, f 12 4, f 16 8, f 24 8, imgBytes s i (0x1000 + 64 * k + 32) 32⟩
def imgSections (s : State) (i : Img) : List Section := (List.range (Nat.min 256 (imgCount s i))).map (imgSection s i)

/-- 17 R506: header bytes 0 to 4,091 and the used table entries. -/
def imgSigned (s : State) (i : Img) : List Byte := imgBytes s i 0 4092 ++ imgBytes s i 0x1000 (64 * imgCount s i)

def disjoint : List Section → Bool
  | [] => true
  | x :: t => t.all (fun y => decide (x.off + x.len ≤ y.off) || decide (y.off + y.len ≤ x.off)) && disjoint t

/-- 17 R508 items 1 to 9 (log 121, DESIGN CHOICE). -/
def imgShape (s : State) (i : Img) : Bool :=
  let secs := imgSections s i
  let seq := imgSeq s i
  let crc := (crc32c (imgSigned s i)).toNat
  imgNat s i 0 4 == 0x5357_4354 && imgNat s i 4 2 == 1 && imgNat s i 6 2 == 0x9800 &&
  decide (imgNat s i 22 1 ≤ fget s SYS_STEPPING SYS_STEPPING_major) &&
  seq != 0 && seq != 2 ^ 64 - 1 &&
  decide (0x5040 ≤ imgLen s i) && decide (imgLen s i ≤ 0x0600_0000) &&
  decide (1 ≤ imgCount s i) && decide (imgCount s i ≤ 256) &&
  secs.all (fun x => decide (x.off + x.len ≤ imgLen s i)) && disjoint secs &&
  (secs.filter (fun x => x.type == 1 && x.entry != 0)).length == 1 &&
  decide (imgNat s i 23 1 < 4) && (imgBytes s i 25 7).all (· == 0) && (imgBytes s i 128 3964).all (· == 0) &&
  secs.all (fun x => x.type != 0) &&
  imgNat s i 4092 4 == crc && crc != 0xFFFF_FFFF

def fused (s : State) : Bool := decide (s.perm.fuses ≠ 0)

/-- 17 R509. -/
def imgSignature (s : State) (i : Img) : Bool :=
  let key := imgBytes s i 32 32
  let msg := imgBytes s i 0 64 ++ List.replicate 64 0 ++ imgBytes s i 128 3964 ++ imgBytes s i 0x1000 (64 * imgCount s i)
  !fused s || (bitOf (imgNat s i 23 1) 0 && sha256 key == leBytes 32 s.perm.fuses.toNat &&
    ed25519 key msg (imgBytes s i 64 64))

def imgValid (s : State) (i : Img) : Bool := imgShape s i && imgSignature s i

/-- 17 R510: a body passes its check; `digest` only. -/
def bodyCrc (s : State) (i : Img) (x : Section) : Bool := (crc32c (imgBytes s i x.off x.len)).toNat == x.crc
def bodyDigest (s : State) (i : Img) (x : Section) : Bool := !fused s || sha256 (imgBytes s i x.off x.len) == x.digest
def bodyOk (s : State) (i : Img) (x : Section) : Bool := bodyCrc s i x && bodyDigest s i x

/-! ## Selection (17 R517, R520) -/

def catState (s : State) : Nat := fget s CTL_CAT_STATUS CTL_CAT_STATUS_state
def setCatState (s : State) (v : Nat) : State := fset s CTL_CAT_STATUS CTL_CAT_STATUS_state v
def rejected (s : State) (k : Nat) : Bool := bitOf (fget s CTL_CAT_STATUS CTL_CAT_STATUS_rejected) k
def setRejected (s : State) (k : Nat) : State :=
  fset s CTL_CAT_STATUS CTL_CAT_STATUS_rejected (putBits (fget s CTL_CAT_STATUS CTL_CAT_STATUS_rejected) k 1 1)

/-- A slot exists, its flash can be read, and its image is valid. -/
def slotValid (s : State) (unread : Nat) (k : Nat) : Bool :=
  s.perm.flashOk && !isAbsent s .vddio4 && (k == 0 || s.perm.flashBig) && !bitOf unread k && imgValid s (.slot k)

/-- The image in use. -/
def imgInUse (s : State) : Img :=
  match s.cat.image with
  | some a => .mem a
  | none => .slot (fget s CTL_CAT_STATUS CTL_CAT_STATUS_slot)

/-- An image comes into use: its fields in CTL_CAT_STATUS, its sequence number, and the header copy of 17 R514. -/
def useImage (s : State) (i : Img) : State :=
  let fromMem := match i with | .mem _ => 1 | .slot _ => 0
  let slot := match i with | .slot k => k | .mem _ => 0
  let s1 := fset (fset (fset s CTL_CAT_STATUS CTL_CAT_STATUS_from_memory fromMem) CTL_CAT_STATUS CTL_CAT_STATUS_slot slot)
    CTL_CAT_STATUS CTL_CAT_STATUS_signed (b2n (fused s))
  let s2 := put64 s1 CTL_CAT_SEQ_LO CTL_CAT_SEQ_HI (imgSeq s i)
  let s3 := { s2 with cat := { s2.cat with image := match i with | .mem a => some a | .slot _ => none } }
  memStoreBytes s3 0x4000_0000 (imgBytes s i 0 0x5000)

/-- 17 R521: the network of CONFIG_HALT: both groups in mode 1 with Clause 108 RS-FEC, each port's addresses from the die
identifier, management on UDP port 52,100 (log 95, DESIGN CHOICE). -/
def haltNet (s : State) : State :=
  let s1 := (List.range 2).foldl (fun s g => grpCfg 0 g
    (BitVec.ofNat 32 (2 ^ NET_GRP_CFG_enable.lo + 2 * 2 ^ NET_GRP_CFG_fec.lo + 1 * 2 ^ NET_GRP_CFG_mode.lo)) s) s
  let id := Config.dieId.toNat % 2 ^ 32
  let port := fun (s : State) (p : Nat) =>
    let mac := 0x02 * 2 ^ 40 + p * 2 ^ 32 + id
    let v6 := 0xFE80 * 2 ^ 112 + (p * 2 ^ 48 + id / 2 ^ 24 * 2 ^ 40) + 0xFFFE * 2 ^ 24 + id % 2 ^ 24
    let s1 := wr (put64 s (NET_PORT_MAC_LO p) (NET_PORT_MAC_HI p) mac) (NET_PORT_IPV4 p) 0
    (List.range 4).foldl (fun s j => wr s (NET_PORT_IPV6 p j) (BitVec.ofNat 32 (v6 / 2 ^ (32 * j)))) s1
  let s2 := (List.range 8).foldl port s1
  wr s2 NET_MGMT_CFG (BitVec.ofNat 32 (2 ^ NET_MGMT_CFG_enable.lo + 0xFF * 2 ^ NET_MGMT_CFG_port_mask.lo + 52100))

def configHalt (s0 : State) : State :=
  let s := haltNet s0
  let s1 := put64 (setCatState s 6) CTL_CAT_SEQ_LO CTL_CAT_SEQ_HI 0
  { fset (fset (fset s1 CTL_CAT_STATUS CTL_CAT_STATUS_from_memory 0) CTL_CAT_STATUS CTL_CAT_STATUS_slot 0) CTL_CAT_STATUS
      CTL_CAT_STATUS_signed 0 with cat := { s1.cat with image := none } }

/-- 17 R517: the slot chosen, or CONFIG_HALT. -/
def selectSlot (unread : Nat) (s : State) : State :=
  let c := fun (k : Nat) => slotValid s unread k && !rejected s k
  let go := fun (k : Nat) => setCatState (useImage s (.slot k)) 1
  if c 0 && c 1 then go (if imgSeq s (.slot 0) < imgSeq s (.slot 1) then 1 else 0)
  else if c 0 then go 0
  else if c 1 then go 1
  else configHalt s

/-- 17 R503, R514, R516, R517: the boot ROM's own check, the flash's mode, then selection; bit k of `unread`: a read of slot k did not complete. The
ROM moves the core and unit clocks onto their PLLs (03 R68, 06 R171). -/
def doSelecting (romOk : Bool) (unread : BitVec 2) (s : State) : State :=
  if catState s ≠ 0 then s
  else if !romOk then { s with cat := { s.cat with romBad := true } }
  else
    let s1 := (List.range 68).foldl (fun s u => setClk (setClk s 1 u) 2 u) s
    selectSlot unread.toNat { s1 with cat := { s1.cat with flashMode := if s1.perm.flashOctal then .octal else .quad } }

/-! ## PHASE1 (17 R511, R514, R518) -/

/-- 17 R519: a load failure is remembered for the Ledger. -/
def loadFailure (s : State) (i : Img) (sec : Nat) : State :=
  let k := match i with | .slot k => k | .mem _ => 0
  let s1 := match i with | .slot k => setRejected s k | .mem _ => s
  if fbit s LDG_CFG LDG_CFG_enable then occur s1 0x140 (k * 256 + sec) []
  else { s1 with ldg := { s1.ldg with later := s1.ldg.later ++ [(0x140, k * 256 + sec, [])] } }

/-- 17 R511: a destination of types 0x0001 and 0x0002 is allowed. -/
def destOk (type a n : Nat) : Bool :=
  let store := inStore a n && decide (0x4001_0000 ≤ a)
  if type = 1 then store || (decide (0x2000_0000 ≤ a) && decide (a + n ≤ 0x2008_0000)) else store

/-- The sections of types 0x0001 and 0x0002 in table order: the state with them loaded, or the index of the failing one. -/
def phase1Load (i : Img) : List Section → State → State × Option Nat
  | [], s => (s, none)
  | x :: t, s =>
    if x.type = 1 ∨ x.type = 2 then
      if bodyOk s i x && destOk x.type x.dest x.len then phase1Load i t (memStoreBytes s x.dest (imgBytes s i x.off x.len))
      else (s, some x.idx)
    else phase1Load i t s

def phase1 (s : State) : State :=
  let i := imgInUse s
  let secs := imgSections s i
  match phase1Load i secs s with
  | (s1, none) =>
    let entry := ((secs.find? (fun x => x.type == 1 && x.entry != 0)).map (fun x => x.entry)).getD 0
    setCatState (setHartReg 0 10 0x4000_0000 (hartJump 0 entry s1)) 2
  | (s1, some k) => selectSlot 0 (loadFailure s1 i k)
def doPhase1 (s : State) : State := if catState s = 1 then phase1 s else s

/-! ## Opening the outputs (17 R524, R525) -/

/-- 17 R525: the seals of a seal list, in the layout of SYS_SEALS. -/
def applySeals (v : Nat) (s : State) : State :=
  let put := fun (s : State) (i k : Nat) (f : Fld) => if bitOf v i then fset s k f 1 else s
  let s1 := put (put (put s 0 (TIM_DOM_SEAL 0) TIM_DOM_SEAL_clock) 1 (TIM_DOM_SEAL 1) TIM_DOM_SEAL_clock) 2 (TIM_DOM_SEAL 2) TIM_DOM_SEAL_clock
  put (put (put (put (put s1 3 TIM_REF_SEAL TIM_REF_SEAL_clock) 4 DRC_SEAL DRC_SEAL_timing) 5 TWN_SEAL TWN_SEAL_role) 6 MEM_FUSE_SEAL
    MEM_FUSE_SEAL_fuse) 7 PWR_SEAL PWR_SEAL_policy

/-- 17 R525: the outputs open; the loader gives up its keys (18 R531) and a twin comes on air (log 51, DEDUCED). -/
def openNow (s : State) : State :=
  let s1 := setCatState (applySeals s.cat.seals { s with cat := { s.cat with openWait := false } }) 5
  let s2 := (List.range 15).foldl (fun s d => if 1 ≤ d then setKey s 11 d false else s) s1
  let s3 := if isTwin s2 ∧ !s2.twn.withdrawn then fset s2 TWN_STATUS TWN_STATUS_on_air 1 else s2
  twinOn s s3

/-- 17 R514, R525: a write to CTL_CAT_CTRL. -/
def catCtrl (w : W32) (s : State) : State :=
  let s1 := if wbit w CTL_CAT_CTRL_continue ∧ catState s = 2 then setCatState s 3 else s
  if !wbit w CTL_CAT_CTRL_open then s1
  else
    let refuse := fun (n : Nat) => fset s1 CTL_CAT_STATUS CTL_CAT_STATUS_open_refusal n
    if catState s1 = 5 ∨ s1.cat.openWait then refuse 4
    else if catState s1 ≠ 4 then refuse 1
    else if s1.cat.initial ≠ [] then refuse 2
    else if s1.cat.consTicket.isSome then refuse 3
    else
      let s2 := refuse 0
      match firstRunning s2 with
      | some _ => { s2 with cat := { s2.cat with openWait := true } }
      | none => openNow s2

/-- 17 R525: the next tick of the first running domain has come. -/
def doOutputsOpened (s : State) : State := if s.cat.openWait then openNow s else s

/-! ## LOAD_CATALOGUE (17 R522, R523) -/

def loadFail (t cause : Nat) (s : State) : State := complete (fset s CTL_CAT_STATUS CTL_CAT_STATUS_load_cause cause) t ocFAILED 0 0

/-- The checks of R508 and R510 on an image in memory: the failing cause. -/
def loadCheck (s : State) (i : Img) : Option Nat :=
  if !imgShape s i then some 1
  else if !imgSignature s i then some 3
  else if (imgSections s i).any (fun x => !bodyCrc s i x) then some 2
  else if (imgSections s i).any (fun x => !bodyDigest s i x) then some 3
  else none

/-- 17 R522: in CONFIG_HALT the image in memory comes into use. -/
def loadUse (a t : Nat) (s : State) : State :=
  let s1 := fset s CTL_CAT_STATUS CTL_CAT_STATUS_rejected 0
  complete (phase1 (setCatState (useImage s1 (.mem a)) 1)) t ocOK 0 0

def loadCmd (t : Nat) (e : BitVec 512) (s : State) : State :=
  let a := eByte e 16 8
  let n := eByte e 24 4
  let prog := bitOf (eByte e 28 1) 0
  let halt := catState s = 6
  match eReserved e [(16, 13)] with
  | some i => refuse s t ocRANGE i
  | none =>
    if 2 ≤ eByte e 28 1 then refuse s t ocRANGE 28
    else if !halt && !prog then refuse s t ocRANGE 28
    else if s.cat.load.isSome then refuseAll s t ocBUSY
    else
      let place := if halt then
          (decide (0x2000_0000 ≤ a) && decide (a + n ≤ 0x2008_0000)) || (decide (0x4040_0000 ≤ a) && decide (a + n ≤ 0x4200_0000))
        else decide (n ≤ 0x0600_0000) && (inStore a n || (inDramSpace a n && decide (a + n - 0x1_0000_0000 ≤ dramBytes s)))
      if !place then loadFail t 6 s
      else if n < imgLen s (.mem a) then loadFail t 6 s
      else match loadCheck s (.mem a) with
        | some c => loadFail t c s
        | none =>
          let slot := if halt then (if slotValid s 0 0 && !rejected s 0 then 1 else 0) else 1 - fget s CTL_CAT_STATUS CTL_CAT_STATUS_slot
          if !halt && decide (imgSeq s (.mem a) ≤ get64 s CTL_CAT_SEQ_LO CTL_CAT_SEQ_HI) then loadFail t 4 s
          else if prog then { s with cat := { s.cat with load := some ⟨a, n, slot, t⟩ } }
          else loadUse a t s

/-- 17 R523: the slot has been erased, programmed with the commit word last, and read back; this row writes the flash. -/
def doLoadCatalogueDone (ok : Bool) (s : State) : State :=
  match s.cat.load with
  | none => s
  | some j =>
    let base := slotBase j.slot
    let img := imgBytes s (.mem j.addr) 0 j.len
    let erased := smDrop s.perm.flash base (base + 0x0800_0000)
    let put := fun (m : SMap Byte) (l : List Byte) => (l.zipIdx).foldl (fun m (b, i) => smSet 0xFF m (base + i) b) m
    let usable := ok && s.perm.flashOk && !isAbsent s .vddio4 && (j.slot == 0 || s.perm.flashBig)
    let s1 := { s with cat := { s.cat with load := none }, perm := { s.perm with flash := if usable then put erased img else erased } }
    if !usable then loadFail j.ticket 5 s1
    else if catState s1 = 6 then loadUse j.addr j.ticket s1
    else complete s1 j.ticket ocOK 0 0

end Sys2Proof.Machine
end

