-- ==== Sys2Proof/Machine/Commands.lean ====
section
/-! DEFINITION. The acceptance of commands and their dispatch (spec/16 R486 to R494), with every source a command comes
from: the command ring, control cores, commits of the register path, management messages (spec/09 R302 to R304), scene
trigger pins (spec/08 R275), scheduled rotations (spec/12 R397). -/

namespace Sys2Proof.Machine

/-! ## Dispatch (16 R490, R492, R494) -/

/-- 16 R492: the work of an outstanding ticket that is background work stops, and the ticket completes ABORTED. -/
def abortWork (n : Nat) (s : State) : Option State :=
  if !s.ctl.outst.any (fun t => t.ticket == n) then none
  else if s.scn.recalls.any (fun r => r.ticket == n && r.phase != .committing) then some (recallsAbort (fun r => r.ticket == n) s)
  else match s.ecc.scrub, s.twn.conserve, s.twn.rot with
    | some j, _, _ => if j.ticket = n then some (scrubStop s) else abortRest n s
    | none, _, _ => abortRest n s
where
  /-- Conservation mode, a rotation whose switch tick is not chosen, a copy. -/
  abortRest (n : Nat) (s : State) : Option State :=
    if s.twn.conserve.any (fun c => c.ticket == n) then some (complete (consStop s) n ocABORTED 0 0)
    else if s.twn.rot.any (fun r => r.ticket == n) then (if rotPhase s ≤ 2 then some (rotDisable s) else none)
    else if (s.ctl.running ++ s.ctl.copies).any (fun j => j.ticket == n) then
      some (complete { s with ctl := { s.ctl with running := s.ctl.running.filter (fun j => j.ticket != n),
                                                  copies := s.ctl.copies.filter (fun j => j.ticket != n) } } n ocABORTED 0 0)
    else none

/-- 16 R492: the ABORT command with ticket `t` (log 112, DESIGN CHOICE). -/
def abortCmd (t : Nat) (e : BitVec 512) (s : State) : State :=
  match eReserved e [(16, 4)] with
  | some i => refuse s t ocRANGE i
  | none =>
    match abortWork (eByte e 16 4) s with
    | some s1 => complete s1 t ocOK 0 0
    | none => refuse s t ocNOTABORTABLE 16

/-- 16 R490: the command of an entry, with its ticket. In CONFIG_HALT only LOAD_CATALOGUE is accepted (17 R520). -/
def dispatchCode (t : Nat) (e : BitVec 512) (s : State) : State :=
  let code := eByte e 0 2
  if code = 0x0801 then loadCmd t e s
  else if catState s = 6 then refuseAll s t ocDISABLED
  else match code with
    | 0x0101 => recallCmd t e s
    | 0x0102 => commitCmd t e s
    | 0x0201 => timeStepCmd t e s
    | 0x0301 => scrubCmd t e s
    | 0x0302 => repairCmd t e s
    | 0x0401 => retireCmd t e s
    | 0x0402 => readmitCmd t e s
    | 0x0501 => conserveCmd t e s
    | 0x0502 => rotateCmd t e s
    | 0x0601 => setStateCmd t e s
    | 0x0701 => freezeCmd t e s
    | 0x0702 => unfreezeCmd t e s
    | 0x0901 => copyCmd t e s
    | 0x0A01 => abortCmd t e s
    | _ => refuse s t ocUNKNOWN 0

/-- 18 R533: the command, and the raise of a domain in which its work takes a key. -/
def dispatch (t : Nat) (e : BitVec 512) (s : State) : State := raiseKeyed (dispatchCode t e s)

/-- The codes of 16 R490. -/
def knownCodes : List Nat :=
  [0x0101, 0x0102, 0x0201, 0x0301, 0x0302, 0x0401, 0x0402, 0x0501, 0x0502, 0x0601, 0x0701, 0x0702, 0x0801, 0x0901, 0x0A01]

/-! ## Acceptance (16 R486 to R489) -/

/-- A ticket for an entry of an issuer. -/
def allot (iss : Nat) (e : BitVec 512) (s : State) : Nat × State :=
  newTicket s iss (eByte e 0 2) (bitOf (eByte e 2 1) 0) (if bitOf (eByte e 2 1) 1 then some (eByte e 8 2 % 4096) else none)

/-- A command is accepted and begins. -/
def accept (iss : Nat) (e : BitVec 512) (s : State) : State :=
  let (t, s1) := allot iss e s
  dispatch t e s1

/-- 16 R486, R487: a command of an issuer that waits for its ticket in arrival order. -/
def acceptCommand (iss : Nat) (e : BitVec 512) (s : State) : State :=
  if ticketsFull s || !s.ctl.waitq.isEmpty then { s with ctl := { s.ctl with waitq := s.ctl.waitq ++ [(iss, e)] } } else accept iss e s

/-- A row that names its command: the entry carries that code. -/
def acceptCode (code iss : Nat) (e : BitVec 512) (s : State) : State := if eByte e 0 2 = code then acceptCommand iss e s else s
def doUnknownCommand (iss : Fin 256) (e : BitVec 512) (s : State) : State :=
  if knownCodes.contains (eByte e 0 2) then s else acceptCommand iss e s

/-- 16 R488: the entries of the host command ring, in order, read through the Atrium's port of the common room (13 R411); at most 256
wait. -/
def ringAccept : Nat → State → State
  | 0, s => s
  | fuel + 1, s =>
    let head := fget s CTL_CMD_HEAD CTL_CMD_HEAD_head
    if head = fget s CTL_CMD_TAIL CTL_CMD_TAIL_tail ∨ ticketsFull s then s
    else
      let a := 0x2000_0000 + 64 * head
      let e := BitVec.ofNat 512 (memRead s a 64)
      let (t, s1) := allot 0 e s
      let s2 := fset (memStore s1 (a + 4) 4 t) CTL_CMD_HEAD CTL_CMD_HEAD_head ((head + 1) % 256)
      ringAccept fuel (dispatch t e s2)

/-- 16 R488: a write to CTL_CMD_TAIL. -/
def ringTail (m : Nat) (w : W32) (s : State) : State := ringAccept 256 (swWrite s m CTL_CMD_TAIL w)

/-- 16 R489: the entry in a core's CTL_FCMD_W registers; the engine ignores its bytes 4 to 7. -/
def fcmdEntry (s : State) (c : Nat) : BitVec 512 :=
  BitVec.ofNat 512 ((List.range 16).foldl (fun a k => a + (if k = 1 then 0 else (rd s (CTL_FCMD_W c k)).toNat) * 2 ^ (32 * k)) 0)

/-- 16 R487, R489: a core's command is accepted, or stalls with busy set. -/
def fcmdTry (iss c : Nat) (s : State) : State :=
  if ticketsFull s then
    fset { s with ctl := { s.ctl with fcmdIss := smSet 0 s.ctl.fcmdIss c iss } } (CTL_FCMD_CTRL c) CTL_FCMD_CTRL_busy 1
  else
    let e := fcmdEntry s c
    let (t, s1) := allot iss e s
    let s2 := fset (wr s1 (CTL_FCMD_TICKET c) (BitVec.ofNat 32 t)) (CTL_FCMD_CTRL c) CTL_FCMD_CTRL_busy 0
    dispatch t e s2
/-- A write to CTL_FCMD_CTRL. -/
def fcmdCtrl (iss c : Nat) (w : W32) (s : State) : State :=
  if wbit w CTL_FCMD_CTRL_issue ∧ !fbit s (CTL_FCMD_CTRL c) CTL_FCMD_CTRL_busy then fcmdTry iss c s else s

/-- 04 R107, 16 R487: a commit of the register path, which waits until a ticket frees. -/
def cmtCtrl (m iss : Nat) (w : W32) (s : State) : State :=
  let s1 := swWrite s m SCN_CMT_CTRL w
  if !wbit w SCN_CMT_CTRL_commit then s1
  else if s.scn.cmtWait.isSome then s
  else if ticketsFull s1 then
    fset { s1 with scn := { s1.scn with cmtWait := some (iss, portReq s1) } } SCN_CMT_STATUS SCN_CMT_STATUS_busy 1
  else portCommit iss (portReq s1) s1

/-- 04 R107: COMMIT, by entry or by port. -/
def doCommit (iss : Fin 256) (src : CmtSrc) (s : State) : State :=
  match src with
  | .entry e => acceptCode 0x0102 iss e s
  | .port w => cmtCtrl 8 iss w s

/-! ## Management messages (09 R302 to R304) -/

/-- 09 R304: the acknowledgement of a command. -/
def mgmtAck (p src udp seq t : Nat) (s : State) : State := mgmtSend p src udp (mgmtMsg 2 seq (leBytes 4 t)) s

/-- A command message is repeated, waits for a ticket, or is accepted. -/
def mgmtCommand (p src udp : Nat) (msg : List Byte) (s : State) : State :=
  let seq := leVal ((msg.drop 4).take 4)
  let e := BitVec.ofNat 512 (leVal ((msg.drop 16).take 64))
  match ((s.net.mgmt.filter (fun q => q.1 == src)).take 256).find? (fun q => q.2.1 == seq) with
  | some (_, _, t) => mgmtAck p src udp seq t s
  | none =>
    if ticketsFull s || !s.ctl.waitq.isEmpty then
      { s with ctl := { s.ctl with waitq := s.ctl.waitq ++ [(0x10 + p, e)] }, net := { s.net with mgmtWait := s.net.mgmtWait ++ [(p, src, udp, msg)] } }
    else mgmtRun p src udp seq e s
where
  /-- Acceptance: the ticket, the acknowledgement, the command. -/
  mgmtRun (p src udp seq : Nat) (e : BitVec 512) (s : State) : State :=
    let (t, s1) := allot (0x10 + p) e s
    let mine := (s1.net.mgmt.filter (fun q => q.1 == src)).take 255
    let rest := s1.net.mgmt.filter (fun q => q.1 != src)
    let s2 := { s1 with net := { s1.net with mgmt := (src, seq, t) :: (mine ++ rest), mgmtTickets := s1.net.mgmtTickets ++ [(t, p, src, udp, seq)] } }
    dispatch t e (mgmtAck p src udp seq t s2)

/-- The datagram that carries a message to the management port of port `p`. -/
def mgmtDatagram (s : State) (p src udp : Nat) (msg : List Byte) : List Byte :=
  udpData (!isV4 src) true (if isV4 src then src % 2 ^ 32 else src) (if isV4 src then portV4 s p else portV6 s p) udp
    (fget s NET_MGMT_CFG NET_MGMT_CFG_udp_port) msg
/-- 09 R302, R304: a message to the management port; the datagram of a source that is not allowed goes to the control queue, with
its source address. -/
def mgmtIn (p src udp : Nat) (msg : List Byte) (s : State) : State :=
  if !mgmtAllowed s src then ctlPut p ((mgmtDatagram s p src udp msg).map (·.toNat)) none (some src) s
  else match mgmtError msg with
    | 0 => mgmtCommand p src udp msg s
    | c => mgmtSend p src udp (mgmtMsg 4 (leVal ((msg.drop 4).take 4)) (leBytes 4 c)) s

def doManagementMessage (p : Fin 8) (src : BitVec 128) (udp : BitVec 16) (msg : List Byte) (s : State) : State :=
  if fbit s NET_MGMT_CFG NET_MGMT_CFG_enable ∧ bitOf (fget s NET_MGMT_CFG NET_MGMT_CFG_port_mask) p ∧ portUp s p then
    mgmtIn p src.toNat udp.toNat msg s
  else s

def doNetFrameReceived (p : Fin 8) (bytes : List Byte) (fcsOk : Bool) (t : Nat) (s : State) : State := netFrame mgmtIn p bytes fcsOk t s

/-! ## Triggers and scheduled rotations (08 R275, 12 R397) -/

/-- 08 R275: a recall of the pin's scene at the index of the domain's next tick plus the lead. -/
def triggerEntry (s : State) (g : Nat) : BitVec 512 :=
  let k := PRT_GP_ARG g
  let dom := fget s k PRT_GP_ARG_domain
  let i := (match domOf dom with | some x => (genOf s x).next | none => 0) + fget s k PRT_GP_ARG_lead_or_d
  BitVec.ofNat 512 (0x0101 + 2 ^ 16 + fget s k PRT_GP_ARG_scene_s_sent * 2 ^ 128 + 2 ^ 144 + dom * 2 ^ 152 + i % 2 ^ 64 * 2 ^ 192)
def doGpSceneTrigger (g : Fin 32) (s : State) : State :=
  if fget s (PRT_GP_CFG g) PRT_GP_CFG_function = 2 then acceptCommand 0x21 (triggerEntry s g) s else s

/-- 12 R397: the period of the schedule has passed. -/
def doScheduledRotation (s : State) : State :=
  if !fbit s TWN_ROT_SCHED TWN_ROT_SCHED_enable then s
  else match schedPick s s.twn.schedNext with
    | none => s
    | some q => acceptCommand 0x20 (schedEntry q) { s with twn := { s.twn with schedNext := (q + 1) % 160 } }

/-! ## Tickets free again (16 R487) -/

/-- Commands that wait in arrival order, while tickets last. -/
def waitAccept : Nat → State → State
  | 0, s => s
  | fuel + 1, s =>
    if ticketsFull s then s
    else match s.ctl.waitq with
      | [] => s
      | (iss, e) :: rest =>
        let s1 := { s with ctl := { s.ctl with waitq := rest } }
        if 0x10 ≤ iss ∧ iss < 0x18 then
          match s1.net.mgmtWait with
          | (p, src, udp, msg) :: more =>
            let s2 := { s1 with net := { s1.net with mgmtWait := more }, ctl := { s1.ctl with waitq := [] } }
            let s3 := mgmtCommand p src udp msg s2
            waitAccept fuel { s3 with ctl := { s3.ctl with waitq := rest } }
          | [] => waitAccept fuel (accept iss e s1)
        else waitAccept fuel (accept iss e s1)

/-- 16 R487: acceptance goes on: the commit of the register path, the commands that wait, the control cores, the ring. -/
def doTicketStallRelease (s : State) : State :=
  if ticketsFull s then s
  else
    let s1 := match s.scn.cmtWait with | some (iss, r) => portCommit iss r s | none => s
    let s2 := waitAccept (s1.ctl.waitq.length + 1) s1
    let s3 := (List.range 8).foldl (fun s c =>
      if fbit s (CTL_FCMD_CTRL c) CTL_FCMD_CTRL_busy then fcmdTry (smGet 0 s.ctl.fcmdIss c) c s else s) s2
    ringAccept 256 s3

end Sys2Proof.Machine
end

