-- ==== Sys2Proof/Machine/Registers.lean ====
section
/-! DEFINITION. The register target and the Atrium: what a software write to each register does (spec/15 R454, R458 to
R463, R466, with the chapter of each register), register accesses of every width, the Reading Room (15 R467 to R470),
accesses to every Atrium target (15 R451), DMA copies (16 R491), background disables (16 R501). -/

namespace Sys2Proof.Machine

/-! ## Reading Room (15 R467 to R470) -/

/-- A Reading Room answer: a result code other than 0, or 128 bits of data. -/
abbrev RrAns := Nat × Nat
def rrOK (v : Nat) : RrAns := (0, v)
def rrRANGE : RrAns := (2, 0)
def rrOFF : RrAns := (3, 0)
def rrEMPTY : RrAns := (5, 0)

/-- Freiz time as the targets 0x03 and 0x05 give it. -/
def rrTime (t : Nat) : Nat := freizFrac t + freizNs t * 2 ^ 32 + freizSec t * 2 ^ 64

/-- A signed value in `n` bits. -/
def twos (n : Nat) (v : Int) : Nat := (BitVec.ofInt n v).toNat

/-- The value half of target 0x08. -/
def rrPatchVal (v : PatchVal) : Nat :=
  match v with | .nothing => 2 ^ 13 | .sslot i => 2 ^ 12 + i | .dslot d => d

def rrPatch (s : State) (e : Nat) : Nat :=
  let p := patchOf s e
  let st := match p.state with | .steady => 0 | .staged => 1 | .fading => 2
  let d0 := rrPatchVal p.valA + rrPatchVal p.valB * 2 ^ 16
  let d1 := b2n p.live + st * 2 + p.gen * 2 ^ 4 + p.len * 2 ^ 16
  d0 + d1 * 2 ^ 32 + (if p.state = .fading then p.k else 0) * 2 ^ 64

/-- Target 0x09: a strip value (05 R159 for the parameters). -/
def rrStrip (s : State) (arg a1 : Nat) : RrAns :=
  let out := bitOf arg 12
  let strip := bitsOf arg 0 12 + (if out then 4096 else 0)
  let idx := bitsOf a1 0 16
  let word := bitsOf a1 16 3
  let r := stripRun s strip
  let known := (paramForm out idx).isSome
  match bitsOf arg 13 2 with
  | 0 => if known ∧ word = 0 then rrOK (param s strip idx).toNat else rrRANGE
  | 1 =>
    if known ∧ word = 0 then
      rrOK (match s.scn.recs.find? (fun q => rKind q.w0 == 5 && rStrip q.w0 == strip && rParam q.w0 == idx) with
        | some q => q.w1.toNat
        | none => (param s strip idx).toNat)
    else rrRANGE
  | 2 =>
    let k := (idx - 0x10) / 8
    if 0x10 ≤ idx ∧ idx % 8 = 0 ∧ k < (if out then 16 else 12) then (if word < 4 then rrOK (smGet 0 r.sec (4 * k + word)).toNat else rrRANGE)
    else if idx = 0x90 ∧ word = 0 then rrOK (twos 64 r.gA)
    else if idx = 0xA0 ∧ word = 0 then rrOK (twos 64 r.gB)
    else if idx = 0xA0 ∧ word = 1 then rrOK r.hold
    else if idx = 0xC0 ∧ out ∧ word = 0 then rrOK (twos 64 r.gL)
    else rrRANGE
  | _ => rrRANGE

/-- Target 0x0A: a register of a physical core as its last FEND left it. Loop level 0 is the outermost. -/
def rrCore (s : State) (c : Nat) (shadow : Bool) (r : Nat) : RrAns :=
  let k := coreOf s c
  let b := if shadow then k.fendShadow else k.fendMain
  let acc := fun (i : Nat) => smGet accZero b.a i
  if r < 16 then rrOK (smGet 0 b.d r).toNat
  else if r < 20 then rrOK (acc (r - 16)).a.toNat
  else if r < 24 then
    let a := acc (r - 20)
    rrOK (twos 8 a.e8 + b2n a.lost * 2 ^ 8 + b2n (a.lost && a.dir) * 2 ^ 9)
  else if r < 32 then rrOK (twos 64 (smGet 0 b.k (r - 24)).toInt)
  else if r = 32 then rrOK b.sw.toNat
  else if r < 37 then
    match b.loops.reverse[r - 33]? with
    | some l => rrOK (l.start + l.stop * 2 ^ 16 + l.count % 2 ^ 16 * 2 ^ 32)
    | none => rrOK 0
  else rrRANGE

/-- Target 0x0B: taps and phases of the tables of 08 R249 to R251. -/
def rrCoef (s : State) (arg a1 : Nat) : RrAns :=
  let i := bitsOf arg 0 3
  let o := bitsOf arg 3 3
  let async := bitOf arg 6
  let ph := bitsOf a1 0 16
  let tap := bitsOf a1 16 16
  let q := if async then 1024 else rateHz o / Nat.gcd (rateHz i) (rateHz o)
  let p := rateHz i / Nat.gcd (rateHz i) (rateHz o)
  let w := if async then rateHz i / 800 - 2 else brLo o * p / q - 2
  if 5 < i ∨ 5 < o ∨ q ≤ ph ∨ 2 * w ≤ tap then rrRANGE
  else if !domOn s 13 then rrOFF
  else rrOK (twos 64 (Config.bridgeCoef i o async ph tap).toInt)

/-- 15 R470: the answer of a target. -/
def rrTarget (s : State) (t arg a1 : Nat) : RrAns :=
  let plain := fun (v : Nat) => if arg = 0 then rrOK v else rrRANGE
  match t with
  | 0x01 => plain Config.dieId.toNat
  | 0x02 => (match (if arg < 4 then domOf arg else none) with | some x => rrOK (nowIdx s x % 2 ^ 64) | none => rrRANGE)
  | 0x03 => plain (rrTime s.tim.freiz)
  | 0x04 => (match (if arg < 4 then domOf arg else none) with
    | some x => rrOK (twos 64 (pdGet s.tim.delta x) + twos 32 (pdGet s.tim.rho x) * 2 ^ 64)
    | none => rrRANGE)
  | 0x05 => plain (rrTime s.tim.ppsIn)
  | 0x06 =>
    if 8 ≤ arg then rrRANGE
    else (match s.net.ptpTs.find? (fun e => e.1 == arg) with
      | some (_, f, q, m) => rrOK (freizFrac f + freizNs f * 2 ^ 32 + freizSec f % 2 ^ 32 * 2 ^ 64 +
          (q % 2 ^ 16 * 2 ^ 16 + m % 16 * 2 ^ 12 + freizSec f / 2 ^ 32 % 2 ^ 12) * 2 ^ 96)
      | none => rrEMPTY)
  | 0x07 =>
    let d := bitsOf arg 12 12
    let t := physOf s 1 (d / 64)
    if !domOn s (unitPower 1 t) then rrOFF else rrOK (node s (nodeKey t d (bitsOf arg 0 12))).toNat
  | 0x08 => if 16384 ≤ arg then rrRANGE else if !domOn s 10 then rrOFF else rrOK (rrPatch s arg)
  | 0x09 => if 32768 ≤ arg ∨ 2 ^ 19 ≤ a1 then rrRANGE else if !domOn s 10 then rrOFF else rrStrip s arg a1
  | 0x0A =>
    let c := bitsOf arg 0 7
    if 68 ≤ c ∨ 65536 ≤ arg then rrRANGE else if !domOn s (unitPower 2 c) then rrOFF else rrCore s c (bitOf arg 7) (bitsOf arg 8 8)
  | 0x0B => if 128 ≤ arg then rrRANGE else rrCoef s arg a1
  | 0x0C =>
    let kind := bitsOf arg 22 2
    let num := bitsOf arg 0 10
    let one := bitOf arg 21
    if kind = 3 ∨ bitsOf arg 10 10 ≠ 0 ∨ 4 ≤ a1 ∨ (kind = 0 ∧ (8 ≤ num ∨ one)) ∨ (!one ∧ bitOf arg 20) then rrRANGE
    else if !domOn s 11 then rrOFF
    else rrOK (smGet 0 s.net.counters (netCntKey kind num (if one then some (bitsOf arg 20 1) else none) a1)).toNat
  | 0x0D => plain s.ecc.lastCe
  | 0x0E => plain s.ctl.errAddr
  | 0x10 =>
    if 16384 ≤ arg ∨ 8 ≤ a1 then rrRANGE
    else (match ldgAt s arg with
      | some e => rrOK (leVal (((ldgBytes e).drop (16 * a1)).take 16))
      | none => rrEMPTY)
  | 0x11 => plain (s.ldg.next % 2 ^ 64)
  | _ => (1, 0)

/-- Words of RR_ARG that a target does not use must be 0 (15 R470) (log 113, DEDUCED). -/
def rrArgOk (t a1 : Nat) : Bool := [0x09, 0x0B, 0x0C, 0x10].contains t || a1 == 0

/-- 15 R469: the answer of a request stands in its mailbox. -/
def rrAnswer (mb : Nat) (a : RrAns) (s : State) : State :=
  let put := fun (s : State) (k i : Nat) => wr s k (BitVec.ofNat 32 (a.2 / 2 ^ (32 * i)))
  let s2 := put (put (put (put s (RR_DATA0 mb) 0) (RR_DATA1 mb) 1) (RR_DATA2 mb) 2) (RR_DATA3 mb) 3
  fset (fset s2 (RR_STATUS mb) RR_STATUS_result a.1) (RR_STATUS mb) RR_STATUS_valid 1

/-- 15 R468, R469: a request of mailbox `mb` is answered at once; target 0x06 takes the entry it returns. -/
def rrRun (mb t arg : Nat) (s : State) : State :=
  let a1 := (rd s (RR_ARG mb)).toNat
  let (c, v) := let r := rrTarget s t arg a1; if r.1 ≠ 1 ∧ !rrArgOk t a1 then rrRANGE else r
  let s1 := if t = 0x06 ∧ c = 0 then
      (match s.net.ptpTs.find? (fun e => e.1 == arg) with
      | some e => { s with net := { s.net with ptpTs := s.net.ptpTs.erase e } }
      | none => s)
    else s
  rrAnswer mb (c, v) s1

/-- A write to RR_REQ. -/
def rrReq (m mb : Nat) (w : W32) (s : State) : State :=
  let s1 := swWrite s m (RR_REQ mb) w
  if wbit w RR_REQ_go then rrRun mb (wget w RR_REQ_target) (wget w RR_REQ_arg) s1 else s1

/-! ## Actions of registers that no other file holds -/

/-- 15 R466: the messages of vectors whose OR is still 1 go out again. -/
def rearm (w : W32) (s : State) : State :=
  let pend := blocksPending s
  ((List.range 32).filter (fun v => bitOf w.toNat v && vecOr s pend v)).foldl msixSend s

/-- 15 R476. -/
def errRearm (w : W32) (s : State) : State := if wbit w ATR_ERR_REARM_rearm then fset s ATR_ERR_CAP ATR_ERR_CAP_valid 0 else s

/-- 16 R501: CTL_BG_EN: units that are disabled stop, and their tickets complete ABORTED. -/
def bgWrite (m : Nat) (w : W32) (s : State) : State :=
  let old := (rd s CTL_BG_EN).toNat
  let s1 := swWrite s m CTL_BG_EN w
  let new := (rd s1 CTL_BG_EN).toNat
  let off := fun (i : Nat) => bitOf old i && !bitOf new i
  let s2 := if off 0 then recallsAbort (fun _ => true) s1 else s1
  let s3 := if off 1 then scrubStop s2 else s2
  let s4 := if off 3 then rotDisable s3 else s3
  let s5 := (List.range 4).foldl (fun s g => if off (4 + g) then copyStop g s else s) s4
  if off 8 then (match s5.twn.conserve with | some c => complete (consStop s5) c.ticket ocABORTED 0 0 | none => s5) else s5

/-- 16 R483, PCIe: a vector that is unmasked while its pending bit is set sends its message. -/
def msixWrite (m j : Nat) (w : W32) (s : State) : State :=
  let s1 := swWrite s m (CTL_MSIX_TABLE j) w
  if j % 4 = 3 ∧ !bitOf (rd s1 (CTL_MSIX_TABLE j)).toNat 0 ∧ bitOf (rd s1 (CTL_MSIX_PBA 0)).toNat (j / 4) then msixSend s1 (j / 4) else s1

/-- 16 R486: the issuer of a command that a master writes to a register (log 111, DEDUCED). -/
def issuerOf (m : Nat) : Nat := if m < 8 then m + 1 else if 9 ≤ m ∧ m ≤ 12 then 0x30 + (m - 9) else 0x00

/-! ## A software write to a register (15 R460) -/

/-- The instance of a register array that a key names: base, stride in words, count. -/
def inst (k base stride n : Nat) : Option Nat :=
  if base ≤ k ∧ (k - base) % stride = 0 ∧ (k - base) / stride < n then some ((k - base) / stride) else none

/-- The action of instance `i`, when the key names one. -/
def onInst (k base stride n : Nat) (f : Nat → State → State) (other : State → State) (s : State) : State :=
  match inst k base stride n with
  | some i => f i s
  | none => other s

/-- Registers of the control plane: SYS, ATR, MEM, DRC, PWR, CTL (blocks 0 to 5). -/
def regWriteCtl (m iss k : Nat) (v : W32) (plain : State → State) (s : State) : State :=
  match k / 0x40000 with
  | 0 =>
    if k = SYS_SW_RESET then swResetWrite m v s
    else if k = SYS_INT_REARM then rearm v s
    else onInst k (RR_REQ 0) 0x10 16 (fun mb s => rrReq m mb v s) plain s
  | 1 =>
    if k = ATR_ERR_REARM then errRearm v s
    else onInst k (ATR_MST_TOKEN 0) 4 21 (fun i s => plain (tokenFill s i)) plain s
  | 2 => onInst k (MEM_BKT_CFG 0) 4 32 (fun r s => bucketConfig m r v s) plain s
  | 3 => if k = DRC_CTRL then dramInit v (plain s) else partConflict (plain s)
  | 4 => onInst k (PWR_FW_KEY 0) 1 8 (fun i s => if 1 ≤ i then fwKeyWrite m i v s else plain s) plain s
  | _ =>
    if k = CTL_CMD_TAIL then ringTail m v s
    else if k = CTL_CQ_HEAD then ringRoom m false v s
    else if k = CTL_FW_CQ_HEAD then ringRoom m true v s
    else if k = CTL_BG_EN then bgWrite m v s
    else if k = CTL_CORE_RUN then coreRun m v s
    else if k = CTL_DOC_SIGNAL then docSignal v s
    else if k = CTL_DOC_DONE then docDone v s
    else if k = CTL_CAT_CTRL then catCtrl v s
    else if CTL_MSIX_TABLE 0 ≤ k ∧ k < CTL_MSIX_TABLE 128 then msixWrite m (k - CTL_MSIX_TABLE 0) v s
    else onInst k (CTL_FCMD_CTRL 0) 0x40 8 (fun c s => fcmdCtrl iss c v s)
      (onInst k (CTL_DOC_TAKE 0) 0x40 8 (fun c s => docTake c v s)
        (onInst k (CTL_DOC_CFG 0) 4 4096 (fun t s => docConfig t v s) plain)) s

/-- Registers of time, twins, ports, network and Daxesh (blocks 6 to 10). -/
def regWriteLink (m k : Nat) (v : W32) (plain : State → State) (s : State) : State :=
  match k / 0x40000 with
  | 6 =>
    if k = TIM_SERVO_CTRL then servoCtrl v s
    else if k = TIM_SEL_CFG ∨ (TIM_PRIO 0 ≤ k ∧ k < TIM_PRIO 8) then priorityWrite m k v s
    else if k = TIM_AUX_CFG then (if isSealed s k then plain s else auxFollow (plain s))
    else if k = TIM_DOM_CTRL 0 then domCtrl .A v s
    else if k = TIM_DOM_CTRL 1 then domCtrl .B v s
    else if k = TIM_DOM_CTRL 2 then domCtrl .C v s
    else plain s
  | 7 => if k = TWN_CTRL then twnCtrl v s else if k = TWN_CFG then twinCfg s (plain s) else plain s
  | 8 =>
    if k = PRT_GP_OUT then gpWrite m k v s
    else if k = PRT_GP_SENT_CLR then sentClear v s
    else onInst k (PRT_GP_CFG 0) 4 32 (fun _ s => gpWrite m k v s)
      (onInst k (PRT_BR_CTRL 0) 8 256 (fun b s => brCtrl b v s) (fun s =>
        match (List.range 160).find? (fun i => k == PRT_SIDE_CFG i) with
        | some i => sideCfg m i v s
        | none => plain s)) s
  | 9 =>
    onInst k (NET_GRP_CFG 0) 1 2 (fun g s => grpCfg m g v s)
      (onInst k (NET_RXF_CTRL 0) 0x10 1024 (fun f s => rxfCtrl f v s)
        (onInst k (NET_TXF_CTRL 0) 0x10 1024 (fun f s => txfCtrl f v s) plain)) s
  | _ =>
    onInst k (DAX_LINK_CFG 0) 0x400 2 (fun l s => linkCfg m l v s)
      (onInst k (DAX_WAKE 0) 0x400 2 (fun l s => wakeCtrl m l v s)
        (onInst k (DAX_TXMAP 0 0) 1 8192 (fun j s => txmapCtrl m 0 j v s)
          (onInst k (DAX_TXMAP 1 0) 1 8192 (fun j s => txmapCtrl m 1 j v s)
            (onInst k (DAX_PS 0 0) 1 4096 (fun j s => psCtrl m 0 j v s)
              (onInst k (DAX_PS 1 0) 1 4096 (fun j s => psCtrl m 1 j v s) plain))))) s

/-- Registers of strips, scenes, the Gallery, Atelier cores and the Ledger (blocks 11 to 15). -/
def regWriteAudio (m iss k : Nat) (v : W32) (plain : State → State) (s : State) : State :=
  match k / 0x40000 with
  | 11 =>
    if k = STR_ARC_SIZE then (let s1 := plain s; wr s1 STR_ARC_DEPTH (BitVec.ofNat 32 (arcDepth s1)))
    else if k = STR_LG_RESET then lgReset m v s
    else onInst k (STR_PB_CTRL 0) 0x10 64 (fun c s => pbCtrl m c v s) plain s
  | 12 =>
    if k = SCN_GEN_CLAIM then genClaim m v s
    else if k = SCN_REC_CMD then recCmd m v s
    else if k = SCN_CMT_CTRL then cmtCtrl m iss v s
    else plain s
  | 13 => if k = GAL_STG_CMD then stgCmd v s else plain s
  | 14 => if ATL_XMAP 0 0 ≤ k ∧ k < ATL_XMAP 64 0 then xmapWrite m ((k - ATL_XMAP 0 0) / 64) ((k - ATL_XMAP 0 0) % 64) v s else plain s
  | 15 =>
    if k = LDG_CFG then ldgCfg m v s
    else if k = LDG_SW_EVENT then swEvent m v s
    else if LDG_CODE_CFG 0 ≤ k ∧ k < LDG_CODE_CFG 1024 then codeConfig m (k - LDG_CODE_CFG 0) v s
    else plain s
  | _ => plain s

/-- The whole effect of a software write of master `m` to the register at a key; commands that it launches take issuer
`iss`. -/
def regWrite (m iss k : Nat) (v : W32) (s : State) : State :=
  let plain := fun (s : State) => swWrite s m k v
  if k < 6 * 0x40000 then regWriteCtl m iss k v plain s
  else if k < 11 * 0x40000 then regWriteLink m k v plain s
  else regWriteAudio m iss k v plain s

/-- The island of a register is ON (15 R458). -/
def regOn (s : State) (k : Nat) : Bool :=
  if 0x400000 ≤ k then domOn s 14 else domOn s (powerOf (k / 0x40000) (k % 0x40000 * 4))

/-- BAR0 offset of the register at a key; DRAM channel 0's registers beside the global group answer at their own index
(log 20, DEDUCED). -/
def regOffset (k : Nat) : Nat := if 0x400000 ≤ k then 0x301000 + (k - 0x400000) * 4 else k * 4

/-- A write by software that names the register: rows that are register writes (log 18, DESIGN CHOICE). -/
def softWrite (m k : Nat) (v : W32) (s : State) : State :=
  if regOn s k then regWrite m (issuerOf m) k v s else capture s capIslandOff m (0x1000_0000 + regOffset k) true 0xF

/-! ## Register accesses of every width (15 R453, R454) -/

def regStrobes (o n : Nat) : Nat := bitsOf (2 ^ n - 1) 0 8 * 2 ^ (o % 8) % 256

/-- An aligned 32-bit write at an offset: whether it answers normally. -/
def regWord (m iss o : Nat) (v : W32) (s : State) : State × Bool :=
  let err := fun (c : Nat) => (capture s c m (0x1000_0000 + o) true (regStrobes o 4), false)
  match regDecode o with
  | .unmapped => err capUnmapped
  | .reserved => if domOn s (powerOf (o / 0x100000 % 16) (o % 0x100000)) then (s, true) else err capIslandOff
  | .reg k => if domOn s (powerOf (o / 0x100000 % 16) (o % 0x100000)) then (regWrite m iss k v s, true) else err capIslandOff

/-- A write of `n` bytes at an offset of the register space (log 22, DESIGN CHOICE). -/
def regAccWrite (m iss o n v : Nat) (s : State) : State × Bool :=
  let err := fun (c : Nat) (ok : Bool) => (capture s c m (0x1000_0000 + o) true (regStrobes o n), ok)
  if n < 4 then (if n ≠ 0 ∧ o % n = 0 then err capNarrow true else err capUnaligned false)
  else if n % 4 ≠ 0 ∨ o % (if n = 4 then 4 else 8) ≠ 0 then err capUnaligned false
  else (List.range (n / 4)).foldl (fun (s, ok) i =>
    let (s1, ok1) := regWord m iss (o + 4 * i) (BitVec.ofNat 32 (v / 2 ^ (32 * i))) s
    (s1, ok && ok1)) (s, true)

/-- A read of `n` bytes at an offset of the register space: the value, and whether it answers normally. -/
def regAccRead (m o n : Nat) (s : State) : State × Nat × Bool :=
  let err := fun (s : State) (c a k : Nat) => capture s c m (0x1000_0000 + a) false (regStrobes a k)
  if n = 0 ∨ (n < 4 ∧ o % n ≠ 0) ∨ n = 3 ∨ (4 ≤ n ∧ (n % 4 ≠ 0 ∨ o % (if n = 4 then 4 else 8) ≠ 0)) then (err s capUnaligned o n, 0, false)
  else if n < 4 then
    match regRead s (o / 4 * 4) with
    | (w, none) => (s, bitsOf w.toNat (8 * (o % 4)) (8 * n), true)
    | (_, some c) => (err s c o n, 0, false)
  else (List.range (n / 4)).foldl (fun (s, v, ok) i =>
    match regRead s (o + 4 * i) with
    | (w, none) => (s, v + w.toNat * 2 ^ (32 * i), ok)
    | (_, some c) => (err s c (o + 4 * i) 4, v, false)) (s, 0, true)

/-- The island whose value a target of 15 R470 takes, by a BAR0 offset in it. -/
def rrIsland (t arg : Nat) : Nat :=
  match t with
  | 0x02 | 0x03 | 0x04 | 0x05 => 0x60_0000
  | 0x06 | 0x0C => 0x90_0000
  | 0x07 => 0xD0_0000 + 0x1000 * (bitsOf arg 12 12 / 64)
  | 0x08 => 0xC0_0000
  | 0x09 => 0xB0_0000
  | 0x0A => 0xE0_0000 + 0x1000 * bitsOf arg 0 7
  | 0x0B => 0x80_0000
  | 0x0D => 0x20_0000
  | 0x0E => 0x10_0000
  | 0x10 | 0x11 => 0xF0_0000
  | _ => 0

/-- 15 R469: the island of a Reading Room request does not answer: result TIMEOUT, and the Ledger records the island (log 113,
DEDUCED). -/
def rrTimeout (m mb : Nat) (w : W32) (s : State) : State :=
  let o := rrIsland (wget w RR_REQ_target) (wget w RR_REQ_arg)
  rrAnswer mb (4, 0) (swWrite (occur s 0x040 (Config.islandNo o).toNat [0, BitVec.ofNat 32 o]) m (RR_REQ mb) w)

/-- The mailbox whose request a write at an offset launches. -/
def rrLaunch (o : Nat) (w : W32) : Option Nat :=
  match regDecode (o / 4 * 4) with
  | .reg k => if wbit w RR_REQ_go then inst k (RR_REQ 0) 0x10 16 else none
  | _ => none

/-- 15 R459: the island that holds a register does not answer. Whether a write was performed is not defined: a free value
says (log 23, DESIGN CHOICE). -/
def islandTimeout (m : Nat) (o : Nat) (wr_ : Option W32) (s : State) : State :=
  let s1 := occur s 0x040 (Config.islandNo o).toNat [BitVec.ofNat 32 (b2n wr_.isSome), BitVec.ofNat 32 o]
  match wr_ with
  | none => accessError s1 capTimeoutRd m (0x1000_0000 + o) false (regStrobes o 4)
  | some w =>
    let (f, s2) := freeDraw s1
    let s3 := if f.getLsbD 0 then (match regDecode (o / 4 * 4) with | .reg k => regWrite m (issuerOf m) k w s2 | _ => s2) else s2
    accessError s3 capTimeoutWr m (0x1000_0000 + o) true (regStrobes o 4)
/-- An access that its island leaves without an answer, or a write that launches a Reading Room request whose island gives none. -/
def doIslandTimeout (m : Fin 21) (off : BitVec 24) (wr_ : Option W32) (s : State) : State :=
  match wr_.bind (fun w => (rrLaunch off.toNat w).map (fun mb => (mb, w))) with
  | some (mb, w) => respond (rrTimeout m mb w s) m true true 0
  | none => islandTimeout m off.toNat wr_ s

/-! ## The Atrium (15 R451) -/

/-- The boot ROM's bytes. -/
def romBytes (a n : Nat) : Nat := leVal ((List.range n).map (fun i => Config.bootRom (a + i)))

/-- 15 R452, 16 R483, R484: the Atrium address of the host's access at offset `o` of a BAR, as it reaches the host port; the rows of
master 8 name that address. -/
def hostAddr (s : State) (bar o : Nat) : Option Nat := match bar with
  | 0 => if o < 2 ^ 24 then some (0x1000_0000 + o) else none
  | 2 => if o < 2 ^ 19 then some (0x2000_0000 + o) else none
  | 4 => if o < 2 ^ 30 then some (get64 s CTL_BAR4_BASE_LO CTL_BAR4_BASE_HI + o) else none
  | _ => none

/-- A read of a master. -/
def atriumRead (m a n : Nat) (found : List Finding) (s : State) : State :=
  match target a n with
  | .rom o => respond s m false true (romBytes o n)
  | .regs o => let (s1, v, ok) := regAccRead m o n s; respond s1 m false ok v
  | .common _ | .store _ | .dram _ => memReadAcc m a n found s
  | .setAlias o | .clrAlias o => memReadAcc m (0x4000_0000 + o) n found s
  | .window c o => windowAccess m c o n none s
  | .none => accessError s capUnmapped m a false (strobesOf a n)

/-- A write of a master. An alias takes a whole word with all of its strobes from a write of 8 bytes. -/
def atriumWrite (m a : Nat) (l : List Byte) (found : List Finding) (s : State) : State :=
  let n := l.length
  match target a n with
  | .rom _ => accessError s capReadOnly m a true (strobesOf a n)
  | .regs o => let (s1, ok) := regAccWrite m (issuerOf m) o n (leVal l) s; respond s1 m true ok 0
  | .common _ | .store _ | .dram _ => memWriteAcc m a l found s
  | .setAlias _ => aliasWords true m a l found s
  | .clrAlias _ => aliasWords false m a l found s
  | .window c o => windowAccess m c o n (some (leVal l)) s
  | .none => accessError s capUnmapped m a true (strobesOf a n)
where
  /-- Word by word, with the strobes of the bytes present. -/
  aliasWords (set : Bool) (m a : Nat) (l : List Byte) (found : List Finding) (s : State) : State :=
    (writeWords a l).foldl (fun s (x, b) =>
      aliasWrite set m (x / 8 * 8) (BitVec.ofNat 64 (leVal b * 2 ^ (8 * (x % 8)))) (BitVec.ofNat 8 (strobesOf x b.length)) found s) s

/-- 16 R479: a read of a control core meets its data cache first. -/
def doAtriumRead (m : Fin 21) (addr size : Nat) (found : List Finding) (s : State) : State :=
  match cacheFault s m addr with
  | some w => cacheTrap m w s
  | none => cacheTake m addr (atriumRead m addr size found s)
def doAtriumWrite (m : Fin 21) (addr : Nat) (bytes : List Byte) (found : List Finding) (s : State) : State := atriumWrite m addr bytes found s

/-- 15 R454, R460: an access of 2^size bytes to the register space that writes. -/
def doRegisterWrite (m : Fin 21) (off : BitVec 24) (size : Fin 4) (data : BitVec 64) (s : State) : State :=
  let n := 2 ^ size.val
  let (s1, ok) := regAccWrite m (issuerOf m) off.toNat n (bitsOf data.toNat 0 (8 * n)) s
  respond s1 m true ok 0

/-! ## Copies (16 R491) -/

/-- What an access answers, without its response leaving the engine. -/
def quiet (f : State → State) (s : State) : State × List Emit :=
  let s1 := f { s with out := [] }
  ({ s1 with out := s.out }, s1.out)
def allOk (l : List Emit) : Bool := l.all (fun e => match e with | .readData _ _ ok => ok | .writeResp _ ok => ok | _ => true)

/-- Eight bytes read by a DMA engine, whose tokens the copy has waited for (log 110, DEDUCED). -/
def dmaLoad (m a : Nat) (found : List Finding) (s : State) : State × Option Nat :=
  match target a 8 with
  | .common _ | .store _ => dmaMem m a found s
  | .dram o => (match dramRefuse s m o 8 with | some c => ((quiet (fun s => dramError s m o c false 8) s).1, none) | none => dmaMem m a found s)
  | .setAlias o | .clrAlias o => dmaMem m (0x4000_0000 + o) found s
  | _ =>
    let (s1, o) := quiet (atriumRead m a 8 found) s
    (s1, if allOk o then o.findSome? (fun e => match e with | .readData _ v _ => some v | _ => none) else none)
where
  dmaMem (m a : Nat) (found : List Finding) (s : State) : State × Option Nat :=
    let (s1, o) := quiet (fun s => (pieces a 8).foldl (readPiece m found) s) s
    (s1, if allOk o then some (leVal (viewBytes s1 false a 8)) else none)

/-- Eight bytes written by a DMA engine, and whether the access answers normally. -/
def dmaStore (m a : Nat) (l : List Byte) (found : List Finding) (s : State) : State × Bool :=
  let go := fun (s : State) => (writeWords a l).foldl (fun s (x, b) => wordPut s m (portOf s false x) x b found) s
  match target a 8 with
  | .common _ | .store _ => (go s, true)
  | .dram o => (match dramRefuse s m o 8 with
    | some c => ((quiet (fun s => dramError s m o c true 8) s).1, false)
    | none => if chFaulty s o then ((quiet (fun s => accessError s capUncorr m a true (strobesOf a 8)) s).1, false) else (go s, true))
  | _ => let (s1, o) := quiet (atriumWrite m a l found) s; (s1, allOk o)

/-- Bytes move in ascending order: eight bytes onto a destination less than eight bytes above repeat the first ones. -/
def overlapBytes (src dst : Nat) (l : List Byte) : List Byte :=
  if src < dst ∧ dst < src + 8 then (List.range 8).map (fun i => l.getD (i % (dst - src)) 0) else l

/-- The accesses of a copy from offset `o`, `n` accesses at most: the offset of the one that failed. -/
def copyRun (j : CopyJob) (found : List Finding) : Nat → Nat → State → State × Option Nat
  | 0, _, s => (s, none)
  | n + 1, o, s =>
    match dmaLoad (9 + j.eng) (j.src + o) found s with
    | (s1, none) => (s1, some o)
    | (s1, some v) =>
      match dmaStore (9 + j.eng) (j.dst + o) (overlapBytes j.src j.dst (leBytes 8 v)) found s1 with
      | (s2, false) => (s2, some o)
      | (s2, true) => copyRun j found n (o + 8) s2

/-- 16 R491: the copy of an engine has made its last access. -/
def doCopyDone (eng : Fin 4) (found : List Finding) (s : State) : State :=
  match s.ctl.running.find? (fun j => j.eng == eng.val) with
  | none => s
  | some j =>
    let s0 := { s with ctl := { s.ctl with running := s.ctl.running.erase j } }
    match copyRun j found (j.len / 8) 0 s0 with
    | (s1, none) => complete s1 j.ticket ocOK 0 0
    | (s1, some o) => complete s1 j.ticket ocFAILED 0 o

end Sys2Proof.Machine
end

