-- ==== Sys2Proof/Machine/Startup.lean ====
section
/-! DEFINITION. PHASE2 of start-up: the sections of the catalogue, their register lists, programs, Vault image and
records, and the initial commits (17 R510 to R514, R519). -/

namespace Sys2Proof.Machine

/-- A section or a list entry is skipped (17 R511, R512). -/
def catSkip (s : State) : State := cnt s CTL_CAT_SKIPPED

/-- 17 R511: the offsets a register list of a type may write. -/
def listAllows (type o : Nat) : Bool :=
  let b := o / 0x10_0000
  match type with
  | 3 => b == 6 || (decide (0x80_A000 ≤ o) && decide (o < 0x80_A040))
  | 4 => b == 8
  | 5 => b == 9 || b == 10
  | 6 => [2, 1, 7, 11, 12, 13, 14].contains b
  | 7 => b == 15
  | 8 => b == 4
  | _ => false

/-- One entry of a register list, written as control core 0, on which the loader runs (log 120, DESIGN CHOICE), with issuer 0x22. -/
def listEntry (type : Nat) (l : List Byte) (s : State) : State :=
  let o := leVal (l.take 4)
  if listAllows type o then (let (s1, ok) := regAccWrite 0 0x22 o 4 (leVal (l.drop 4)) s; if ok then s1 else catSkip s1) else catSkip s

/-- A register list, entry by entry. Bytes after the last whole entry are ignored (log 120, DESIGN CHOICE). -/
def regList (s : State) (i : Img) (x : Section) : State :=
  (List.range (x.len / 8)).foldl (fun s k => listEntry x.type (imgBytes s i (x.off + 8 * k) 8) s) s

/-- 17 R511 type 0x0004 with argument 0x0100 + i: a channel-status block. -/
def statusBlock (s : State) (i : Img) (x : Section) : State :=
  (List.range 24).foldl (fun s k =>
    { s with prt := { s.prt with chanStatus := smSet none s.prt.chanStatus (24 * (x.arg - 0x100) + k) ((imgBytes s i (x.off + k) 1).head?) } }) s

/-- 17 R511 type 0x0009: words written through the window of a core, after its zero fill (06 R179). Words past the end of
the memory are captured one by one (log 137, DESIGN CHOICE). -/
def atelierProgram (s : State) (i : Img) (x : Section) : State :=
  let c := bitsOf x.arg 0 7
  let mem := bitsOf x.arg 8 2
  if 68 ≤ c ∨ mem = 3 ∨ bitOf x.arg 7 ∨ 1024 ≤ x.arg then catSkip s
  else (List.range (x.len / 8)).foldl (fun s k =>
    let w := x.dest + k
    let size := if mem = 2 then 0x2000 else 0x4000
    if w < size ∧ domOn s (unitPower 2 c) ∧ windowAllows s c mem w true then
      (windowPut s c mem w (BitVec.ofNat 64 (imgNat s i (x.off + 8 * k) 8))).1
    else capture s (if domOn s (unitPower 2 c) then capWindow else capIslandOff) 0
      (0x8000_0000 + 0x10_0000 * c + [0, 0x20000, 0x40000].getD mem 0 + 8 * w) true 0xFF) (fillEnd c s)

/-- 17 R511, R512 type 0x000A. -/
def vaultImage (s : State) (i : Img) (x : Section) : State :=
  let a := vaultBase s + x.dest
  let fits := inStore a x.len || (inDramSpace a x.len && dramReady s && decide (a + x.len - 0x1_0000_0000 ≤ dramBytes s))
  if fits then memStoreBytes s a (imgBytes s i x.off x.len) else catSkip s

/-- 17 R513: one record. The loader claims the domain's generation with the first record that it stages there. None: the
record stalls, so that PHASE2 has not ended. -/
def loadRecord (type : Nat) (s : State) (w0 w1 : BitVec 64) : Option State :=
  if type = 0x0B ∧ !([3, 4, 7].contains (rKind w0)) then some (cnt s SCN_REFUSED)
  else
    let mine := fun (s : State) (x : Dom) => (s.scn.owned.find? (fun e => e.1 == x && e.2.2 == 0)).map (fun e => e.2.1)
    let (s1, gen) := match recDomain s w0 w1 with
      | none => (s, 0)
      | some x => match mine s x with
        | some g => (s, g)
        | none => match claimTag s x with
          | some g => let s1 := claim x g s; ({ s1 with scn := { s1.scn with owned := s1.scn.owned ++ [(x, g, 0)] } }, g)
          | none => (s, 0)
    match stageRec .loader w0 w1 gen s1 with
    | (_, none) => none
    | (s2, some 0) => some s2
    | (_, some _) => some (cnt s SCN_REFUSED)

def loadRecords (type : Nat) (i : Img) (off : Nat) : Nat → Nat → State → Option State
  | 0, _, s => some s
  | n + 1, k, s =>
    match loadRecord type s (BitVec.ofNat 64 (imgNat s i (off + 16 * k) 8)) (BitVec.ofNat 64 (imgNat s i (off + 16 * k + 8) 8)) with
    | none => none
    | some s1 => loadRecords type i off n (k + 1) s1

/-- What a section that passes its check does. -/
def takeSection (i : Img) (x : Section) (s : State) : Option State :=
  match x.type with
  | 0x0004 => if x.arg = 0 then some (lists s) else if 0x100 ≤ x.arg ∧ x.arg < 0x120 ∧ x.len = 24 then some (statusBlock s i x) else some (catSkip s)
  | 0x0003 | 0x0005 | 0x0006 | 0x0007 | 0x0008 => some (lists s)
  | 0x0009 => some (atelierProgram s i x)
  | 0x000A => some (vaultImage s i x)
  | 0x000B | 0x000C => loadRecords x.type i x.off (x.len / 16) 0 s
  | 0x000D => some { s with cat := { s.cat with seals := imgNat s i x.off 4 % 256 } }
  | _ => some (catSkip s)
where
  lists (s : State) : State := if x.len ≤ 65536 then regList s i x else catSkip s

/-- The sections of PHASE2 in the order of 17 R512 (log 122, DESIGN CHOICE). -/
def phase2Order (l : List Section) : List Section :=
  let l2 := l.filter (fun x => x.type != 1 && x.type != 2)
  ((List.range 14).map (fun t => l2.filter (fun x => x.type == t))).flatten ++ (l2.filter (fun x => decide (14 ≤ x.type)))

/-- How PHASE2 ends. -/
inductive Phase2
  | done (s : State)
  | stalled
  | failed (s : State) (sec : Nat)

def phase2Run (i : Img) : List Section → State → Phase2
  | [], s => .done s
  | x :: t, s =>
    if !bodyOk s i x then .failed s x.idx
    else match takeSection i x s with
      | none => .stalled
      | some s1 => phase2Run i t s1

/-- 17 R513: one commit at once for each domain in which the loader claimed a generation. -/
def initialCommits (s : State) : State :=
  let mine := (allDoms.filterMap (fun x => (s.scn.owned.find? (fun e => e.1 == x && e.2.2 == 0)).map (fun e => (x, e.2.1))))
  mine.foldl (fun s (x, g) =>
    let (t, s1) := newTicket s 0x22 0x0102 true none
    let s2 := { s1 with scn := { s1.scn with commits := s1.scn.commits ++ [({ dom := x, gen := g, target := none, expire := false, ticket := t, ofRecall := none } : Commit)] } }
    { s2 with cat := { s2.cat with initial := s2.cat.initial ++ [(x, g)] } }) s

/-- 17 R514: the CONSERVE entry of the loader: scope of byte 24, report at 0x00_4000_8000. -/
def loaderConserve (scope : Nat) : BitVec 512 := BitVec.ofNat 512 (0x0501 + 2 ^ 16 + scope * 2 ^ 128 + 0x4000_8000 * 2 ^ 192)

def bootConserve (i : Img) (s : State) : State :=
  if bitOf (imgNat s i 23 1) 1 then
    let (t, s1) := allot 0x22 (loaderConserve (imgNat s i 24 1)) s
    let s2 := dispatch t (loaderConserve (imgNat s i 24 1)) s1
    match s2.twn.conserve with
    | some c => if c.ticket = t then { s2 with cat := { s2.cat with consTicket := some t } } else s2
    | none => s2
  else s

/-- 17 R514, R519: every section of PHASE2 has been taken, or one has failed. Load failures of this and earlier attempts are
recorded once the Ledger is enabled (Machine/Ledger.lean). -/
def doPhase2Done (s : State) : State :=
  if catState s ≠ 3 then s
  else
    let i := imgInUse s
    match phase2Run i (phase2Order (imgSections s i)) s with
    | .stalled => s
    | .failed s1 k => swReset (loadFailure s1 i k)
    | .done s1 => bootConserve i (setCatState (initialCommits s1) 4)

end Sys2Proof.Machine
end

