-- ==== Sys2Proof/Machine/Tick.lean ====
section
/-! DEFINITION. The tick event of a domain (spec/01 R17): every island bound to the domain does the work of the tick from
the tick buffers that the last tick filled (01 R9). Each register of the path holds what its stage made on the last tick,
so a value moves one stage a tick (01 R30 to R33). -/

namespace Sys2Proof.Machine

/-! ## Units of a domain -/

def inputsOf (s : State) (x : Dom) : List Nat := (s.scn.sDom.filter (fun e => e.2 == some x)).map (·.1)
def outputsOf (s : State) (x : Dom) : List Nat := (s.scn.dDom.filter (fun e => e.2 == some x)).map (·.1)
def coresOf (s : State) (x : Dom) : List Nat := (List.range 64).filter (fun j => coreDom s j == some x)

/-! ## Tick buffers that hold zero (01 R17) -/

/-- The words that domain `x` has formed for network transmit channels at index `m` are dropped. -/
def netWordsDrop (x : Dom) (m : Nat) (s : State) : State :=
  let base := 4096 * (m % 1024)
  let mine := fun (e : Nat × Nat × S64) => decide (base ≤ e.1) && decide (e.1 < base + 4096) && e.2.1 == domNo x + 1
  { s with net := { s.net with txWords := s.net.txWords.filter (fun e => !mine e) } }

/-- A new sequence begins, or ticks `from_` to `from_ + n − 1` have been skipped: the tick buffers of the domain hold zero. -/
def buffersClear (x : Dom) (from_ n : Nat) (s : State) : State :=
  let ins := inputsOf s x
  let outs := outputsOf s x
  let cores := coresOf s x
  let mineP := fun (k : Nat) => if k / 8192 < 16 then ins.contains (k % 8192) else outs.contains (k % 8192)
  let sides := sidesOf s x
  let mineT := fun (k : Nat) => sides.contains (k / 2)
  let s1 := { s with
    str := { s.str with pipe := s.str.pipe.filter (fun e => !mineP e.1), zcPrev := s.str.zcPrev.filter (fun e => !ins.contains e.1),
                        arcHist := s.str.arcHist.filter (fun e => !ins.contains e.1),
                        sends := s.str.sends.filter (fun e => e.1 != x),
                        freeOut := s.str.freeOut.filter (fun e => e.2.1 != domNo x + 1) },
    gal := { s.gal with dval := s.gal.dval.filter (fun e => !outs.contains e.1) },
    atlOut := s.atlOut.filter (fun e => !cores.contains (e.1 / 64)),
    prt := { s.prt with rxOut := s.prt.rxOut.filter (fun e => !mineT e.1), txIn1 := s.prt.txIn1.filter (fun e => !mineT e.1),
                        txIn0 := s.prt.txIn0.filter (fun e => !mineT e.1) } }
  (List.range (Nat.min n 1024)).foldl (fun s i => netWordsDrop x (from_ + n - 1 - i) s) s1

/-! ## The output patch (04 R122) -/

/-- A value as patch_out takes it on a tick of domain `x`. -/
def patchVal (s : State) (x : Dom) (v : PatchVal) : S64 :=
  if valDom s v ≠ some x then 0
  else match v with
    | .nothing => 0
    | .dslot d => pipe s pO3 d
    | .sslot i => pipe s (pHold 5) i

/-- Entries that a record of the domain has staged enter FADING when its tag counts as committed. -/
def patchCommit (x : Dom) (s : State) : State :=
  let go := fun (p : PatchEntry) => if p.state == .staged && p.recDom == some x && tagCommitted s x p.gen then
    { p with state := .fading, k := 0 } else p
  { s with scn := { s.scn with patch := s.scn.patch.map (fun (e, p) => (e, go p)) } }

/-- Entries in FADING of the domain advance. -/
def patchAdvance (x : Dom) (s : State) : State :=
  let go := fun (p : PatchEntry) => if p.state == .fading && entryDom s p == some x then { p with k := p.k + 1 } else p
  let s1 := { s with scn := { s.scn with patch := s.scn.patch.map (fun (e, p) => (e, go p)) } }
  let ended := s1.scn.patch.filter (fun (_, p) => p.state == .fading && entryDom s1 p == some x && decide (p.len ≤ p.k))
  ended.foldl (fun s (e, _) => addDue s (.patchEnd e)) s1

/-- The word of an entry on a tick of domain `x`, and whether it saturated. -/
def patchWord (s : State) (x : Dom) (e : Nat) : S64 × Bool :=
  let p := patchOf s e
  if entryDom s p ≠ some x then (0, false)
  else if p.state = .fading then xfadeStep (patchVal s x (peLive p)) (patchVal s x (pePend p)) p.k p.len
  else (patchVal s x (peLive p), false)

/-- Network transmit channels: entries 0 to 4,095. -/
def patchNet (x : Dom) (n : Nat) (s : State) : State :=
  let s1 := netWordsDrop x n s
  let l := (s1.scn.patch.filter (fun (e, p) => decide (e < 4096) && entryDom s1 p == some x)).map (·.1)
  let s2 := l.foldl (fun s e =>
    { s with net := { s.net with txWords := smSet (0, 0) s.net.txWords (4096 * (n % 1024) + e) (domNo x + 1, (patchWord s x e).1) } }) s1
  ((txFlows s2).filter (fun e => cfgDom e.2.cfg == some x)).foldl (fun s (f, r) =>
    let c := ((List.range (cfgChans r.cfg)).filter (fun k =>
      (patchWord s x (fget s (NET_MAP (4096 + cfgBase r.cfg + k)) NET_MAP_channel)).2)).length
    cntN s (NET_TXF_SAT f) c) s2

/-- The entry that drives channel `c` of a transmit side (01 R28). -/
def sideEntry (i c : Nat) : Nat := if i < 96 then 4096 + 2 * (i / 2) + c else 4192 + 2 * (i - 128) + c

/-- Port outputs: entries 4,096 to 4,255. -/
def patchSides (x : Dom) (s : State) : State :=
  ((sidesOf s x).filter (fun i => !isRx i)).foldl (fun s i =>
    (List.range 2).foldl (fun s c =>
      let (w, sat) := patchWord s x (sideEntry i c)
      let s1 := { s with prt := { s.prt with txIn1 := smSet 0 s.prt.txIn1 (2 * i + c) w } }
      if sat then cnt s1 (PRT_SIDE_SAT i) else s1) s) s

/-- Free entries: exchange inputs of the coming frame, and Daxesh transmit channels, whose word the link forms at the end of
the tick (10 R317). -/
def patchFree (x : Dom) (s : State) : State :=
  let l := (s.scn.patch.filter (fun (e, p) => decide (4256 ≤ e) && entryDom s p == some x)).map (·.1)
  let keep := s.str.freeOut.filter (fun (_, d, _) => d != domNo x + 1)
  let s1 := { s with str := { s.str with freeOut := l.foldl (fun m e => smSet (0, 0) m e (domNo x + 1, (patchWord s x e).1)) keep } }
  let drives := s1.xmap.filter (fun (k, w) => wbit w ATL_XMAP_valid && coreDom s1 (k / 64) == some x && (patchWord s1 x (wget w ATL_XMAP_entry)).2)
  let s2 := drives.foldl (fun s (k, _) => cnt s (ATL_CORE_SAT (physOf s 2 (k / 64)))) s1
  let others := s2.str.formed.filter (fun (_, f) => match f with | some f => f.dom != x | none => false)
  let form := fun (l : Nat) (m : SMap (Option Formed)) => (daxLink s2 l).txmap.foldl (fun m (c, w) =>
    let p := patchOf s2 (wget w DAX_TXMAP_entry)
    if wbit w DAX_TXMAP_valid && entryDom s2 p == some x then
      smSet none m (8192 * l + c) (some ⟨x, peLive p, pePend p, if p.state = .fading then p.k else 0, p.len⟩)
    else m) m
  { s2 with str := { s2.str with formed := form 1 (form 0 others) } }

def patchTick (x : Dom) (n : Nat) (s : State) : State :=
  patchFree x (patchSides x (patchNet x n (patchAdvance x (patchCommit x s))))

/-! ## The source side (01 R29, R31, 03 R97, 10 R316) -/

/-- The values that the ring carried on the last tick, with their zero-crossing flags, reach the tiles. -/
def ringTake (x : Dom) (s : State) : State × List (Nat × S64 × Bool) :=
  let l := (inputsOf s x).map (fun i =>
    let v := ringVal s i
    (i, v, zcFlag v (smGet 0 s.str.zcPrev i)))
  ({ s with str := { s.str with zcPrev := l.foldl (fun m (i, v, _) => smSet 0 m i v) s.str.zcPrev } }, l)

/-- The ring takes what the input strips made on the last tick; the stages that hold a direct S-slot move on (01 R32). -/
def ringMove (x : Dom) (n : Nat) (s : State) : State :=
  (inputsOf s x).foldl (fun s i =>
    let code := occCode s i
    let h := fun (k : Nat) => pipe s (pHold k) i
    let dax := code / 65536 = 4
    let w := if dax then daxRx s x (code % 65536 / 8192) (code % 8192) n else pipe s pI3 i
    let h1 := if dax then w else h 0
    let h2 := if code / 65536 = 8 then ringVal s i else h 1
    setPipe pRing i w (setPipe (pHold 1) i h1 (setPipe (pHold 2) i h2 (setPipe (pHold 3) i (h 2)
      (setPipe (pHold 4) i (h 3) (setPipe (pHold 5) i (h 4) s)))))) s

/-- The input strips of the domain in ascending order; their sends reach the cores of the domain. -/
def inputsRun (x : Dom) (n : Nat) (s : State) : State :=
  let (s1, sends) := (inputsOf s x).foldl (fun ((s : State), l) i =>
    if occBypass (occCode s i) then (s, l)
    else if !strOn s then (inputPass i s, l)
    else let (s', l') := inputTick x n i s; (s', l ++ l')) (s, [])
  { s1 with str := { s1.str with sends := s1.str.sends.filter (fun e => e.1 != x) ++ sends.map (fun e => (x, e)) } }

/-- The value that an occupant carries on tick `n`. -/
def occVal (s : State) (code n : Nat) : S64 :=
  let i := code % 65536
  match code / 65536 with
  | 1 => smGet 0 s.net.chanVal i
  | 2 => smGet 0 s.prt.rxOut (2 * (96 + i / 2) + i % 2)
  | 3 => smGet 0 s.prt.rxOut (2 * (i / 2 * 2) + i % 2)
  | 5 => smGet 0 s.atlOut i
  | 6 => brVal s i
  | 7 => pbVal s i
  | 9 => Config.testGen i n
  | _ => 0

/-- The source patch (01 R23, R29): an occupant of another domain, or of none, gives zero. -/
def sourceTick (x : Dom) (n : Nat) (s : State) : State :=
  (inputsOf s x).foldl (fun s i =>
    let code := occCode s i
    let v := if code / 65536 = 9 ∨ occDom s code = some x then occVal s code n else 0
    setPipe pM0 i v (setPipe pM0old i (pipe s pM0 i) s)) s

/-! ## Capture by the Archive (01 R29, 05 R165) -/

/-- Slot `i` on tick `n` of domain `x`. A value that reached the ring without a strip counts as written four ticks before the
ring carried it (05 R605), under the occupant in force on that tick (01 R29); the value of a bus return is known once its
D-slot has stored it, one tick later (log 76, DESIGN CHOICE). -/
def arcSlot (x : Dom) (n i : Nat) (s : State) : State :=
  let h := smGet [] s.str.arcHist i
  let was := fun (k : Nat) => h.getD (k - 1) 0
  let s1 := if was 5 / 65536 = 8 ∧ 5 ≤ n then arcCapture x i (n - 5) (busWord s (some x) (was 5 % 65536)) s else s
  let s2 := if was 4 / 65536 = 4 ∧ 4 ≤ n then arcCapture x i (n - 4) (daxRx s x (was 4 % 65536 / 8192) (was 4 % 8192) n) s1 else s1
  arcFull x n i (if occBypass (occCode s i) then s2 else arcCapture x i n (pipe s pM0 i) s2)

/-- Capture of every bound S-slot; the occupants of the tick are remembered whether or not the Archive captures. -/
def arcTick (x : Dom) (n : Nat) (s : State) : State :=
  let s0 := arcWrite x s
  let s1 := if strOn s && arcEnabled s then (inputsOf s0 x).foldl (fun s i => arcSlot x n i s) s0 else s0
  { s1 with str := { s1.str with arcHist := (inputsOf s1 x).foldl (fun m i => smMod [] m i (fun h => (occCode s1 i :: h).take 5)) s1.str.arcHist } }

/-! ## Clock outputs (11 R366, R367) -/

def clockOutputs (x : Dom) (s : State) : State :=
  if !outputsOpen s || !prtOn s || s.pin.absent.contains .vddio3 then s
  else
    let w := (List.range 2).filter (fun i => fbit s (PRT_WCLK_OUT_CFG i) PRT_WCLK_OUT_CFG_enable && domOf (fget s (PRT_WCLK_OUT_CFG i) PRT_WCLK_OUT_CFG_domain) == some x)
    let m := (List.range 4).filter (fun i => fbit s (PRT_MCLK_CFG i) PRT_MCLK_CFG_enable && domOf (fget s (PRT_MCLK_CFG i) PRT_MCLK_CFG_domain) == some x &&
      !mclkRefused s i)
    let half := (untilTick s x).toNat / 2
    let edge := fun (s : State) i => emit s (.wclk i (!fbit s (PRT_WCLK_OUT_CFG i) PRT_WCLK_OUT_CFG_invert) half)
    m.foldl (fun s i => emit s (.mclk i (mclkHz s i x))) (w.foldl edge s)

/-! ## The tick event -/

/-- STR_UNIT_STATUS.late and its like last while a stage of the unit misses its tick (05 R139). -/
def lateShow (s : State) : State :=
  let late := (s.str.run.filter (fun (_, r) => !r.lateStages.isEmpty)).map (fun (p, _) => stripUnit s p)
  (List.range 34).foldl (fun s u =>
    if fbit s (STR_UNIT_STATUS u) STR_UNIT_STATUS_late && !late.contains u then fset s (STR_UNIT_STATUS u) STR_UNIT_STATUS_late 0 else s) s

/-- 01 R10: an entry of the tick buffer that an island of the register at BAR0 word `k` fills is late. -/
def bufferLate (k : Nat) (n : Nat) (s : State) : State := occur s 0x000 (Config.islandNo (4 * k)).toNat (det64 n)

/-- 01 R10, 03 R70, R98: a column job that the next tick of its domain finds unfinished. -/
def columnLate (j : ColJob) (s : State) : State :=
  jobAbandon j (bufferLate (GAL_TILE_STATUS (physOf s 1 (j.d / 64))) j.n s)

/-- What the start of the tick brings before any sample moves: the outputs open, withdrawal, the last tick's port frames,
column jobs and link frames; the tick buffers of a new sequence or of skipped ticks hold zero; the port frames of the tick
open; a time step and the commits apply, and the islands take what software has set. -/
def tickControl (x : Dom) (n : Nat) (last : Option Nat) (disc : Bool) (next : Nat) (s : State) : State :=
  let s1 := if s.cat.openWait ∧ firstRunning s = some x then openNow s else s
  let s2 := sidesEnd x last (twinTick x s1)
  let s3 := (s2.gal.jobs.filter (fun j => j.dom == some x)).foldl (fun s j => columnLate j s) s2
  let s4 := framesForget x n (framesTick x last s3)
  let s5 := if disc || last.isNone then buffersClear x next (n - next) s4 else s4
  let s6 := stepAtTick x n (commitTick x n last (sidesBegin x n disc s5))
  psLatch x 1 (psLatch x 0 (splitLatch x s6))

/-- The path of the samples, each stage reading what the last tick left. -/
def tickSamples (x : Dom) (n : Nat) (s : State) : State :=
  let s0 := (List.range 64).foldl (fun s j => xmapApply j s) s
  let s1 := (List.range 64).foldl (fun s j => coreTick x n j s) (txmapApply 1 (txmapApply 0 s0))
  let s2 := patchTick x n s1
  let s3 := (outputsOf s2 x).foldl (fun s d => provTake x d n (pipe s pO3 d) s) s2
  let s4 := (outputsOf s3 x).foldl (fun s d => if strOn s then outputTick x n d s else outputPass d s) s3
  let (s5, vals) := ringTake x s4
  let s6 := ringMove x n (galTick x n vals s5)
  let s7 := inputsRun x n (bridgesIn x n s6)
  let s8 := bridgesOut x n (playbackTick x n (netRxTick x n s7))
  let s9 := arcTick x n (sourceTick x n s8)
  lateShow (loudnessTick x (metersTick x s9))

/-- 01 R17: tick event `n` of domain `x`; `disc` says that ticks were skipped (log 27, DESIGN CHOICE). -/
def tickEvent (x : Dom) (n : Nat) (disc : Bool) (s : State) : State :=
  let g := genOf s x
  let s1 := timeTo s (s.tim.freiz + (tickIn s x n).toNat)
  let due := if g.indep then g.due + (n + 1 - g.next) * auxPeriod s (domHz s x) else g.due
  let s2 := if disc then cnt s1 (TIM_DOM_DISC (domNo x)) else s1
  let s3 := tickControl x n g.last disc g.next (setGen x { g with next := n + 1, last := some n, due := due } s2)
  docTickCount x (clockOutputs x (netTxTick x n (gpUpdate [3, 4] (tickSamples x n s3))))

/-- The next tick event of a running generator. `skip` ticks fail to reach the islands; the first event of a run begins a new
sequence at the generator's index. -/
def doTickEvent (x : Dom) (skip : Nat) (s : State) : State :=
  let g := genOf s x
  if !g.running then s
  else
    let k := if g.last.isNone then 0 else skip
    tickEvent x (g.next + k) (decide (k ≠ 0)) s

/-- 06 R190: the outputs of an Atelier core are late: the frame in progress overruns, and of one that has ended the output words
read zero. -/
def coreLate (c : Nat) (s : State) : State :=
  let k := coreOf s c
  if k.phase = .run ∨ k.phase = .halted ∨ k.phase = .abandoned then overrun c s
  else
    let b := k.frame % 2 * 384 + 64
    fset (setCore c (eZero b (b + 64) k) s) (ATL_CORE_STATUS c) ATL_CORE_STATUS_late 1

/-- 10 R312, R313: the frame that the coming tick of domain `x` would take from a link is late. -/
def linkLate (x : Dom) (l : Nat) (s : State) : State :=
  let d := daxLink s l
  let n := (genOf s x).next
  occur (cnt (setDaxLink s l { d with frames := d.frames.filter (fun f => !(f.dom == x && f.k + 2 == n)) }) (DAX_LATE l)) 0x280 l [3]

/-- 01 R10: a tick buffer entry for domain `x` is not complete when the consumer's next tick begins; the consumer takes what
the producer's chapter gives (log 28, DESIGN CHOICE). -/
def doTickBufferLate (kind : LateKind) (x : Dom) (entry : Fin 4096) (stage : Fin 3) (s : State) : State :=
  let n := (genOf s x).next
  let strip := fun (out : Bool) =>
    let i := entry.val + (if out then 4096 else 0)
    if stripDom s i = some x then doStripStageLate out entry stage.castSucc (bufferLate (STR_UNIT_STATUS (stripUnit s i)) n s) else s
  match kind with
  | .column =>
    match s.gal.jobs.find? (fun j => j.d == entry.val && j.dom == some x) with
    | some j => columnLate j s
    | none => s
  | .inStrip => strip false
  | .outStrip => strip true
  | .core =>
    if entry.val < 68 ∧ coreRunDom s entry = some x then coreLate entry (bufferLate (ATL_CORE_STATUS entry) n s) else s
  | .side =>
    if h : entry.val < 160 then
      if isRx entry ∧ sideDom s entry = some x then doMissingFrame ⟨entry, h⟩ (bufferLate (PRT_SIDE_CFG entry) n s) else s
    else s
  | .net =>
    if netChanDom s entry = some x then
      let t := bufferLate (NET_GRP_CFG 0) n s
      { t with net := { t.net with chanVal := smSet 0 s.net.chanVal entry 0 } }
    else s
  | .link =>
    if entry.val < 2 ∧ linkState s entry = lkUP ∧ running s x then linkLate x entry (bufferLate (DAX_LINK_STATUS entry) n s) else s

end Sys2Proof.Machine
end

