-- ==== Sys2Proof/Machine/Run.lean ====
section
/-! DEFINITION. What surrounds the effect of a command: transitions that an earlier tick made due come first, and the
interrupt controller, the internal keys, the timers and the management replies follow. A command that reaches an engine
held in reset, stopped by its boot ROM, or asleep has no effect unless the part it concerns is awake. -/

namespace Sys2Proof.Machine

/-- A transition that is due (log 11, DESIGN CHOICE). -/
def dueDo (d : Due) (s : State) : State :=
  match d with
  | .patchEnd e => patchEnd e s
  | .interpEnd p k => interpEnd p k s
  | .enableEnd p k => fadeEnd p k s
  | .gainEnd p _ => gainEnd p s
  | .switchEnd p k => fadeEnd p k s
  | .delayEnd p => fadeEnd p 4 s
  | .dipHalf p => dipHalf p s
  | .dipEnd p => dipEnd p s
  | .gateClose p _ => gateClose p s
  | .sideFade i => sideFadeEnd i s
  | .sideLock i => sideLock i s
  | .brStopped b => brStopped b s
  | .txSend f => txPacket f s
  | .docIrq i => docIrqNow i s
  | .docTick x => docTickNow x s

/-- Everything that is due, oldest first. -/
def flushDue (s : State) : State := s.due.foldl (fun s d => dueDo d s) { s with due := [] }
/-- One transition, when it is due. -/
def oneDue (d : Due) (s : State) : State := if s.due.contains d then dueDo d { s with due := s.due.erase d } else s

/-- Control core 0 runs, and the engine is in RUN or QUIET (log 17, DEDUCED). -/
def awake (s : State) : Bool := !s.pin.resetLow && !s.cat.romBad && decide (s.pwr.state < 2)

/-- What follows every effect of an awake engine. -/
def settleAwake (s : State) : State := mgmtFlush (timerPend (syncKeys (intEdges s)))
def settle (s : State) : State := if awake s then settleAwake s else s

/-- Nothing has left the engine in this command yet (log 25, DESIGN CHOICE). -/
def quietOut (s : State) : State := { s with out := [] }

/-- The effect of a command touches neither the queue nor what the part keeps without power. -/
def keep (s t : State) : State := { t with pending := s.pending, perm := s.perm }
/-- As `keep`, for the command that programs repair entries. -/
def keepButOtp (s t : State) : State := { t with pending := s.pending, perm := { s.perm with otp := t.perm.otp } }
/-- As `keep`, for the command that programs the flash. -/
def keepButFlash (s t : State) : State := { t with pending := s.pending, perm := { s.perm with flash := t.perm.flash } }
/-- As `keep`, for the command that programs the key-hash fuses. -/
def keepQueue (s t : State) : State := { t with pending := s.pending }

/-- 18 R535, R537: unit `u` has agreed to a drop and pauses its background work until the drop is committed or refused. -/
def paused (s : State) (u : Nat) : Bool := s.pwr.drop.any (fun d => d.agreed.contains u)
def unlessPaused (u : Nat) (f : State → State) (s : State) : State := if paused s u then s else f s

/-- A command of an awake engine (log 14, DESIGN CHOICE). -/
def run (f : State → State) (s : State) : Host.Outcome State Fault Refusal :=
  .next (keep s (if awake s then settle (f (flushDue (quietOut s))) else quietOut s))
/-- A command that names a transition which may be due. -/
def runDue (d : Due) (s : State) : Host.Outcome State Fault Refusal :=
  .next (keep s (if awake s then settle (oneDue d (quietOut s)) else quietOut s))
/-- The command that programs repair entries. -/
def runOtp (f : State → State) (s : State) : Host.Outcome State Fault Refusal :=
  .next (keepButOtp s (if awake s then settle (f (flushDue (quietOut s))) else quietOut s))
/-- The command that programs the flash. -/
def runFlash (f : State → State) (s : State) : Host.Outcome State Fault Refusal :=
  .next (keepButFlash s (if awake s then settle (f (flushDue (quietOut s))) else quietOut s))
/-- A command of the always-on domain, which also runs in WATCH and DORMANT (18 R544). -/
def runAlways (f : State → State) (s : State) : Host.Outcome State Fault Refusal :=
  .next (keep s (if !s.pin.resetLow && !s.cat.romBad then settle (f (quietOut s)) else quietOut s))
/-- An event on the resets and the supplies, which needs nothing to be awake. -/
def runPins (f : State → State) (s : State) : Host.Outcome State Fault Refusal := .next (keep s (settle (f (quietOut s))))
/-- A JTAG instruction, which needs the supply of the test port (20 R581, R597; 17 R516). -/
def runJtag (f : State → State) (s : State) : Host.Outcome State Fault Refusal :=
  .next (keep s (if isAbsent s .vddio5 then quietOut s else f (quietOut s)))
/-- FUSE_KEY programs the key-hash fuses. -/
def runJtagPerm (f : State → State) (s : State) : Host.Outcome State Fault Refusal :=
  .next (keepQueue s (if isAbsent s .vddio5 then quietOut s else f (quietOut s)))

end Sys2Proof.Machine
end

