-- ==== Sys2Proof/Machine/ExecAtelier.lean ====
section
/-! DEFINITION. The meaning of each command of the table, in its order: Atelier cores. Each is one of the forms of
Machine/Run.lean around the effect that the family file defines. -/

namespace Sys2Proof.Machine

/-- FRAME_OVERRUN (R190). -/
def execFrameOverrun (c : Fin 68) (s : State) : Host.Outcome State Fault Refusal := run (doFrameOverrun c) s
/-- COMPARE_INTERRUPT (R197). -/
def execCompareInterrupt (c : Fin 68) (s : State) : Host.Outcome State Fault Refusal := run (doCompareInterrupt c) s
/-- INTERRUPT_TAKE (R198). -/
def execInterruptTake (c : Fin 68) (s : State) : Host.Outcome State Fault Refusal := run (doInterruptTake c) s
/-- LM_ANSWER (R203). -/
def execLmAnswer (c : Fin 68) (read : List Finding) (s : State) : Host.Outcome State Fault Refusal := run (doLmAnswer c read) s
/-- LM_ANSWER_LATE (R204). -/
def execLmAnswerLate (c : Fin 68) (s : State) : Host.Outcome State Fault Refusal := run (doLmAnswerLate c) s
/-- P_QUEUE_DRAIN (R210). -/
def execPQueueDrain (c : Fin 68) (s : State) : Host.Outcome State Fault Refusal := run (doPQueueDrain c) s
/-- ATELIER_WINDOW_ACCESS (R209). -/
def execAtelierWindowAccess (m : Fin 21) (addr : Nat) (size : Fin 4) (wr : Option (BitVec 64)) (s : State) : Host.Outcome State Fault Refusal :=
  run (throughPmp m addr (2 ^ size.val) wr.isSome (doAtelierWindowAccess m addr size wr)) s
/-- ATELIER_MEMORY_FILL (R179). -/
def execAtelierMemoryFill (c : Fin 68) (s : State) : Host.Outcome State Fault Refusal := run (doAtelierMemoryFill c) s
/-- XMAP_WRITE (R182). -/
def execXmapWrite (l : Fin 64) (j : Fin 64) (w : W32) (s : State) : Host.Outcome State Fault Refusal := run (softWrite 8 (ATL_XMAP l j) w) s
/-- XMAP_APPLY (R182). -/
def execXmapApply (l : Fin 64) (s : State) : Host.Outcome State Fault Refusal := run (doXmapApply l) s
/-- NOP (R217). -/
def execNop (c : Fin 68) (s : State) : Host.Outcome State Fault Refusal := run (doNop c) s
/-- FEND (R189). -/
def execFend (c : Fin 68) (s : State) : Host.Outcome State Fault Refusal := run (doFend c) s
/-- RTI (R200). -/
def execRti (c : Fin 68) (s : State) : Host.Outcome State Fault Refusal := run (doRti c) s
/-- WAIT (R240). -/
def execWait (c : Fin 68) (cyc : Fin 65536) (s : State) : Host.Outcome State Fault Refusal := run (doWait c cyc) s
/-- WAIT_END (R240). -/
def execWaitEnd (c : Fin 68) (s : State) : Host.Outcome State Fault Refusal := run (doWaitEnd c) s
/-- BR (R237). -/
def execBr (c : Fin 68) (cc : Fin 16) (t : Fin 16384) (s : State) : Host.Outcome State Fault Refusal := run (doBr c cc t) s
/-- BRL (R237). -/
def execBrl (c : Fin 68) (pk : Fin 8) (t : Fin 16384) (s : State) : Host.Outcome State Fault Refusal := run (doBrl c pk t) s
/-- BRR (R237). -/
def execBrr (c : Fin 68) (cc : Fin 16) (pk : Fin 8) (s : State) : Host.Outcome State Fault Refusal := run (doBrr c cc pk) s
/-- LOOP (R238). -/
def execLoop (c : Fin 68) (n : Fin 65536) (e : Fin 16384) (s : State) : Host.Outcome State Fault Refusal := run (doLoop c n e) s
/-- LOOPR (R238). -/
def execLoopr (c : Fin 68) (ra : Fin 16) (e : Fin 16384) (s : State) : Host.Outcome State Fault Refusal := run (doLoopr c ra e) s
/-- LOOP_EXIT (R238). -/
def execLoopExit (c : Fin 68) (s : State) : Host.Outcome State Fault Refusal := run (doLoopExit c) s
/-- ILLEGAL_INSTRUCTION (R217). -/
def execIllegalInstruction (c : Fin 68) (s : State) : Host.Outcome State Fault Refusal := run (doIllegalInstruction c) s
/-- MOV (R226). -/
def execMov (c : Fin 68) (rd ra : Fin 16) (s : State) : Host.Outcome State Fault Refusal := run (doMov c rd ra) s
/-- ADD (R226). -/
def execAdd (c : Fin 68) (rd ra rb : Fin 16) (s : State) : Host.Outcome State Fault Refusal := run (doAdd c rd ra rb) s
/-- ADDS (R226). -/
def execAdds (c : Fin 68) (rd ra rb : Fin 16) (s : State) : Host.Outcome State Fault Refusal := run (doAdds c rd ra rb) s
/-- SUB (R226). -/
def execSub (c : Fin 68) (rd ra rb : Fin 16) (s : State) : Host.Outcome State Fault Refusal := run (doSub c rd ra rb) s
/-- SUBS (R226). -/
def execSubs (c : Fin 68) (rd ra rb : Fin 16) (s : State) : Host.Outcome State Fault Refusal := run (doSubs c rd ra rb) s
/-- NEG (R226). -/
def execNeg (c : Fin 68) (rd ra : Fin 16) (s : State) : Host.Outcome State Fault Refusal := run (doNeg c rd ra) s
/-- ABS (R226). -/
def execAbs (c : Fin 68) (rd ra : Fin 16) (s : State) : Host.Outcome State Fault Refusal := run (doAbs c rd ra) s
/-- MIN (R226). -/
def execMin (c : Fin 68) (rd ra rb : Fin 16) (s : State) : Host.Outcome State Fault Refusal := run (doMin c rd ra rb) s
/-- MAX (R226). -/
def execMax (c : Fin 68) (rd ra rb : Fin 16) (s : State) : Host.Outcome State Fault Refusal := run (doMax c rd ra rb) s
/-- AND (R226). -/
def execAnd (c : Fin 68) (rd ra rb : Fin 16) (s : State) : Host.Outcome State Fault Refusal := run (doAnd c rd ra rb) s
/-- OR (R226). -/
def execOr (c : Fin 68) (rd ra rb : Fin 16) (s : State) : Host.Outcome State Fault Refusal := run (doOr c rd ra rb) s
/-- XOR (R226). -/
def execXor (c : Fin 68) (rd ra rb : Fin 16) (s : State) : Host.Outcome State Fault Refusal := run (doXor c rd ra rb) s
/-- SHL (R226). -/
def execShl (c : Fin 68) (rd ra : Fin 16) (sh : Fin 64) (s : State) : Host.Outcome State Fault Refusal := run (doShl c rd ra sh) s
/-- SHLS (R226). -/
def execShls (c : Fin 68) (rd ra : Fin 16) (sh : Fin 64) (s : State) : Host.Outcome State Fault Refusal := run (doShls c rd ra sh) s
/-- SHR (R226). -/
def execShr (c : Fin 68) (rd ra : Fin 16) (sh : Fin 64) (s : State) : Host.Outcome State Fault Refusal := run (doShr c rd ra sh) s
/-- SHRL (R226). -/
def execShrl (c : Fin 68) (rd ra : Fin 16) (sh : Fin 64) (s : State) : Host.Outcome State Fault Refusal := run (doShrl c rd ra sh) s
/-- CMP (R227). -/
def execCmp (c : Fin 68) (ra rb : Fin 16) (s : State) : Host.Outcome State Fault Refusal := run (doCmp c ra rb) s
/-- MOVI (R226). -/
def execMovi (c : Fin 68) (rd : Fin 16) (imm : BitVec 32) (s : State) : Host.Outcome State Fault Refusal := run (doMovi c rd imm) s
/-- MOVIH (R226). -/
def execMovih (c : Fin 68) (rd : Fin 16) (imm : BitVec 32) (s : State) : Host.Outcome State Fault Refusal := run (doMovih c rd imm) s
/-- ADDI (R226). -/
def execAddi (c : Fin 68) (rd ra : Fin 16) (imm : BitVec 32) (s : State) : Host.Outcome State Fault Refusal := run (doAddi c rd ra imm) s
/-- MOVK (R228). -/
def execMovk (c : Fin 68) (rd : Fin 8) (ra : Fin 16) (s : State) : Host.Outcome State Fault Refusal := run (doMovk c rd ra) s
/-- MOVDK (R228). -/
def execMovdk (c : Fin 68) (rd : Fin 16) (ra : Fin 8) (s : State) : Host.Outcome State Fault Refusal := run (doMovdk c rd ra) s
/-- MOVR (R228). -/
def execMovr (c : Fin 68) (file : Fin 4) (rd : Fin 8) (ra : Fin 16) (s : State) : Host.Outcome State Fault Refusal := run (doMovr c file rd ra) s
/-- MOVD (R228). -/
def execMovd (c : Fin 68) (file : Fin 4) (rd : Fin 16) (ra : Fin 8) (s : State) : Host.Outcome State Fault Refusal := run (doMovd c file rd ra) s
/-- MOVSW (R228). -/
def execMovsw (c : Fin 68) (rd : Fin 16) (s : State) : Host.Outcome State Fault Refusal := run (doMovsw c rd) s
/-- CLRSW (R228). -/
def execClrsw (c : Fin 68) (bits : Fin 8) (s : State) : Host.Outcome State Fault Refusal := run (doClrsw c bits) s
/-- SETR (R228). -/
def execSetr (c : Fin 68) (file : Fin 4) (rd : Fin 8) (imm : BitVec 16) (s : State) : Host.Outcome State Fault Refusal := run (doSetr c file rd imm) s
/-- LD (R229). -/
def execLd (c : Fin 68) (rd : Fin 16) (sp : Fin 3) (nm : Bool) (px mx : Fin 8) (s : State) : Host.Outcome State Fault Refusal :=
  run (doLd c rd sp nm px mx) s
/-- LDK (R229). -/
def execLdk (c : Fin 68) (rd : Fin 8) (sp : Fin 3) (nm : Bool) (px mx : Fin 8) (s : State) : Host.Outcome State Fault Refusal :=
  run (doLdk c rd sp nm px mx) s
/-- ST (R229). -/
def execSt (c : Fin 68) (ra : Fin 16) (sp : Fin 3) (nm : Bool) (px mx : Fin 8) (s : State) : Host.Outcome State Fault Refusal :=
  run (doSt c ra sp nm px mx) s
/-- STK (R229). -/
def execStk (c : Fin 68) (ra : Fin 8) (sp : Fin 3) (nm : Bool) (px mx : Fin 8) (s : State) : Host.Outcome State Fault Refusal :=
  run (doStk c ra sp nm px mx) s
/-- XCH (R230). -/
def execXch (c : Fin 68) (rd : Fin 16) (e : Bool) (nm : Bool) (px mx : Fin 8) (s : State) : Host.Outcome State Fault Refusal :=
  run (doXch c rd e nm px mx) s
/-- MAC (R231). -/
def execMac (c : Fin 68) (rd : Fin 4) (ra : Fin 16) (rb : Fin 8) (s : State) : Host.Outcome State Fault Refusal := run (doMac c rd ra rb) s
/-- MSU (R231). -/
def execMsu (c : Fin 68) (rd : Fin 4) (ra : Fin 16) (rb : Fin 8) (s : State) : Host.Outcome State Fault Refusal := run (doMsu c rd ra rb) s
/-- MPY (R231). -/
def execMpy (c : Fin 68) (rd : Fin 4) (ra : Fin 16) (rb : Fin 8) (s : State) : Host.Outcome State Fault Refusal := run (doMpy c rd ra rb) s
/-- MACG (R231). -/
def execMacg (c : Fin 68) (rd : Fin 4) (ra rb : Fin 16) (s : State) : Host.Outcome State Fault Refusal := run (doMacg c rd ra rb) s
/-- MPYG (R231). -/
def execMpyg (c : Fin 68) (rd : Fin 4) (ra rb : Fin 16) (s : State) : Host.Outcome State Fault Refusal := run (doMpyg c rd ra rb) s
/-- MACY (R231). -/
def execMacy (c : Fin 68) (rd : Fin 4) (ra : Fin 16) (nm : Bool) (py my : Fin 8) (s : State) : Host.Outcome State Fault Refusal :=
  run (doMacy c rd ra nm py my) s
/-- MSUY (R231). -/
def execMsuy (c : Fin 68) (rd : Fin 4) (ra : Fin 16) (nm : Bool) (py my : Fin 8) (s : State) : Host.Outcome State Fault Refusal :=
  run (doMsuy c rd ra nm py my) s
/-- MPYY (R231). -/
def execMpyy (c : Fin 68) (rd : Fin 4) (ra : Fin 16) (nm : Bool) (py my : Fin 8) (s : State) : Host.Outcome State Fault Refusal :=
  run (doMpyy c rd ra nm py my) s
/-- TAP (R232). -/
def execTap (c : Fin 68) (rd : Fin 4) (ra : Fin 16) (nmx : Bool) (px mx : Fin 8) (nmy : Bool) (py my : Fin 8) (s : State) : Host.Outcome State Fault Refusal :=
  run (doTap c rd ra nmx px mx nmy py my) s
/-- TAPW (R232). -/
def execTapw (c : Fin 68) (rd : Fin 4) (ra : Fin 16) (nmx : Bool) (px mx : Fin 8) (nmy : Bool) (py my : Fin 8) (s : State) : Host.Outcome State Fault Refusal :=
  run (doTapw c rd ra nmx px mx nmy py my) s
/-- TAP2 (R233). -/
def execTap2 (c : Fin 68) (pair : Bool) (h : Fin 8) (nmx : Bool) (px mx : Fin 8) (nmy : Bool) (py my : Fin 8) (s : State) : Host.Outcome State Fault Refusal :=
  run (doTap2 c pair h nmx px mx nmy py my) s
/-- CLRA (R234). -/
def execClra (c : Fin 68) (rd : Fin 4) (s : State) : Host.Outcome State Fault Refusal := run (doClra c rd) s
/-- LDA (R234). -/
def execLda (c : Fin 68) (rd : Fin 4) (ra : Fin 16) (s : State) : Host.Outcome State Fault Refusal := run (doLda c rd ra) s
/-- MOVA (R234). -/
def execMova (c : Fin 68) (rd ra : Fin 4) (s : State) : Host.Outcome State Fault Refusal := run (doMova c rd ra) s
/-- NEGA (R234). -/
def execNega (c : Fin 68) (rd ra : Fin 4) (s : State) : Host.Outcome State Fault Refusal := run (doNega c rd ra) s
/-- ADDA (R234). -/
def execAdda (c : Fin 68) (rd ra rb : Fin 4) (s : State) : Host.Outcome State Fault Refusal := run (doAdda c rd ra rb) s
/-- SUBA (R234). -/
def execSuba (c : Fin 68) (rd ra rb : Fin 4) (s : State) : Host.Outcome State Fault Refusal := run (doSuba c rd ra rb) s
/-- SHA (R234). -/
def execSha (c : Fin 68) (rd ra : Fin 4) (sh : BitVec 8) (s : State) : Host.Outcome State Fault Refusal := run (doSha c rd ra sh) s
/-- STA (R234). -/
def execSta (c : Fin 68) (rd : Fin 16) (ra : Fin 4) (s : State) : Host.Outcome State Fault Refusal := run (doSta c rd ra) s
/-- LMR (R236). -/
def execLmr (c : Fin 68) (ra : Fin 16) (len : Fin 9) (imm : BitVec 32) (s : State) : Host.Outcome State Fault Refusal := run (doLmr c ra len imm) s
/-- LMW (R236). -/
def execLmw (c : Fin 68) (ra rb : Fin 16) (imm : BitVec 32) (s : State) : Host.Outcome State Fault Refusal := run (doLmw c ra rb imm) s
/-- CORE_STATE_COPY (R212). -/
def execCoreStateCopy (s : State) : Host.Outcome State Fault Refusal := run (unlessPaused 6 doCoreStateCopy) s
/-- ROTATION_NO_GAP (R212). -/
def execRotationNoGap (s : State) : Host.Outcome State Fault Refusal := run doRotationNoGap s
/-- SHADOW_BLOCK_COMPARE (R395). -/
def execShadowBlockCompare (x : Dom) (same : Bool) (s : State) : Host.Outcome State Fault Refusal := run (unlessPaused 6 (doShadowBlockCompare x same)) s
/-- ROTATION_SWITCH (R395). -/
def execRotationSwitch (s : State) : Host.Outcome State Fault Refusal := run doRotationSwitch s
/-- ROTATION_COPY_DONE (R395). -/
def execRotationCopyDone (s : State) : Host.Outcome State Fault Refusal := run doRotationCopyDone s
/-- ROTATION_RELEASE (R395). -/
def execRotationRelease (pass : Bool) (s : State) : Host.Outcome State Fault Refusal := run (doRotationRelease pass) s

end Sys2Proof.Machine
end

