-- ==== Sys2Proof/Machine/Rooms.lean ====
section
/-! DEFINITION. The rows of the Reading Room (spec/15 R467 to R470): a request written to a mailbox. -/

namespace Sys2Proof.Machine

/-- The request word of target `t`: go, target, argument. -/
def rrWord (t arg : Nat) : W32 := BitVec.ofNat 32 (2 ^ 31 + t % 128 * 2 ^ 24 + arg % 2 ^ 24)

/-- A request of mailbox `mb`. -/
def rrRow (mb : Fin 16) (t : Nat) (arg : BitVec 24) (s : State) : State := softWrite 8 (RR_REQ mb) (rrWord t arg.toNat) s

/-- 19 R564: the words of the entry asked for hold an uncorrectable error. -/
def rrBad (arg : BitVec 24) (idx : BitVec 32) (s : State) : State :=
  if (ldgAt s arg.toNat).isSome then ldgDegrade idx.toNat (Config.arrayOf 19 idx.toNat) s else s

/-- 15 R469: a code that the target table does not list. -/
def rrUnknown (mb : Fin 16) (target : BitVec 7) (arg : BitVec 24) (s : State) : State :=
  let t := target.toNat
  if (1 ≤ t ∧ t ≤ 0x0E) ∨ t = 0x10 ∨ t = 0x11 then s else rrRow mb t arg s

end Sys2Proof.Machine
end

