-- ==== Sys2Proof/Machine/ExecControl.lean ====
section
/-! DEFINITION. The meaning of each command of the table, in its order: registers, the Reading Room, commands, the Docent, start-up, power, the Ledger, pins. Each is one of the forms of
Machine/Run.lean around the effect that the family file defines. -/

namespace Sys2Proof.Machine

/-- REGISTER_WRITE (R460). -/
def execRegisterWrite (m : Fin 21) (off : BitVec 24) (size : Fin 4) (data : BitVec 64) (s : State) : Host.Outcome State Fault Refusal :=
  run (throughPmp m (0x1000_0000 + off.toNat) (2 ^ size.val) true (doRegisterWrite m off size data)) s
/-- ISLAND_TIMEOUT (R459). -/
def execIslandTimeout (m : Fin 21) (off : BitVec 24) (wr : Option W32) (s : State) : Host.Outcome State Fault Refusal :=
  run (throughPmp m (0x1000_0000 + off.toNat) 4 wr.isSome (doIslandTimeout m off wr)) s
/-- ERROR_CAPTURE_REARM (R476). -/
def execErrorCaptureRearm (w : W32) (s : State) : Host.Outcome State Fault Refusal := run (softWrite 8 ATR_ERR_REARM w) s
/-- MSIX_REARM (R466). -/
def execMsixRearm (w : W32) (s : State) : Host.Outcome State Fault Refusal := run (softWrite 8 SYS_INT_REARM w) s
/-- SOFTWARE_RESET (R584). -/
def execSoftwareReset (w : W32) (s : State) : Host.Outcome State Fault Refusal := run (softWrite 8 SYS_SW_RESET w) s
/-- DIE_IDENTIFIER (R470). -/
def execDieIdentifier (mb : Fin 16) (arg : BitVec 24) (s : State) : Host.Outcome State Fault Refusal := run (rrRow mb 0x01 arg) s
/-- SAMPLE_INDEX (R470). -/
def execSampleIndex (mb : Fin 16) (arg : BitVec 24) (s : State) : Host.Outcome State Fault Refusal := run (rrRow mb 0x02 arg) s
/-- FREIZ_TIME (R336). -/
def execFreizTime (mb : Fin 16) (arg : BitVec 24) (s : State) : Host.Outcome State Fault Refusal := run (rrRow mb 0x03 arg) s
/-- STEP_OFFSETS (R470). -/
def execStepOffsets (mb : Fin 16) (arg : BitVec 24) (s : State) : Host.Outcome State Fault Refusal := run (rrRow mb 0x04 arg) s
/-- PPS_IN_TIMESTAMP (R470). -/
def execPpsInTimestamp (mb : Fin 16) (arg : BitVec 24) (s : State) : Host.Outcome State Fault Refusal := run (rrRow mb 0x05 arg) s
/-- PTP_TRANSMIT_TIMESTAMP (R340). -/
def execPtpTransmitTimestamp (mb : Fin 16) (arg : BitVec 24) (s : State) : Host.Outcome State Fault Refusal := run (rrRow mb 0x06 arg) s
/-- NODE_WORD (R102). -/
def execNodeWord (mb : Fin 16) (arg : BitVec 24) (s : State) : Host.Outcome State Fault Refusal := run (rrRow mb 0x07 arg) s
/-- OUTPUT_PATCH_ENTRY (R470). -/
def execOutputPatchEntry (mb : Fin 16) (arg : BitVec 24) (s : State) : Host.Outcome State Fault Refusal := run (rrRow mb 0x08 arg) s
/-- STRIP_VALUE (R470). -/
def execStripValue (mb : Fin 16) (arg : BitVec 24) (s : State) : Host.Outcome State Fault Refusal := run (rrRow mb 0x09 arg) s
/-- ATELIER_REGISTER (R470). -/
def execAtelierRegister (mb : Fin 16) (arg : BitVec 24) (s : State) : Host.Outcome State Fault Refusal := run (rrRow mb 0x0A arg) s
/-- BRIDGE_COEFFICIENT (R250). -/
def execBridgeCoefficient (mb : Fin 16) (arg : BitVec 24) (s : State) : Host.Outcome State Fault Refusal := run (rrRow mb 0x0B arg) s
/-- NETWORK_COUNTER (R470). -/
def execNetworkCounter (mb : Fin 16) (arg : BitVec 24) (s : State) : Host.Outcome State Fault Refusal := run (rrRow mb 0x0C arg) s
/-- CORRECTION_ADDRESS (R414). -/
def execCorrectionAddress (mb : Fin 16) (arg : BitVec 24) (s : State) : Host.Outcome State Fault Refusal := run (rrRow mb 0x0D arg) s
/-- ERROR_CAPTURE_ADDRESS (R470). -/
def execErrorCaptureAddress (mb : Fin 16) (arg : BitVec 24) (s : State) : Host.Outcome State Fault Refusal := run (rrRow mb 0x0E arg) s
/-- LEDGER_ENTRY (R555). -/
def execLedgerEntry (mb : Fin 16) (arg : BitVec 24) (bad : Option (BitVec 32)) (s : State) : Host.Outcome State Fault Refusal :=
  run (fun s => rrRow mb 0x10 arg (match bad with | some b => rrBad arg b s | none => s)) s
/-- LEDGER_SEQUENCE_NUMBER (R555). -/
def execLedgerSequenceNumber (mb : Fin 16) (arg : BitVec 24) (s : State) : Host.Outcome State Fault Refusal := run (rrRow mb 0x11 arg) s
/-- UNKNOWN_TARGET (R469). -/
def execUnknownTarget (mb : Fin 16) (target : BitVec 7) (arg : BitVec 24) (s : State) : Host.Outcome State Fault Refusal :=
  run (rrUnknown mb target arg) s
/-- COMMAND_RING_TAIL (R488). -/
def execCommandRingTail (w : W32) (s : State) : Host.Outcome State Fault Refusal := run (softWrite 8 CTL_CMD_TAIL w) s
/-- FIRMWARE_COMMAND_ISSUE (R489). -/
def execFirmwareCommandIssue (c : Fin 8) (w : W32) (s : State) : Host.Outcome State Fault Refusal := run (softWrite c (CTL_FCMD_CTRL c) w) s
/-- TICKET_STALL_RELEASE (R487). -/
def execTicketStallRelease (s : State) : Host.Outcome State Fault Refusal := run doTicketStallRelease s
/-- UNKNOWN_COMMAND (R494). -/
def execUnknownCommand (iss : Fin 256) (e : BitVec 512) (s : State) : Host.Outcome State Fault Refusal := run (doUnknownCommand iss e) s
/-- COMPLETION_RECORD_WRITE (R493). -/
def execCompletionRecordWrite (s : State) : Host.Outcome State Fault Refusal := run doCompletionRecordWrite s
/-- COMPLETION_RING_ROOM (R494). -/
def execCompletionRingRoom (fw : Bool) (w : W32) (s : State) : Host.Outcome State Fault Refusal :=
  run (softWrite 8 (if fw then CTL_FW_CQ_HEAD else CTL_CQ_HEAD) w) s
/-- SET_STATE (R530). -/
def execSetState (iss : Fin 256) (e : BitVec 512) (s : State) : Host.Outcome State Fault Refusal := run (acceptCode 0x0601 iss e) s
/-- FREEZE (R562). -/
def execFreeze (iss : Fin 256) (e : BitVec 512) (s : State) : Host.Outcome State Fault Refusal := run (acceptCode 0x0701 iss e) s
/-- FREEZE_COMPLETE (R562). -/
def execFreezeComplete (s : State) : Host.Outcome State Fault Refusal := run doFreezeComplete s
/-- UNFREEZE (R563). -/
def execUnfreeze (iss : Fin 256) (e : BitVec 512) (s : State) : Host.Outcome State Fault Refusal := run (acceptCode 0x0702 iss e) s
/-- FREEZE_TIMEOUT (R563). -/
def execFreezeTimeout (s : State) : Host.Outcome State Fault Refusal := run doFreezeTimeout s
/-- LOAD_CATALOGUE (R522). -/
def execLoadCatalogue (iss : Fin 256) (e : BitVec 512) (s : State) : Host.Outcome State Fault Refusal := run (acceptCode 0x0801 iss e) s
/-- LOAD_CATALOGUE_DONE (R523). -/
def execLoadCatalogueDone (ok : Bool) (s : State) : Host.Outcome State Fault Refusal := runFlash (doLoadCatalogueDone ok) s
/-- COPY (R491). -/
def execCopy (iss : Fin 256) (e : BitVec 512) (s : State) : Host.Outcome State Fault Refusal := run (acceptCode 0x0901 iss e) s
/-- COPY_START (R491). -/
def execCopyStart (eng : Fin 4) (s : State) : Host.Outcome State Fault Refusal := run (unlessPaused 2 (doCopyStart eng)) s
/-- COPY_DONE (R491). -/
def execCopyDone (eng : Fin 4) (found : List Finding) (s : State) : Host.Outcome State Fault Refusal := run (unlessPaused 2 (doCopyDone eng found)) s
/-- ABORT (R492). -/
def execAbort (iss : Fin 256) (e : BitVec 512) (s : State) : Host.Outcome State Fault Refusal := run (acceptCode 0x0A01 iss e) s
/-- BACKGROUND_DISABLE (R501). -/
def execBackgroundDisable (w : W32) (s : State) : Host.Outcome State Fault Refusal := run (softWrite 8 CTL_BG_EN w) s
/-- CORE_RUN (R478). -/
def execCoreRun (w : W32) (s : State) : Host.Outcome State Fault Refusal := run (softWrite 8 CTL_CORE_RUN w) s
/-- MACHINE_TIMER_INTERRUPT (R482). -/
def execMachineTimerInterrupt (c : Fin 8) (s : State) : Host.Outcome State Fault Refusal := run (doMachineTimerInterrupt c) s
/-- DOCENT_CONFIG (R495). -/
def execDocentConfig (t : Fin 4096) (w : W32) (s : State) : Host.Outcome State Fault Refusal := run (softWrite 8 (CTL_DOC_CFG t) w) s
/-- DOCENT_SIGNAL (R496). -/
def execDocentSignal (w : W32) (s : State) : Host.Outcome State Fault Refusal := run (softWrite 8 CTL_DOC_SIGNAL w) s
/-- DOCENT_TICK_SOURCE (R496). -/
def execDocentTickSource (x : Dom) (s : State) : Host.Outcome State Fault Refusal := runDue (.docTick x) s
/-- DOCENT_IRQ_SOURCE (R496). -/
def execDocentIrqSource (src : Fin 32) (s : State) : Host.Outcome State Fault Refusal := runDue (.docIrq src) s
/-- DOCENT_COMPLETION (R497). -/
def execDocentCompletion (s : State) : Host.Outcome State Fault Refusal := run doDocentCompletion s
/-- DOCENT_TAKE (R499). -/
def execDocentTake (c : Fin 8) (w : W32) (s : State) : Host.Outcome State Fault Refusal := run (softWrite c (CTL_DOC_TAKE c) w) s
/-- DOCENT_DONE (R500). -/
def execDocentDone (w : W32) (s : State) : Host.Outcome State Fault Refusal := run (softWrite 8 CTL_DOC_DONE w) s
/-- PCIE_RESET (R585). -/
def execPcieReset (s : State) : Host.Outcome State Fault Refusal := runPins doPcieReset s
/-- POWER_ON_RESET (R580). -/
def execPowerOnReset (s : State) : Host.Outcome State Fault Refusal := runPins doPowerOnReset s
/-- RESET_PIN (R584). -/
def execResetPin (level : Bool) (s : State) : Host.Outcome State Fault Refusal := runPins (doResetPin level) s
/-- OPTIONAL_SUPPLY_LOSS (R581). -/
def execOptionalSupplyLoss (v : Supply) (s : State) : Host.Outcome State Fault Refusal := runPins (doOptionalSupplyLoss v) s
/-- SELECTING (R517). -/
def execSelecting (romOk : Bool) (unread : BitVec 2) (s : State) : Host.Outcome State Fault Refusal := run (doSelecting romOk unread) s
/-- PHASE1 (R514). -/
def execPhase1 (s : State) : Host.Outcome State Fault Refusal := run doPhase1 s
/-- CATALOGUE_CONTINUE (R514). -/
def execCatalogueContinue (w : W32) (s : State) : Host.Outcome State Fault Refusal := run (softWrite 8 CTL_CAT_CTRL w) s
/-- PHASE2_DONE (R514). -/
def execPhase2Done (s : State) : Host.Outcome State Fault Refusal := run doPhase2Done s
/-- OPEN_OUTPUTS (R525). -/
def execOpenOutputs (w : W32) (s : State) : Host.Outcome State Fault Refusal := run (softWrite 8 CTL_CAT_CTRL w) s
/-- OUTPUTS_OPENED (R525). -/
def execOutputsOpened (s : State) : Host.Outcome State Fault Refusal := run doOutputsOpened s
/-- FIRMWARE_KEY_WRITE (R533). -/
def execFirmwareKeyWrite (k : Fin 7) (w : W32) (s : State) : Host.Outcome State Fault Refusal := run (softWrite 8 (PWR_FW_KEY (k + 1)) w) s
/-- QUIESCE_TIMEOUT (R535). -/
def execQuiesceTimeout (unit : BitVec 16) (s : State) : Host.Outcome State Fault Refusal := run (doQuiesceTimeout unit) s
/-- DROP_COMMIT (R536). -/
def execDropCommit (s : State) : Host.Outcome State Fault Refusal := run doDropCommit s
/-- DROP_REFUSE (R537). -/
def execDropRefuse (s : State) : Host.Outcome State Fault Refusal := run doDropRefuse s
/-- DROP_RETRY (R539). -/
def execDropRetry (s : State) : Host.Outcome State Fault Refusal := run doDropRetry s
/-- RAISE (R541). -/
def execRaise (s : State) : Host.Outcome State Fault Refusal := run doRaise s
/-- LOOK (R544). -/
def execLook (peaks : List (Fin 32 × BitVec 24)) (lanes : BitVec 16) (links : BitVec 2) (s : State) : Host.Outcome State Fault Refusal :=
  runAlways (doLook peaks lanes links) s
/-- LINK_SIGNAL_DETECT (R546). -/
def execLinkSignalDetect (lane : Fin 16) (s : State) : Host.Outcome State Fault Refusal := runAlways (doLinkSignalDetect lane) s
/-- WAKE_PIN (R547). -/
def execWakePin (pin : Option (Fin 32)) (s : State) : Host.Outcome State Fault Refusal := runAlways (doWakePin pin) s
/-- WAKE (R549). -/
def execWake (s : State) : Host.Outcome State Fault Refusal := runAlways doWake s
/-- SENTINEL_PEAK_UPDATE (R545). -/
def execSentinelPeakUpdate (n : Fin 32) (s : State) : Host.Outcome State Fault Refusal := run (doSentinelPeakUpdate n) s
/-- LEDGER_OCCURRENCE (R559). -/
def execLedgerOccurrence (code : Fin 1024) (src : BitVec 16) (det : List W32) (s : State) : Host.Outcome State Fault Refusal :=
  run (doLedgerOccurrence code src det) s
/-- LEDGER_ENTRY_WRITE (R553). -/
def execLedgerEntryWrite (bad : Option (BitVec 32)) (s : State) : Host.Outcome State Fault Refusal := run (doLedgerEntryWrite bad) s
/-- LEDGER_TOKEN_ADD (R559). -/
def execLedgerTokenAdd (code : Fin 1024) (s : State) : Host.Outcome State Fault Refusal := run (doLedgerTokenAdd code) s
/-- LEDGER_ENABLE (R556). -/
def execLedgerEnable (w : W32) (s : State) : Host.Outcome State Fault Refusal := run (softWrite 8 LDG_CFG w) s
/-- CODE_CONFIG_WRITE (R559). -/
def execCodeConfigWrite (code : Fin 1024) (w : W32) (s : State) : Host.Outcome State Fault Refusal := run (softWrite 8 (LDG_CODE_CFG code) w) s
/-- SOFTWARE_EVENT (R558). -/
def execSoftwareEvent (w : W32) (s : State) : Host.Outcome State Fault Refusal := run (softWrite 8 LDG_SW_EVENT w) s
/-- BYPASS (R597). -/
def execBypass (tdi : Bool) (s : State) : Host.Outcome State Fault Refusal := runJtag (doBypass tdi) s
/-- IDCODE (R597). -/
def execIdcode (s : State) : Host.Outcome State Fault Refusal := runJtag doIdcode s
/-- SAMPLE_PRELOAD (R597). -/
def execSamplePreload (cells preload : Nat) (s : State) : Host.Outcome State Fault Refusal := runJtag (doSamplePreload cells preload) s
/-- EXTEST (R597). -/
def execExtest (s : State) : Host.Outcome State Fault Refusal := runJtag doExtest s
/-- CLAMP (R597). -/
def execClamp (s : State) : Host.Outcome State Fault Refusal := runJtag doClamp s
/-- HIGHZ (R597). -/
def execHighz (s : State) : Host.Outcome State Fault Refusal := runJtag doHighz s
/-- FUSE_KEY (R598). -/
def execFuseKey (bits : BitVec 256) (s : State) : Host.Outcome State Fault Refusal := runJtagPerm (doFuseKey bits) s
/-- FUSE_READ (R598). -/
def execFuseRead (s : State) : Host.Outcome State Fault Refusal := runJtag doFuseRead s
/-- PCIE_PERST_RISE (R585). -/
def execPciePerstRise (s : State) : Host.Outcome State Fault Refusal := runPins doPciePerstRise s
/-- OPTIONAL_SUPPLY_RETURN (R581). -/
def execOptionalSupplyReturn (v : Supply) (s : State) : Host.Outcome State Fault Refusal := runPins (doOptionalSupplyReturn v) s
/-- STATE_CHANGE_REPORT_REPEAT (R301). -/
def execStateChangeReportRepeat (p : Fin 8) (grp : BitVec 128) (v6 : Bool) (s : State) : Host.Outcome State Fault Refusal :=
  run (doStateChangeReportRepeat p grp v6) s
/-- PPS_OUT_PULSE_END (R368). -/
def execPpsOutPulseEnd (s : State) : Host.Outcome State Fault Refusal := run doPpsOutPulseEnd s
/-- REPAIR_DONE (R424). -/
def execRepairDone (ok : Bool) (s : State) : Host.Outcome State Fault Refusal := runOtp (doRepairDone ok) s
/-- RAISE_COMPLETE (R542). -/
def execRaiseComplete (s : State) : Host.Outcome State Fault Refusal := run doRaiseComplete s
/-- GP_INPUT_CHANGE (R275). -/
def execGpInputChange (g : Fin 32) (v : Bool) (s : State) : Host.Outcome State Fault Refusal := run (doGpInputChange g v) s

end Sys2Proof.Machine
end

