-- ==== Sys2Proof/Machine/ExecLinks.lean ====
section
/-! DEFINITION. The meaning of each command of the table, in its order: domains, bridges, ports, network streams, Daxesh links. Each is one of the forms of
Machine/Run.lean around the effect that the family file defines. -/

namespace Sys2Proof.Machine

/-- DOMAIN_START (R244). -/
def execDomainStart (x : Dom) (w : W32) (s : State) : Host.Outcome State Fault Refusal := run (softWrite 8 (TIM_DOM_CTRL (domNo x)) w) s
/-- DOMAIN_STOP (R245). -/
def execDomainStop (x : Dom) (w : W32) (s : State) : Host.Outcome State Fault Refusal := run (softWrite 8 (TIM_DOM_CTRL (domNo x)) w) s
/-- BRIDGE_START (R255). -/
def execBridgeStart (b : Fin 256) (w : W32) (s : State) : Host.Outcome State Fault Refusal := run (softWrite 8 (PRT_BR_CTRL b) w) s
/-- BRIDGE_OUTPUT_START (R255). -/
def execBridgeOutputStart (b : Fin 256) (s : State) : Host.Outcome State Fault Refusal := run (doBridgeOutputStart b) s
/-- BRIDGE_STOP (R256). -/
def execBridgeStop (b : Fin 256) (w : W32) (s : State) : Host.Outcome State Fault Refusal := run (softWrite 8 (PRT_BR_CTRL b) w) s
/-- BRIDGE_STOPPED (R256). -/
def execBridgeStopped (b : Fin 256) (s : State) : Host.Outcome State Fault Refusal := runDue (.brStopped b) s
/-- BRIDGE_BLOCK (R251). -/
def execBridgeBlock (b : Fin 256) (s : State) : Host.Outcome State Fault Refusal := run (doBridgeBlock b) s
/-- BRIDGE_RUNNING (R252). -/
def execBridgeRunning (b : Fin 256) (s : State) : Host.Outcome State Fault Refusal := run (doBridgeRunning b) s
/-- SIDE_ENABLE (R257). -/
def execSideEnable (i : Fin 160) (w : W32) (s : State) : Host.Outcome State Fault Refusal := run (softWrite 8 (PRT_SIDE_CFG i) w) s
/-- SIDE_DISABLE (R274). -/
def execSideDisable (i : Fin 160) (w : W32) (s : State) : Host.Outcome State Fault Refusal := run (softWrite 8 (PRT_SIDE_CFG i) w) s
/-- PORT_FRAME_RECEIVED (R260). -/
def execPortFrameReceived (i : Fin 160) (f : RxFrame) (s : State) : Host.Outcome State Fault Refusal := run (doPortFrameReceived i f) s
/-- PORT_FRAME_TRANSMIT (R260). -/
def execPortFrameTransmit (i : Fin 160) (good : Bool) (at_ : BitVec 32) (s : State) : Host.Outcome State Fault Refusal :=
  run (doPortFrameTransmit i good at_) s
/-- MISSING_FRAME (R267). -/
def execMissingFrame (i : Fin 160) (s : State) : Host.Outcome State Fault Refusal := run (doMissingFrame i) s
/-- CLOCK_ABSENT (R266). -/
def execClockAbsent (i : Fin 160) (s : State) : Host.Outcome State Fault Refusal := run (doClockAbsent i) s
/-- SIDE_LOCKED (R269). -/
def execSideLocked (i : Fin 160) (s : State) : Host.Outcome State Fault Refusal := runDue (.sideLock i) s
/-- SIDE_FADE_END (R271). -/
def execSideFadeEnd (i : Fin 160) (s : State) : Host.Outcome State Fault Refusal := runDue (.sideFade i) s
/-- SIDE_MASK_WRITE (R273). -/
def execSideMaskWrite (i : Fin 160) (w : W32) (s : State) : Host.Outcome State Fault Refusal := run (softWrite 8 (PRT_SIDE_MASK i) w) s
/-- MASK_APPLY (R273). -/
def execMaskApply (i : Fin 160) (s : State) : Host.Outcome State Fault Refusal := run (doMaskApply i) s
/-- GP_SCENE_TRIGGER (R275). -/
def execGpSceneTrigger (g : Fin 32) (s : State) : Host.Outcome State Fault Refusal := run (doGpSceneTrigger g) s
/-- SENTINEL_OUTPUT_CLEAR (R275). -/
def execSentinelOutputClear (w : W32) (s : State) : Host.Outcome State Fault Refusal := run (softWrite 8 PRT_GP_SENT_CLR w) s
/-- PORT_GROUP_ENABLE (R276). -/
def execPortGroupEnable (g : Fin 2) (w : W32) (s : State) : Host.Outcome State Fault Refusal := run (softWrite 8 (NET_GRP_CFG g) w) s
/-- PORT_UP (R278). -/
def execPortUp (p : Fin 8) (s : State) : Host.Outcome State Fault Refusal := run (doPortUp p) s
/-- PORT_DOWN (R278). -/
def execPortDown (p : Fin 8) (s : State) : Host.Outcome State Fault Refusal := run (doPortDown p) s
/-- NET_FRAME_RECEIVED (R280). -/
def execNetFrameReceived (p : Fin 8) (bytes : List Byte) (fcsOk : Bool) (t : Nat) (s : State) : Host.Outcome State Fault Refusal :=
  run (doNetFrameReceived p bytes fcsOk t) s
/-- RTP_PACKET_RECEIVED (R294). -/
def execRtpPacketReceived (f : Fin 1024) (leg : Fin 2) (rtp : List Byte) (s : State) : Host.Outcome State Fault Refusal :=
  run (doRtpPacketReceived f leg rtp) s
/-- RECEIVING_TIMEOUT (R296). -/
def execReceivingTimeout (f : Fin 1024) (s : State) : Host.Outcome State Fault Refusal := run (doReceivingTimeout f) s
/-- LEG_TIMEOUT (R296). -/
def execLegTimeout (f : Fin 1024) (leg : Fin 2) (s : State) : Host.Outcome State Fault Refusal := run (doLegTimeout f leg) s
/-- RX_FLOW_START (R284). -/
def execRxFlowStart (f : Fin 1024) (w : W32) (s : State) : Host.Outcome State Fault Refusal := run (softWrite 8 (NET_RXF_CTRL f) w) s
/-- RX_FLOW_STOP (R296). -/
def execRxFlowStop (f : Fin 1024) (w : W32) (s : State) : Host.Outcome State Fault Refusal := run (softWrite 8 (NET_RXF_CTRL f) w) s
/-- TX_FLOW_START (R300). -/
def execTxFlowStart (f : Fin 1024) (w : W32) (s : State) : Host.Outcome State Fault Refusal := run (softWrite 8 (NET_TXF_CTRL f) w) s
/-- TX_FLOW_STOP (R300). -/
def execTxFlowStop (f : Fin 1024) (w : W32) (s : State) : Host.Outcome State Fault Refusal := run (softWrite 8 (NET_TXF_CTRL f) w) s
/-- TX_PACKET_SEND (R299). -/
def execTxPacketSend (f : Fin 1024) (s : State) : Host.Outcome State Fault Refusal := runDue (.txSend f) s
/-- MEMBERSHIP_REPORT (R301). -/
def execMembershipReport (p : Fin 8) (grp : BitVec 128) (v6 : Bool) (s : State) : Host.Outcome State Fault Refusal :=
  run (doMembershipReport p grp v6) s
/-- MEMBERSHIP_QUERY (R301). -/
def execMembershipQuery (p : Fin 8) (grp : BitVec 128) (v6 : Bool) (ver : Fin 4) (s : State) : Host.Outcome State Fault Refusal :=
  run (doMembershipQuery p grp v6 ver) s
/-- QUERY_RESPONSE (R301). -/
def execQueryResponse (p : Fin 8) (grp : BitVec 128) (v6 : Bool) (s : State) : Host.Outcome State Fault Refusal := run (doQueryResponse p grp v6) s
/-- MANAGEMENT_MESSAGE (R304). -/
def execManagementMessage (p : Fin 8) (src : BitVec 128) (udp : BitVec 16) (msg : List Byte) (s : State) : Host.Outcome State Fault Refusal :=
  run (doManagementMessage p src udp msg) s
/-- LINK_ENABLE (R330). -/
def execLinkEnable (l : Fin 2) (w : W32) (s : State) : Host.Outcome State Fault Refusal := run (softWrite 8 (DAX_LINK_CFG l) w) s
/-- LANE_SIGNAL_LOCK (R330). -/
def execLaneSignalLock (l : Fin 2) (s : State) : Host.Outcome State Fault Refusal := run (doLaneSignalLock l) s
/-- BLOCK_LOCK (R330). -/
def execBlockLock (l : Fin 2) (s : State) : Host.Outcome State Fault Refusal := run (doBlockLock l) s
/-- LANE_ALIGN (R307). -/
def execLaneAlign (m : LinkMarkers) (s : State) : Host.Outcome State Fault Refusal := run (doLaneAlign m) s
/-- LINK_LOSS (R330). -/
def execLinkLoss (l : Fin 2) (bad : BitVec 16) (s : State) : Host.Outcome State Fault Refusal := run (doLinkLoss l bad) s
/-- IDENT_SEND (R331). -/
def execIdentSend (l : Fin 2) (s : State) : Host.Outcome State Fault Refusal := run (doIdentSend l) s
/-- IDENT_MESSAGE (R331). -/
def execIdentMessage (l : Fin 2) (hdr body fin : List Block66) (s : State) : Host.Outcome State Fault Refusal :=
  run (doIdentMessage l (hdr ++ body ++ fin)) s
/-- TICK_FRAME_RECEIVED (R312). -/
def execTickFrameReceived (l : Fin 2) (rx : List Block66) (s : State) : Host.Outcome State Fault Refusal := run (doTickFrameReceived l rx) s
/-- MESSAGE_SEND (R325). -/
def execMessageSend (l : Fin 2) (s : State) : Host.Outcome State Fault Refusal := run (doMessageSend l) s
/-- FIRMWARE_MESSAGE (R329). -/
def execFirmwareMessage (l : Fin 2) (hdr body fin : List Block66) (s : State) : Host.Outcome State Fault Refusal :=
  run (doFirmwareMessage l (hdr ++ body ++ fin)) s
/-- PROVENANCE_MESSAGE (R376). -/
def execProvenanceMessage (l : Fin 2) (hdr body fin : List Block66) (s : State) : Host.Outcome State Fault Refusal :=
  run (doProvenanceMessage l (hdr ++ body ++ fin)) s
/-- RATIO_MESSAGE (R254). -/
def execRatioMessage (l : Fin 2) (hdr body fin : List Block66) (s : State) : Host.Outcome State Fault Refusal :=
  run (doRatioMessage l (hdr ++ body ++ fin)) s
/-- TWIN_MESSAGE (R379). -/
def execTwinMessage (l : Fin 2) (hdr body fin : List Block66) (s : State) : Host.Outcome State Fault Refusal :=
  run (doTwinMessage l (hdr ++ body ++ fin)) s
/-- TXMAP_WRITE (R319). -/
def execTxmapWrite (l : Fin 2) (j : Fin 8192) (w : W32) (s : State) : Host.Outcome State Fault Refusal := run (softWrite 8 (DAX_TXMAP l j) w) s
/-- TXMAP_APPLY (R318). -/
def execTxmapApply (l : Fin 2) (s : State) : Host.Outcome State Fault Refusal := run (doTxmapApply l) s
/-- PS_TABLE_WRITE (R322). -/
def execPsTableWrite (l : Fin 2) (j : Fin 4096) (w : W32) (s : State) : Host.Outcome State Fault Refusal := run (softWrite 8 (DAX_PS l j) w) s
/-- WAKE_PATTERN_SEND (R333). -/
def execWakePatternSend (l : Fin 2) (w : W32) (s : State) : Host.Outcome State Fault Refusal := run (softWrite 8 (DAX_WAKE l) w) s
/-- WAKE_PATTERN_END (R333). -/
def execWakePatternEnd (l : Fin 2) (s : State) : Host.Outcome State Fault Refusal := run (doWakePatternEnd l) s
/-- WAKE_PATTERN_DETECT (R334). -/
def execWakePatternDetect (l : Fin 2) (s : State) : Host.Outcome State Fault Refusal := runAlways (doWakePatternDetect l) s

end Sys2Proof.Machine
end

