-- ==== Sys2Proof/Machine/ExecMemory.lean ====
section
/-! DEFINITION. The meaning of each command of the table, in its order: the Atrium, memories, DRAM. Each is one of the forms of
Machine/Run.lean around the effect that the family file defines. -/

namespace Sys2Proof.Machine

/-- ATRIUM_READ (R407). -/
def execAtriumRead (m : Fin 21) (addr size : Nat) (found : List Finding) (s : State) : Host.Outcome State Fault Refusal :=
  run (throughPmp m addr size false (doAtriumRead m addr size found)) s
/-- ATRIUM_WRITE (R409). -/
def execAtriumWrite (m : Fin 21) (addr : Nat) (bytes : List Byte) (found : List Finding) (s : State) : Host.Outcome State Fault Refusal :=
  run (throughPmp m addr bytes.length true (doAtriumWrite m addr bytes found)) s
/-- SET_ALIAS_WRITE (R403). -/
def execSetAliasWrite (m : Fin 21) (addr : Nat) (data : BitVec 64) (strb : BitVec 8) (found : List Finding) (s : State) : Host.Outcome State Fault Refusal :=
  run (throughPmp m addr 8 true (doSetAliasWrite m addr data strb found)) s
/-- CLR_ALIAS_WRITE (R403). -/
def execClrAliasWrite (m : Fin 21) (addr : Nat) (data : BitVec 64) (strb : BitVec 8) (found : List Finding) (s : State) : Host.Outcome State Fault Refusal :=
  run (throughPmp m addr 8 true (doClrAliasWrite m addr data strb found)) s
/-- STOREROOM_AMO (R481). -/
def execStoreroomAmo (c : Fin 8) (op : AmoOp) (dbl : Bool) (addr : Nat) (data : BitVec 64) (found : List Finding) (s : State) : Host.Outcome State Fault Refusal :=
  run (throughPmp c addr (if dbl then 8 else 4) (decide (op ≠ .lr)) (doStoreroomAmo c op dbl addr data found)) s
/-- MERGE_ENTRY_COMPLETE (R410). -/
def execMergeEntryComplete (port : Fin 256) (found : List Finding) (s : State) : Host.Outcome State Fault Refusal :=
  run (doMergeEntryComplete port found) s
/-- CORRECTED_WRITEBACK (R408). -/
def execCorrectedWriteback (s : State) : Host.Outcome State Fault Refusal := run doCorrectedWriteback s
/-- BUCKET_LEAK (R413). -/
def execBucketLeak (r : Fin 32) (s : State) : Host.Outcome State Fault Refusal := run (doBucketLeak r) s
/-- BUCKET_CONFIG_WRITE (R413). -/
def execBucketConfigWrite (r : Fin 32) (w : W32) (s : State) : Host.Outcome State Fault Refusal := run (softWrite 8 (MEM_BKT_CFG r) w) s
/-- PATROL (R417). -/
def execPatrol (f : Finding) (s : State) : Host.Outcome State Fault Refusal := run (doPatrol f) s
/-- SCRUB (R418). -/
def execScrub (iss : Fin 256) (e : BitVec 512) (s : State) : Host.Outcome State Fault Refusal := run (acceptCode 0x0301 iss e) s
/-- SCRUB_DONE (R420). -/
def execScrubDone (found : List Finding) (s : State) : Host.Outcome State Fault Refusal := run (unlessPaused 3 (doScrubDone found)) s
/-- BANK_FILL_DONE (R421). -/
def execBankFillDone (b : Fin 65) (s : State) : Host.Outcome State Fault Refusal := run (doBankFillDone b) s
/-- REPAIR (R424). -/
def execRepair (iss : Fin 256) (e : BitVec 512) (s : State) : Host.Outcome State Fault Refusal := run (acceptCode 0x0302 iss e) s
/-- DRAM_INIT (R445). -/
def execDramInit (w : W32) (s : State) : Host.Outcome State Fault Refusal := run (softWrite 8 DRC_CTRL w) s
/-- TRAINING_DONE (R445). -/
def execTrainingDone (ok : BitVec 4) (s : State) : Host.Outcome State Fault Refusal := run (doTrainingDone ok) s
/-- DRAM_COMMAND_ISSUE (R434). -/
def execDramCommandIssue (sub : Fin 8) (skip : Nat) (s : State) : Host.Outcome State Fault Refusal := run (doDramCommandIssue sub skip) s
/-- REFRESH_DUE (R440). -/
def execRefreshDue (sub : Fin 8) (s : State) : Host.Outcome State Fault Refusal := run (doRefreshDue sub) s
/-- TEMPERATURE_POLL (R440). -/
def execTemperaturePoll (ch : Fin 4) (hot : Bool) (s : State) : Host.Outcome State Fault Refusal := run (doTemperaturePoll ch hot) s
/-- PERIODIC_RETRAIN (R447). -/
def execPeriodicRetrain (sub : Fin 8) (s : State) : Host.Outcome State Fault Refusal := run (doPeriodicRetrain sub) s
/-- WRITE_DRAIN_START (R436). -/
def execWriteDrainStart (sub : Fin 8) (aged : Bool) (s : State) : Host.Outcome State Fault Refusal := run (doWriteDrainStart sub aged) s
/-- WRITE_DRAIN_END (R436). -/
def execWriteDrainEnd (sub : Fin 8) (s : State) : Host.Outcome State Fault Refusal := run (doWriteDrainEnd sub) s
/-- BACKGROUND_PROMOTE (R434). -/
def execBackgroundPromote (sub : Fin 8) (s : State) : Host.Outcome State Fault Refusal := run (doBackgroundPromote sub) s
/-- COMMAND_PARITY_ALERT (R441). -/
def execCommandParityAlert (ch : Fin 4) (sameWindow : Bool) (s : State) : Host.Outcome State Fault Refusal :=
  run (doCommandParityAlert ch sameWindow) s
/-- THROTTLE_END (R444). -/
def execThrottleEnd (m : Fin 21) (s : State) : Host.Outcome State Fault Refusal := run (doThrottleEnd m) s
/-- ROW_WINDOW_END (R443). -/
def execRowWindowEnd (sub : Fin 8) (s : State) : Host.Outcome State Fault Refusal := run (doRowWindowEnd sub) s

end Sys2Proof.Machine
end

