-- ==== Sys2Proof/Machine/ExecSignal.lean ====
section
/-! DEFINITION. The meaning of each command of the table, in its order: the Gallery, staging, commit, scenes, strips, meters, Archive. Each is one of the forms of
Machine/Run.lean around the effect that the family file defines. -/

namespace Sys2Proof.Machine

/-- TICK_EVENT (R17). -/
def execTickEvent (x : Dom) (skip : Nat) (s : State) : Host.Outcome State Fault Refusal := run (doTickEvent x skip) s
/-- TICK_BUFFER_LATE (R10). -/
def execTickBufferLate (kind : LateKind) (x : Dom) (entry : Fin 4096) (stage : Fin 3) (s : State) : Host.Outcome State Fault Refusal :=
  run (doTickBufferLate kind x entry stage) s
/-- COLUMN_JOB (R69). -/
def execColumnJob (d : Fin 4096) (ue : List (Fin 4096)) (s : State) : Host.Outcome State Fault Refusal := run (doColumnJob d ue) s
/-- ZC_TIMEOUT_FALLBACK (R79). -/
def execZcTimeoutFallback (d i : Fin 4096) (s : State) : Host.Outcome State Fault Refusal := run (doZcTimeoutFallback d i) s
/-- RAMP_END (R80). -/
def execRampEnd (d i : Fin 4096) (s : State) : Host.Outcome State Fault Refusal := run (doRampEnd d i) s
/-- COLUMN_JOB_ABANDON (R98). -/
def execColumnJobAbandon (d : Fin 4096) (s : State) : Host.Outcome State Fault Refusal := run (doColumnJobAbandon d) s
/-- STAGE_NODE (R100). -/
def execStageNode (w : W32) (s : State) : Host.Outcome State Fault Refusal := run (softWrite 8 GAL_STG_CMD w) s
/-- STAGING_STALL_RELEASE (R90). -/
def execStagingStallRelease (s : State) : Host.Outcome State Fault Refusal := run doStagingStallRelease s
/-- GEN_CLAIM (R104). -/
def execGenClaim (w : W32) (s : State) : Host.Outcome State Fault Refusal := run (softWrite 8 SCN_GEN_CLAIM w) s
/-- STAGE_RECORD (R116). -/
def execStageRecord (w : W32) (s : State) : Host.Outcome State Fault Refusal := run (softWrite 8 SCN_REC_CMD w) s
/-- PATCH_STALL_RELEASE (R123). -/
def execPatchStallRelease (s : State) : Host.Outcome State Fault Refusal := run doPatchStallRelease s
/-- COMMIT (R107). -/
def execCommit (iss : Fin 256) (src : CmtSrc) (s : State) : Host.Outcome State Fault Refusal := run (doCommit iss src) s
/-- COMMIT_APPLY (R109). -/
def execCommitApply (x : Dom) (s : State) : Host.Outcome State Fault Refusal := run (doCommitApply x) s
/-- PATCH_XFADE_END (R122). -/
def execPatchXfadeEnd (e : Fin 16384) (s : State) : Host.Outcome State Fault Refusal := runDue (.patchEnd e) s
/-- RECALL (R131). -/
def execRecall (iss : Fin 256) (e : BitVec 512) (s : State) : Host.Outcome State Fault Refusal := run (acceptCode 0x0101 iss e) s
/-- RECALL_LOAD_START (R132). -/
def execRecallLoadStart (s : State) : Host.Outcome State Fault Refusal := run (unlessPaused 5 (fun s => raiseKeyed (doRecallLoadStart s))) s
/-- RECALL_STAGED (R133). -/
def execRecallStaged (read : List Finding) (s : State) : Host.Outcome State Fault Refusal := run (unlessPaused 5 (fun s => raiseKeyed (doRecallStaged read s))) s
/-- STRIP_STAGE_LATE (R139). -/
def execStripStageLate (out : Bool) (strip : Fin 4096) (stage : Fin 4) (s : State) : Host.Outcome State Fault Refusal :=
  run (doStripStageLate out strip stage) s
/-- COEFFICIENT_INTERP_END (R143). -/
def execCoefficientInterpEnd (strip : Fin 8192) (key : Fin 65536) (s : State) : Host.Outcome State Fault Refusal := runDue (.interpEnd strip key) s
/-- ENABLE_XFADE_END (R145). -/
def execEnableXfadeEnd (strip : Fin 8192) (key : Fin 65536) (s : State) : Host.Outcome State Fault Refusal := runDue (.enableEnd strip key) s
/-- GAIN_RAMP_END (R146). -/
def execGainRampEnd (strip : Fin 8192) (key : Fin 65536) (s : State) : Host.Outcome State Fault Refusal := runDue (.gainEnd strip key) s
/-- SWITCH_FADE_END (R147). -/
def execSwitchFadeEnd (strip : Fin 8192) (key : Fin 65536) (s : State) : Host.Outcome State Fault Refusal := runDue (.switchEnd strip key) s
/-- INSERT_LATENCY_CHANGE (R148). -/
def execInsertLatencyChange (strip : Fin 8192) (s : State) : Host.Outcome State Fault Refusal := runDue (.dipHalf strip) s
/-- INSERT_DIP_END (R148). -/
def execInsertDipEnd (strip : Fin 8192) (s : State) : Host.Outcome State Fault Refusal := runDue (.dipEnd strip) s
/-- GATE_HOLD_EXPIRE (R151). -/
def execGateHoldExpire (strip : Fin 8192) (key : Fin 65536) (s : State) : Host.Outcome State Fault Refusal := runDue (.gateClose strip key) s
/-- DELAY_READ_LATE (R155). -/
def execDelayReadLate (strip : Fin 8192) (s : State) : Host.Outcome State Fault Refusal := run (doDelayReadLate strip) s
/-- DELAY_XFADE_END (R156). -/
def execDelayXfadeEnd (strip : Fin 8192) (s : State) : Host.Outcome State Fault Refusal := runDue (.delayEnd strip) s
/-- METER_FRAME_CLOSE (R164). -/
def execMeterFrameClose (s : State) : Host.Outcome State Fault Refusal := run doMeterFrameClose s
/-- LOUDNESS_BLOCK (R163). -/
def execLoudnessBlock (g : Fin 512) (s : State) : Host.Outcome State Fault Refusal := run (doLoudnessBlock g) s
/-- LOUDNESS_GROUP_RESET (R163). -/
def execLoudnessGroupReset (w : W32) (s : State) : Host.Outcome State Fault Refusal := run (softWrite 8 STR_LG_RESET w) s
/-- ARCHIVE_BLOCK_DROP (R167). -/
def execArchiveBlockDrop (slot : Fin 4096) (s : State) : Host.Outcome State Fault Refusal := run (doArchiveBlockDrop slot) s
/-- PLAYBACK_ARM (R168). -/
def execPlaybackArm (ch : Fin 64) (w : W32) (s : State) : Host.Outcome State Fault Refusal := run (softWrite 8 (STR_PB_CTRL ch) w) s
/-- PLAYBACK_STOP (R169). -/
def execPlaybackStop (ch : Fin 64) (w : W32) (s : State) : Host.Outcome State Fault Refusal := run (softWrite 8 (STR_PB_CTRL ch) w) s
/-- PLAYBACK_START (R168). -/
def execPlaybackStart (ch : Fin 64) (s : State) : Host.Outcome State Fault Refusal := run (doPlaybackStart ch) s
/-- PLAYBACK_END (R168). -/
def execPlaybackEnd (ch : Fin 64) (s : State) : Host.Outcome State Fault Refusal := run (doPlaybackEnd ch) s
/-- PLAYBACK_READ_LATE (R168). -/
def execPlaybackReadLate (ch : Fin 64) (s : State) : Host.Outcome State Fault Refusal := run (doPlaybackReadLate ch) s

end Sys2Proof.Machine
end

