-- ==== Sys2Proof/Machine/ExecTime.lean ====
section
/-! DEFINITION. The meaning of each command of the table, in its order: time, references, twins, rotation. Each is one of the forms of
Machine/Run.lean around the effect that the family file defines. -/

namespace Sys2Proof.Machine

/-- SERVO_UPDATE (R342). -/
def execServoUpdate (w : W32) (s : State) : Host.Outcome State Fault Refusal := run (softWrite 8 TIM_SERVO_CTRL w) s
/-- MASTER_CHANGE (R344). -/
def execMasterChange (w : W32) (s : State) : Host.Outcome State Fault Refusal := run (softWrite 8 TIM_SERVO_CTRL w) s
/-- FED_TIMER_EXPIRE (R344). -/
def execFedTimerExpire (s : State) : Host.Outcome State Fault Refusal := run doFedTimerExpire s
/-- TIME_STEP (R346). -/
def execTimeStep (iss : Fin 256) (e : BitVec 512) (s : State) : Host.Outcome State Fault Refusal := run (acceptCode 0x0201 iss e) s
/-- STEP_APPLY (R347). -/
def execStepApply (s : State) : Host.Outcome State Fault Refusal := run doStepApply s
/-- REF_QUALIFY (R352). -/
def execRefQualify (i : Fin 9) (freq : BitVec 32) (s : State) : Host.Outcome State Fault Refusal := run (doRefQualify i freq) s
/-- REF_MISSING_PERIOD (R351). -/
def execRefMissingPeriod (p : MissedPeriod) (s : State) : Host.Outcome State Fault Refusal := run (doRefMissingPeriod p) s
/-- REF_DISQUALIFY (R352). -/
def execRefDisqualify (i : Fin 9) (freq : BitVec 32) (s : State) : Host.Outcome State Fault Refusal := run (doRefDisqualify i freq) s
/-- HOLD_OFF_EXPIRE (R357). -/
def execHoldOffExpire (s : State) : Host.Outcome State Fault Refusal := run doHoldOffExpire s
/-- WTR_EXPIRE (R355). -/
def execWtrExpire (i : Fin 9) (s : State) : Host.Outcome State Fault Refusal := run (doWtrExpire i) s
/-- RANK_CONFLICT_RETRY (R355). -/
def execRankConflictRetry (s : State) : Host.Outcome State Fault Refusal := run doRankConflictRetry s
/-- PRIORITY_WRITE (R355). -/
def execPriorityWrite (j : Fin 9) (w : W32) (s : State) : Host.Outcome State Fault Refusal :=
  run (softWrite 8 (if j.val = 8 then TIM_SEL_CFG else TIM_PRIO j) w) s
/-- DPLL_LOCK (R362). -/
def execDpllLock (aux : Bool) (freq phase : BitVec 32) (s : State) : Host.Outcome State Fault Refusal := run (doDpllLock aux freq phase) s
/-- BANDWIDTH_HALVE (R361). -/
def execBandwidthHalve (aux : Bool) (s : State) : Host.Outcome State Fault Refusal := run (doBandwidthHalve aux) s
/-- HOLDOVER_SAMPLE (R363). -/
def execHoldoverSample (aux : Bool) (m : DpllSecond) (s : State) : Host.Outcome State Fault Refusal := run (doHoldoverSample aux m) s
/-- HOLDOVER_EXPIRE (R358). -/
def execHoldoverExpire (aux : Bool) (s : State) : Host.Outcome State Fault Refusal := run (doHoldoverExpire aux) s
/-- SYSREF_LOSS (R353). -/
def execSysrefLoss (s : State) : Host.Outcome State Fault Refusal := run doSysrefLoss s
/-- SYSREF_RETURN (R353). -/
def execSysrefReturn (s : State) : Host.Outcome State Fault Refusal := run doSysrefReturn s
/-- PPS_OUT_PULSE (R368). -/
def execPpsOutPulse (s : State) : Host.Outcome State Fault Refusal := run doPpsOutPulse s
/-- PPS_IN_EDGE (R369). -/
def execPpsInEdge (t : Nat) (s : State) : Host.Outcome State Fault Refusal := run (doPpsInEdge t) s
/-- PROVENANCE_BLOCK (R375). -/
def execProvenanceBlock (x : Dom) (s : State) : Host.Outcome State Fault Refusal := run (doProvenanceBlock x) s
/-- PROVENANCE_MISSING (R376). -/
def execProvenanceMissing (x : Dom) (d : Fin 4096) (j : Nat) (s : State) : Host.Outcome State Fault Refusal := run (doProvenanceMissing x d j) s
/-- TWIN_MESSAGE_SEND (R378). -/
def execTwinMessageSend (s : State) : Host.Outcome State Fault Refusal := run doTwinMessageSend s
/-- PEER_LOST (R379). -/
def execPeerLost (s : State) : Host.Outcome State Fault Refusal := run doPeerLost s
/-- WITHDRAW (R380). -/
def execWithdraw (s : State) : Host.Outcome State Fault Refusal := run doWithdraw s
/-- HOST_WITHDRAW (R380). -/
def execHostWithdraw (w : W32) (s : State) : Host.Outcome State Fault Refusal := run (softWrite 8 TWN_CTRL w) s
/-- REJOIN (R383). -/
def execRejoin (w : W32) (s : State) : Host.Outcome State Fault Refusal := run (softWrite 8 TWN_CTRL w) s
/-- RELEASE_OWNERSHIP (R387). -/
def execReleaseOwnership (w : W32) (s : State) : Host.Outcome State Fault Refusal := run (softWrite 8 TWN_CTRL w) s
/-- OWNERSHIP_SAMPLE (R386). -/
def execOwnershipSample (high : Bool) (s : State) : Host.Outcome State Fault Refusal := run (doOwnershipSample high) s
/-- CONSERVE (R391). -/
def execConserve (iss : Fin 256) (e : BitVec 512) (s : State) : Host.Outcome State Fault Refusal := run (acceptCode 0x0501 iss e) s
/-- CONSERVE_PASS_END (R392). -/
def execConservePassEnd (items : List ConsItem) (s : State) : Host.Outcome State Fault Refusal := run (unlessPaused 1 (doConservePassEnd items)) s
/-- ROTATE (R394). -/
def execRotate (iss : Fin 256) (e : BitVec 512) (s : State) : Host.Outcome State Fault Refusal := run (acceptCode 0x0502 iss e) s
/-- SCHEDULED_ROTATION (R397). -/
def execScheduledRotation (s : State) : Host.Outcome State Fault Refusal := run doScheduledRotation s
/-- RETIRE_CHANNEL (R448). -/
def execRetireChannel (iss : Fin 256) (e : BitVec 512) (s : State) : Host.Outcome State Fault Refusal := run (acceptCode 0x0401 iss e) s
/-- READMIT_CHANNEL (R450). -/
def execReadmitChannel (iss : Fin 256) (e : BitVec 512) (s : State) : Host.Outcome State Fault Refusal := run (acceptCode 0x0402 iss e) s
/-- MIGRATION_DONE (R449). -/
def execMigrationDone (trained : Bool) (s : State) : Host.Outcome State Fault Refusal := run (doMigrationDone trained) s

end Sys2Proof.Machine
end

