-- ==== Sys2Proof/Machine/Dispatch.lean ====
section
/-! DEFINITION. Which meaning each command has. -/

namespace Sys2Proof.Machine

/-- The effect of one command on everything but the queue (log 15, DESIGN CHOICE). -/
def exec (i : Instr) (s : State) : Host.Outcome State Fault Refusal :=
  match i with
  | .tickEvent x skip => Sys2Proof.Machine.execTickEvent x skip s
  | .tickBufferLate kind x entry stage => Sys2Proof.Machine.execTickBufferLate kind x entry stage s
  | .columnJob d ue => Sys2Proof.Machine.execColumnJob d ue s
  | .zcTimeoutFallback d ix => Sys2Proof.Machine.execZcTimeoutFallback d ix s
  | .rampEnd d ix => Sys2Proof.Machine.execRampEnd d ix s
  | .columnJobAbandon d => Sys2Proof.Machine.execColumnJobAbandon d s
  | .stageNode w => Sys2Proof.Machine.execStageNode w s
  | .stagingStallRelease => Sys2Proof.Machine.execStagingStallRelease s
  | .genClaim w => Sys2Proof.Machine.execGenClaim w s
  | .stageRecord w => Sys2Proof.Machine.execStageRecord w s
  | .patchStallRelease => Sys2Proof.Machine.execPatchStallRelease s
  | .commit iss src => Sys2Proof.Machine.execCommit iss src s
  | .commitApply x => Sys2Proof.Machine.execCommitApply x s
  | .patchXfadeEnd e => Sys2Proof.Machine.execPatchXfadeEnd e s
  | .recall iss e => Sys2Proof.Machine.execRecall iss e s
  | .recallLoadStart => Sys2Proof.Machine.execRecallLoadStart s
  | .recallStaged read => Sys2Proof.Machine.execRecallStaged read s
  | .stripStageLate out strip stage => Sys2Proof.Machine.execStripStageLate out strip stage s
  | .coefficientInterpEnd strip key => Sys2Proof.Machine.execCoefficientInterpEnd strip key s
  | .enableXfadeEnd strip key => Sys2Proof.Machine.execEnableXfadeEnd strip key s
  | .gainRampEnd strip key => Sys2Proof.Machine.execGainRampEnd strip key s
  | .switchFadeEnd strip key => Sys2Proof.Machine.execSwitchFadeEnd strip key s
  | .insertLatencyChange strip => Sys2Proof.Machine.execInsertLatencyChange strip s
  | .insertDipEnd strip => Sys2Proof.Machine.execInsertDipEnd strip s
  | .gateHoldExpire strip key => Sys2Proof.Machine.execGateHoldExpire strip key s
  | .delayReadLate strip => Sys2Proof.Machine.execDelayReadLate strip s
  | .delayXfadeEnd strip => Sys2Proof.Machine.execDelayXfadeEnd strip s
  | .meterFrameClose => Sys2Proof.Machine.execMeterFrameClose s
  | .loudnessBlock g => Sys2Proof.Machine.execLoudnessBlock g s
  | .loudnessGroupReset w => Sys2Proof.Machine.execLoudnessGroupReset w s
  | .archiveBlockDrop slot => Sys2Proof.Machine.execArchiveBlockDrop slot s
  | .playbackArm ch w => Sys2Proof.Machine.execPlaybackArm ch w s
  | .playbackStop ch w => Sys2Proof.Machine.execPlaybackStop ch w s
  | .playbackStart ch => Sys2Proof.Machine.execPlaybackStart ch s
  | .playbackEnd ch => Sys2Proof.Machine.execPlaybackEnd ch s
  | .playbackReadLate ch => Sys2Proof.Machine.execPlaybackReadLate ch s
  | .frameOverrun c => Sys2Proof.Machine.execFrameOverrun c s
  | .compareInterrupt c => Sys2Proof.Machine.execCompareInterrupt c s
  | .interruptTake c => Sys2Proof.Machine.execInterruptTake c s
  | .lmAnswer c read => Sys2Proof.Machine.execLmAnswer c read s
  | .lmAnswerLate c => Sys2Proof.Machine.execLmAnswerLate c s
  | .pQueueDrain c => Sys2Proof.Machine.execPQueueDrain c s
  | .atelierWindowAccess m addr size wr => Sys2Proof.Machine.execAtelierWindowAccess m addr size wr s
  | .atelierMemoryFill c => Sys2Proof.Machine.execAtelierMemoryFill c s
  | .xmapWrite l j w => Sys2Proof.Machine.execXmapWrite l j w s
  | .xmapApply l => Sys2Proof.Machine.execXmapApply l s
  | .nop c => Sys2Proof.Machine.execNop c s
  | .fend c => Sys2Proof.Machine.execFend c s
  | .rti c => Sys2Proof.Machine.execRti c s
  | .wait c cyc => Sys2Proof.Machine.execWait c cyc s
  | .waitEnd c => Sys2Proof.Machine.execWaitEnd c s
  | .br c cc t => Sys2Proof.Machine.execBr c cc t s
  | .brl c pk t => Sys2Proof.Machine.execBrl c pk t s
  | .brr c cc pk => Sys2Proof.Machine.execBrr c cc pk s
  | .loop c n e => Sys2Proof.Machine.execLoop c n e s
  | .loopr c ra e => Sys2Proof.Machine.execLoopr c ra e s
  | .loopExit c => Sys2Proof.Machine.execLoopExit c s
  | .illegalInstruction c => Sys2Proof.Machine.execIllegalInstruction c s
  | .mov c rd ra => Sys2Proof.Machine.execMov c rd ra s
  | .add c rd ra rb => Sys2Proof.Machine.execAdd c rd ra rb s
  | .adds c rd ra rb => Sys2Proof.Machine.execAdds c rd ra rb s
  | .sub c rd ra rb => Sys2Proof.Machine.execSub c rd ra rb s
  | .subs c rd ra rb => Sys2Proof.Machine.execSubs c rd ra rb s
  | .neg c rd ra => Sys2Proof.Machine.execNeg c rd ra s
  | .abs c rd ra => Sys2Proof.Machine.execAbs c rd ra s
  | .min c rd ra rb => Sys2Proof.Machine.execMin c rd ra rb s
  | .max c rd ra rb => Sys2Proof.Machine.execMax c rd ra rb s
  | .and c rd ra rb => Sys2Proof.Machine.execAnd c rd ra rb s
  | .or c rd ra rb => Sys2Proof.Machine.execOr c rd ra rb s
  | .xor c rd ra rb => Sys2Proof.Machine.execXor c rd ra rb s
  | .shl c rd ra sh => Sys2Proof.Machine.execShl c rd ra sh s
  | .shls c rd ra sh => Sys2Proof.Machine.execShls c rd ra sh s
  | .shr c rd ra sh => Sys2Proof.Machine.execShr c rd ra sh s
  | .shrl c rd ra sh => Sys2Proof.Machine.execShrl c rd ra sh s
  | .cmp c ra rb => Sys2Proof.Machine.execCmp c ra rb s
  | .movi c rd imm => Sys2Proof.Machine.execMovi c rd imm s
  | .movih c rd imm => Sys2Proof.Machine.execMovih c rd imm s
  | .addi c rd ra imm => Sys2Proof.Machine.execAddi c rd ra imm s
  | .movk c rd ra => Sys2Proof.Machine.execMovk c rd ra s
  | .movdk c rd ra => Sys2Proof.Machine.execMovdk c rd ra s
  | .movr c file rd ra => Sys2Proof.Machine.execMovr c file rd ra s
  | .movd c file rd ra => Sys2Proof.Machine.execMovd c file rd ra s
  | .movsw c rd => Sys2Proof.Machine.execMovsw c rd s
  | .clrsw c bits => Sys2Proof.Machine.execClrsw c bits s
  | .setr c file rd imm => Sys2Proof.Machine.execSetr c file rd imm s
  | .ld c rd sp nm px mx => Sys2Proof.Machine.execLd c rd sp nm px mx s
  | .ldk c rd sp nm px mx => Sys2Proof.Machine.execLdk c rd sp nm px mx s
  | .st c ra sp nm px mx => Sys2Proof.Machine.execSt c ra sp nm px mx s
  | .stk c ra sp nm px mx => Sys2Proof.Machine.execStk c ra sp nm px mx s
  | .xch c rd e nm px mx => Sys2Proof.Machine.execXch c rd e nm px mx s
  | .mac c rd ra rb => Sys2Proof.Machine.execMac c rd ra rb s
  | .msu c rd ra rb => Sys2Proof.Machine.execMsu c rd ra rb s
  | .mpy c rd ra rb => Sys2Proof.Machine.execMpy c rd ra rb s
  | .macg c rd ra rb => Sys2Proof.Machine.execMacg c rd ra rb s
  | .mpyg c rd ra rb => Sys2Proof.Machine.execMpyg c rd ra rb s
  | .macy c rd ra nm py my => Sys2Proof.Machine.execMacy c rd ra nm py my s
  | .msuy c rd ra nm py my => Sys2Proof.Machine.execMsuy c rd ra nm py my s
  | .mpyy c rd ra nm py my => Sys2Proof.Machine.execMpyy c rd ra nm py my s
  | .tap c rd ra nmx px mx nmy py my => Sys2Proof.Machine.execTap c rd ra nmx px mx nmy py my s
  | .tapw c rd ra nmx px mx nmy py my => Sys2Proof.Machine.execTapw c rd ra nmx px mx nmy py my s
  | .tap2 c pair h nmx px mx nmy py my => Sys2Proof.Machine.execTap2 c pair h nmx px mx nmy py my s
  | .clra c rd => Sys2Proof.Machine.execClra c rd s
  | .lda c rd ra => Sys2Proof.Machine.execLda c rd ra s
  | .mova c rd ra => Sys2Proof.Machine.execMova c rd ra s
  | .nega c rd ra => Sys2Proof.Machine.execNega c rd ra s
  | .adda c rd ra rb => Sys2Proof.Machine.execAdda c rd ra rb s
  | .suba c rd ra rb => Sys2Proof.Machine.execSuba c rd ra rb s
  | .sha c rd ra sh => Sys2Proof.Machine.execSha c rd ra sh s
  | .sta c rd ra => Sys2Proof.Machine.execSta c rd ra s
  | .lmr c ra len imm => Sys2Proof.Machine.execLmr c ra len imm s
  | .lmw c ra rb imm => Sys2Proof.Machine.execLmw c ra rb imm s
  | .coreStateCopy => Sys2Proof.Machine.execCoreStateCopy s
  | .rotationNoGap => Sys2Proof.Machine.execRotationNoGap s
  | .shadowBlockCompare x same => Sys2Proof.Machine.execShadowBlockCompare x same s
  | .rotationSwitch => Sys2Proof.Machine.execRotationSwitch s
  | .rotationCopyDone => Sys2Proof.Machine.execRotationCopyDone s
  | .rotationRelease pass => Sys2Proof.Machine.execRotationRelease pass s
  | .domainStart x w => Sys2Proof.Machine.execDomainStart x w s
  | .domainStop x w => Sys2Proof.Machine.execDomainStop x w s
  | .bridgeStart b w => Sys2Proof.Machine.execBridgeStart b w s
  | .bridgeOutputStart b => Sys2Proof.Machine.execBridgeOutputStart b s
  | .bridgeStop b w => Sys2Proof.Machine.execBridgeStop b w s
  | .bridgeStopped b => Sys2Proof.Machine.execBridgeStopped b s
  | .bridgeBlock b => Sys2Proof.Machine.execBridgeBlock b s
  | .bridgeRunning b => Sys2Proof.Machine.execBridgeRunning b s
  | .sideEnable ix w => Sys2Proof.Machine.execSideEnable ix w s
  | .sideDisable ix w => Sys2Proof.Machine.execSideDisable ix w s
  | .portFrameReceived ix f => Sys2Proof.Machine.execPortFrameReceived ix f s
  | .portFrameTransmit ix good at_ => Sys2Proof.Machine.execPortFrameTransmit ix good at_ s
  | .missingFrame ix => Sys2Proof.Machine.execMissingFrame ix s
  | .clockAbsent ix => Sys2Proof.Machine.execClockAbsent ix s
  | .sideLocked ix => Sys2Proof.Machine.execSideLocked ix s
  | .sideFadeEnd ix => Sys2Proof.Machine.execSideFadeEnd ix s
  | .sideMaskWrite ix w => Sys2Proof.Machine.execSideMaskWrite ix w s
  | .maskApply ix => Sys2Proof.Machine.execMaskApply ix s
  | .gpSceneTrigger g => Sys2Proof.Machine.execGpSceneTrigger g s
  | .sentinelOutputClear w => Sys2Proof.Machine.execSentinelOutputClear w s
  | .portGroupEnable g w => Sys2Proof.Machine.execPortGroupEnable g w s
  | .portUp p => Sys2Proof.Machine.execPortUp p s
  | .portDown p => Sys2Proof.Machine.execPortDown p s
  | .netFrameReceived p bytes fcsOk t => Sys2Proof.Machine.execNetFrameReceived p bytes fcsOk t s
  | .rtpPacketReceived f leg rtp => Sys2Proof.Machine.execRtpPacketReceived f leg rtp s
  | .receivingTimeout f => Sys2Proof.Machine.execReceivingTimeout f s
  | .legTimeout f leg => Sys2Proof.Machine.execLegTimeout f leg s
  | .rxFlowStart f w => Sys2Proof.Machine.execRxFlowStart f w s
  | .rxFlowStop f w => Sys2Proof.Machine.execRxFlowStop f w s
  | .txFlowStart f w => Sys2Proof.Machine.execTxFlowStart f w s
  | .txFlowStop f w => Sys2Proof.Machine.execTxFlowStop f w s
  | .txPacketSend f => Sys2Proof.Machine.execTxPacketSend f s
  | .membershipReport p grp v6 => Sys2Proof.Machine.execMembershipReport p grp v6 s
  | .membershipQuery p grp v6 ver => Sys2Proof.Machine.execMembershipQuery p grp v6 ver s
  | .queryResponse p grp v6 => Sys2Proof.Machine.execQueryResponse p grp v6 s
  | .managementMessage p src udp msg => Sys2Proof.Machine.execManagementMessage p src udp msg s
  | .linkEnable l w => Sys2Proof.Machine.execLinkEnable l w s
  | .laneSignalLock l => Sys2Proof.Machine.execLaneSignalLock l s
  | .blockLock l => Sys2Proof.Machine.execBlockLock l s
  | .laneAlign m => Sys2Proof.Machine.execLaneAlign m s
  | .linkLoss l bad => Sys2Proof.Machine.execLinkLoss l bad s
  | .identSend l => Sys2Proof.Machine.execIdentSend l s
  | .identMessage l hdr body fin => Sys2Proof.Machine.execIdentMessage l hdr body fin s
  | .tickFrameReceived l rx => Sys2Proof.Machine.execTickFrameReceived l rx s
  | .messageSend l => Sys2Proof.Machine.execMessageSend l s
  | .firmwareMessage l hdr body fin => Sys2Proof.Machine.execFirmwareMessage l hdr body fin s
  | .provenanceMessage l hdr body fin => Sys2Proof.Machine.execProvenanceMessage l hdr body fin s
  | .ratioMessage l hdr body fin => Sys2Proof.Machine.execRatioMessage l hdr body fin s
  | .twinMessage l hdr body fin => Sys2Proof.Machine.execTwinMessage l hdr body fin s
  | .txmapWrite l j w => Sys2Proof.Machine.execTxmapWrite l j w s
  | .txmapApply l => Sys2Proof.Machine.execTxmapApply l s
  | .psTableWrite l j w => Sys2Proof.Machine.execPsTableWrite l j w s
  | .wakePatternSend l w => Sys2Proof.Machine.execWakePatternSend l w s
  | .wakePatternEnd l => Sys2Proof.Machine.execWakePatternEnd l s
  | .wakePatternDetect l => Sys2Proof.Machine.execWakePatternDetect l s
  | .servoUpdate w => Sys2Proof.Machine.execServoUpdate w s
  | .masterChange w => Sys2Proof.Machine.execMasterChange w s
  | .fedTimerExpire => Sys2Proof.Machine.execFedTimerExpire s
  | .timeStep iss e => Sys2Proof.Machine.execTimeStep iss e s
  | .stepApply => Sys2Proof.Machine.execStepApply s
  | .refQualify ix freq => Sys2Proof.Machine.execRefQualify ix freq s
  | .refMissingPeriod p => Sys2Proof.Machine.execRefMissingPeriod p s
  | .refDisqualify ix freq => Sys2Proof.Machine.execRefDisqualify ix freq s
  | .holdOffExpire => Sys2Proof.Machine.execHoldOffExpire s
  | .wtrExpire ix => Sys2Proof.Machine.execWtrExpire ix s
  | .rankConflictRetry => Sys2Proof.Machine.execRankConflictRetry s
  | .priorityWrite j w => Sys2Proof.Machine.execPriorityWrite j w s
  | .dpllLock aux freq phase => Sys2Proof.Machine.execDpllLock aux freq phase s
  | .bandwidthHalve aux => Sys2Proof.Machine.execBandwidthHalve aux s
  | .holdoverSample aux m => Sys2Proof.Machine.execHoldoverSample aux m s
  | .holdoverExpire aux => Sys2Proof.Machine.execHoldoverExpire aux s
  | .sysrefLoss => Sys2Proof.Machine.execSysrefLoss s
  | .sysrefReturn => Sys2Proof.Machine.execSysrefReturn s
  | .ppsOutPulse => Sys2Proof.Machine.execPpsOutPulse s
  | .ppsInEdge t => Sys2Proof.Machine.execPpsInEdge t s
  | .provenanceBlock x => Sys2Proof.Machine.execProvenanceBlock x s
  | .provenanceMissing x d j => Sys2Proof.Machine.execProvenanceMissing x d j s
  | .twinMessageSend => Sys2Proof.Machine.execTwinMessageSend s
  | .peerLost => Sys2Proof.Machine.execPeerLost s
  | .withdraw => Sys2Proof.Machine.execWithdraw s
  | .hostWithdraw w => Sys2Proof.Machine.execHostWithdraw w s
  | .rejoin w => Sys2Proof.Machine.execRejoin w s
  | .releaseOwnership w => Sys2Proof.Machine.execReleaseOwnership w s
  | .ownershipSample high => Sys2Proof.Machine.execOwnershipSample high s
  | .conserve iss e => Sys2Proof.Machine.execConserve iss e s
  | .conservePassEnd items => Sys2Proof.Machine.execConservePassEnd items s
  | .rotate iss e => Sys2Proof.Machine.execRotate iss e s
  | .scheduledRotation => Sys2Proof.Machine.execScheduledRotation s
  | .retireChannel iss e => Sys2Proof.Machine.execRetireChannel iss e s
  | .readmitChannel iss e => Sys2Proof.Machine.execReadmitChannel iss e s
  | .migrationDone trained => Sys2Proof.Machine.execMigrationDone trained s
  | .atriumRead m addr size found => Sys2Proof.Machine.execAtriumRead m addr size found s
  | .atriumWrite m addr bytes found => Sys2Proof.Machine.execAtriumWrite m addr bytes found s
  | .setAliasWrite m addr data strb found => Sys2Proof.Machine.execSetAliasWrite m addr data strb found s
  | .clrAliasWrite m addr data strb found => Sys2Proof.Machine.execClrAliasWrite m addr data strb found s
  | .storeroomAmo c op dbl addr data found => Sys2Proof.Machine.execStoreroomAmo c op dbl addr data found s
  | .mergeEntryComplete port found => Sys2Proof.Machine.execMergeEntryComplete port found s
  | .correctedWriteback => Sys2Proof.Machine.execCorrectedWriteback s
  | .bucketLeak r => Sys2Proof.Machine.execBucketLeak r s
  | .bucketConfigWrite r w => Sys2Proof.Machine.execBucketConfigWrite r w s
  | .patrol f => Sys2Proof.Machine.execPatrol f s
  | .scrub iss e => Sys2Proof.Machine.execScrub iss e s
  | .scrubDone found => Sys2Proof.Machine.execScrubDone found s
  | .bankFillDone b => Sys2Proof.Machine.execBankFillDone b s
  | .repair iss e => Sys2Proof.Machine.execRepair iss e s
  | .dramInit w => Sys2Proof.Machine.execDramInit w s
  | .trainingDone ok => Sys2Proof.Machine.execTrainingDone ok s
  | .dramCommandIssue sub skip => Sys2Proof.Machine.execDramCommandIssue sub skip s
  | .refreshDue sub => Sys2Proof.Machine.execRefreshDue sub s
  | .temperaturePoll ch hot => Sys2Proof.Machine.execTemperaturePoll ch hot s
  | .periodicRetrain sub => Sys2Proof.Machine.execPeriodicRetrain sub s
  | .writeDrainStart sub aged => Sys2Proof.Machine.execWriteDrainStart sub aged s
  | .writeDrainEnd sub => Sys2Proof.Machine.execWriteDrainEnd sub s
  | .backgroundPromote sub => Sys2Proof.Machine.execBackgroundPromote sub s
  | .commandParityAlert ch sameWindow => Sys2Proof.Machine.execCommandParityAlert ch sameWindow s
  | .throttleEnd m => Sys2Proof.Machine.execThrottleEnd m s
  | .rowWindowEnd sub => Sys2Proof.Machine.execRowWindowEnd sub s
  | .registerWrite m off size data => Sys2Proof.Machine.execRegisterWrite m off size data s
  | .islandTimeout m off wr => Sys2Proof.Machine.execIslandTimeout m off wr s
  | .errorCaptureRearm w => Sys2Proof.Machine.execErrorCaptureRearm w s
  | .msixRearm w => Sys2Proof.Machine.execMsixRearm w s
  | .softwareReset w => Sys2Proof.Machine.execSoftwareReset w s
  | .dieIdentifier mb arg => Sys2Proof.Machine.execDieIdentifier mb arg s
  | .sampleIndex mb arg => Sys2Proof.Machine.execSampleIndex mb arg s
  | .freizTime mb arg => Sys2Proof.Machine.execFreizTime mb arg s
  | .stepOffsets mb arg => Sys2Proof.Machine.execStepOffsets mb arg s
  | .ppsInTimestamp mb arg => Sys2Proof.Machine.execPpsInTimestamp mb arg s
  | .ptpTransmitTimestamp mb arg => Sys2Proof.Machine.execPtpTransmitTimestamp mb arg s
  | .nodeWord mb arg => Sys2Proof.Machine.execNodeWord mb arg s
  | .outputPatchEntry mb arg => Sys2Proof.Machine.execOutputPatchEntry mb arg s
  | .stripValue mb arg => Sys2Proof.Machine.execStripValue mb arg s
  | .atelierRegister mb arg => Sys2Proof.Machine.execAtelierRegister mb arg s
  | .bridgeCoefficient mb arg => Sys2Proof.Machine.execBridgeCoefficient mb arg s
  | .networkCounter mb arg => Sys2Proof.Machine.execNetworkCounter mb arg s
  | .correctionAddress mb arg => Sys2Proof.Machine.execCorrectionAddress mb arg s
  | .errorCaptureAddress mb arg => Sys2Proof.Machine.execErrorCaptureAddress mb arg s
  | .ledgerEntry mb arg bad => Sys2Proof.Machine.execLedgerEntry mb arg bad s
  | .ledgerSequenceNumber mb arg => Sys2Proof.Machine.execLedgerSequenceNumber mb arg s
  | .unknownTarget mb target arg => Sys2Proof.Machine.execUnknownTarget mb target arg s
  | .commandRingTail w => Sys2Proof.Machine.execCommandRingTail w s
  | .firmwareCommandIssue c w => Sys2Proof.Machine.execFirmwareCommandIssue c w s
  | .ticketStallRelease => Sys2Proof.Machine.execTicketStallRelease s
  | .unknownCommand iss e => Sys2Proof.Machine.execUnknownCommand iss e s
  | .completionRecordWrite => Sys2Proof.Machine.execCompletionRecordWrite s
  | .completionRingRoom fw w => Sys2Proof.Machine.execCompletionRingRoom fw w s
  | .setState iss e => Sys2Proof.Machine.execSetState iss e s
  | .freeze iss e => Sys2Proof.Machine.execFreeze iss e s
  | .freezeComplete => Sys2Proof.Machine.execFreezeComplete s
  | .unfreeze iss e => Sys2Proof.Machine.execUnfreeze iss e s
  | .freezeTimeout => Sys2Proof.Machine.execFreezeTimeout s
  | .loadCatalogue iss e => Sys2Proof.Machine.execLoadCatalogue iss e s
  | .loadCatalogueDone ok => Sys2Proof.Machine.execLoadCatalogueDone ok s
  | .copy iss e => Sys2Proof.Machine.execCopy iss e s
  | .copyStart eng => Sys2Proof.Machine.execCopyStart eng s
  | .copyDone eng found => Sys2Proof.Machine.execCopyDone eng found s
  | .abort iss e => Sys2Proof.Machine.execAbort iss e s
  | .backgroundDisable w => Sys2Proof.Machine.execBackgroundDisable w s
  | .coreRun w => Sys2Proof.Machine.execCoreRun w s
  | .machineTimerInterrupt c => Sys2Proof.Machine.execMachineTimerInterrupt c s
  | .docentConfig t w => Sys2Proof.Machine.execDocentConfig t w s
  | .docentSignal w => Sys2Proof.Machine.execDocentSignal w s
  | .docentTickSource x => Sys2Proof.Machine.execDocentTickSource x s
  | .docentIrqSource src => Sys2Proof.Machine.execDocentIrqSource src s
  | .docentCompletion => Sys2Proof.Machine.execDocentCompletion s
  | .docentTake c w => Sys2Proof.Machine.execDocentTake c w s
  | .docentDone w => Sys2Proof.Machine.execDocentDone w s
  | .pcieReset => Sys2Proof.Machine.execPcieReset s
  | .powerOnReset => Sys2Proof.Machine.execPowerOnReset s
  | .resetPin level => Sys2Proof.Machine.execResetPin level s
  | .optionalSupplyLoss v => Sys2Proof.Machine.execOptionalSupplyLoss v s
  | .selecting romOk unread => Sys2Proof.Machine.execSelecting romOk unread s
  | .phase1 => Sys2Proof.Machine.execPhase1 s
  | .catalogueContinue w => Sys2Proof.Machine.execCatalogueContinue w s
  | .phase2Done => Sys2Proof.Machine.execPhase2Done s
  | .openOutputs w => Sys2Proof.Machine.execOpenOutputs w s
  | .outputsOpened => Sys2Proof.Machine.execOutputsOpened s
  | .firmwareKeyWrite k w => Sys2Proof.Machine.execFirmwareKeyWrite k w s
  | .quiesceTimeout unit => Sys2Proof.Machine.execQuiesceTimeout unit s
  | .dropCommit => Sys2Proof.Machine.execDropCommit s
  | .dropRefuse => Sys2Proof.Machine.execDropRefuse s
  | .dropRetry => Sys2Proof.Machine.execDropRetry s
  | .raise => Sys2Proof.Machine.execRaise s
  | .look peaks lanes links => Sys2Proof.Machine.execLook peaks lanes links s
  | .linkSignalDetect lane => Sys2Proof.Machine.execLinkSignalDetect lane s
  | .wakePin pin => Sys2Proof.Machine.execWakePin pin s
  | .wake => Sys2Proof.Machine.execWake s
  | .sentinelPeakUpdate n => Sys2Proof.Machine.execSentinelPeakUpdate n s
  | .ledgerOccurrence code src det => Sys2Proof.Machine.execLedgerOccurrence code src det s
  | .ledgerEntryWrite bad => Sys2Proof.Machine.execLedgerEntryWrite bad s
  | .ledgerTokenAdd code => Sys2Proof.Machine.execLedgerTokenAdd code s
  | .ledgerEnable w => Sys2Proof.Machine.execLedgerEnable w s
  | .codeConfigWrite code w => Sys2Proof.Machine.execCodeConfigWrite code w s
  | .softwareEvent w => Sys2Proof.Machine.execSoftwareEvent w s
  | .bypass tdi => Sys2Proof.Machine.execBypass tdi s
  | .idcode => Sys2Proof.Machine.execIdcode s
  | .samplePreload cells preload => Sys2Proof.Machine.execSamplePreload cells preload s
  | .extest => Sys2Proof.Machine.execExtest s
  | .clamp => Sys2Proof.Machine.execClamp s
  | .highz => Sys2Proof.Machine.execHighz s
  | .fuseKey bits => Sys2Proof.Machine.execFuseKey bits s
  | .fuseRead => Sys2Proof.Machine.execFuseRead s
  | .pciePerstRise => Sys2Proof.Machine.execPciePerstRise s
  | .optionalSupplyReturn v => Sys2Proof.Machine.execOptionalSupplyReturn v s
  | .stateChangeReportRepeat p grp v6 => Sys2Proof.Machine.execStateChangeReportRepeat p grp v6 s
  | .ppsOutPulseEnd => Sys2Proof.Machine.execPpsOutPulseEnd s
  | .repairDone ok => Sys2Proof.Machine.execRepairDone ok s
  | .raiseComplete => Sys2Proof.Machine.execRaiseComplete s
  | .gpInputChange g v => Sys2Proof.Machine.execGpInputChange g v s

end Sys2Proof.Machine
end

