-- ==== Sys2Proof/Safety.lean ====
section
/-! DEFINITION. What a good state and a good step are, in the terms the statements use. -/

namespace Sys2Proof.Machine

/-- The byte memories are in their one canonical form: addresses rise and no listed byte is the default. -/
def State.memOk (s : State) : Prop := memWf s.mem = true

/-- The registers are listed in the order of their keys, each once. -/
def regsOk (s : State) : Prop := s.regs.Pairwise (fun a b => a.1 < b.1)

/-- The command completes, and the state after it meets `P`. -/
def Completes (i : Instr) (s : State) (P : State → Prop) : Prop := ∃ t, exec i s = .next t ∧ P t

/-- The engine is awake and no transition of an earlier tick is due: a command meets the state as it stands. -/
abbrev Ready (s : State) : Prop := awake s = true ∧ s.due = []

/-- No command that reaches the engine takes away a key-hash fuse (17 R509). -/
def FusesKept (s t : State) : Prop := s.perm.fuses &&& t.perm.fuses = s.perm.fuses

/-- The registers that the interrupt controller and the engine's own power keys write after any command: the MSI-X pending
bits, and the domain registers that hold the keys of CTL and DRAM. -/
def settleKey (k : Nat) : Prop := k = CTL_MSIX_PBA 0 ∨ k = PWR_DOM_STATUS 1 ∨ k = PWR_DOM_STATUS 14

/-- A command entry of this code reaches the engine and is accepted at once: a ticket is free, no command waits, the engine is
not in CONFIG_HALT, and every byte beside those that the command lists is zero (16 R486 to R490, 17 R520). -/
structure Accepts (s : State) (code : Nat) (e : BitVec 512) (used : List (Nat × Nat)) : Prop where
  ready : Ready s
  code : eByte e 0 2 = code
  room : s.ctl.outst.length < 1024
  noWait : s.ctl.waitq = []
  config : catState s ≠ 6
  zero : eReserved e used = none

/-- The sum of the products of a column whose nodes are steady, from S-slot `lo` on (03 R69; 01 R23: a source of another
domain counts as zero). -/
def columnSum (s : State) (x : Dom) (p d lo : Nat) : Int :=
  (List.range 4096).foldl (fun a i => a + (if lo ≤ i ∧ domS s i = some x then
    prodG (smGet 0 s.gal.srcX i) (ndLive (node s (nodeKey p d i))) else 0)) 0

/-! ## Atelier cores -/

/-- Core `c` stands before the word `w` of its program: it can issue, and nothing is in flight, pending or due. -/
structure AtWord (c : Nat) (w : BitVec 64) (s : State) : Prop where
  ready : Ready s
  issues : coreIssues s c = true
  noWait : (coreOf s c).wait = none
  noDelay : (coreOf s c).delay = none
  noPop : (coreOf s c).loopDue = false
  noLand : (coreOf s c).landPend = false
  noCmp : (coreOf s c).cmpPend = false
  noDue : cmpDue (coreOf s c) = false
  noLoop : (bankOf (coreOf s c)).loops = []
  noFlight : (bankOf (coreOf s c)).wb = []
  word : smGet 0 (coreOf s c).pm (coreOf s c).pc = w
  good : isBad (coreOf s c) 0 (coreOf s c).pc = false

/-- The core once the results that its issuing bank has in flight are visible (06 R193). -/
def seen (k : Core) : Core := (wbFlush k.inHandler k).1

/-- The core one instruction later, its registers apart from those of `b`, which replaces the bank that issues. -/
def stepped (k : Core) (b : Bank) : Core :=
  { setBank k { b with issued := b.issued + 1, tapLoad := [] } with cyc := k.cyc + 1, pc := (k.pc + 1) % 16384 }

/-- SW with N and Z of a result (06 R192; N bit 0, Z bit 1), and with sticky bits set (V bit 2, X bit 3, S bit 4). -/
def swNZ (sw : BitVec 5) (n z : Bool) (sticky : BitVec 5) : BitVec 5 :=
  ((sw &&& 0b11100#5) ||| BitVec.ofNat 5 (b2n n + 2 * b2n z)) ||| sticky

/-- The core after an ALU instruction whose result is `r` (07 R226): Dd, N, Z and the sticky bits named. -/
def aluDone (k : Core) (rd : Nat) (r : S64) (sticky : BitVec 5) : Core :=
  stepped k { bankOf k with d := smSet 0 (bankOf k).d rd r, sw := swNZ (bankOf k).sw r.msb (decide (r = 0)) sticky }

/-- V when the wrapped result differs from the exact one, S when the saturated one does (07 R226). -/
def ifV (p : Bool) : BitVec 5 := if p then 0b00100#5 else 0
def ifX (p : Bool) : BitVec 5 := if p then 0b01000#5 else 0
def ifS (p : Bool) : BitVec 5 := if p then 0b10000#5 else 0
/-- The nearest 64-bit number (02 R38). -/
def sat64 (v : Int) : S64 := BitVec.ofInt 64 (max (-(2 ^ 63)) (min (2 ^ 63 - 1) v))

/-- Nothing changes but core `c` and what stands for it in the registers. -/
structure OnlyCore (c : Nat) (s t : State) : Prop where
  others : ∀ c', c' ≠ c → coreOf t c' = coreOf s c'
  mem : t.mem = s.mem
  gal : t.gal = s.gal
  scn : t.scn = s.scn
  str : t.str = s.str
  atlOut : t.atlOut = s.atlOut
  xmap : t.xmap = s.xmap
  prt : t.prt = s.prt
  dax : t.dax = s.dax
  line : t.line = s.line
  tim : t.tim = s.tim
  twn : t.twn = s.twn
  ecc : t.ecc = s.ecc
  drc : t.drc = s.drc
  cat : t.cat = s.cat
  ldg : t.ldg = s.ldg
  pin : t.pin = s.pin
  perm : t.perm = s.perm
  regs : ∀ k, ¬settleKey k → k ≠ ATL_CORE_STATUS c → k ≠ ATL_CORE_PQ c → rd t k = rd s k

end Sys2Proof.Machine
end

