-- ==== Sys2Proof/Certificates/Slice0/Obligations.lean ====
section
/-! DEFINITION. The statements for the provers, family by family: what each command does to the state, what it leaves alone,
what every step keeps, and what reset leaves. -/

open Sys2Proof Sys2Proof.Machine

/-- 07 R226: MOV, ADD, ADDS, SUB, SUBS, NEG and ABS write Dd, N and Z; a wrapping form whose exact result differs from the
stored one sets V, a saturating form S; every other register of the core, every other core and the rest of the engine are
unchanged.
07 R226, R227: MIN, MAX, AND, OR and XOR write Dd, N and Z and no sticky bit; CMP sets N for Da < Db and Z for equality
and writes no register; nothing else changes.
The model's own choices in it: logs 77, 79. -/
def Obligations.AluArithmeticCompareBitwise : Prop :=
  (∀ (s : State) (c : Fin 68) (rd ra rb : Fin 16),
    let k := coreOf s c
    let a := (coreD k ra).toInt
    let b := (coreD k rb).toInt
    let wraps := fun (v : Int) (t : State) =>
      seen (coreOf t c) = aluDone k rd (BitVec.ofInt 64 v) (ifV (decide ((BitVec.ofInt 64 v).toInt ≠ v))) ∧ OnlyCore c s t
    let saturates := fun (v : Int) (t : State) =>
      seen (coreOf t c) = aluDone k rd (sat64 v) (ifS (decide ((sat64 v).toInt ≠ v))) ∧ OnlyCore c s t
    (AtWord c (encA 0x10 rd ra 0 0 0) s → Completes (.mov c rd ra) s
      (fun t => seen (coreOf t c) = aluDone k rd (coreD k ra) 0 ∧ OnlyCore c s t)) ∧
    (AtWord c (encA 0x11 rd ra rb 0 0) s → Completes (.add c rd ra rb) s (wraps (a + b))) ∧
    (AtWord c (encA 0x12 rd ra rb 0 0) s → Completes (.adds c rd ra rb) s (saturates (a + b))) ∧
    (AtWord c (encA 0x13 rd ra rb 0 0) s → Completes (.sub c rd ra rb) s (wraps (a - b))) ∧
    (AtWord c (encA 0x14 rd ra rb 0 0) s → Completes (.subs c rd ra rb) s (saturates (a - b))) ∧
    (AtWord c (encA 0x15 rd ra 0 0 0) s → Completes (.neg c rd ra) s (wraps (-a))) ∧
    (AtWord c (encA 0x16 rd ra 0 0 0) s → Completes (.abs c rd ra) s (saturates (a.natAbs : Int)))) ∧
  (∀ (s : State) (c : Fin 68) (rd ra rb : Fin 16),
    let k := coreOf s c
    let a := coreD k ra
    let b := coreD k rb
    let gives := fun (r : S64) (t : State) => seen (coreOf t c) = aluDone k rd r 0 ∧ OnlyCore c s t
    (AtWord c (encA 0x17 rd ra rb 0 0) s → Completes (.min c rd ra rb) s (gives (if a.toInt ≤ b.toInt then a else b))) ∧
    (AtWord c (encA 0x18 rd ra rb 0 0) s → Completes (.max c rd ra rb) s (gives (if a.toInt ≤ b.toInt then b else a))) ∧
    (AtWord c (encA 0x19 rd ra rb 0 0) s → Completes (.and c rd ra rb) s (gives (a &&& b))) ∧
    (AtWord c (encA 0x1A rd ra rb 0 0) s → Completes (.or c rd ra rb) s (gives (a ||| b))) ∧
    (AtWord c (encA 0x1B rd ra rb 0 0) s → Completes (.xor c rd ra rb) s (gives (a ^^^ b))) ∧
    (AtWord c (encA 0x20 0 ra rb 0 0) s → Completes (.cmp c ra rb) s (fun t =>
      seen (coreOf t c) = stepped k { bankOf k with sw := swNZ (bankOf k).sw (decide (a.toInt < b.toInt)) (decide (a = b)) 0 } ∧
      OnlyCore c s t)))

/-- 07 R226: SHL, SHLS, SHR and SHRL shift Da by 0 to 63 places; MOVI, MOVIH and ADDI take a 32-bit immediate. Each writes
Dd, N and Z, the wrapping forms V and the saturating form S where the stored result is not the exact one.
The model's own choices in it: logs 77, 79. -/
def Obligations.AluShiftImmediate : Prop :=
  ∀ (s : State) (c : Fin 68) (rd ra : Fin 16) (sh : Fin 64) (imm : BitVec 32),
    let k := coreOf s c
    let a := coreD k ra
    let v := a.toInt * 2 ^ sh.val
    let gives := fun (r : S64) (st : BitVec 5) (t : State) => seen (coreOf t c) = aluDone k rd r st ∧ OnlyCore c s t
    (AtWord c (encA 0x1C rd ra 0 0 sh) s → Completes (.shl c rd ra sh) s (gives (a <<< sh.val) (ifV (decide ((a <<< sh.val).toInt ≠ v))))) ∧
    (AtWord c (encA 0x1D rd ra 0 0 sh) s → Completes (.shls c rd ra sh) s (gives (sat64 v) (ifS (decide ((sat64 v).toInt ≠ v))))) ∧
    (AtWord c (encA 0x1E rd ra 0 0 sh) s → Completes (.shr c rd ra sh) s (gives (a.sshiftRight sh.val) 0)) ∧
    (AtWord c (encA 0x1F rd ra 0 0 sh) s → Completes (.shrl c rd ra sh) s (gives (a >>> sh.val) 0)) ∧
    (AtWord c (encI 0x28 rd 0 0 imm.toNat) s → Completes (.movi c rd imm) s (gives (imm.signExtend 64) 0)) ∧
    (AtWord c (encI 0x29 rd 0 0 imm.toNat) s → Completes (.movih c rd imm) s (gives (imm ++ (coreD k rd).setWidth 32 : BitVec 64) 0)) ∧
    (AtWord c (encI 0x2A rd ra 0 imm.toNat) s → Completes (.addi c rd ra imm) s
      (gives (a + imm.signExtend 64) (ifV (decide ((a + imm.signExtend 64).toInt ≠ a.toInt + imm.toInt)))))

/-- 07 R228: MOVK takes D bits [39:0], MOVDK sign-extends K; MOVR and SETR write 16 bits of the file named (0 P, 1 M, 2 B, 3
L); MOVD zero-extends P, B and L and sign-extends M; MOVSW gives SW; CLRSW clears the sticky bits it names. No move sets a
flag, and nothing else changes.
The model's own choices in it: logs 77, 79. -/
def Obligations.Moves : Prop :=
  ∀ (s : State) (c : Fin 68) (rd ra : Fin 16) (r8 : Fin 8) (file : Fin 4) (imm : BitVec 16),
    let k := coreOf s c
    let b := bankOf k
    let fileSet := fun (v : BitVec 16) => match file.val with
      | 0 => stepped k { b with p := smSet 0 b.p r8 v }
      | 1 => stepped k { b with m := smSet 0 b.m r8 v }
      | 2 => { stepped k b with b := smSet 0 k.b r8 v }
      | _ => { stepped k b with l := smSet 0 k.l r8 v }
    let fileGet : S64 := match file.val with
      | 0 => (smGet 0 b.p r8).setWidth 64
      | 1 => (smGet 0 b.m r8).signExtend 64
      | 2 => (smGet 0 k.b r8).setWidth 64
      | _ => (smGet 0 k.l r8).setWidth 64
    let gives := fun (x : Core) (t : State) => seen (coreOf t c) = x ∧ OnlyCore c s t
    (AtWord c (encA 0x30 r8 ra 0 0 0) s → Completes (.movk c r8 ra) s
      (gives (stepped k { b with k := smSet 0 b.k r8 ((coreD k ra).setWidth 40) }))) ∧
    (AtWord c (encA 0x31 rd r8 0 0 0) s → Completes (.movdk c rd r8) s
      (gives (stepped k { b with d := smSet 0 b.d rd ((coreK k r8).signExtend 64) }))) ∧
    (AtWord c (encA 0x32 r8 ra 0 file 0) s → Completes (.movr c file r8 ra) s (gives (fileSet ((coreD k ra).setWidth 16)))) ∧
    (AtWord c (encA 0x33 rd r8 0 file 0) s → Completes (.movd c file rd r8) s (gives (stepped k { b with d := smSet 0 b.d rd fileGet }))) ∧
    (AtWord c (encA 0x34 rd 0 0 0 0) s → Completes (.movsw c rd) s (gives (stepped k { b with d := smSet 0 b.d rd (b.sw.setWidth 64) }))) ∧
    (AtWord c (encA 0x35 0 0 0 0 (4 * r8)) s → Completes (.clrsw c r8) s
      (gives (stepped k { b with sw := b.sw &&& ~~~(BitVec.ofNat 5 (4 * r8.val)) }))) ∧
    (AtWord c (encI 0x36 r8 0 file imm.toNat) s → Completes (.setr c file r8 imm) s (gives (fileSet imm)))

/-- 07 R229, R230, 06 R195: LD, LDK, ST, STK and XCH read or write the word of X, Y or E that Px names and, unless nm is
set, step Px by Mx within its circular buffer; XCH gives Dd the word that memory held before. A word without an error is
read. Nothing else of the engine changes.
The model's own choices in it: logs 77, 79. -/
def Obligations.LoadsStores : Prop :=
  ∀ (s : State) (c : Fin 68) (rd : Fin 16) (r8 : Fin 8) (sp : Fin 3) (e nm : Bool) (px mx : Fin 8),
    let k := coreOf s c
    let a := coreP k px
    let step := fun (b : Bank) => { b with p := if nm then b.p else smSet 0 b.p px (BitVec.ofNat 16 (pmVal k px mx a)) }
    let b := step (bankOf k)
    let w := (memRd k sp a).1
    let es := if e then 2 else 0
    let gives := fun (x : Core) (t : State) => seen (coreOf t c) = x ∧ OnlyCore c s t
    (AtWord c (encM 0x40 rd 0 sp nm px mx false 0 0) s → (memRd k sp a).2 = [] → Completes (.ld c rd sp nm px mx) s
      (gives (stepped k { b with d := smSet 0 b.d rd (if sp.val = 1 then c40Container w else w) }))) ∧
    (AtWord c (encM 0x41 r8 0 sp nm px mx false 0 0) s → (memRd k sp a).2 = [] → Completes (.ldk c r8 sp nm px mx) s
      (gives (stepped k { b with k := smSet 0 b.k r8 (w.setWidth 40) }))) ∧
    (AtWord c (encM 0x42 0 rd sp nm px mx false 0 0) s → Completes (.st c rd sp nm px mx) s
      (gives (stepped (memWr k sp a (coreD k rd)) b))) ∧
    (AtWord c (encM 0x43 0 r8 sp nm px mx false 0 0) s → Completes (.stk c r8 sp nm px mx) s
      (gives (stepped (memWr k sp a ((coreK k r8).signExtend 64)) b))) ∧
    (AtWord c (encM 0x44 rd 0 es nm px mx false 0 0) s → (memRd k es a).2 = [] → Completes (.xch c rd e nm px mx) s
      (gives (stepped (memWr k es a (coreD k rd)) { b with d := smSet 0 b.d rd (memRd k es a).1 })))

/-- 07 R231: MAC and MSU add or subtract the exact product of Da and Kb, MACG adds the product of Da and the gain in Db; MPY
and MPYG load the product. An update that takes E8 out of its range sets X (02 R48). Nothing else changes.
The model's own choices in it: logs 77, 79. -/
def Obligations.MultiplyAccumulate : Prop :=
  ∀ (s : State) (c : Fin 68) (rd : Fin 4) (ra rb : Fin 16) (kb : Fin 8),
    let k := coreOf s c
    let b := bankOf k
    let p := prodC (coreD k ra) (coreK k kb).toInt
    let g := prodG (coreD k ra) (g24Val (coreD k rb))
    let adds := fun (v : Int) (t : State) =>
      seen (coreOf t c) = stepped k { b with a := smSet accZero b.a rd (accAdd (coreA k rd) v).1, sw := b.sw ||| ifX (accAdd (coreA k rd) v).2 } ∧
      OnlyCore c s t
    let loads := fun (v : Int) (t : State) =>
      seen (coreOf t c) = stepped k { b with a := smSet accZero b.a rd (accLoad v) } ∧ OnlyCore c s t
    (AtWord c (encA 0x50 rd ra kb 0 0) s → Completes (.mac c rd ra kb) s (adds p)) ∧
    (AtWord c (encA 0x51 rd ra kb 0 0) s → Completes (.msu c rd ra kb) s (adds (-p))) ∧
    (AtWord c (encA 0x52 rd ra kb 0 0) s → Completes (.mpy c rd ra kb) s (loads p)) ∧
    (AtWord c (encA 0x53 rd ra rb 0 0) s → Completes (.macg c rd ra rb) s (adds g)) ∧
    (AtWord c (encA 0x54 rd ra rb 0 0) s → Completes (.mpyg c rd ra rb) s (loads g))

/-- 07 R231 to R233: MACY, MSUY and MPYY take their coefficient from Y[Py]; TAP multiplies the held value of Da by it and
loads X[Px] into Da, TAPW also stores the held value there, TAP2 does both for the pair of words and registers. Py and Px
are stepped by My and Mx unless their nm bit is set. Words without an error are read.
The model's own choices in it: logs 77, 79. -/
def Obligations.TapsAndYProducts : Prop :=
  ∀ (s : State) (c : Fin 68) (rd : Fin 4) (ra : Fin 16) (pair : Bool) (h : Fin 8) (nmx nmy : Bool) (px mx py my : Fin 8),
    let k := coreOf s c
    let b := bankOf k
    let y := c40Val (memRd k 1 (coreP k py)).1
    let x := memRd k 0 (coreP k px)
    let x0 := memRd k 0 (coreP k px / 2 * 2)
    let x1 := memRd k 0 (coreP k px / 2 * 2 + 1)
    let stepY := if nmy then b.p else smSet 0 b.p py (BitVec.ofNat 16 (pmVal k py my (coreP k py)))
    let stepXY := if px = py then
        (if nmx && nmy then b.p else
          let p1 := if nmx then coreP k px else pmVal k px mx (coreP k px)
          smSet 0 b.p px (BitVec.ofNat 16 (if nmy then p1 else pmVal k py my p1)))
      else
        let l := if nmx then b.p else smSet 0 b.p px (BitVec.ofNat 16 (pmVal k px mx (coreP k px)))
        if nmy then l else smSet 0 l py (BitVec.ofNat 16 (pmVal k py my (coreP k py)))
    let acc := fun (r : Nat) (v : Int) (q : Bank) =>
      let o := accAdd (smGet accZero q.a r) v
      { q with a := smSet accZero q.a r o.1, sw := q.sw ||| ifX o.2 }
    let tapped := fun (l : SMap S64) (z : Core) => setBank z { bankOf z with tapLoad := l }
    let gives := fun (z : Core) (t : State) => seen (coreOf t c) = z ∧ OnlyCore c s t
    let pr := if pair then 2 else 0
    (memRd k 1 (coreP k py)).2 = [] →
    (AtWord c (encM 0x55 rd ra 0 false 0 0 nmy py my) s → Completes (.macy c rd ra nmy py my) s
      (gives (stepped k (acc rd (prodC (coreD k ra) y) { b with p := stepY })))) ∧
    (AtWord c (encM 0x56 rd ra 0 false 0 0 nmy py my) s → Completes (.msuy c rd ra nmy py my) s
      (gives (stepped k (acc rd (-(prodC (coreD k ra) y)) { b with p := stepY })))) ∧
    (AtWord c (encM 0x57 rd ra 0 false 0 0 nmy py my) s → Completes (.mpyy c rd ra nmy py my) s
      (gives (stepped k { b with p := stepY, a := smSet accZero b.a rd (accLoad (prodC (coreD k ra) y)) }))) ∧
    (AtWord c (encM 0x58 rd ra 0 nmx px mx nmy py my) s → x.2 = [] → Completes (.tap c rd ra nmx px mx nmy py my) s
      (gives (tapped [(ra.val, x.1)] (stepped k (acc rd (prodC (coreHeld k ra) y) { b with p := stepXY, d := smSet 0 b.d ra x.1 }))))) ∧
    (AtWord c (encM 0x59 rd ra 0 nmx px mx nmy py my) s → x.2 = [] → Completes (.tapw c rd ra nmx px mx nmy py my) s
      (gives (tapped [(ra.val, x.1)] (stepped (memWr k 0 (coreP k px) (coreHeld k ra))
        (acc rd (prodC (coreHeld k ra) y) { b with p := stepXY, d := smSet 0 b.d ra x.1 }))))) ∧
    (AtWord c (encM 0x5A pr (2 * h) 0 nmx px mx nmy py my) s → x0.2 = [] → x1.2 = [] → Completes (.tap2 c pair h nmx px mx nmy py my) s
      (gives (tapped [(2 * h.val, x0.1), (2 * h.val + 1, x1.1)] (stepped k
        (acc (pr + 1) (prodC (coreHeld k (2 * h.val + 1)) y) (acc pr (prodC (coreHeld k (2 * h.val)) y)
          { b with p := stepXY, d := smSet 0 (smSet 0 b.d (2 * h.val) x0.1) (2 * h.val + 1) x1.1 }))))))

/-- 07 R234, R235, 02 R47 to R53: CLRA, LDA, MOVA, NEGA, ADDA, SUBA and SHA give an accumulator its new value (X where an
excursion is lost); STA stores one to Dd, with S where it saturates. Nothing else of the core or of the engine changes.
The model's own choices in it: logs 77, 79. -/
def Obligations.AccumulatorOps : Prop :=
  ∀ (s : State) (c : Fin 68) (rd ra rb : Fin 4) (r16 : Fin 16) (sh : BitVec 8),
    let k := coreOf s c
    let b := bankOf k
    let sets := fun (x : Acc × Bool) (t : State) =>
      seen (coreOf t c) = stepped k { b with a := smSet accZero b.a rd x.1, sw := b.sw ||| ifX x.2 } ∧ OnlyCore c s t
    (AtWord c (encA 0x60 rd 0 0 0 0) s → Completes (.clra c rd) s (sets (accZero, false))) ∧
    (AtWord c (encA 0x61 rd r16 0 0 0) s → Completes (.lda c rd r16) s (sets (accLoad ((coreD k r16).toInt * 2 ^ 36), false))) ∧
    (AtWord c (encA 0x62 rd ra 0 0 0) s → Completes (.mova c rd ra) s (sets (coreA k ra, false))) ∧
    (AtWord c (encA 0x63 rd ra 0 0 0) s → Completes (.nega c rd ra) s (sets (negAcc (coreA k ra)))) ∧
    (AtWord c (encA 0x64 rd ra rb 0 0) s → Completes (.adda c rd ra rb) s (sets (addAcc (coreA k ra) (coreA k rb)))) ∧
    (AtWord c (encA 0x65 rd ra rb 0 0) s → Completes (.suba c rd ra rb) s (sets (subAcc (coreA k ra) (coreA k rb)))) ∧
    (AtWord c (encA 0x66 rd ra 0 0 sh.toNat) s → sh ≠ 0x80#8 → Completes (.sha c rd ra sh) s (sets (shaAcc (coreA k ra) sh.toInt))) ∧
    (AtWord c (encA 0x67 r16 ra 0 0 0) s → Completes (.sta c r16 ra) s (fun t =>
      seen (coreOf t c) = stepped k { b with d := smSet 0 b.d r16 (storeS64 (coreA k ra)).1, sw := b.sw ||| ifS (storeS64 (coreA k ra)).2 } ∧
      OnlyCore c s t))

/-- 07 R237 to R241, 06 R189, R200: BR, BRL and BRR issue one more instruction before the target, or before the next word
where the condition does not hold; LOOP and LOOPR push a level, or skip a body of count 0; WAIT stalls to the frame cycle it
names; RTI leaves the handler after its delay slot and is a NOP outside one; NOP only advances. Nothing else of the core or
of the engine changes.
06 R189: FEND ends the frame: the count of its own frame cycle is kept and shown, late is cleared, the high-water mark
rises to it, and the registers that the Reading Room shows are those of this moment. No other core changes, but for the P of
a spare that a rotation copies it into (06 R212).
The model's own choices in it: logs 77, 79. -/
def Obligations.FlowControlAndFrameEnd : Prop :=
  (∀ (s : State) (c : Fin 68) (cc : Fin 10) (pk : Fin 8) (ra : Fin 16) (tgt e : Fin 16384) (n u : Fin 65536),
    let k := coreOf s c
    let b := bankOf k
    let z := stepped k b
    let gives := fun (x : Core) (t : State) => seen (coreOf t c) = x ∧ OnlyCore c s t
    let start := (k.pc + 1) % 16384
    let loop := fun (n : Nat) => if n = 0 then { z with pc := (e + 1) % 16384 } else stepped k { b with loops := [⟨start, e, n⟩] }
    (AtWord c (encA 0x00 0 0 0 0 0) s → Completes (.nop c) s (gives z)) ∧
    (AtWord c (encB 0x04 cc 0 0 tgt) s → Completes (.br c (cc.castLE (by decide)) tgt) s
      (gives { z with delay := some (if condHolds k cc then .taken tgt else .fallThrough) })) ∧
    (AtWord c (encB 0x05 0 pk 0 tgt) s → Completes (.brl c pk tgt) s
      (gives { stepped k { b with p := smSet 0 b.p pk (BitVec.ofNat 16 ((k.pc + 2) % 16384)) } with delay := some (.taken tgt) })) ∧
    (AtWord c (encB 0x06 cc pk 0 0) s → Completes (.brr c (cc.castLE (by decide)) pk) s
      (gives { z with delay := some (if condHolds k cc then .taken (coreP k pk % 16384) else .fallThrough) })) ∧
    (AtWord c (encB 0x07 0 0 n e) s → start ≤ e → Completes (.loop c n e) s (gives (loop n))) ∧
    (AtWord c (encB 0x08 0 ra 0 e) s → start ≤ e → Completes (.loopr c ra e) s (gives (loop ((coreD k ra).toNat % 65536)))) ∧
    (AtWord c (encB 0x03 0 0 u 0) s → Completes (.wait c u) s
      (gives (if k.cyc + 1 < u then { z with wait := some (u.val, false) } else z))) ∧
    (AtWord c (encA 0x02 0 0 0 0 0) s → Completes (.rti c) s (gives (if k.inHandler then { z with delay := some .rti } else z)))) ∧
  (∀ (s : State) (c : Fin 68), AtWord c (encA 0x01 0 0 0 0 0) s →
    Completes (.fend c) s (fun t =>
      (coreOf t c).phase = .ended ∧ (coreOf t c).lastFend = (coreOf s c).cyc ∧ (coreOf t c).fendMain = (coreOf t c).main ∧
      (coreOf t c).fendShadow = (coreOf t c).shadow ∧
      ((∀ w ∈ (coreOf s c).main.wb, w.due ≤ (coreOf s c).main.issued + 2) → (∀ w ∈ (coreOf s c).shadow.wb, w.due ≤ (coreOf s c).shadow.issued + 2) →
        (coreOf t c).main.wb = [] ∧ (coreOf t c).shadow.wb = []) ∧
      (coreOf t c).em = (coreOf s c).em ∧ fget t (ATL_CORE_STATUS c) ATL_CORE_STATUS_late = 0 ∧
      ((coreOf s c).cyc < 65536 → fget t (ATL_CORE_FEND c) ATL_CORE_FEND_last = (coreOf s c).cyc ∧
        fget t (ATL_CORE_FEND c) ATL_CORE_FEND_high_water = Nat.max (fget s (ATL_CORE_FEND c) ATL_CORE_FEND_high_water) (coreOf s c).cyc) ∧
      (∀ c', c' ≠ c.val → (∀ r, s.twn.rot = some r → r.spare ≠ c') → coreOf t c' = coreOf s c') ∧
      (∀ c', c' ≠ c.val → (coreOf t c').xm = (coreOf s c').xm ∧ (coreOf t c').ym = (coreOf s c').ym ∧ (coreOf t c').em = (coreOf s c').em ∧
        (coreOf t c').main = (coreOf s c').main) ∧ t.mem = s.mem))

/-- 06 R201 to R204, 07 R236: LMR and LMW issue a request at the word offset Da plus the immediate, within the region of the
logical core. A write of the active core stores the 64-bit word at once, little-endian; a read of the active core reserves
its answer positions and is outstanding with the words it names; past the cutoff, the 64th request or the 256th answer word,
or without a region, the request is refused: counted, with nothing stored. A refused read keeps its positions, and those below 256 hold zero.
The model's own choices in it: logs 40, 77. -/
def Obligations.LongMemoryRequests : Prop :=
  ∀ (s : State) (c : Fin 68) (ra rb : Fin 16) (len : Fin 9) (imm : BitVec 32),
    let k := coreOf s c
    let j := (coreServes s c).getD 0
    let off := ((coreD k ra).setWidth 32 + imm).toNat
    let open_ := k.lmIssued < 64 ∧ k.cyc ≤ coreCutoff s c ∧ lmSize s j ≠ 0
    let refused := fun (t : State) =>
      (coreOf t c).lmRefused = true ∧ (coreOf t c).lmIssued = k.lmIssued + 1 ∧
      rd t (ATL_CORE_LM_REFUSED c) = rd s (ATL_CORE_LM_REFUSED c) + 1 ∧ t.mem = s.mem
    (AtWord c (encL 0x71 ra rb 0 imm.toNat) s →
      (open_ → coreActive s c = true → dmaRefuse s 13 (lmAddr s j off) 8 = none → Completes (.lmw c ra rb imm) s (fun t =>
        t.mem = memPutBytes s.mem (lmAddr s j off) (leBytes 8 (coreD k rb).toNat) ∧ (coreOf t c).lmIssued = k.lmIssued + 1 ∧
        (coreOf t c).lmPos = k.lmPos)) ∧
      (¬open_ → Completes (.lmw c ra rb imm) s (fun t => refused t ∧ (coreOf t c).lmPos = k.lmPos))) ∧
    (AtWord c (encL 0x70 ra 0 len imm.toNat) s → 1 ≤ len.val →
      (open_ → k.lmPos + len ≤ 256 → coreActive s c = true → (∀ i, i < len.val → dmaRefuse s 13 (lmAddr s j (off + i)) 8 = none) →
        Completes (.lmr c ra len imm) s (fun t =>
          (coreOf t c).lmReads = k.lmReads ++ [⟨k.lmPos, len, (List.range len).map (fun i => lmAddr s j (off + i)),
            (List.range len).map (fun i => BitVec.ofNat 64 (memRead s (lmAddr s j (off + i)) 8))⟩] ∧
          (coreOf t c).lmPos = k.lmPos + len ∧ (coreOf t c).lmIssued = k.lmIssued + 1 ∧ t.mem = s.mem)) ∧
      (¬(open_ ∧ k.lmPos + len ≤ 256) → Completes (.lmr c ra len imm) s (fun t =>
        refused t ∧ (coreOf t c).lmPos = k.lmPos + len ∧ (coreOf t c).lmZero = (k.lmZero || decide (k.lmPos < 256)))))

/-- 07 R217, R238, R240, 06 R197, R198: at a boundary where a core can issue, an illegal word halts it where it stands; a
loop level whose last pass has issued pops; a stall ends at its frame cycle, unless a pending interrupt is taken in it, with
the address of the WAIT; a compare interrupt becomes pending once its cycle is reached; a pending interrupt is taken, the
landing one first, with the return address kept.
06 R190, R203, R204, R210: a frame that has not issued FEND is abandoned and counted; the oldest long-memory read is
answered into the answer words of the next frame, or counted late; queued P writes are made after a frame's end, the oldest
one first.
The model's own choices in it: logs 14, 77, 79. -/
def Obligations.CoreEvents : Prop :=
  (∀ (s : State) (c : Fin 68),
    let k := coreOf s c
    (∀ w, AtWord c w s → atlLegal w k.pc = false → Completes (.illegalInstruction c) s (fun t =>
      (coreOf t c).phase = .halted ∧ (coreOf t c).pc = k.pc ∧ (coreOf t c).xm = k.xm ∧ (coreOf t c).ym = k.ym ∧ (coreOf t c).em = k.em ∧
      ∀ c', c' ≠ c.val → coreOf t c' = coreOf s c')) ∧
    (Ready s → coreIssues s c = true → k.loopDue = true → ∀ top, (bankOf k).loops = [top] → Completes (.loopExit c) s (fun t =>
      coreOf t c = { setBank k { bankOf k with loops := [] } with loopDue := false } ∧ OnlyCore c s t)) ∧
    (Ready s → coreIssues s c = true → cmpDue k = false → k.loopDue = false → ∀ u d, k.wait = some (u, d) →
      (k.landPend = false → k.cmpPend = false → Completes (.waitEnd c) s (fun t =>
        coreOf t c = { k with wait := none, cyc := Nat.max k.cyc u } ∧ OnlyCore c s t)) ∧
      (coreEligible k = true → k.landPend = true → k.main.wb = [] → Completes (.waitEnd c) s (fun t =>
        (coreOf t c).inHandler = true ∧ (coreOf t c).rtiPc = (k.pc + 16383) % 16384 ∧ (coreOf t c).pc = k.landVec ∧
        (coreOf t c).cyc = k.cyc ∧ (coreOf t c).wait = none ∧ OnlyCore c s t))) ∧
    (Ready s → coreIssues s c = true → cmpDue k = true → k.wait = none → Completes (.compareInterrupt c) s (fun t =>
      coreOf t c = { k with cmpPend := true, cmpRaised := true } ∧ OnlyCore c s t)) ∧
    (Ready s → coreIssues s c = true → coreEligible k = true → k.landPend = true ∨ k.cmpPend = true → k.main.wb = [] →
      k.loopDue = false → k.wait = none → Completes (.interruptTake c) s (fun t =>
        (coreOf t c).inHandler = true ∧ (coreOf t c).rtiPc = k.pc ∧
        (coreOf t c).pc = (if k.landPend then k.landVec else k.cmpVec) ∧ (coreOf t c).landPend = false ∧
        (coreOf t c).cmpPend = (k.landPend && k.cmpPend) ∧ (coreOf t c).shadow = k.shadow ∧ OnlyCore c s t))) ∧
  (∀ (s : State) (c : Fin 68), Ready s →
    let k := coreOf s c
    ((coreRunDom s c).isSome = true → k.phase = .run → Completes (.frameOverrun c) s (fun t =>
      (coreOf t c).phase = .idle ∧ (coreOf t c).overran = true ∧ (coreOf t c).lastFend = 0xFFFF ∧
      rd t (ATL_CORE_OVERRUN c) = rd s (ATL_CORE_OVERRUN c) + 1 ∧ fget t (ATL_CORE_STATUS c) ATL_CORE_STATUS_late = 1 ∧
      fget t (ATL_CORE_FEND c) ATL_CORE_FEND_last = 0xFFFF ∧ t.mem = s.mem ∧ ∀ c', c' ≠ c.val → coreOf t c' = coreOf s c')) ∧
    (∀ a v n rest, k.lmReads = ⟨n, 1, [a], [v]⟩ :: rest → n < 256 → lostWords s [a / 8] = [] → Completes (.lmAnswer c []) s (fun t =>
      (coreOf t c).lmReads = rest ∧ smGet 0 (coreOf t c).em ((k.frame + 1) % 2 * 384 + 128 + n) = v ∧ (coreOf t c).pm = k.pm ∧
      (coreOf t c).xm = k.xm ∧ (coreOf t c).ym = k.ym ∧ (coreOf t c).main = k.main)) ∧
    (∀ r rest, k.lmReads = r :: rest → Completes (.lmAnswerLate c) s (fun t =>
      coreOf t c = { k with lmReads := rest, lmZero := true } ∧ rd t (ATL_CORE_LM_LATE c) = rd s (ATL_CORE_LM_LATE c) + BitVec.ofNat 32 r.len ∧
      t.mem = s.mem ∧ ∀ c', c' ≠ c.val → coreOf t c' = coreOf s c')) ∧
    (∀ a w rest, k.pq = (a, w) :: rest → k.phase = .ended ∨ (coreRunDom s c).isNone = true → Completes (.pQueueDrain c) s (fun t =>
      (coreOf t c).pq = rest ∧ (coreOf t c).pm = smSet 0 k.pm a w ∧ (coreOf t c).xm = k.xm ∧ (coreOf t c).em = k.em ∧
      (rest.length ≤ 256 → fget t (ATL_CORE_PQ c) ATL_CORE_PQ_level = rest.length) ∧ OnlyCore c s t)))

/-- 06 R179, R182, R208 to R210: a whole-word access through a window, let through where a control core makes it, reaches the
word it names where the core runs no frame, and is answered (15 R456: but the host's write); the zero fill of a core ends with its four memories zero; an exchange-map word takes what is written unless it names
an entry below 4,256, and the written map reaches the core's island.
The model's own choices in it: logs 41, 78, 135. -/
def Obligations.CoreWindowsAndMaps : Prop :=
  ∀ (s : State), Ready s →
    (∀ (m : Fin 21) (a c o mem w : Nat), target a 8 = .window c o → o % 8 = 0 → o < 0x10_0000 → (coreRunDom s c).isNone = true →
      (∀ store, m.val < 8 → pmpLets s m a 8 store = true) →
      s.ecc.merge.find? (fun e => e.port == portWindow c && e.word == (0x8000_0000 + 0x10_0000 * c + o) / 8) = none →
      (∀ v, windowAt s c o true = .word mem w → (∀ r, s.twn.rot = some r → r.spare ≠ r.old) → Completes (.atelierWindowAccess m a 3 (some v)) s (fun t =>
        coreOf t c = coreWr (coreOf s c) mem w v ∧ (m ≠ 8 → Emit.writeResp m true ∈ t.out) ∧ t.mem = s.mem ∧
        (s.twn.rot = none → ∀ c', c' ≠ c → coreOf t c' = coreOf s c'))) ∧
      (windowAt s c o false = .word mem w → isBad (coreOf s c) mem w = false →
        Completes (.atelierWindowAccess m a 3 none) s (fun t =>
          Emit.readData m (coreRd (coreOf s c) mem w).1.toNat true ∈ t.out ∧ t.cores = s.cores ∧ t.mem = s.mem))) ∧
    (∀ c : Fin 68, s.atlFill.contains c.val = true → s.ecc.stalled = [] → Completes (.atelierMemoryFill c) s (fun t =>
      (coreOf t c).pm = [] ∧ (coreOf t c).xm = [] ∧ (coreOf t c).ym = [] ∧ (coreOf t c).em = [] ∧ (coreOf t c).main = (coreOf s c).main ∧
      t.atlFill = s.atlFill.filter (· != c.val) ∧ ∀ c', c' ≠ c.val → coreOf t c' = coreOf s c')) ∧
    (∀ (l j : Fin 64) (w : W32), regOn s (ATL_XMAP l j) = true → Completes (.xmapWrite l j w) s (fun t =>
      rd t (ATL_XMAP l j) = (if wbit w ATL_XMAP_valid ∧ wget w ATL_XMAP_entry < 4256 then rd s (ATL_XMAP l j) else
        (rd s (ATL_XMAP l j) &&& ~~~0x80003FFF#32) ||| (w &&& 0x80003FFF#32)) ∧
      t.xmap = s.xmap ∧ ∀ k, ¬settleKey k → k ≠ ATL_XMAP l j → rd t k = rd s k)) ∧
    (∀ l : Fin 64, regsOk s → Completes (.xmapApply l) s (fun t =>
      (∀ j : Fin 64, smGet 0 t.xmap (64 * l.val + j.val) = rd s (ATL_XMAP l j)) ∧
      (∀ i, i / 64 ≠ l.val → smGet 0 t.xmap i = smGet 0 s.xmap i) ∧ ∀ k, ¬settleKey k → rd t k = rd s k))

/-- 12 R395, 06 R212, R213: the phases of a rotation: the copy puts the spare in SHADOW (a core's once its P is copied, at a
frame end that leaves 200 cycles, or never once 4,096 frames have passed without one); two matching blocks of every domain
served choose the switch, a mismatch ends the rotation; at its tick the switch makes the spare ACTIVE and the old unit SPARE;
the release ends it.
The model's own choices in it: logs 8, 14, 38, 133, 136. -/
def Obligations.RotationPhases : Prop :=
  ∀ (s : State) (r : Rotation), Ready s → s.twn.rot = some r → 1 ≤ r.kind → r.kind ≤ 3 → r.spare < unitCount r.kind →
    r.old < unitCount r.kind → r.spare ≠ r.old → r.logical < logicalCount r.kind →
    let ended := fun (t : State) => t.twn.rot = none ∧ rotPhase t = 0
    (r.kind ≠ 2 → rotPhase s = 1 → s.gal.badNodes = [] → s.str.badState = [] → Completes .rotationCopyDone s (fun t =>
      rotPhase t = 2 ∧ roleOf t r.kind r.spare = roleShadow ∧ t.twn.rot = some r)) ∧
    (r.kind = 2 → rotPhase s = 1 → paused s 6 = false → 16384 ≤ r.copied → (coreOf s r.old).phase = .ended →
      (coreOf s r.old).lastFend + 200 ≤ coreBudget s r.old → Completes .coreStateCopy s (fun t =>
        rotPhase t = 2 ∧ roleOf t 2 r.spare = roleShadow ∧ t.twn.rot = some r ∧ coreOf t r.old = coreOf s r.old ∧
        (coreOf t r.spare).main = (coreOf s r.old).main ∧ (coreOf t r.spare).xm = (coreOf s r.old).xm ∧
        (coreOf t r.spare).ym = (coreOf s r.old).ym ∧ (coreOf t r.spare).em = (coreOf s r.old).em ∧
        (coreOf t r.spare).pm = (coreOf s r.spare).pm ∧ (coreOf t r.spare).lmReads = [])) ∧
    (r.kind = 2 → rotPhase s = 1 → 4096 ≤ r.frames → Completes .rotationNoGap s (fun t =>
      ended t ∧ roleOf t 2 r.spare = roleSpare ∧ (2, r.spare) ∈ t.twn.spares)) ∧
    (∀ x, rotPhase s = 2 → paused s 6 = false → unitServes s r.kind r.logical x = true → Completes (.shadowBlockCompare x false) s (fun t =>
      ended t ∧ roleOf t r.kind r.spare = roleSpare ∧ (r.kind, r.spare) ∈ t.twn.spares)) ∧
    (∀ x, rotPhase s = 2 → paused s 6 = false → unitServes s r.kind r.logical x = true → r.diff = false →
      Completes (.shadowBlockCompare x true) s (fun t => ∃ q, t.twn.rot = some q ∧ rotGood q x = rotGood r x + 1 ∧
        rotPhase t = (if rotReady s q then 3 else 2) ∧ (rotReady s q = true → q.switchAt = rotTick s r))) ∧
    (rotPhase s = 3 → clkOk s r.kind r.spare = true → switchDue s r = true → Completes .rotationSwitch s (fun t =>
      rotPhase t = 4 ∧ roleOf t r.kind r.spare = roleActive ∧ roleOf t r.kind r.old = roleSpare ∧ physOf t r.kind r.logical = r.spare)) ∧
    (∀ pass, rotPhase s = 4 → Completes (.rotationRelease pass) s (fun t =>
      ended t ∧ roleOf t r.kind r.old = (if r.fateOff then roleOff else roleSpare) ∧
      (pass = false → (r.kind, r.old) ∈ t.twn.failed)))

/-- 01 R12 to R14, R17: a tick event of a running domain does the work of the generator's next index, or of a later one when
ticks fail to reach the islands, which is counted; time moves to the instant of that tick and never back: the instant of the
index for a locked domain, one period of the auxiliary DPLL a tick for an independent one. Without a time step to apply, the
generator then stands behind the tick and every other generator where it stood. A stopped domain has no tick event.
The model's own choices in it: logs 11, 19, 27, 142. -/
def Obligations.TickEvents : Prop :=
  ∀ (s : State) (x : Dom) (skip : Nat), Ready s →
    (running s x = true → ∀ m, (genOf s x).last = some m → s.tim.stepWait = none → Completes (.tickEvent x skip) s (fun t =>
      (genOf t x).last = some ((genOf s x).next + skip) ∧ (genOf t x).next = (genOf s x).next + skip + 1 ∧
      (genOf t x).running = true ∧ (genOf t x).rate = (genOf s x).rate ∧ (∀ y, y ≠ x → genOf t y = genOf s y) ∧
      ((genOf s x).indep = false → t.tim.freiz = Nat.max s.tim.freiz (tickTime s x (domHz s x) ((genOf s x).next + skip)) ∧
        (genOf t x).due = (genOf s x).due) ∧
      ((genOf s x).indep = true → t.tim.elapsed = Nat.max s.tim.elapsed ((genOf s x).due + skip * auxPeriod s (domHz s x)) ∧
        (genOf t x).due = (genOf s x).due + (skip + 1) * auxPeriod s (domHz s x)) ∧
      t.tim.freiz + s.tim.elapsed = s.tim.freiz + t.tim.elapsed ∧ t.pin = s.pin)) ∧
    (running s x = false → Completes (.tickEvent x skip) s (fun t => t.tim = s.tim ∧ t.gal = s.gal ∧ t.str = s.str ∧ t.scn = s.scn))

/-- 03 R69 to R73, R99: over a column whose nodes are all STEADY, the job that the tile runs stores the exact sum of its products, limited and rounded
as 02 R44 to R46 say; a saturated store is counted; the nodes and every other column stay as they are.
01 R10, 03 R98: a column job that misses its deadline, or whose word is not in its tick buffer when the consumer's tick
begins, is abandoned: the column reads zero, the job is gone, its tile counts it and shows it, and no other column's value
changes. A late entry of a strip stage, of an Atelier core whose frame runs, of a receive side and of a network channel gives
what its chapter says: the stage is marked, the frame overruns and is counted, the side waits for a frame, the channel reads
zero.
The model's own choices in it: logs 28, 66. -/
def Obligations.ColumnJobs : Prop :=
  (∀ (s : State) (d : Fin 4096) (j : ColJob) (p : Nat) (x : Dom), Ready s → jobFor s d = some j → tileOf s d = some p →
    clkOk s 1 p = true → j.resolving = false → j.dom = some x →
    (∀ i, i < 4096 → j.upTo ≤ i → ndState (node s (nodeKey p j.d i)) = nSTEADY ∧ s.gal.badNodes.contains (nodeKey p j.d i) = false) →
    let total := j.sum + columnSum s x p j.d j.upTo + psIn s x d j.n
    Completes (.columnJob d []) s (fun t =>
      smGet 0 t.gal.dval d = (storeVal total).1 ∧ (∀ e, e ≠ d.val → smGet 0 t.gal.dval e = smGet 0 s.gal.dval e) ∧
      rd t (GAL_TILE_SAT p) = rd s (GAL_TILE_SAT p) + (if (storeVal total).2 then 1 else 0) ∧ t.gal.nodes = s.gal.nodes ∧
      t.gal.jobs = s.gal.jobs.filter (fun q => !(q.d == j.d && q.n == j.n)) ∧ t.mem = s.mem ∧ t.cores = s.cores ∧
      fget t (GAL_TILE_STATUS p) GAL_TILE_STATUS_late = 0)) ∧
  (∀ (s : State) (d : Fin 4096) (j : ColJob), Ready s →
    let p := physOf s 1 (j.d / 64)
    let gone := fun (t : State) =>
      smGet 0 t.gal.dval j.d = 0 ∧ (∀ e, e ≠ j.d → smGet 0 t.gal.dval e = smGet 0 s.gal.dval e) ∧
      t.gal.jobs = s.gal.jobs.filter (fun q => !(q.d == j.d && q.n == j.n)) ∧
      rd t (GAL_TILE_LATE p) = rd s (GAL_TILE_LATE p) + 1 ∧ fget t (GAL_TILE_STATUS p) GAL_TILE_STATUS_late = 1 ∧
      t.gal.nodes = s.gal.nodes ∧ t.mem = s.mem
    (s.gal.jobs.find? (fun q => q.d == d.val) = some j → Completes (.columnJobAbandon d) s gone) ∧
    (∀ x, s.gal.jobs.find? (fun q => q.d == d.val && q.dom == some x) = some j → Completes (.tickBufferLate .column x d 0) s gone) ∧
    (∀ (x : Dom) (out : Bool) (p : Fin 4096) (g : Fin 3), let i := p.val + (if out then 4096 else 0)
      stripDom s i = some x → Completes (.tickBufferLate (if out then .outStrip else .inStrip) x p g) s (fun t =>
        stripRun t i = { stripRun s i with lateStages := (stripRun s i).lateStages ++ [g.val] } ∧
        rd t (STR_UNIT_LATE (stripUnit s i)) = rd s (STR_UNIT_LATE (stripUnit s i)) + 1 ∧ t.gal = s.gal)) ∧
    (∀ (x : Dom) (c : Fin 4096), c.val < 68 → coreRunDom s c = some x → (coreOf s c).phase = .run → Completes (.tickBufferLate .core x c 0) s (fun t =>
      (coreOf t c).phase = .idle ∧ (coreOf t c).overran = true ∧ rd t (ATL_CORE_OVERRUN c) = rd s (ATL_CORE_OVERRUN c) + 1 ∧
      t.gal = s.gal)) ∧
    (∀ (x : Dom) (ch : Fin 4096), netChanDom s ch = some x → Completes (.tickBufferLate .net x ch 0) s (fun t =>
      smGet 0 t.net.chanVal ch = 0 ∧ t.gal = s.gal ∧ t.str = s.str ∧ t.cores = s.cores)))

/-- 03 R79, R80, R85, R87: at its deadline an armed node whose source does not cross zero starts a ramp of its fallback
length in a free slot of its domain, which is counted, or steps hard when none is free, counted apart; a node whose ramp has
reached its last step settles and gives its slot up. Here the node is the next one that the job reads.
The model's own choices in it: logs 14, 66. -/
def Obligations.NodeTransitions : Prop :=
  ∀ (s : State) (d i : Fin 4096) (j : ColJob) (p : Nat) (x : Dom), Ready s → jobFor s d = some j → tileOf s d = some p →
    clkOk s 1 p = true → j.resolving = false → j.dom = some x → j.upTo = i.val → s.gal.badNodes = [] →
    let k := nodeKey p j.d i
    let w := node s k
    let e := genEntry s x (ndGen w)
    deferAt s p k = none →
    (ndState w = nARMED → domS s i = some x → smGet true s.gal.srcZc i = false → e.deadline ≤ j.n →
      (∀ sl, slotAlloc s x p j.n true = some sl → 2 ≤ e.fallbackLen → Completes (.zcTimeoutFallback d i) s (fun t =>
        node t k = ndSetState w nRAMPING sl ∧ slotOf t p sl = ⟨some j.n, e.fallbackLen, 1, 0, none, 0⟩ ∧
        rd t (GAL_TILE_FALLBACK p) = rd s (GAL_TILE_FALLBACK p) + 1 ∧ ∀ k', k' ≠ k → node t k' = node s k')) ∧
      (slotAlloc s x p j.n true = none → Completes (.zcTimeoutFallback d i) s (fun t =>
        node t k = ndSettle w ∧ rd t (GAL_TILE_HARD_STEP p) = rd s (GAL_TILE_HARD_STEP p) + 1 ∧ ∀ k', k' ≠ k → node t k' = node s k'))) ∧
    (ndState w = nRAMPING → ∀ a, (slotOf s p (ndSlot w)).start = some a → a + (slotOf s p (ndSlot w)).len ≤ j.n + 1 → a ≤ j.n →
      Completes (.rampEnd d i) s (fun t =>
        node t k = ndSettle w ∧ (∀ k', k' ≠ k → node t k' = node s k') ∧
        slotOf t p (ndSlot w) = (if (slotOf s p (ndSlot w)).users ≤ 1 then ⟨none, 0, 0, 0, some x, j.n⟩
          else { slotOf s p (ndSlot w) with users := (slotOf s p (ndSlot w)).users - 1 })))

/-- 03 R88, R90, R93, R100, R101: a staging write to a free node of a bound column with an open tag stores the pending gain
and the tag; to an unbound column it lands at once; with a closed tag, or a tile that cannot take it, it is refused by its
code and changes no node. The port is then free. Every write to a tile whose deferral table is full waits, which is counted;
it is taken when room comes.
The model's own choices in it: logs 18, 67. -/
def Obligations.StagingPort : Prop :=
  ∀ (s : State) (w : W32), Ready s →
    let r := stgWriteRegs s
    let status := fun (t : State) (c : Nat) => fget t GAL_STG_CMD GAL_STG_CMD_status = c ∧ fget t GAL_STG_CMD GAL_STG_CMD_busy = 0
    (regOn s GAL_STG_CMD = true → wbit w GAL_STG_CMD_stage = true → fbit s GAL_STG_CMD GAL_STG_CMD_busy = false → r.linked = false →
      (tileOf s r.d = none → Completes (.stageNode w) s (fun t => status t stTILE ∧ t.gal = { s.gal with stgWait := none })) ∧
      (∀ p, tileOf s r.d = some p →
        let k := nodeKey p r.d r.s
        (64 ≤ defersOf s p → Completes (.stageNode w) s (fun t =>
          fget t GAL_STG_CMD GAL_STG_CMD_busy = 1 ∧ t.gal = { s.gal with stgWait := some r } ∧
          rd t (GAL_TILE_STALL p) = rd s (GAL_TILE_STALL p) + 1)) ∧
        (defersOf s p < 64 → domD s r.d = none → Completes (.stageNode w) s (fun t =>
          status t stOK ∧ node t k = ndSettle (ndSetPend (node s k) r.gain) ∧ ∀ k', k' ≠ k → node t k' = node s k')) ∧
        (∀ x, defersOf s p < 64 → domD s r.d = some x → tagCommitted s x r.gen = true → Completes (.stageNode w) s (fun t =>
          status t stGENCLOSED ∧ t.gal.nodes = s.gal.nodes)) ∧
        (∀ x, defersOf s p < 64 → domD s r.d = some x → tagCommitted s x r.gen = false → ndState (node s k) < nARMED → Completes (.stageNode w) s (fun t =>
          status t stOK ∧ node t k = ndPut (ndSetState (ndSetPend (node s k) r.gain) nSTAGED 0x1FF) 9 4 r.gen ∧
          ∀ k', k' ≠ k → node t k' = node s k')))) ∧
    (∀ q p x, s.gal.stgWait = some q → tileOf s q.d = some p → domD s q.d = some x → tagCommitted s x q.gen = false → q.linked = false →
      nARMED ≤ ndState (node s (nodeKey p q.d q.s)) → deferAt s p (nodeKey p q.d q.s) = none →
      defersOf s p < 64 → Completes .stagingStallRelease s (fun t =>
        status t stOK ∧ t.gal.stgWait = none ∧ t.gal.defer = s.gal.defer ++ [⟨p, nodeKey p q.d q.s, q.gain, q.gen, false⟩] ∧
        t.gal.nodes = s.gal.nodes))

/-- 04 R104: a claim takes the tag after the last one claimed, when it is open, and says so; otherwise it says not ok and
claims nothing.
04 R116, R123, R125 to R127, R603: a record of an unknown kind is refused and counted; a source-patch record of a bound S-slot,
with an open tag that software has claimed, joins the staged records in place of an uncommitted one for the same slot; for
an unbound S-slot it lands at once, in place of one that has not landed. An output-patch record that has waited for room in the deferral table is taken when
room comes.
The model's own choices in it: logs 18, 68. -/
def Obligations.TagsAndRecords : Prop :=
  (∀ (s : State) (w : W32) (x : Dom), Ready s → regOn s SCN_GEN_CLAIM = true → wbit w SCN_GEN_CLAIM_claim = true →
    wget w SCN_GEN_CLAIM_domain = domNo x →
    (∀ g, claimTag s x = some g → Completes (.genClaim w) s (fun t =>
      isClaimed t x g = true ∧ (∀ g', g' ≠ g → isClaimed t x g' = isClaimed s x g') ∧
      fget t (SCN_GEN (domNo x)) SCN_GEN_last_claimed = g ∧ fget t SCN_GEN_CLAIM SCN_GEN_CLAIM_tag = g ∧
      fget t SCN_GEN_CLAIM SCN_GEN_CLAIM_ok = 1 ∧ t.scn = s.scn)) ∧
    (claimTag s x = none → Completes (.genClaim w) s (fun t =>
      fget t SCN_GEN_CLAIM SCN_GEN_CLAIM_ok = 0 ∧ (∀ y g, isClaimed t y g = isClaimed s y g) ∧ t.scn = s.scn))) ∧
  (∀ (s : State) (w : W32), Ready s →
    let w0 := BitVec.ofNat 64 (get64 s SCN_REC_W0_LO SCN_REC_W0_HI)
    let w1 := BitVec.ofNat 64 (get64 s SCN_REC_W1_LO SCN_REC_W1_HI)
    let g := wget w SCN_REC_CMD_gen
    let status := fun (t : State) (c : Nat) => fget t SCN_REC_CMD SCN_REC_CMD_status = c ∧ fget t SCN_REC_CMD SCN_REC_CMD_busy = 0
    let others := s.scn.recs.filter (fun r => !(r.w0 == w0 && tagOpen s r.dom r.gen))
    (regOn s SCN_REC_CMD = true → wbit w SCN_REC_CMD_stage = true → fbit s SCN_REC_CMD SCN_REC_CMD_busy = false →
      (rKind w0 = 0 ∨ 8 < rKind w0 → Completes (.stageRecord w) s (fun t =>
        status t rcKIND ∧ rd t SCN_REFUSED = rd s SCN_REFUSED + 1 ∧ t.scn = { s.scn with recWait := none })) ∧
      (rKind w0 = 3 → recRange s w0 w1 = true → domOn s 10 = true → recDomains s w0 w1 = true → recBudget s w0 w1 = true →
        (∀ x, domS s (rSlot w0) = some x → mayUse s .software x g = true → Completes (.stageRecord w) s (fun t =>
          status t rcOK ∧ t.scn.occ = s.scn.occ ∧ t.scn.recs = others ++ [⟨w0, w1, g, x⟩])) ∧
        (domS s (rSlot w0) = none → Completes (.stageRecord w) s (fun t =>
          status t rcOK ∧ t.scn.recs = others ∧ occCode t (rSlot w0) = rOcc w1 ∧ ∀ i, i ≠ rSlot w0 → occCode t i = occCode s i)))) ∧
    (∀ (v0 v1 : BitVec 64) (h : Nat) (x : Dom), s.scn.recWait = some (v0, v1, h) → rKind v0 = 4 → recRange s v0 v1 = true →
      recDomain s v0 v1 = some x → mayUse s .software x h = true → recTarget s v0 v1 = true → recDomains s v0 v1 = true → recBudget s v0 v1 = true →
      (patchOf s (rEntry v0)).state = .fading → s.scn.patchDefer.any (fun q => q.e == rEntry v0) = false →
      s.scn.patchDefer.length < 256 → Completes .patchStallRelease s (fun t =>
        status t rcOK ∧ t.scn.recWait = none ∧
        t.scn.patchDefer = s.scn.patchDefer ++ [⟨rEntry v0, rVal v1, recLandNow.patchLen v1 s, h, some x, false, (valDom s (rVal v1)).isNone⟩])))

/-- 04 R107 to R112: an accepted commit waits with its ticket; the coming tick of its domain applies the commit of the first
uncommitted tag: the tag becomes the committed one and is no longer claimed.
04 R122, R123: a crossfade that has run its length makes the other value the live one; a deferred record of the entry
then takes its place, staged, or fading when its tag has committed meanwhile.
The model's own choices in it: logs 64, 65, 75. -/
def Obligations.CommitsAndCrossfades : Prop :=
  (∀ (s : State) (x : Dom),
    (∀ (iss : Fin 256) (e : BitVec 512), Accepts s 0x0102 e [(16, 4), (24, 12)] → eByte e 16 1 < 16 → domOf (eByte e 17 1) = some x →
      eByte e 18 1 ≤ 2 → eByte e 19 1 ≤ 1 →
      let r : CmtReq := ⟨some x, eByte e 16 1, eByte e 18 1, eByte e 19 1 = 1, eByte e 24 8, eByte e 32 4⟩
      cmtRefusal s r = none → Completes (.commit iss (.entry e)) s (fun t =>
        t.scn.commits = s.scn.commits ++ [⟨x, r.gen, (match r.mode with
          | 0 => none
          | 1 => some r.t
          | _ => some (indexAt s x (domHz s x) ((r.t * 1000000000 + r.ns) * nsU) true)), r.expire, (allot iss e s).1, none⟩])) ∧
    (∀ (iss : Fin 256) (w : W32), Ready s → wbit w SCN_CMT_CTRL_commit = true → s.scn.cmtWait = none →
      ticketsFull s = false →
      let r := portReq (fieldsWrite s SCN_CMT_CTRL w)
      r.dom = some x → r.mode = 0 → cmtRefusal s r = none → Completes (.commit iss (.port w)) s (fun t =>
        t.scn.commits = s.scn.commits ++ [⟨x, r.gen, none, r.expire, (newTicket s iss 0x0102 true none).1, none⟩] ∧
        rd t SCN_CMT_TICKET = BitVec.ofNat 32 (newTicket s iss 0x0102 true none).1 ∧
        fget t SCN_CMT_STATUS SCN_CMT_STATUS_status = 0 ∧ fget t SCN_CMT_STATUS SCN_CMT_STATUS_busy = 0)) ∧
    (∀ c, Ready s → running s x = true → s.scn.commits = [c] → c.dom = x → c.gen = (genC s x + 1) % 16 → isClaimed s x c.gen = true →
      c.target.getD (genOf s x).next ≤ (genOf s x).next → c.expire = false → Completes (.commitApply x) s (fun t =>
        genC t x = c.gen ∧ t.scn.commits = [] ∧ isClaimed t x c.gen = false ∧ fget t (SCN_GEN (domNo x)) SCN_GEN_committed = c.gen ∧
        ∀ y, y ≠ x → genC t y = genC s y))) ∧
  (∀ (s : State) (e : Fin 16384), awake s = true → Due.patchEnd e ∈ s.due → (patchOf s e).state = .fading →
    let p := patchOf s e
    Completes (.patchXfadeEnd e) s (fun t =>
      (∀ i, i ≠ e.val → patchOf t i = patchOf s i) ∧ (patchOf t e).live = !p.live ∧
      match s.scn.patchDefer.find? (fun q => q.e == e.val) with
      | none => patchOf t e = { p with live := !p.live, state := .steady, k := 0, recDom := none, toZero := false } ∧ t.scn.patchDefer = s.scn.patchDefer
      | some f => pePend (patchOf t e) = f.val ∧ (patchOf t e).len = f.len ∧ (patchOf t e).gen = f.gen ∧
          (patchOf t e).state = (if f.committed then PatchState.fading else .staged) ∧
          t.scn.patchDefer = s.scn.patchDefer.filter (fun q => q.e != e.val)))

/-- 04 R128 to R135: a recall of a valid directory entry, whose domains have free tags, joins the loader's queue with its
ticket; the loader starts the one that has waited longest; with every record loaded, a wrong CRC ends it, and otherwise its
commits wait. While a drop that it has agreed to is open, the loader does nothing (18 R537).
The model's own choices in it: log 69. -/
def Obligations.Recalls : Prop :=
  ∀ (s : State),
    (∀ (iss : Fin 256) (e : BitVec 512) (off n crc mask : Nat), Accepts s 0x0101 e [(16, 4), (24, 12)] → eByte e 16 2 < 4096 →
      eByte e 18 1 = 0 → eByte e 19 1 = 0 → vaultSize s ≠ 0 → bgEnabled s 0 = true → dirEntry s (eByte e 16 2) = some (off, n, crc, mask) →
      (∀ x, maskHas mask x = true → (claimTag s x).isSome = true) → Completes (.recall iss e) s (fun t =>
        ∃ r, t.scn.recalls = s.scn.recalls ++ [r] ∧ r.scene = eByte e 16 2 ∧ r.ticket = (allot iss e s).1 ∧ r.addr = vaultBase s + off ∧
          r.count = n ∧ r.crc = crc ∧ r.mask = mask ∧ r.staged = 0 ∧ r.refused = 0 ∧
          (∀ x g, maskHas mask x = true → claimTag s x = some g → pdGet r.tags x = some g ∧ isClaimed t x g = true) ∧
          r.phase = (if s.scn.recalls.any (fun q => q.phase == .staging) then RecallPhase.waiting else .staging))) ∧
    (∀ r, Ready s → paused s 5 = false → s.scn.recalls.any (fun q => q.phase == .staging) = false → s.scn.recalls.find? (fun q => q.phase == .waiting) = some r →
      Completes .recallLoadStart s (fun t => t.scn.recalls =
        s.scn.recalls.map (fun q => if q.id == r.id then { r with phase := .staging } else q))) ∧
    (∀ r, Ready s → paused s 5 = false → s.scn.recalls = [r] → r.phase = .staging → r.staged + r.refused = r.count →
      ((~~~r.crcAcc).toNat ≠ r.crc → Completes (.recallStaged []) s (fun t => t.scn.recalls = [] ∧ t.scn.commits = s.scn.commits)) ∧
      ((~~~r.crcAcc).toNat = r.crc → r.expire = false → Completes (.recallStaged []) s (fun t =>
        t.scn.commits = s.scn.commits ++ (allDoms.filter (maskHas r.mask)).filterMap (fun x =>
          (pdGet r.tags x).map (fun g => ⟨x, g, pdGet r.targets x, false, r.ticket, some r.id⟩)) ∧
        t.scn.recalls.map (fun q => q.phase) = [.committing]))) ∧
    (Ready s → paused s 5 = true → Completes .recallLoadStart s (fun t => t.scn = s.scn) ∧ Completes (.recallStaged []) s (fun t => t.scn = s.scn))

/-- 05 R139, R143 to R148, R151, R155, R156: the end of a coefficient interpolation, an enable, switch or delay crossfade, a
gain ramp, a gate's hold and each half of an insert dip changes that of its strip and nothing of another strip; a stage or
a delay read that misses its tick is counted in the strip's unit.
The model's own choices in it: logs 11, 28, 73, 74. -/
def Obligations.StripTransitions : Prop :=
  ∀ (s : State),
    (∀ (p : Fin 8192) (key : Fin 65536), awake s = true →
      let r := stripRun s p
      let others := fun (t : State) => ∀ q, q ≠ p.val → stripRun t q = stripRun s q
      let becomes := fun (q : StripRun) (t : State) => stripRun t p = q ∧ others t
      (∀ b, Due.interpEnd p key ∈ s.due → secBase key = some b → Completes (.coefficientInterpEnd p key) s
        (becomes { r with fades := r.fades.filter (fun f => !(decide (b ≤ f.key) && decide (f.key < b + 5))) })) ∧
      (Due.gainEnd p key ∈ s.due → Completes (.gainRampEnd p key) s (becomes (dropFade (dropFade r 0) 1))) ∧
      (Due.enableEnd p key ∈ s.due → r.held = [] → Completes (.enableXfadeEnd p key) s (becomes (dropFade r key))) ∧
      (Due.switchEnd p key ∈ s.due → r.held = [] → Completes (.switchFadeEnd p key) s (becomes (dropFade r key))) ∧
      (Due.delayEnd p ∈ s.due → r.held = [] → Completes (.delayXfadeEnd p) s (becomes (dropFade r 4))) ∧
      (∀ d, Due.dipHalf p ∈ s.due → r.dip = some d → Completes (.insertLatencyChange p) s (becomes { r with mode := d.newMode })) ∧
      (Due.dipEnd p ∈ s.due → r.held = [] → Completes (.insertDipEnd p) s (becomes { r with dip := none })) ∧
      (Due.gateClose p key ∈ s.due → Completes (.gateHoldExpire p key) s (becomes { r with gateOpen := false }))) ∧
    (∀ (out : Bool) (i : Fin 4096) (stage : Fin 4), Ready s →
      let p := i.val + (if out then 4096 else 0)
      let u := stripUnit s p
      (stripDom s p).isSome = true → stage.val < 3 → Completes (.stripStageLate out i stage) s (fun t =>
        stripRun t p = { stripRun s p with lateStages := (stripRun s p).lateStages ++ [stage.val] } ∧
        rd t (STR_UNIT_LATE u) = rd s (STR_UNIT_LATE u) + 1 ∧ fget t (STR_UNIT_STATUS u) STR_UNIT_STATUS_late = 1)) ∧
    (∀ (p : Fin 8192), Ready s → (stripDom s p).isSome = true → 64 ≤ (param s p 4).toNat → (stripRun s p).dlyLate = false →
      Completes (.delayReadLate p) s (fun t =>
        stripRun t p = { stripRun s p with dlyLate := true } ∧
        rd t (STR_UNIT_DLY_LATE (stripUnit s p)) = rd s (STR_UNIT_DLY_LATE (stripUnit s p)) + 1))

/-- 05 R162 to R164, R167: a meter frame closes: its sequence number advances and the accumulations restart; a loudness block
joins its group's last 30; a group reset waits for the group's next block; a block of the Archive that finds no room is
dropped and counted.
The model's own choices in it: logs 70, 71, 72, 76. -/
def Obligations.MetersAndArchive : Prop :=
  ∀ (s : State), Ready s →
    (strOn s = true → fbit s STR_MTR_CFG STR_MTR_CFG_enable = true → Completes .meterFrameClose s (fun t =>
      t.str.meters = [] ∧ t.str.tpPeak = [] ∧ t.str.meterSeq = s.str.meterSeq + 1 ∧ t.str.meterAt = frameClose s ∧
      t.str.run = s.str.run ∧ t.gal = s.gal)) ∧
    (∀ (g : Fin 512) n, blockDone s g = some n → Completes (.loudnessBlock g) s (fun t =>
      (group t g).blocks = ((group s g).sum :: (group s g).blocks).take 30 ∧ (group t g).sum = 0 ∧ (group t g).n = 0 ∧
      (group t g).count = (if (group s g).resetReq then 0 else (group s g).count + 1) ∧ (group t g).resetReq = false ∧
      ∀ h, h ≠ g.val → group t h = group s h)) ∧
    (∀ w : W32, regOn s STR_LG_RESET = true → bitOf w.toNat 16 = true → Completes (.loudnessGroupReset w) s (fun t =>
      group t (bitsOf w.toNat 0 9) = { group s (bitsOf w.toNat 0 9) with resetReq := true } ∧
      ∀ h, h ≠ bitsOf w.toNat 0 9 → group t h = group s h)) ∧
    (∀ (i : Fin 4096) q, s.str.arcPend.find? (fun e => e.1 == i.val) = some q → Completes (.archiveBlockDrop i) s (fun t =>
      t.str.arcPend = s.str.arcPend.erase q ∧ rd t STR_ARC_DROP = rd s STR_ARC_DROP + 1 ∧ t.mem = s.mem))

/-- 05 R168, R169: a playback channel that software arms with a legal window waits with its range; it starts at its index,
ends at its length or at the tick after a stop, and counts a read that comes late once. An illegal window is refused by its
code.
The model's own choices in it: logs 28, 76. -/
def Obligations.Playback : Prop :=
  ∀ (s : State) (ch : Fin 64), Ready s →
    (∀ w : W32, regOn s (STR_PB_CTRL ch) = true → bitOf w.toNat 0 = true → bitOf w.toNat 1 = false →
      (pbRefusal s ch ≠ 0 → Completes (.playbackArm ch w) s (fun t =>
        fget t (STR_PB_STATUS ch) STR_PB_STATUS_refusal = pbRefusal s ch ∧ t.str = s.str)) ∧
      (∀ x, pbRefusal s ch = 0 → domOf (fget s (STR_PB_SRC ch) STR_PB_SRC_domain) = some x → Completes (.playbackArm ch w) s (fun t =>
        pbState t ch = 1 ∧ fget t (STR_PB_STATUS ch) STR_PB_STATUS_refusal = 0 ∧ ∃ p, pbOf t ch = some p ∧ p.dom = x ∧
          p.src = fget s (STR_PB_SRC ch) STR_PB_SRC_s_slot ∧ p.start = get64 s (STR_PB_START_LO ch) (STR_PB_START_HI ch) ∧
          p.idxFrom = get64 s (STR_PB_FROM_LO ch) (STR_PB_FROM_HI ch) ∧ p.len = (rd s (STR_PB_LEN ch)).toNat ∧ p.stopReq = false))) ∧
    (∀ (w : W32) p, regOn s (STR_PB_CTRL ch) = true → bitOf w.toNat 0 = false → bitOf w.toNat 1 = true → pbOf s ch = some p →
      Completes (.playbackStop ch w) s (fun t => pbOf t ch = some { p with stopReq := true } ∧
        ∀ h, h ≠ ch.val → pbOf t h = pbOf s h)) ∧
    (∀ p, pbOf s ch = some p →
      (running s p.dom = true → pbState s ch = 1 → p.stopReq = false → p.start ≤ (genOf s p.dom).next →
        Completes (.playbackStart ch) s (fun t => pbState t ch = 2 ∧ t.str = s.str)) ∧
      (running s p.dom = true → p.stopReq = true ∨ (p.len ≠ 0 ∧ p.start + p.len ≤ (genOf s p.dom).next) →
        Completes (.playbackEnd ch) s (fun t => pbState t ch = 0 ∧ pbOf t ch = none ∧ ∀ h, h ≠ ch.val → pbOf t h = pbOf s h)) ∧
      (pbState s ch = 2 → p.lateRead = false → Completes (.playbackReadLate ch) s (fun t =>
        pbOf t ch = some { p with lateRead := true } ∧ rd t STR_PB_LATE = rd s STR_PB_LATE + 1)))

/-- 11 R342, R344: an offset within the step limit runs the servo when PTP is selected: integ and adj move by ki and kp of
the offset within ±max, and fed_timer is reloaded; with another input selected only fed_timer is; beyond the limit the
offset is refused, kept and counted, and the servo stays. A change of master reloads fed_timer alone; fed_timer running out
holds adj at integ and disqualifies PTP.
The model's own choices in it: log 30. -/
def Obligations.Servo : Prop :=
  ∀ (s : State) (w : W32), Ready s → regOn s TIM_SERVO_CTRL = true →
    let theta := (rd s TIM_SERVO_OFFSET).toInt
    let limit : Int := clampN 1000 1000000000 (fget s TIM_STEP_LIMIT TIM_STEP_LIMIT_limit_ns)
    let max : Int := 256 * clampN 1000 200000 (fget s TIM_SERVO_MAX TIM_SERVO_MAX_max_ppb)
    let integ := clampI max (s.tim.integ - fget s TIM_SERVO_CFG TIM_SERVO_CFG_ki * theta)
    (wbit w TIM_SERVO_CTRL_update = true → wbit w TIM_SERVO_CTRL_master_change = false →
      (limit < theta.natAbs → Completes (.servoUpdate w) s (fun t =>
        rd t TIM_SERVO_REFUSED = rd s TIM_SERVO_OFFSET ∧ fget t TIM_SERVO_STATUS TIM_SERVO_STATUS_step_refused = 1 ∧
        rd t TIM_STEP_REFUSED = rd s TIM_STEP_REFUSED + 1 ∧ t.tim = s.tim)) ∧
      (theta.natAbs ≤ limit → selected s = 0 → Completes (.servoUpdate w) s (fun t =>
        t.tim.theta = theta ∧ t.tim.integ = integ ∧ t.tim.adj = clampI max (integ - fget s TIM_SERVO_CFG TIM_SERVO_CFG_kp * theta) ∧
        t.tim.fedTimer = fedReload s ∧ fget t TIM_SERVO_STATUS TIM_SERVO_STATUS_step_refused = 0 ∧
        fget t TIM_SERVO_STATUS TIM_SERVO_STATUS_fed = 1 ∧ rd t TIM_STEP_REFUSED = rd s TIM_STEP_REFUSED ∧ t.tim.freiz = s.tim.freiz)) ∧
      (theta.natAbs ≤ limit → selected s ≠ 0 → Completes (.servoUpdate w) s (fun t =>
        t.tim = { s.tim with fedTimer := fedReload s, theta := theta } ∧ fget t TIM_SERVO_STATUS TIM_SERVO_STATUS_step_refused = 0 ∧
        fget t TIM_SERVO_STATUS TIM_SERVO_STATUS_fed = 1))) ∧
    (wbit w TIM_SERVO_CTRL_update = false → wbit w TIM_SERVO_CTRL_master_change = true → Completes (.masterChange w) s (fun t =>
      t.tim = { s.tim with fedTimer := fedReload s } ∧ fget t TIM_SERVO_STATUS TIM_SERVO_STATUS_fed = 1)) ∧
    (fbit s TIM_SERVO_STATUS TIM_SERVO_STATUS_fed = true → Completes .fedTimerExpire s (fun t =>
      t.tim.fedTimer = 0 ∧ t.tim.adj = s.tim.integ ∧ t.tim.integ = s.tim.integ ∧
      fget t TIM_SERVO_STATUS TIM_SERVO_STATUS_fed = 0 ∧ qualified t 0 = false))

/-- 11 R346, R347: an accepted time step waits for the tick of its domain; applied, it moves Freiz time by the step, gives
every domain that does not run on its own the offsets that R347 computes, clears step_refused and counts.
The model's own choices in it: logs 19, 31. -/
def Obligations.TimeSteps : Prop :=
  ∀ (s : State),
    (∀ (iss : Fin 256) (e : BitVec 512), Accepts s 0x0201 e [(16, 2), (24, 12)] → eByte e 16 1 = 1 → s.tim.stepWait = none →
      (stepDom s).isSome = true →
      (eByte e 17 1 = 1 → Completes (.timeStep iss e) s (fun t =>
        t.tim = { s.tim with stepWait := some ⟨(BitVec.ofNat 64 (eByte e 24 8)).toInt * 2 ^ 32 + eByte e 32 4, (allot iss e s).1⟩ })) ∧
      (eByte e 17 1 = 0 → fbit s TIM_SERVO_STATUS TIM_SERVO_STATUS_step_refused = true → Completes (.timeStep iss e) s (fun t =>
        t.tim = { s.tim with stepWait := some ⟨-((rd s TIM_SERVO_REFUSED).toInt) * 2 ^ 32, (allot iss e s).1⟩ }))) ∧
    (∀ w, Ready s → s.tim.stepWait = some w → Completes .stepApply s (fun t =>
      t.tim.stepWait = none ∧ t.tim.freiz = ((s.tim.freiz : Int) + w.delta).toNat ∧
      fget t TIM_SERVO_STATUS TIM_SERVO_STATUS_step_refused = 0 ∧ rd t TIM_STEP_DONE = rd s TIM_STEP_DONE + 1 ∧
      ∀ x, (pdGet t.tim.delta x, pdGet t.tim.rho x) = (if isIndep s x then (pdGet s.tim.delta x, pdGet s.tim.rho x)
        else stepOffsets (pdGet s.tim.delta x) (pdGet s.tim.rho x) w.delta (domHz s x))))

/-- 11 R351 to R353: an input measured in tolerance, with SYSREF or the fed timer in order where it is that one, becomes
present and qualified; else only its measurement is kept. A missing period of a frequency input is noted, in a row with the
one before it or as the first; the third in a row disqualifies; PTP's is the expiry of fed_timer, and SYSREF has none.
Leaving the range disqualifies and counts; the loss of the input in use puts a running primary DPLL into HOLDOVER with a
hold-off; SYSREF's qualification is sysref_ok's.
11 R353, R355 to R357: with SYSREF in order, the end of a hold-off, of a wait to restore (for a better input, in revertive
mode), a retry after a rank conflict, and a write to the priority table or the selection settings run a selection: the input
that R356 names becomes the selected one, or none does. While SYSREF is lost the end of a hold-off selects nothing.
The model's own choices in it: logs 30, 32, 143, 144, 145. -/
def Obligations.ReferenceInputs : Prop :=
  (∀ (s : State) (i : Fin 9) (freq : BitVec 32) (again : Bool), Ready s →
    let ok := freq.toInt.natAbs ≤ 1600 * clampN 1 1000 (fget s TIM_REF_QUAL TIM_REF_QUAL_tol) ∧ (i.val = 8 → sysrefOk s = true) ∧
      (i.val = 0 → fbit s TIM_SERVO_STATUS TIM_SERVO_STATUS_fed = true)
    let n := (if again then smGet 0 s.tim.missing i else 0) + 1
    let others := fun (t : State) => ∀ j : Fin 9, j ≠ i → qualified t j = qualified s j
    let nothing := fun (t : State) => t.tim = s.tim ∧ ∀ j : Fin 9, qualified t j = qualified s j
    (ok → Completes (.refQualify i freq) s (fun t =>
        qualified t i = true ∧ present t i = true ∧ rd t (TIM_REF_FREQ i) = freq ∧ smGet 0 t.tim.missing i = 0 ∧ others t)) ∧
    (¬ok → Completes (.refQualify i freq) s (fun t => rd t (TIM_REF_FREQ i) = freq ∧ nothing t)) ∧
    (1 ≤ i.val → i.val ≤ 7 → Completes (.refMissingPeriod ⟨i, again⟩) s (fun t =>
      smGet 0 t.tim.missing i = n ∧ present t i = false ∧ qualified t i = (qualified s i && decide (n < 3)) ∧ others t)) ∧
    (i.val = 0 → fbit s TIM_SERVO_STATUS TIM_SERVO_STATUS_fed = true → Completes (.refMissingPeriod ⟨i, again⟩) s (fun t =>
      fget t TIM_SERVO_STATUS TIM_SERVO_STATUS_fed = 0 ∧ qualified t i = false ∧ present t i = false ∧ others t)) ∧
    (i.val = 8 → Completes (.refMissingPeriod ⟨i, again⟩) s nothing) ∧
    (i.val ≠ 8 → qualified s i = true → Completes (.refDisqualify i freq) s (fun t =>
      qualified t i = false ∧ others t ∧ rd t TIM_DISQUAL = rd s TIM_DISQUAL + 1 ∧
      (selected s = i.val → dpllState s false ≤ 2 → dpllState t false = 3 ∧ t.tim.holdOff = true ∧ selected t = i.val))) ∧
    (i.val = 8 → Completes (.refDisqualify i freq) s nothing)) ∧
  (∀ (s : State) (j : Nat), Ready s →
    (s.tim.holdOff = true →
      (sysrefOk s = true → selectInput s = (some j, false) → Completes .holdOffExpire s (fun t => t.tim.holdOff = false ∧ selected t = j)) ∧
      (∀ c, sysrefOk s = true → selectInput s = (none, c) → Completes .holdOffExpire s (fun t => t.tim.holdOff = false ∧ selected t = 15)) ∧
      (sysrefOk s = false → Completes .holdOffExpire s (fun t => t.tim.holdOff = false ∧ selected t = selected s))) ∧
    (∀ (i : Fin 9) a b, sysrefOk s = true → refRank s i = some a → refRank s (selected s) = some b → a < b →
      fbit s TIM_SEL_CFG TIM_SEL_CFG_revertive = true → qualified s i = true → s.tim.holdOff = false →
      selectInput s = (some j, false) → Completes (.wtrExpire i) s (fun t => selected t = j)) ∧
    (sysrefOk s = true → fbit s TIM_DPLL_STATUS TIM_DPLL_STATUS_rank_conflict = true → selectInput s = (some j, false) →
      Completes .rankConflictRetry s (fun t => selected t = j ∧ fget t TIM_DPLL_STATUS TIM_DPLL_STATUS_rank_conflict = 0)) ∧
    (∀ (e : Fin 9) (w : W32), s.tim.holdOff = false → sysrefOk s = true →
      let k := if e.val = 8 then TIM_SEL_CFG else TIM_PRIO e
      regOn s k = true → isSealed s k = false → selectInput (fieldsWrite s k w) = (some j, false) →
      Completes (.priorityWrite e w) s (fun t => rd t k = rd (fieldsWrite s k w) k ∧ selected t = j)))

/-- 11 R353, R358 to R364: a DPLL in ACQUIRING whose phase is within 4,000 units enters LOCKED with its samples cleared; its
bandwidth halves down to track_bw; a second in LOCKED gives a sample, which joins the last 62, and the phase error, unless PTP
is selected; HOLDOVER ends in LOST. The loss of SYSREF puts both
DPLLs into LOST, frozen, with the input disqualified; its return qualifies it again.
11 R368, R369: at each whole second in turn the PPS output rises when it is enabled, the outputs are open and its conditions hold,
and falls after its width; an edge at the input is stamped to a quarter of a nanosecond and counted.
The model's own choices in it: logs 30, 33, 34, 142, 143. -/
def Obligations.DpllsAndPps : Prop :=
  (∀ (s : State) (aux : Bool) (freq phase : BitVec 32), Ready s →
    let samples := fun (t : State) => if aux then t.tim.auxSamples else t.tim.samples
    let bw := fun (t : State) => if aux then t.tim.auxBw else t.tim.bw
    (dpllState s aux = 1 → phase.toInt.natAbs ≤ 4000 → Completes (.dpllLock aux freq phase) s (fun t =>
      dpllState t aux = 2 ∧ dpllState t (!aux) = dpllState s (!aux) ∧ dpllFreq t aux = freq.toInt ∧ samples t = [])) ∧
    (dpllState s aux = 2 → aux = true ∨ selected s ≠ 0 → Completes (.bandwidthHalve aux) s (fun t =>
      bw t = Nat.max (65536 * clampN 1 1000 (fget s TIM_DPLL_CFG TIM_DPLL_CFG_track_bw)) (bw s / 2) ∧ dpllState t aux = 2)) ∧
    (dpllState s aux = 2 → Completes (.holdoverSample aux ⟨freq, phase⟩) s (fun t =>
      samples t = (freq.toInt :: samples s).take 62 ∧ dpllFreq t aux = freq.toInt ∧ dpllState t aux = 2 ∧
      (aux = true → t.tim.auxPhase = phase.toInt ∧ rd t TIM_DPLL_PHASE = rd s TIM_DPLL_PHASE) ∧
      (aux = false → rd t TIM_DPLL_PHASE = (if selected s = 0 then rd s TIM_DPLL_PHASE else phase)))) ∧
    (dpllState s aux = 3 → Completes (.holdoverExpire aux) s (fun t =>
      dpllState t aux = 4 ∧ dpllState t (!aux) = dpllState s (!aux) ∧ dpllFreq t aux = dpllFreq s aux)) ∧
    (Completes .sysrefLoss s (fun t =>
      fget t TIM_DPLL_STATUS TIM_DPLL_STATUS_sysref_ok = 0 ∧ dpllState t false = 4 ∧ dpllState t true = 4 ∧ qualified t 8 = false)) ∧
    (fbit s TIM_DPLL_STATUS TIM_DPLL_STATUS_sysref_ok = false → Completes .sysrefReturn s (fun t =>
      fget t TIM_DPLL_STATUS TIM_DPLL_STATUS_sysref_ok = 1 ∧ qualified t 8 = true ∧ t.tim.holdOff = false))) ∧
  (∀ (s : State), Ready s →
    (fbit s PRT_PPS_CFG PRT_PPS_CFG_enable = true → fbit s PRT_PPS_CFG PRT_PPS_CFG_locked_only = false → outputsOpen s = true →
      domOn s 13 = true → s.pin.absent.contains .vddio3 = false → Completes .ppsOutPulse s (fun t =>
        t.pin.ppsOut = true ∧ Emit.pps true ∈ t.out ∧ t.tim.freiz = ppsSecond s * secU ∧ ppsSecond t = ppsSecond s + 1)) ∧
    (s.pin.ppsOut = true → Completes .ppsOutPulseEnd s (fun t => t.pin.ppsOut = false ∧ Emit.pps false ∈ t.out ∧ t.tim = s.tim)) ∧
    (∀ at_ : Nat, s.pin.absent.contains .vddio3 = false → domOn s 13 = true → s.tim.freiz ≤ at_ → Completes (.ppsInEdge at_) s (fun t =>
      t.tim.freiz = at_ ∧ t.tim.ppsIn = at_ / 2 ^ 30 * 2 ^ 30 ∧ rd t PRT_PPS_IN = rd s PRT_PPS_IN + 1)))

/-- 12 R374, R377 to R387: a TWIN message joins the twin link's queue; a lost peer lowers TWIN_DIVERGE and makes a withdrawn
twin A due to return to air; a due withdrawal takes the engine off air, and an owner is then due to release its outputs;
withdraw accuses with cause 8; rejoin makes a withdrawn engine due to return, or is refused by its code; release waits for
the next tick; an owned-low or owned-high sample of TWIN_OWN_IN releases the lock or takes the outputs.
The model's own choices in it: logs 38, 51. -/
def Obligations.TwinControl : Prop :=
  ∀ (s : State) (w : W32), Ready s →
    let only := fun (a b c : Bool) => wbit w TWN_CTRL_withdraw = a ∧ wbit w TWN_CTRL_rejoin = b ∧ wbit w TWN_CTRL_release = c ∧ regOn s TWN_CTRL = true
    (isTwin s = true → Completes .twinMessageSend s (fun t => (daxLink t 0).queue = (daxLink s 0).queue ++ [twinMsg s] ∧ t.twn = s.twn)) ∧
    (isTwin s = true → peerState s ≠ 0 → Completes .peerLost s (fun t =>
      peerState t = 3 ∧ fget t TWN_STATUS TWN_STATUS_diverge = 0 ∧
      onAir t = onAir s ∧ t.twn.withdrawn = s.twn.withdrawn ∧
      t.twn.airDue = (if s.twn.withdrawn ∧ roleB s = false then some true else s.twn.airDue))) ∧
    (s.twn.withdrawDue = true → Completes .withdraw s (fun t =>
      t.twn.withdrawDue = false ∧ t.twn.withdrawn = true ∧ onAir t = false ∧ isOwner t = isOwner s ∧ t.twn.releaseDue = isOwner s)) ∧
    (only true false false → isTwin s = true → Completes (.hostWithdraw w) s (fun t =>
      fget t TWN_STATUS TWN_STATUS_accused = 1 ∧ fget t TWN_STATUS TWN_STATUS_cause = 8 ∧ rd t TWN_ACCUSE = rd s TWN_ACCUSE + 1 ∧
      (2 ≤ peerState s → fget t TWN_STATUS TWN_STATUS_sole = 1 ∧ t.twn = s.twn) ∧
      (peerState s < 2 → s.twn.withdrawn = false → t.twn = { s.twn with withdrawDue := true }))) ∧
    (only false true false →
      (isTwin s = false → Completes (.rejoin w) s (fun t => fget t TWN_STATUS TWN_STATUS_refusal = 1 ∧ t.twn = s.twn)) ∧
      (isTwin s = true → peerState s ≠ 1 → Completes (.rejoin w) s (fun t => fget t TWN_STATUS TWN_STATUS_refusal = 2 ∧ t.twn = s.twn)) ∧
      (isTwin s = true → peerState s = 1 → someUnmatched s = true → Completes (.rejoin w) s (fun t =>
        fget t TWN_STATUS TWN_STATUS_refusal = 3 ∧ t.twn = s.twn)) ∧
      (isTwin s = true → peerState s = 1 → someUnmatched s = false → Completes (.rejoin w) s (fun t =>
        fget t TWN_STATUS TWN_STATUS_refusal = 0 ∧ onAir t = onAir s ∧ fget t TWN_STATUS TWN_STATUS_accused = 0 ∧
        fget t TWN_STATUS TWN_STATUS_cause = 0 ∧ t.twn = { s.twn with withdrawDue := false, relLock := false,
                                                                      airDue := if s.twn.withdrawn then some false else none }))) ∧
    (only false false true → isOwner s = true → Completes (.releaseOwnership w) s (fun t => t.twn = { s.twn with releaseDue := true })) ∧
    ((ownDomain s).isSome = true →
      Completes (.ownershipSample false) s (fun t => t.twn = { s.twn with relLock := false, highs := 0 } ∧
        fget t TWN_STATUS TWN_STATUS_own_in = 0 ∧ isOwner t = isOwner s) ∧
      (isTwin s = true → outputsOpen s = true → onAir s = true → fbit s TWN_CFG TWN_CFG_own_enable = true → isOwner s = false →
        s.twn.relLock = false → (if roleB s then 2 else 1) ≤ s.twn.highs + 1 → Completes (.ownershipSample true) s (fun t =>
          isOwner t = true ∧ t.twn = { s.twn with ownOut := true, highs := 0 } ∧ rd t TWN_OWN_CHANGE = rd s TWN_OWN_CHANGE + 1)))

/-- 12 R375, R376: the words of a block that has ended join the engine's own words and go to the twin link; an own word that
no peer word has met after 16 blocks counts once as missing.
The model's own choices in it: log 36. -/
def Obligations.Provenance : Prop :=
  ∀ (s : State) (x : Dom), Ready s →
    (∀ d a, twnMode s ≠ 0 → s.twn.acc = [(d, some a)] → a.dom = x → a.n = 64 → Completes (.provenanceBlock x) s (fun t =>
      let p : ProvWord := ⟨x, a.j, d, a.crc, false⟩
      t.twn.acc = [] ∧ p ∈ t.twn.own ∧ ∃ m, (daxLink t 0).queue = (daxLink s 0).queue ++ [m] ∧ m.type = 0x20 ∧ m.body = [provTag p, p.word])) ∧
    (∀ (d : Fin 4096) j, let unmet := fun (t : State) =>
        (t.twn.own ++ t.twn.missed).any (fun w => w.dom == x && w.d == d.val && w.j == j && !w.seen)
      unmet s = true → Completes (.provenanceMissing x d j) s (fun t => rd t TWN_MISSING = rd s TWN_MISSING + 1 ∧ unmet t = false ∧
        (smGet ⟨0, 0, 0, false⟩ t.twn.runs d).good = 0))

/-- 12 R391 to R397: an accepted CONSERVE puts the OFF units in scope among the spares and keeps its settings; a pass ends
the mode or counts another; an accepted ROTATE takes the named spare out of the list and copies to it; the schedule issues
a rotation of the next unit in its order.
The model's own choices in it: logs 8, 37. -/
def Obligations.ConserveAndRotate : Prop :=
  ∀ (s : State),
    (∀ (iss : Fin 256) (e : BitVec 512), Accepts s 0x0501 e [(16, 2), (24, 8)] →
      let a := eByte e 24 8
      eByte e 16 1 < 64 → eByte e 17 1 < 2 → a % 4096 = 0 → inStore a 32768 = true → fbit s CTL_BG_EN CTL_BG_EN_conserve = true →
      s.twn.conserve = none → Completes (.conserve iss e) s (fun t =>
        t.twn.conserve = some ⟨eByte e 16 1, eByte e 17 1 = 1, a, (allot iss e s).1, 0⟩ ∧
        (∀ kind u, 1 ≤ kind → kind ≤ 3 → u < unitCount kind → roleOf t kind u =
          (if bitOf (eByte e 16 1) (kind - 1) ∧ roleOf s kind u = roleOff then roleSpare else roleOf s kind u)))) ∧
    (∀ (c : Conserve), Ready s → paused s 1 = false → s.twn.conserve = some c → Completes (.conservePassEnd []) s (fun t =>
      t.twn.consSeq = s.twn.consSeq + 1 ∧ t.twn.conserve = (if c.repeating then some { c with passes := c.passes + 1 } else none))) ∧
    (∀ (iss : Fin 256) (e : BitVec 512), Accepts s 0x0502 e [(16, 4)] →
      let kind := eByte e 16 1
      let j := eByte e 17 1
      let u := eByte e 18 1
      1 ≤ kind → kind ≤ 3 → j < logicalCount kind → u < unitCount kind → eByte e 19 1 ≤ 1 →
      fbit s CTL_BG_EN CTL_BG_EN_rotation = true → s.twn.rot = none → canSpare s kind u = true → Completes (.rotate iss e) s (fun t =>
        t.twn.rot = some ⟨kind, j, u, physOf s kind j, eByte e 19 1 = 1, (allot iss e s).1, 0, 0, 0, 0, 0, false, none⟩ ∧ rotPhase t = 1 ∧
        t.twn.spares = s.twn.spares.filter (· != (kind, u)))) ∧
    (∀ q, Ready s → fbit s TWN_ROT_SCHED TWN_ROT_SCHED_enable = true → schedPick s s.twn.schedNext = some q →
      Completes .scheduledRotation s (fun t => t.twn.schedNext = (q + 1) % 160 ∧
        (ticketsFull s = true → t.ctl.waitq = s.ctl.waitq ++ [(0x20, schedEntry q)])))

/-- 14 R448 to R450: an accepted RETIRE_CHANNEL latches K and starts the migration of its channel; an accepted
READMIT_CHANNEL starts with training; when the migration is done the channel is RETIRED, or READY again when it trained, or as
it was when it did not.
The model's own choices in it: logs 48, 160. -/
def Obligations.ChannelMigration : Prop :=
  ∀ (s : State),
    (∀ (iss : Fin 256) (e : BitVec 512), Accepts s 0x0401 e [(16, 1)] →
      let ch := eByte e 16 1
      bgEnabled s 3 = true → ch < 4 → chState s ch = chREADY ∨ chState s ch = chFAULTY → s.drc.migr = none → retiredCh s = none →
      subsN s ≠ 2 → chunksK s + 2 * ((chunksK s + (subsN s - 2) - 1) / (subsN s - 2)) ≤ smallestLeft s ch / grainOf s →
      Completes (.retireChannel iss e) s (fun t =>
        chState t ch = chRETIRING ∧ fget t DRC_STATUS DRC_STATUS_migrating = 1 ∧
        t.drc.migr = some ⟨ch, false, 0, (allot iss e s).1, chState s ch = chFAULTY, true⟩ ∧ t.drc.chunks = chunksK s ∧ t.mem = s.mem)) ∧
    (∀ (iss : Fin 256) (e : BitVec 512), Accepts s 0x0402 e [(16, 1)] →
      let ch := eByte e 16 1
      bgEnabled s 3 = true → ch < 4 → chState s ch = chRETIRED ∨ chState s ch = chFAULTY → s.drc.migr = none →
      Completes (.readmitChannel iss e) s (fun t =>
        chState t ch = chREADMITTING ∧ fget t DRC_STATUS DRC_STATUS_migrating = 1 ∧ fget t DRC_STATUS DRC_STATUS_training = 1 ∧
        t.drc.migr = some ⟨ch, true, 0, (allot iss e s).1, chState s ch = chFAULTY, false⟩ ∧ t.mem = s.mem)) ∧
    (∀ (m : Migration) (trained : Bool), Ready s → s.drc.migr = some m → m.ch < 4 → Completes (.migrationDone trained) s (fun t =>
      t.drc.migr = none ∧ fget t DRC_STATUS DRC_STATUS_migrating = 0 ∧ fget t DRC_STATUS DRC_STATUS_training = 0 ∧
      (m.back = false → chState t m.ch = chRETIRED ∧ fget t DRC_STATUS DRC_STATUS_retired = m.ch ∧
        fget t DRC_STATUS DRC_STATUS_retired_valid = 1) ∧
      (m.back = true → m.trained = true → chState t m.ch = (if trained then chREADY else if retiredCh s = some m.ch then chRETIRED else chFAULTY))))

/-- 13 R403, R407, R409, R411, R415: a read of the Storeroom or the common room inside one burst answers the bytes that the master's port sees,
and changes nothing; an uncorrectable word answers an error and counts. A write of a whole word replaces its bytes, and no
others, and takes its error away; a shorter one waits in the merge buffer of its bank. A write to the SET alias raises the
bits that the data and the strobes name, one to the CLR alias lowers them, in that word alone. An unmapped access is
answered with an error and counted. The host's writes are posted and get no answer (15 R456). An access that the protection
of a control core stops goes no further: the core takes the access fault, in machine mode, at its handler (16 R477).
The model's own choices in it: logs 1, 15, 42, 158, 159. -/
def Obligations.AtriumAccesses : Prop :=
  ∀ (s : State) (m : Fin 21) (a : Nat), Ready s →
    let room := fun n : Nat => inStore a n = true ∨ (0x2000_0000 ≤ a ∧ a + n ≤ 0x2008_0000)
    let lets := fun (x n : Nat) (store : Bool) => m.val < 8 → pmpLets s m x n store = true ∧ (store = true ∨ cacheFault s m x = none)
    let answered := fun (t : State) (ok : Bool) => m.val ≠ 8 → Emit.writeResp m ok ∈ t.out
    let trapped := fun (t : State) (cause : Nat) =>
      let h := hartOf s m
      let st := fun (s : State) lo n => bitsOf (smGet 0 (hartOf s m).csr csrMSTATUS).toNat lo n
      (hartOf t m).user = false ∧ (hartOf t m).pc = smGet 0 h.csr csrMTVEC &&& ~~~3#64 ∧ smGet 0 (hartOf t m).csr csrMEPC = h.pc ∧
      smGet 0 (hartOf t m).csr csrMCAUSE = BitVec.ofNat 64 cause ∧ st t 3 1 = 0 ∧ st t 7 1 = st s 3 1 ∧
      st t 11 2 = (if h.user then 0 else 3) ∧ t.mem = s.mem ∧ t.ecc = s.ecc ∧ t.drc = s.drc ∧ ∀ k, ¬settleKey k → rd t k = rd s k
    (m.val < 8 → ∀ n found, pmpLets s m a n false = false → Completes (.atriumRead m a n found) s (fun t => trapped t 5)) ∧
    (m.val < 8 → ∀ l found, pmpLets s m a l.length true = false → Completes (.atriumWrite m a l found) s (fun t => trapped t 7)) ∧
    (∀ n found w, m.val < 8 → pmpLets s m a n false = true → cacheFault s m a = some w → Completes (.atriumRead m a n found) s (fun t =>
        rd t (MEM_UE 28) = rd s (MEM_UE 28) + 1 ∧ smGet 0 (hartOf t m).csr csrMCAUSE = 5 ∧ smGet none t.ctl.dcache (w / 8) = none ∧
        arrBad t 28 w = false ∧ t.mem = s.mem)) ∧
    (∀ n, 0 < n → a % 32 + n ≤ 128 → room n → filling s a n = false → lets a n false →
      (∀ w ∈ wordsIn a n, s.ecc.bad.contains w = false) → Completes (.atriumRead m a n []) s (fun t =>
        Emit.readData m (leVal (viewBytes s (decide (m.val = 8)) a n)) true ∈ t.out ∧
        t.mem = s.mem ∧ t.ecc = s.ecc ∧ t.drc = s.drc ∧ ∀ k, ¬settleKey k → rd t k = rd s k)) ∧
    (a % 8 = 0 → room 8 → filling s a 8 = false → lets a 8 false → lets a 8 true →
      (s.ecc.bad.contains (a / 8) = true → queueHolds s (a / 8) = false → Completes (.atriumRead m a 8 []) s (fun t =>
        Emit.readData m (leVal (viewBytes s (decide (m.val = 8)) a 8)) false ∈ t.out ∧ t.mem = s.mem ∧
        rd t (MEM_UE (regionOf s (a / 8))) = rd s (MEM_UE (regionOf s (a / 8))) + 1 ∧ rd t ATR_ERR_CNT = rd s ATR_ERR_CNT + 1)) ∧
      (∀ l : List Byte, l.length = 8 → Completes (.atriumWrite m a l []) s (fun t =>
        (∀ i, i < 8 → memByte t.mem (a + i) = l.getD i 0) ∧ (∀ x, x < a ∨ a + 8 ≤ x → memByte t.mem x = memByte s.mem x) ∧
        t.ecc.bad.contains (a / 8) = false ∧ answered t true ∧ t.drc = s.drc ∧ t.gal = s.gal ∧ t.cores = s.cores))) ∧
    (∀ l : List Byte, 0 < l.length → l.length < 8 → a % 8 + l.length ≤ 8 → inStore a l.length = true → filling s a l.length = false →
      lets a l.length true →
      let bank := storeBank (a - 0x4000_0000)
      s.ecc.merge.find? (fun e => e.port == bank && e.word == a / 8) = none →
      (s.ecc.merge.filter (fun e => e.port == bank)).length < 16 → Completes (.atriumWrite m a l []) s (fun t =>
        t.ecc.merge = s.ecc.merge ++ [⟨bank, a / 8, BitVec.ofNat 64 (overlay 0 (8 * (a / 8)) 8 a l),
          BitVec.ofNat 8 (strobesOf a l.length), m⟩] ∧ t.mem = s.mem ∧ answered t true)) ∧
    (∀ l : List Byte, target a l.length = .none → lets a l.length false → lets a l.length true →
      Completes (.atriumRead m a l.length []) s (fun t => Emit.readData m 0 false ∈ t.out ∧ t.mem = s.mem ∧ rd t ATR_ERR_CNT = rd s ATR_ERR_CNT + 1) ∧
      Completes (.atriumWrite m a l []) s (fun t => answered t false ∧ t.mem = s.mem ∧ rd t ATR_ERR_CNT = rd s ATR_ERR_CNT + 1)) ∧
    (∀ (data : BitVec 64) (strb : BitVec 8), a % 8 = 0 → inStore a 8 = true → filling s a 8 = false →
      s.ecc.merge.find? (fun e => e.port == storeBank (a - 0x4000_0000) && e.word == a / 8) = none →
      s.ecc.bad.contains (a / 8) = false → lets (a + 0x1000_0000) 8 true → lets (a + 0x2000_0000) 8 true →
      let old := fun i : Nat => BitVec.ofNat 8 (wordBelow s (a / 8) / 256 ^ i)
      let new := fun i : Nat => BitVec.ofNat 8 (data.toNat / 256 ^ i)
      (Completes (.setAliasWrite m (a + 0x1000_0000) data strb []) s (fun t =>
        (∀ i, i < 8 → memByte t.mem (a + i) = if strb.getLsbD i then old i ||| new i else old i) ∧
        (∀ x, x < a ∨ a + 8 ≤ x → memByte t.mem x = memByte s.mem x) ∧ answered t true)) ∧
      (Completes (.clrAliasWrite m (a + 0x2000_0000) data strb []) s (fun t =>
        (∀ i, i < 8 → memByte t.mem (a + i) = if strb.getLsbD i then old i &&& ~~~(new i) else old i) ∧
        (∀ x, x < a ∨ a + 8 ≤ x → memByte t.mem x = memByte s.mem x) ∧ answered t true)))

/-- 16 R481: LR reserves its word and returns it; SC writes its operand and answers 0 while the reservation holds, else
answers 1 and writes nothing; an AMO returns the old value and writes what its operation makes of it and the operand. The
bytes beside the operand's stay.
The model's own choices in it: log 46. -/
def Obligations.AtomicOperations : Prop :=
  ∀ (s : State) (c : Fin 8) (dbl : Bool) (a : Nat) (data : BitVec 64), Ready s →
    let n := if dbl then 8 else 4
    let w := a / 8
    let bank := storeBank (a - 0x4000_0000)
    let word := BitVec.ofNat 64 (wordBelow s w)
    let old := if dbl then word else ((word >>> (8 * (a % 8))).setWidth 32).signExtend 64
    let stored := fun (t : State) (v : BitVec 64) => (∀ i, i < n → memByte t.mem (a + i) = BitVec.ofNat 8 (v.toNat / 256 ^ i)) ∧
      (∀ x, x < a ∨ a + n ≤ x → memByte t.mem x = memByte s.mem x)
    a % n = 0 → inStore a n = true → filling s a n = false → queueHolds s w = false →
    s.ecc.merge.find? (fun e => e.port == bank && e.word == w) = none → s.ecc.bad.contains w = false →
    pmpLets s c a n false = true → pmpLets s c a n true = true →
    (Completes (.storeroomAmo c .lr dbl a data []) s (fun t =>
      Emit.readData c old.toNat true ∈ t.out ∧ t.ctl.resv.contains (bank, c.val, w) = true ∧ t.mem = s.mem)) ∧
    (s.ctl.resv.contains (bank, c.val, w) = true → Completes (.storeroomAmo c .sc dbl a data []) s (fun t =>
      Emit.readData c 0 true ∈ t.out ∧ stored t data ∧ t.ctl.resv.contains (bank, c.val, w) = false)) ∧
    (s.ctl.resv.contains (bank, c.val, w) = false → Completes (.storeroomAmo c .sc dbl a data []) s (fun t =>
      Emit.readData c 1 true ∈ t.out ∧ t.mem = s.mem)) ∧
    (∀ op : AmoOp, op ≠ .lr → op ≠ .sc → Completes (.storeroomAmo c op dbl a data []) s (fun t =>
      Emit.readData c old.toNat true ∈ t.out ∧ stored t (amoVal op (8 * n) old data)))

/-- 13 R406, R407: a codeword reads as its data; with one or two of its first 79 bits turned over it is corrected to them, and with
the address parity alone turned over it is uncorrectable. 13 R408, R410, R413, R414, R417, R421, R424: a merge entry is completed by read-modify-write; a corrected word's write-back
leaves the data; a bucket leaks by one, keeps its level within a new depth, rises with each correction, and overflows at its
depth; the end of a fill lets a stalled access proceed; a repair entry is programmed into OTP, whole or void.
The model's own choices in it: logs 29, 41, 43, 45, 158. -/
def Obligations.MemoryUpkeep : Prop :=
  (∀ (par : Bool) (d : BitVec 64), eccDecode par (codeword par d) = .clean d ∧ eccDecode par (codeword (!par) d) = .uncorrectable ∧
    ∀ i, i < 79 → eccDecode par (flipBits (codeword par d) [i]) = .fixed d 1 ∧
      ∀ j, i < j → j < 79 → eccDecode par (flipBits (codeword par d) [i, j]) = .fixed d 2) ∧
  ∀ (s : State), Ready s →
    (∀ (p : Fin 256) (e : MergeEnt), p.val < 66 → s.ecc.merge.find? (fun e => e.port == p.val) = some e → 8 * e.word < 0x1_0000_0000 →
      queueHolds s e.word = false →
      (s.ecc.bad.contains e.word = false → Completes (.mergeEntryComplete p []) s (fun t =>
        t.ecc.merge = s.ecc.merge.erase e ∧ (∀ i, i < 8 → memByte t.mem (8 * e.word + i) = if e.strobes.getLsbD i then
          BitVec.ofNat 8 (e.data.toNat / 256 ^ i) else memByte s.mem (8 * e.word + i)) ∧
        ∀ x, x / 8 ≠ e.word → memByte t.mem x = memByte s.mem x)) ∧
      (s.ecc.bad.contains e.word = true → Completes (.mergeEntryComplete p []) s (fun t =>
        t.ecc.merge = s.ecc.merge.erase e ∧ t.mem = s.mem ∧ rd t ATR_ERR_CNT = rd s ATR_ERR_CNT + 1))) ∧
    (Completes .correctedWriteback s (fun t => t.ecc = { s.ecc with wback := s.ecc.wback.tail,
                                                                    flips := s.ecc.flips.filter (fun (w, _) => s.ecc.wback.head? != some w || s.ecc.bad.contains w) } ∧ t.mem = s.mem ∧ t.drc = s.drc)) ∧
    (∀ (r : Fin 32),
      let level := fun t : State => fget t (MEM_BKT_LEVEL r) MEM_BKT_LEVEL_level
      (Completes (.bucketLeak r) s (fun t => level t = level s - 1 ∧ t.ecc = s.ecc ∧ t.mem = s.mem)) ∧
      (∀ w : W32, regOn s (MEM_BKT_CFG r) = true → Completes (.bucketConfigWrite r w) s (fun t =>
        rd t (MEM_BKT_CFG r) = rd (fieldsWrite s (MEM_BKT_CFG r) w) (MEM_BKT_CFG r) ∧
        level t = Nat.min (level s) (bktDepth t r) ∧ t.ecc = s.ecc ∧ t.mem = s.mem)) ∧
      (∀ (f : Finding) d n, f.region = r → r.val < 30 → patrolRead f = .fixed d n → Completes (.patrol f) s (fun t =>
          rd t MEM_LAST_CE = BitVec.ofNat 32 (b2n (decide (n = 2)) * 2 ^ 31 + r * 2 ^ 26 + f.column.toNat * 2 ^ 16 + f.array.toNat) ∧
          t.ecc.lastCe = f.word ∧
          (level s < bktDepth s r → level t = level s + 1 ∧ rd t (MEM_BKT_OVF r) = rd s (MEM_BKT_OVF r)) ∧
          (bktDepth s r ≤ level s → level t = level s ∧ rd t (MEM_BKT_OVF r) = rd s (MEM_BKT_OVF r) + 1))) ∧
      (∀ f : Finding, f.region = r → r.val < 4 → patrolRead f = .uncorrectable → Completes (.patrol f) s (fun t =>
        t.gal.badNodes.contains f.word = true ∧ level t = level s ∧ t.mem = s.mem))) ∧
    (∀ (b : Fin 65), (if b.val = 64 then s.ecc.fillCommon else fbit s (MEM_BANK_STATUS b) MEM_BANK_STATUS_filling) = true →
      (s.ecc.stalled = [] → Completes (.bankFillDone b) s (fun t =>
        (if b.val = 64 then t.ecc.fillCommon else fbit t (MEM_BANK_STATUS b) MEM_BANK_STATUS_filling) = false ∧ t.mem = s.mem)) ∧
      (∀ (m : Fin 21) a d, s.ecc.stalled = [⟨m, a, 8, some d, none⟩] → a % 8 = 0 → inStore a 8 = true → storeBank (a - 0x4000_0000) = b →
        Completes (.bankFillDone b) s (fun t =>
          t.ecc.stalled = [] ∧ (∀ i, i < 8 → memByte t.mem (a + i) = BitVec.ofNat 8 (d.toNat / 256 ^ i)) ∧
          (m.val ≠ 8 → Emit.writeResp m true ∈ t.out)))) ∧
    (∀ ok w ticket rest, s.ecc.repair = (w, ticket) :: rest → Completes (.repairDone ok) s (fun t =>
      t.perm.otp = s.perm.otp ++ [(s.perm.otp.length, if ok then w else w ||| 0x4000_0000#32)] ∧ t.ecc.repair = rest ∧
      fget t MEM_STATUS MEM_STATUS_repair_busy = (if rest = [] then 0 else 1) ∧ t.perm.fuses = s.perm.fuses))

/-- 13 R418 to R420, R424: an accepted SCRUB starts its pass; at its end the report's sequence number has moved on and no
scrub runs. An accepted REPAIR queues the programming of its OTP entry.
The model's own choices in it: logs 44, 45. -/
def Obligations.ScrubAndRepair : Prop :=
  ∀ (s : State) (iss : Fin 256) (e : BitVec 512),
    (Accepts s 0x0301 e [(16, 24)] →
      let a := eByte e 16 8
      let n := eByte e 24 8
      let rep := eByte e 32 8
      let dram := fun x k : Nat => inDramSpace x k = true ∧ dramReady s = true ∧ x + k - 0x1_0000_0000 ≤ dramBytes s
      bgEnabled s 1 = true → a % 8 = 0 → n % 8 = 0 → n ≠ 0 → (inStore a n = true ∨ (0x2000_0000 ≤ a ∧ a + n ≤ 0x2008_0000) ∨ dram a n) →
      rep % 64 = 0 → (inStore rep 320 = true ∨ dram rep 320) →
      s.ecc.scrub = none → Completes (.scrub iss e) s (fun t =>
        t.ecc.scrub = some ⟨a, n, rep, (allot iss e s).1, [], [], 0, 0⟩ ∧ fget t MEM_STATUS MEM_STATUS_scrub_busy = 1 ∧ t.mem = s.mem)) ∧
    (∀ j found, Ready s → paused s 3 = false → s.ecc.scrub = some j → Completes (.scrubDone found) s (fun t =>
      t.ecc.scrub = none ∧ t.ecc.scrubSeq = s.ecc.scrubSeq + 1 ∧ fget t MEM_STATUS MEM_STATUS_scrub_busy = 0)) ∧
    (Accepts s 0x0302 e [(16, 5)] →
      let array := eByte e 16 2
      let col := eByte e 18 2
      let spare := eByte e 20 1
      col < 640 → spare < 4 → s.pin.absent.contains .vppFuse = false → fbit s MEM_FUSE_SEAL MEM_FUSE_SEAL_fuse = false →
      s.perm.otp.length + s.ecc.repair.length < 256 → spareUsed s array spare = false → Completes (.repair iss e) s (fun t =>
        t.ecc.repair = s.ecc.repair ++ [(BitVec.ofNat 32 (2 ^ 31 + array * 2 ^ 14 + col * 2 ^ 4 + spare * 2 ^ 2), (allot iss e s).1)] ∧
        fget t MEM_STATUS MEM_STATUS_repair_busy = 1 ∧ t.perm = s.perm))

/-- 14 R445: a write that starts training is refused by its cause, or latches the configuration and trains the enabled
channels; at its end each of them is READY or TRAIN_FAILED, and DRAM is ready with two subchannels for each that trained; without
VDDQ_DRAM none trains (20 R581). The training of a readmission (R450) ends with the channel trained, or fails it.
The model's own choices in it: logs 20, 30, 48. -/
def Obligations.DramTraining : Prop :=
  ∀ (s : State), Ready s →
    (∀ w : W32, regOn s DRC_CTRL = true → wbit w DRC_CTRL_init = true →
      let en := chEnabled (rd s DRC_CFG)
      let refused := fun (t : State) (n : Nat) => fget t DRC_STATUS DRC_STATUS_refusal = n ∧
        fget t DRC_STATUS DRC_STATUS_training = fget s DRC_STATUS DRC_STATUS_training ∧ ∀ ch, ch < 4 → chState t ch = chState s ch
      let badCfg := 5 ≤ wget (rd s DRC_CFG) DRC_CFG_rate ∨ 11 ≤ wget (rd s DRC_CFG) DRC_CFG_grain
      let tooBig := en.any (fun ch => decide (2 ^ 34 < geomBytes (rd s (DRC_CH_GEOM ch))))
      let busy := dramReady s || fbit s DRC_STATUS DRC_STATUS_training
      (busy = true → Completes (.dramInit w) s (fun t => refused t 4)) ∧
      (busy = false → en = [] → Completes (.dramInit w) s (fun t => refused t 1)) ∧
      (busy = false → en ≠ [] → badCfg → Completes (.dramInit w) s (fun t => refused t 2)) ∧
      (busy = false → en ≠ [] → ¬badCfg → tooBig = true → Completes (.dramInit w) s (fun t => refused t 3)) ∧
      (busy = false → en ≠ [] → ¬badCfg → tooBig = false → Completes (.dramInit w) s (fun t =>
        fget t DRC_STATUS DRC_STATUS_refusal = 0 ∧ fget t DRC_STATUS DRC_STATUS_training = 1 ∧ 
        t.drc = { s.drc with cfg := rd s DRC_CFG, geoms := (List.range 4).map (fun ch => rd s (DRC_CH_GEOM ch)) } ∧
        ∀ ch, ch < 4 → chState t ch = if en.contains ch then chTRAINING else chState s ch))) ∧
    (∀ (ok : BitVec 4) m, s.drc.migr = some m → m.back = true → m.trained = false →
      let good := ok.getLsbD m.ch && !s.pin.absent.contains .vddqDram
      (good = true → Completes (.trainingDone ok) s (fun t => t.drc = { s.drc with migr := some { m with trained := true } } ∧
        fget t DRC_STATUS DRC_STATUS_training = 0 ∧ ∀ ch, ch < 4 → chState t ch = chState s ch)) ∧
      (good = false → m.ch < 4 → Completes (.trainingDone ok) s (fun t => t.drc = { s.drc with migr := none } ∧
        fget t DRC_STATUS DRC_STATUS_training = 0 ∧ fget t DRC_STATUS DRC_STATUS_migrating = 0 ∧
        ∀ ch, ch < 4 → chState t ch = if ch = m.ch then (if retiredCh s = some m.ch then chRETIRED else chFAULTY) else chState s ch))) ∧
    (∀ ok : BitVec 4, fbit s DRC_STATUS DRC_STATUS_training = true → s.drc.migr.filter (fun m => m.back && !m.trained) = none →
      let good := fun ch : Nat => ok.getLsbD ch && !s.pin.absent.contains .vddqDram
      let up := (List.range 4).filter (fun ch => chState s ch == chTRAINING && good ch)
      Completes (.trainingDone ok) s (fun t =>
        fget t DRC_STATUS DRC_STATUS_training = 0 ∧
        (∀ ch, ch < 4 → chState t ch = if chState s ch = chTRAINING then (if good ch then chREADY else chTRAINFAILED)
          else chState s ch) ∧
        (up = [] → dramReady t = dramReady s ∧ t.drc = s.drc) ∧
        (up ≠ [] → dramReady t = true ∧ t.drc.subs = (up.map (fun ch => [2 * ch, 2 * ch + 1])).flatten ∧
          fget t DRC_STATUS DRC_STATUS_n = 2 * up.length)))

/-- 14 R434 to R437, R440, R441, R443, R444, R447: a subchannel issues a command that waits: a refresh counts down those due,
a read leaves its queue, a write stores its whole words and leaves the write queue, a retirement or a readmission moves on by
one chunk. Refreshes and retrainings become due,
drains start at hi_wm and end at lo_wm, a background read is promoted, a fourth alert in a window makes its channel FAULTY
and an earlier one has the commands replayed, throttling ends, and row counts end with their window.
The model's own choices in it: logs 14, 30, 48, 49. -/
def Obligations.DramScheduling : Prop :=
  ∀ (s : State) (sub : Fin 8), Ready s →
    let ch := sub.val / 2
    let mine := s.drc.wq.filter (fun e => e.sub == sub.val)
    (∀ skip, chState s ch ≠ chFAULTY → dramRuns s = true →
      ((dramOrder s sub)[skip]? = some .refresh → Completes (.dramCommandIssue sub skip) s (fun t =>
        smGet 0 t.drc.refDue sub = smGet 0 s.drc.refDue sub - 1 ∧ Emit.dram sub 1 0 ∈ t.out ∧ t.mem = s.mem ∧ t.drc.rq = s.drc.rq ∧
        t.drc.wq = s.drc.wq ∧ ∀ k, k / 4096 = sub.val → smGet none t.drc.openRow k = none)) ∧
      ((dramOrder s sub)[skip]? = some .replay → Completes (.dramCommandIssue sub skip) s (fun t =>
        t.drc = { s.drc with replay := smSet 0 s.drc.replay ch (smGet 0 s.drc.replay ch - 1) } ∧ Emit.dram sub 0 0 ∈ t.out ∧ t.mem = s.mem)) ∧
      ((dramOrder s sub)[skip]? = some .retrain → Completes (.dramCommandIssue sub skip) s (fun t =>
        t.drc = { s.drc with retrainDue := s.drc.retrainDue.erase sub } ∧ Emit.dram sub 2 0 ∈ t.out ∧ t.mem = s.mem)) ∧
      (∀ b, (dramOrder s sub)[skip]? = some (.rfm b) → Completes (.dramCommandIssue sub skip) s (fun t =>
        t.drc.rfmDue = s.drc.rfmDue.erase (sub.val, b) ∧ Emit.dram sub 3 b ∈ t.out ∧ t.mem = s.mem ∧ t.drc.rq = s.drc.rq)) ∧
      (∀ r, (dramOrder s sub)[skip]? = some (.read r) → Completes (.dramCommandIssue sub skip) s (fun t =>
        t.drc.rq = s.drc.rq.erase r ∧ Emit.dram sub 4 r.burst ∈ t.out ∧ t.mem = s.mem ∧ t.drc.wq = s.drc.wq)) ∧
      (∀ m, (dramOrder s sub)[skip]? = some .copy → s.drc.migr = some m → Completes (.dramCommandIssue sub skip) s (fun t =>
        t.drc.migr = some { m with k := m.k + 1 } ∧ Emit.dram sub 6 m.k ∈ t.out ∧ ((m.lost = false ∨ m.back = true) → t.mem = s.mem) ∧
        t.drc.wq.length = s.drc.wq.length ∧ t.drc.rq.length = s.drc.rq.length)) ∧
      (∀ e, (dramOrder s sub)[skip]? = some (.write e) → s.drc.stalled = [] → Completes (.dramCommandIssue sub skip) s (fun t =>
        t.drc.wq = s.drc.wq.erase e ∧ Emit.dram sub 5 e.burst ∈ t.out ∧ Emit.dramBurst sub (burstBeats t e.burst) ∈ t.out ∧ t.drc.rq = s.drc.rq ∧
        (∀ i, i < 64 → memByte t.mem (64 * e.burst + i) = if e.mask.getLsbD (i / 8) then BitVec.ofNat 8 (e.data.toNat / 256 ^ i)
          else memByte s.mem (64 * e.burst + i)) ∧
        (∀ i, i < 8 → e.mask.getLsbD i = true → t.ecc.bad.contains (8 * e.burst + i) = false) ∧
        (∀ i, i < 8 → e.mask.getLsbD i = false → t.ecc.bad.contains (8 * e.burst + i) = s.ecc.bad.contains (8 * e.burst + i)) ∧
        ∀ x, x / 64 ≠ e.burst → memByte t.mem x = memByte s.mem x))) ∧
    (dramRuns s = true → s.drc.subs.contains sub.val = true →
      Completes (.refreshDue sub) s (fun t => t.drc = { s.drc with refDue := smSet 0 s.drc.refDue sub (smGet 0 s.drc.refDue sub + 1) } ∧ t.mem = s.mem) ∧
      Completes (.periodicRetrain sub) s (fun t => t.drc.retrainDue.contains sub.val = true ∧ t.mem = s.mem)) ∧
    (∀ (c : Fin 4) hot, Completes (.temperaturePoll c hot) s (fun t => t.drc.hot.contains c.val = hot ∧
      (∀ d, d ≠ c.val → t.drc.hot.contains d = s.drc.hot.contains d) ∧ t.mem = s.mem ∧
      Emit.dramRefresh c (fget s DRC_TIM1 DRC_TIM1_refi / if hot then 2 else 1) ∈ t.out)) ∧
    (∀ aged, hiWm s ≤ mine.length → Completes (.writeDrainStart sub aged) s (fun t => t.drc.drain.contains sub.val = true ∧ t.mem = s.mem)) ∧
    (∀ e, mine.find? (fun e => e.deadline && !e.aged) = some e → Completes (.writeDrainStart sub true) s (fun t =>
      t.drc.drain.contains sub.val = true ∧ { e with aged := true } ∈ t.drc.wq ∧ t.mem = s.mem)) ∧
    (mine.length ≤ loWm s → mine.any (fun e => e.aged) = false → Completes (.writeDrainEnd sub) s (fun t =>
      t.drc = { s.drc with drain := s.drc.drain.filter (· != sub.val) } ∧ t.mem = s.mem)) ∧
    (∀ r, s.drc.rq.find? (fun r => r.sub == sub.val && r.cls == 2) = some r → Completes (.backgroundPromote sub) s (fun t =>
      { r with cls := 1 } ∈ t.drc.rq ∧ t.drc.rq.length = s.drc.rq.length ∧ t.drc.wq = s.drc.wq)) ∧
    (∀ (c : Fin 4) same, 2 ≤ chState s c → chState s c < 6 →
      let n := if same then smGet 0 s.drc.alerts c + 1 else 1
      Completes (.commandParityAlert c same) s (fun t =>
        rd t (DRC_CH_ALERT c) = rd s (DRC_CH_ALERT c) + 1 ∧ smGet 0 t.drc.alerts c = n ∧
        (4 ≤ n → chState t c = chFAULTY ∧ ∀ e ∈ t.drc.wq ++ t.drc.stalled, e.sub / 2 ≠ c.val) ∧ (n < 4 → chState t c = chState s c ∧ smGet 0 t.drc.replay c = smGet 0 s.drc.retry c))) ∧
    (∀ m : Fin 21, throttled s m = true → Completes (.throttleEnd m) s (fun t => throttled t m = false ∧ t.mem = s.mem)) ∧
    (Completes (.rowWindowEnd sub) s (fun t => t.drc = { s.drc with rows := s.drc.rows.filter (fun r => r.sub != sub.val) } ∧ t.mem = s.mem))

/-- 08 R243 to R245: a start is refused while the domain runs or its rate code is out of range, and else latches the rate and
the first index, of the grid that steps have not moved, or of the free-running ticks of an independent C; a stop is refused while a unit is bound to the domain, and else stops it. The other domains stay.
The model's own choices in it: logs 6, 18, 35. -/
def Obligations.DomainControl : Prop :=
  ∀ (s : State) (x : Dom) (w : W32), Ready s → regOn s (TIM_DOM_CTRL (domNo x)) = true →
    let rate := wget (rd s (TIM_DOM_CFG (domNo x))) TIM_DOM_CFG_rate
    let refusal := fun t : State => fget t (TIM_DOM_STATUS (domNo x)) TIM_DOM_STATUS_refusal
    (wbit w TIM_DOM_CTRL_start = true → wbit w TIM_DOM_CTRL_stop = false →
      (running s x = true → Completes (.domainStart x w) s (fun t => refusal t = 3 ∧ t.tim = s.tim)) ∧
      (running s x = false → 5 < rate → Completes (.domainStart x w) s (fun t => refusal t = 2 ∧ t.tim = s.tim)) ∧
      (running s x = false → rate ≤ 5 → Completes (.domainStart x w) s (fun t =>
        refusal t = 0 ∧ fget t (TIM_DOM_STATUS (domNo x)) TIM_DOM_STATUS_running = 1 ∧
        (let indep := x == .C && fbit s (TIM_DOM_CFG 2) TIM_DOM_CFG_independent
         let s0 := if indep then s else { s with tim := { s.tim with rho := pdSet s.tim.rho x 0 } }
         let n := firstIndex s0 x (rateHz rate)
         genOf t x = ⟨true, rate, indep, n, none,
           if indep then s.tim.elapsed + (tickTime s x (rateHz rate) n - s.tim.freiz) else 0⟩ ∧
         (indep = false → pdGet t.tim.rho x = 0)) ∧
        (∀ y, y ≠ x → genOf t y = genOf s y) ∧ t.tim.freiz = s.tim.freiz ∧ t.mem = s.mem ∧ t.prt = s.prt))) ∧
    (wbit w TIM_DOM_CTRL_start = false → wbit w TIM_DOM_CTRL_stop = true →
      (domBound s x = true → Completes (.domainStop x w) s (fun t => refusal t = 1 ∧ t.tim = s.tim)) ∧
      (domBound s x = false → Completes (.domainStop x w) s (fun t =>
        refusal t = 0 ∧ fget t (TIM_DOM_STATUS (domNo x)) TIM_DOM_STATUS_running = 0 ∧ running t x = false ∧
        (∀ y, y ≠ x → genOf t y = genOf s y) ∧ t.mem = s.mem ∧ t.prt = s.prt)))

/-- 08 R251 to R256: a stopped bridge waits after an accepted start, or keeps its refusal; its output starts, or its servo
having settled it runs, with a fade to unity; a stop fades it out and at the fade's end it is gone. A block of an
asynchronous bridge takes the word of its block, or keeps the increment and counts when the twin's word has not come; the engine
that runs the servo forms the increment of block j + 2 from the position error, and sends the word of block j + 1 to its twin.
The model's own choices in it: logs 3, 81, 82, 152. -/
def Obligations.Bridges : Prop :=
  ∀ (s : State) (b : Fin 256) (w : W32),
    (Ready s → regOn s (PRT_BR_CTRL b) = true →
      (wbit w PRT_BR_CTRL_start = true → wbit w PRT_BR_CTRL_stop = false → brState s b = brSTOPPED →
        (brRefusal s b ≠ 0 → Completes (.bridgeStart b w) s (fun t =>
          fget t (PRT_BR_STATUS b) PRT_BR_STATUS_refusal = brRefusal s b ∧ brState t b = brSTOPPED ∧ t.prt = s.prt)) ∧
        (∀ x y, domOf (fget s (PRT_BR_CFG b) PRT_BR_CFG_in_domain) = some x → domOf (fget s (PRT_BR_CFG b) PRT_BR_CFG_out_domain) = some y →
          x ≠ y → running s x = true → running s y = true → Completes (.bridgeStart b w) s (fun t =>
            let want := get64 s (PRT_BR_START_LO b) (PRT_BR_START_HI b)
            fget t (PRT_BR_STATUS b) PRT_BR_STATUS_refusal = 0 ∧ brState t b = brWAITING ∧
            ∃ v, bridge t b = some v ∧ v.inDom = x ∧ v.outDom = y ∧ v.async = (isIndep s x || isIndep s y) ∧
              v.s = (if want = 0 then (genOf s y).next + 1 else want) ∧ v.lat = brLat v.async (domRate s y) ∧ v.gain = 0))) ∧
      (∀ v, wbit w PRT_BR_CTRL_start = false → wbit w PRT_BR_CTRL_stop = true → bridge s b = some v → brState s b ≠ brSTOPPING →
        Completes (.bridgeStop b w) s (fun t => brState t b = brSTOPPING ∧ bridge t b = some (brFade 0 v)))) ∧
    (∀ v, Ready s → bridge s b = some v →
      (v.async = false → brState s b = brWAITING → v.s + v.lat ≤ (genOf s v.outDom).next → Completes (.bridgeOutputStart b) s (fun t =>
        brState t b = brRUNNING ∧ bridge t b = some (brFade unityG v))) ∧
      (v.async = true → brState s b = brWAITING → 64 ≤ v.calm → Completes (.bridgeRunning b) s (fun t =>
        brState t b = brRUNNING ∧ bridge t b = some (brFade unityG v))) ∧
      (let m := (genOf s v.outDom).next
       let j := m / 64
       let word := smGet 0 v.words j
       brBlockDue v m = true →
        Completes (.bridgeBlock b) s (fun t => ∃ v', bridge t b = some v' ∧ v'.block = j ∧ v'.blocks = v.blocks + 1 ∧
          v'.r = (if word = 0 then v.r else word - 1) ∧ v'.own = ratioOwner s ∧
          (ratioOwner s = true →
            let base := if v.own then v.base else v.r
            let integ := (if v.own then v.integ else 0) + v.err
            let next := smGet 0 v.words (j + 1)
            v'.base = base ∧ v'.integ = integ ∧
            smGet 0 v'.words (j + 2) = brServo { v with own := true, base := base, integ := integ } + 1 ∧
            (isTwin s = true → next ≠ 0 → (daxLink t 0).queue = (daxLink s 0).queue ++
              [{ type := 0x21, dest := 0, bcast := false, hops := 0, src := (daxLink s 0).engineId,
                 body := [ratioWordOf b (j + 1) (next - 1)] }]) ∧
            (isTwin s = false ∨ next = 0 → (daxLink t 0).queue = (daxLink s 0).queue)) ∧
          (ratioOwner s = false → rd t (PRT_BR_RATIO_LATE b) = rd s (PRT_BR_RATIO_LATE b) + (if word = 0 then 1 else 0) ∧
            (daxLink t 0).queue = (daxLink s 0).queue)))) ∧
    (awake s = true → s.due.contains (.brStopped b) = true → Completes (.bridgeStopped b) s (fun t =>
      brState t b = brSTOPPED ∧ bridge t b = none))

/-- 08 R257 to R275: an enabled side latches its configuration and starts muted; one that is disabled ends at once, or with the
tick of its running domain. A frame received is read from its bit clocks or its subframes and latched, or repeats the words
before it when it is not whole; a frame sent carries the words of its tick, or repeats the last, as bit clocks or subframes. A frame that is missing counts; a clock that is absent makes the
side ABSENT; a side returns to LOCKED, its fade ends, and its mask applies outside a frame. The pin registers act on their own bits.
The model's own choices in it: logs 80, 82, 83, 84, 85, 86, 146. -/
def Obligations.PortSides : Prop :=
  ∀ (s : State) (i : Fin 160) (w : W32),
    (Ready s → regOn s (PRT_SIDE_CFG i) = true →
      (side s i = none → wbit w PRT_SIDE_CFG_enable = true → Completes (.sideEnable i w) s (fun t =>
        side t i = some (sideFresh (rd (fieldsWrite s (PRT_SIDE_CFG i) w) (PRT_SIDE_CFG i)) (maskReg s i)) ∧
        sideState t i = stSTARTING ∧ goodFrames t i = 0 ∧ fget t (PRT_SIDE_STATUS i) PRT_SIDE_STATUS_muted = 1 ∧
        ∀ j : Fin 160, j ≠ i → side t j = side s j)) ∧
      (∀ d, side s i = some d → wbit w PRT_SIDE_CFG_enable = false →
        ((∃ x, sideDom s i = some x ∧ running s x = true) → Completes (.sideDisable i w) s (fun t =>
          side t i = some { d with closing := true, again := none } ∧ ∀ j : Fin 160, j ≠ i → side t j = side s j)) ∧
        ((∀ x, sideDom s i = some x → running s x = false) → Completes (.sideDisable i w) s (fun t =>
          side t i = none ∧ rd t (PRT_SIDE_STATUS i) = regReset (PRT_SIDE_STATUS i) ∧ ∀ j : Fin 160, j ≠ i → side t j = side s j)))) ∧
    (∀ d x, Ready s → side s i = some d → sideDom s i = some x → (genOf s x).last.isSome = true → sideWorks s i d = true →
      (∀ f : RxFrame, isRx i = true → s.pin.absent.contains (sideSupply i) = false →
        let good := waveGood i d f.wave
        (good = true ∨ sideMaster i d = true → Completes (.portFrameReceived i f) s (fun t => ∃ e, side t i = some e ∧
          e.wordL = (if (waveParity f.wave).1 then d.wordL else slotWord (slotCode i d) (waveWords i d f.wave).1) ∧
          e.wordR = (if (waveParity f.wave).2 then d.wordR else slotWord (slotCode i d) (waveWords i d f.wave).2) ∧ e.gain = d.gain ∧
          e.heldMask = d.mask ∧ e.mask = maskReg s i ∧ rd t (PRT_SIDE_PARITY i) = rd s (PRT_SIDE_PARITY i) +
            BitVec.ofNat 32 (b2n (waveParity f.wave).1 + b2n (waveParity f.wave).2))) ∧
        (good = false → sideMaster i d = false → Completes (.portFrameReceived i f) s (fun t =>
          rd t (PRT_SIDE_GLITCH i) = rd s (PRT_SIDE_GLITCH i) + 1 ∧
          ∃ e, side t i = some e ∧ e.wordL = d.wordL ∧ e.wordR = d.wordR ∧ e.glitchRun = d.glitchRun + 1))) ∧
      (∀ (good : Bool) (at_ : BitVec 32), isRx i = false → outputsOpen s = true →
        (∀ g e, sideMaster i d = true → d.sending = some g → side (sideStep i s) i = some e → sideDrives s i = true →
          Completes (.portFrameTransmit i good at_) s (fun t =>
            let n := nowIdx s x
            let word := fun (c : Nat) (v old : S64) => (txWord s i c (if g then n else e.sentN) e (if g then v else old)).1
            let l := word 0 e.wordL e.sentL
            let r := word 1 e.wordR e.sentR
            let c := bitOf (csByte s (i - 128) (n % 192 / 8)).toNat (n % 8)
            (isAes i = true → Emit.port i (.aes (if n % 192 = 0 then .Z else .X) .Y (aesSlots l c) (aesSlots r c) true) ∈ t.out) ∧
            (isAes i = false → Emit.port i (.serial (serialBits (wbit d.cfg PRT_SIDE_CFG_format) (slotCode i d) l r d.lastBit)) ∈ t.out))) ∧
        (sideMaster i d = false → Completes (.portFrameTransmit i good at_) s (fun t => ∃ e, side t i = some e ∧ e.sending = some good ∧
          e.frames = d.frames + 1 ∧ e.mask = maskReg s i)))) ∧
    (∀ (lj : Bool) (code : Nat) (l r : Int) (last : Bool),
      let n := slotBits code
      let data := msbBits n (slotOut code l) ++ msbBits n (slotOut code r)
      (serialBits lj code l r last).map (·.1) = (if lj then wsShape true n else List.replicate n false ++ List.replicate n true) ∧
      (serialBits lj code l r last).map (·.2) = (if lj then data else (last :: data).dropLast)) ∧
    (∀ (v : Int) (c : Bool), parityOdd (aesSlots v c) = false ∧ (aesSlots v c).setWidth 24 = BitVec.ofInt 24 v) ∧
    (∀ d, Ready s → sideQuietTick s i = some d →
      (d.missed = false → Completes (.missingFrame i) s (fun t =>
        rd t (PRT_SIDE_GLITCH i) = rd s (PRT_SIDE_GLITCH i) + 1 ∧ goodFrames t i = 0 ∧
        (d.cause = 0 → 2 ≤ d.glitchRun → sideState t i = stABSENT))) ∧
      (d.cause = 0 → Completes (.clockAbsent i) s (fun t => sideState t i = stABSENT ∧ goodFrames t i = 0))) ∧
    (∀ d, awake s = true → side s i = some d →
      (s.due.contains (.sideLock i) = true → d.cause = 0 → sideState s i ≠ stLOCKED → Completes (.sideLocked i) s (fun t =>
        sideState t i = stLOCKED)) ∧
      (s.due.contains (.sideFade i) = true → Completes (.sideFadeEnd i) s (fun t =>
        fget t (PRT_SIDE_STATUS i) PRT_SIDE_STATUS_muted = (if d.gain = unityG then 0 else 1) ∧ side t i = some d))) ∧
    (Ready s →
      (regOn s (PRT_SIDE_MASK i) = true → Completes (.sideMaskWrite i w) s (fun t =>
        rd t (PRT_SIDE_MASK i) = rd (fieldsWrite s (PRT_SIDE_MASK i) w) (PRT_SIDE_MASK i) ∧ t.prt = s.prt)) ∧
      (∀ d, side s i = some d → inFrame s i d = false → Completes (.maskApply i) s (fun t => side t i = some { d with mask := maskReg s i } ∧
        ∀ j : Fin 160, j ≠ i → side t j = side s j)) ∧
      (∀ d, side s i = some d → inFrame s i d = true → Completes (.maskApply i) s (fun t => t.prt = s.prt)) ∧
      (regOn s PRT_GP_SENT_CLR = true → Completes (.sentinelOutputClear w) s (fun t =>
        t.prt = { s.prt with gpSent := s.prt.gpSent &&& (w.toNat ^^^ 0xFFFF_FFFF) })) ∧
      (∀ (g : Fin 32) (v : Bool), Completes (.gpInputChange g v) s (fun t =>
        t.prt = { s.prt with gpRaw := putBits s.prt.gpRaw g 1 (b2n v) } ∧ ∀ k, ¬settleKey k → rd t k = rd s k)) ∧
      (∀ g : Fin 32, fget s (PRT_GP_CFG g) PRT_GP_CFG_function = 2 →
        (ticketsFull s = true → Completes (.gpSceneTrigger g) s (fun t => t.ctl.waitq = s.ctl.waitq ++ [(0x21, triggerEntry s g)])) ∧
        (ticketsFull s = false → s.ctl.waitq = [] → Completes (.gpSceneTrigger g) s (fun t =>
          smGet 0 t.ctl.seq 0x21 = (smGet 0 s.ctl.seq 0x21 + 1) % 65536))))

/-- 09 R276 to R281, R301 to R304: enabling a group provides the ports of its mode; a port goes UP and DOWN, the latter counted;
a bad frame is dropped and counted, one addressed to the port that is nobody else's goes to the control queue; reports of each
change of a membership are sent twice, a query is noted and answered, an older querier's version is followed, and a management command of an allowed source takes its ticket.
The model's own choices in it: logs 90, 91, 93, 94. -/
def Obligations.NetworkPorts : Prop :=
  ∀ (s : State) (p : Fin 8), Ready s →
    let sends := netOn s && portUp s p && decide (portMac s p ≠ 0)
    let packet := fun l : List Byte => Emit.packet p ((l ++ List.replicate (60 - l.length) (0 : Byte)).map (fun b => b.toNat))
    (∀ (g : Fin 2) (w : W32), regOn s (NET_GRP_CFG g) = true →
      let s1 := fieldsWrite s (NET_GRP_CFG g) w
      let mode := fget s1 (NET_GRP_CFG g) NET_GRP_CFG_mode
      (fbit s (NET_GRP_CFG g) NET_GRP_CFG_enable = false → fbit s1 (NET_GRP_CFG g) NET_GRP_CFG_enable = true →
        Completes (.portGroupEnable g w) s (fun t => smGet 0 t.net.grpMode g = mode ∧
          ∀ i, i < 4 → let f := fget t (NET_PORT_STATUS (4 * g + i))
            f NET_PORT_STATUS_present = b2n (modePort mode i) ∧ f NET_PORT_STATUS_up = 0 ∧ f NET_PORT_STATUS_fault = 0 ∧
            f NET_PORT_STATUS_fec_lock = b2n (modePort mode i && !rsFec t g))) ∧
      (fbit s (NET_GRP_CFG g) NET_GRP_CFG_enable = true → fbit s1 (NET_GRP_CFG g) NET_GRP_CFG_enable = false →
        Completes (.portGroupEnable g w) s (fun t => ∀ i, i < 4 → rd t (NET_PORT_STATUS (4 * g + i)) = 0))) ∧
    (netOn s = true → portPresent s p = true →
      (laneSupply s = true → Completes (.portUp p) s (fun t => portUp t p = true ∧ fget t (NET_PORT_STATUS p) NET_PORT_STATUS_fault = 0 ∧
        fget t (NET_PORT_STATUS p) NET_PORT_STATUS_fec_lock = 1 ∧ rd t (NET_PORT_LINK_DOWN p) = rd s (NET_PORT_LINK_DOWN p))) ∧
      Completes (.portDown p) s (fun t => portUp t p = false ∧ fget t (NET_PORT_STATUS p) NET_PORT_STATUS_fault = 1 ∧
        rd t (NET_PORT_LINK_DOWN p) = rd s (NET_PORT_LINK_DOWN p) + (if portUp s p then 1 else 0))) ∧
    (∀ (bytes : List Byte) (ok : Bool) (t0 : Nat), netOn s = true → portUp s p = true → arrBad s 9 (queueWord p) = false →
      (ok = false → Completes (.netFrameReceived p bytes ok t0) s (fun t =>
        rd t (NET_PORT_DROP p) = rd s (NET_PORT_DROP p) + 1 ∧ t.net.ctlq = s.net.ctlq ∧ t.net.rx = s.net.rx)) ∧
      (ok = true → 60 ≤ bytes.length → bytes.length ≤ 1518 → oct bytes 0 6 = portMac s p → portMac s p ≠ 0 → oct bytes 0 1 % 2 = 0 →
        oct bytes 12 2 ∉ [0x8100, 0x8808, 0x88A8, 0x0806, 0x0800, 0x86DD] → Completes (.netFrameReceived p bytes ok t0) s (fun t =>
          t.net.ctlq = s.net.ctlq ++ [⟨p, bytes.map (·.toNat), none, none⟩] ∧ rd t (NET_PORT_DROP p) = rd s (NET_PORT_DROP p)))) ∧
    (∀ (grp : BitVec 128) (v6 : Bool) (m : Member) (c : MemChange), memberOf s p (grpKey grp v6) = some m →
      let frame := packet (memFrame s p (grpKey grp v6) (changeRecords c) (decide (c.new = some [])))
      let reports := sends = true ∧ (c.new = some [] → isV4 (grpKey grp v6) = true → compatVer s p false ≠ 1)
      (m.changes.find? (fun c => c.left_ == 2) = some c → Completes (.membershipReport p grp v6) s (fun t => (reports → frame ∈ t.out) ∧
        memberOf t p (grpKey grp v6) = some { m with changes := m.changes.map (fun e => if e == c then { e with left_ := 1 } else e) })) ∧
      (m.changes.find? (fun c => c.left_ == 1) = some c → Completes (.stateChangeReportRepeat p grp v6) s (fun t => (reports → frame ∈ t.out) ∧
        memberOf t p (grpKey grp v6) = if (m.changes.erase c).isEmpty ∧ m.sources = some [] then none
          else some { m with changes := m.changes.erase c }))) ∧
    (∀ (grp : BitVec 128) (v6 : Bool) (ver : Fin 4),
      let older : Bool := ver.val == 1 || (ver.val == 2 && !v6)
      (portUp s p = false → Completes (.membershipQuery p grp v6 ver) s (fun t => t.net.members = s.net.members ∧ t.net.compat = s.net.compat)) ∧
      (portUp s p = true → older = true → Completes (.membershipQuery p grp v6 ver) s (fun t =>
        smGet 0 t.net.compat (8 * p + 4 * b2n v6 + ver) = s.tim.elapsed + olderSpan (10 * secU))) ∧
      (portUp s p = true → older = false → Completes (.membershipQuery p grp v6 ver) s (fun t =>
        (∀ m ∈ s.net.members, m.port = p → isV4 m.group = !v6 → grp = 0 ∨ m.group = grpKey grp v6 → m.sources ≠ some [] →
          { m with queried := true } ∈ t.net.members) ∧ t.net.members.length = s.net.members.length))) ∧
    (∀ (grp : BitVec 128) (v6 : Bool) (m : Member), sends = true →
      s.net.members.filter (fun m => m.port == p.val && m.queried && isV4 m.group == !v6 && (grp == 0 || m.group == grpKey grp v6)) = [m] →
      Completes (.queryResponse p grp v6) s (fun t => packet (memFrame s p m.group (stateRecord m) false) ∈ t.out ∧
        memberOf t p m.group = some { m with queried := false })) ∧
    (∀ (src : BitVec 128) (udp : BitVec 16) (msg : List Byte), fbit s NET_MGMT_CFG NET_MGMT_CFG_enable = true →
      bitOf (fget s NET_MGMT_CFG NET_MGMT_CFG_port_mask) p = true → portUp s p = true →
      (mgmtAllowed s src.toNat = false → Completes (.managementMessage p src udp msg) s (fun t =>
        t.net.ctlq = s.net.ctlq ++ [⟨p, (mgmtDatagram s p src.toNat udp.toNat msg).map (·.toNat), none, some src.toNat⟩])) ∧
      (mgmtAllowed s src.toNat = true → mgmtError msg = 0 →
        (∀ q ∈ s.net.mgmt, q.1 ≠ src.toNat) → ticketsFull s = false → s.ctl.waitq = [] → Completes (.managementMessage p src udp msg) s (fun t =>
          smGet 0 t.ctl.seq (0x10 + p) = (smGet 0 s.ctl.seq (0x10 + p) + 1) % 65536)))

/-- 09 R284, R292 to R300: a flow start is refused by its cause or latches the flow; a stop of a receive flow waits for its tick,
one of a transmit flow that has not begun is immediate. A packet is late, early, or accepted with its samples in their
playout positions; silence ends RECEIVING and a leg's presence; a due packet is sent and the flow moves on by S.
The model's own choices in it: logs 91, 92, 93, 96, 155, 156. -/
def Obligations.NetworkFlows : Prop :=
  ∀ (s : State) (f : Fin 1024) (w : W32),
    (Ready s → regOn s (NET_RXF_CTRL f) = true →
      let code := flowRefusal s false (rd s (NET_RXF_CFG f)) (wget (rd s (NET_RXF_TIMING f)) NET_RXF_TIMING_spp)
        ((List.range 32).map (fun j => rd s (NET_RXLEG (2 * f + j / 16) (j % 16))))
      (wbit w NET_RXF_CTRL_start = true → wbit w NET_RXF_CTRL_stop = false → rxFlow s f = none → Completes (.rxFlowStart f w) s (fun t =>
        fget t (NET_RXF_STATUS f) NET_RXF_STATUS_refusal = code ∧ (code ≠ 0 → t.net.rx = s.net.rx) ∧
        (code = 0 → ∃ r, rxFlow t f = some r ∧ r.cfg = rd s (NET_RXF_CFG f) ∧ r.timing = rd s (NET_RXF_TIMING f) ∧ r.window = [] ∧
          r.stopReq = false ∧ fget t (NET_RXF_STATUS f) NET_RXF_STATUS_state = 1))) ∧
      (∀ r, wbit w NET_RXF_CTRL_start = false → wbit w NET_RXF_CTRL_stop = true → rxFlow s f = some r → Completes (.rxFlowStop f w) s (fun t =>
        rxFlow t f = some { r with stopReq := true }))) ∧
    (Ready s → regOn s (NET_TXF_CTRL f) = true →
      let S := wget (rd s (NET_TXF_PKT f)) NET_TXF_PKT_spp
      let code := flowRefusal s true (rd s (NET_TXF_CFG f)) S ((List.range 32).map (fun j => rd s (NET_TXLEG (2 * f + j / 16) (j % 16))))
      (∀ x, wbit w NET_TXF_CTRL_start = true → wbit w NET_TXF_CTRL_stop = false → txFlow s f = none →
        cfgDom (rd s (NET_TXF_CFG f)) = some x → Completes (.txFlowStart f w) s (fun t =>
          fget t (NET_TXF_STATUS f) NET_TXF_STATUS_refusal = code ∧ (code ≠ 0 → t.net.tx = s.net.tx) ∧
          (code = 0 → ∃ r, txFlow t f = some r ∧ r.cfg = rd s (NET_TXF_CFG f) ∧ r.next = ((genOf s x).next + 1 + S - 1) / S * S ∧
            fget t (NET_TXF_STATUS f) NET_TXF_STATUS_state = 1))) ∧
      (∀ r x, wbit w NET_TXF_CTRL_start = false → wbit w NET_TXF_CTRL_stop = true → txFlow s f = some r → cfgDom r.cfg = some x →
        (nowIdx s x < r.next ∨ (genOf s x).last = none → Completes (.txFlowStop f w) s (fun t =>
          txFlow t f = none ∧ fget t (NET_TXF_STATUS f) NET_TXF_STATUS_state = 0)) ∧
        (r.next ≤ nowIdx s x → (genOf s x).last.isSome = true → Completes (.txFlowStop f w) s (fun t =>
          txFlow t f = some { r with stopReq := true })))) ∧
    (∀ (leg : Fin 2) (rtp : List Byte) r x, Ready s → s.net.rx.Pairwise (fun a b => a.1 < b.1) → netOn s = true → rxFlow s f = some r → cfgDom r.cfg = some x →
      legEn r.cfg leg = true → running s x = true → portUp s (lgPort (legWord r.legs leg)) = true →
      (rtpParse rtp = none → Completes (.rtpPacketReceived f leg rtp) s (fun t =>
        rd t (NET_RXF_BAD f) = rd s (NET_RXF_BAD f) + 1 ∧ t.net.play = s.net.play ∧ t.net.rx = s.net.rx)) ∧
      (∀ k, rtpParse rtp = some k → k.pt = wget r.cfg NET_RXF_CFG_payload_type → wbit r.cfg NET_RXF_CFG_ssrc_match = false →
        k.body.length = rxS r * cfgChans r.cfg * sampleBytes r.cfg → r.window = [] → r.below = 0 → s.scn.mapWait = [] → rxS r ≤ 384 →
        let T : Int := nowIdx s x
        let m := nearest 32 k.ts (T + pdGet s.tim.delta x) - pdGet s.tim.delta x
        let Lr : Int := linkTicks s r
        let n := sampleBytes r.cfg
        let value := fun v : Nat => if n = 2 then fromPcm16 (BitVec.ofNat 16 v) else fromPcm24 (BitVec.ofNat 24 v)
        (m + Lr ≤ T → Completes (.rtpPacketReceived f leg rtp) s (fun t =>
          rd t (NET_RXF_LATE f) = rd s (NET_RXF_LATE f) + 1 ∧ t.net.play = s.net.play)) ∧
        (T < m + Lr → T - Lr + 4095 < m + rxS r - 1 → Completes (.rtpPacketReceived f leg rtp) s (fun t =>
          rd t (NET_RXF_EARLY f) = rd s (NET_RXF_EARLY f) + 1 ∧ t.net.play = s.net.play)) ∧
        (T < m + Lr → m + rxS r - 1 ≤ T - Lr + 4095 → Completes (.rtpPacketReceived f leg rtp) s (fun t =>
          fget t (NET_RXF_STATUS f) NET_RXF_STATUS_receiving = 1 ∧ fget t (NET_RXF_STATUS f) NET_RXF_STATUS_state = 2 ∧
          (∃ r', rxFlow t f = some r' ∧ r'.lastWrite = some (nowIdx s x) ∧ r'.window = [2 ^ 32 + k.seq]) ∧
          ∀ c, c < cfgChans r.cfg → let e := cfgBase r.cfg + c
            chanFlow s (mapChan s e m.toNat) (fun g r => if g = f.val then m.toNat else playIdx s r) = some (f.val, e) → ∀ j, j < rxS r →
              smGet none t.net.play (4096 * mapChan s e m.toNat + (m.toNat + j) % 4096) =
                some (value (oct k.body ((j * cfgChans r.cfg + c) * n) n)))))) ∧
    (∀ r, Ready s → rxFlow s f = some r →
      (∀ t0, r.lastWrite = some t0 → t0 + 64 * rxS r < rxNext s f → Completes (.receivingTimeout f) s (fun t =>
        fget t (NET_RXF_STATUS f) NET_RXF_STATUS_receiving = 0 ∧ rxFlow t f = some { r with lastWrite := none, window := [], below := 0 })) ∧
      (∀ (leg : Fin 2) t0, (if leg = 0 then r.lastLeg0 else r.lastLeg1) = some t0 → t0 + 16 * rxS r < rxNext s f →
        Completes (.legTimeout f leg) s (fun t =>
          fget t (NET_RXF_STATUS f) (if leg = 0 then NET_RXF_STATUS_leg0_up else NET_RXF_STATUS_leg1_up) = 0 ∧
          rxFlow t f = some (if leg = 0 then { r with lastLeg0 := none } else { r with lastLeg1 := none })))) ∧
    (∀ r x l d, awake s = true → s.due.contains (.txSend f) = true → txFlow s f = some r → cfgDom r.cfg = some x →
      (genOf s x).last.isSome = true → r.next + txS r ≤ nowIdx s x → r.stopReq = false → outputsOpen s = true → txLegs s r.cfg r.legs = [(l, d)] →
      arrBad s 9 (queueWord (lgPort d)) = false →
      Completes (.txPacketSend f) s (fun t =>
        txFlow t f = some { r with next := r.next + txS r } ∧ fget t (NET_TXF_STATUS f) NET_TXF_STATUS_state = 2 ∧
        (netOn s = true → portUp s (lgPort d) = true → portMac s (lgPort d) ≠ 0 →
          portRoom s (lgPort d) (78 + txS r * cfgChans r.cfg * sampleBytes r.cfg) (tickIn s x (r.next + txS r + 1)).toNat = true →
          (∃ bytes, Emit.packet (lgPort d) bytes ∈ t.out) ∧ rd t (NET_TXF_DROP f) = rd s (NET_TXF_DROP f)) ∧
        (portUp s (lgPort d) = false → rd t (NET_TXF_DROP f) = rd s (NET_TXF_DROP f) + 1)))

/-- 10 R307, R330 to R334: bring-up goes from SIGNAL over BLOCK, ALIGN and IDENT to UP, each transition from its own state, ALIGN with a
MARKER block on each lane, at most 32 blocks apart; a loss goes back to SIGNAL, and one from UP is counted. An IDENT is sent with the time and the last one received; one that echoes
ours, from the peer expected, brings the link UP. The wake pattern is sent outside UP, and ends in SIGNAL or DISABLED.
The model's own choices in it: logs 101, 102, 105, 157. -/
def Obligations.LinkBringUp : Prop :=
  ∀ (s : State) (l : Fin 2),
    (Ready s →
      (∀ w, regOn s (DAX_LINK_CFG l) = true → linkState s l ≠ lkWAKE →
        linkEnabled (fieldsWrite s (DAX_LINK_CFG l) w) l = !linkEnabled s l → Completes (.linkEnable l w) s (fun t =>
          linkState t l = (if linkEnabled s l then lkDISABLED else lkSIGNAL) ∧ linkEnabled t l = !linkEnabled s l)) ∧
      (linkState s l = lkSIGNAL → Completes (.laneSignalLock l) s (fun t => linkState t l = lkBLOCK ∧ fget t (DAX_WAKE l) DAX_WAKE_detected = 0)) ∧
      (linkState s l = lkBLOCK → Completes (.blockLock l) s (fun t => linkState t l = lkALIGN)) ∧
      (∀ marks, linkState s l = lkALIGN →
        (markersOk marks = true → Completes (.laneAlign ⟨l, marks⟩) s (fun t => linkState t l = lkIDENT ∧ (linkLine t l).rxPos = 0)) ∧
        (markersOk marks = false → Completes (.laneAlign ⟨l, marks⟩) s (fun t => linkState t l = lkALIGN ∧ t.line = s.line))) ∧
      (∀ bad : BitVec 16, 2 ≤ linkState s l → linkState s l ≤ 5 → Completes (.linkLoss l bad) s (fun t =>
        linkState t l = lkSIGNAL ∧ rd t (DAX_BLOCK_ERR l) = rd s (DAX_BLOCK_ERR l) + bad.setWidth 32 ∧
        (linkState s l = lkUP → rd t (DAX_LINK_DOWN l) = rd s (DAX_LINK_DOWN l) + 1 ∧ (daxLink t l).frames = []) ∧
        (linkState s l ≠ lkUP → rd t (DAX_LINK_DOWN l) = rd s (DAX_LINK_DOWN l) ∧ t.dax = s.dax))) ∧
      (linkState s l = lkIDENT → Completes (.identSend l) s (fun t =>
        (daxLink t l).identTx = freizNs64 s :: (daxLink s l).identTx ∧ linkState t l = lkIDENT ∧
        ∃ m, Emit.daxMsg l m ∈ t.out ∧ m.type = 1 ∧ m.src = (daxLink s l).engineId ∧ m.body.getD 1 0 = freizNs64 s ∧
          m.body.getD 2 0 = (match (daxLink s l).identRx with | some (v, _) => v | none => 0))) ∧
      (∀ r0 r1 r2 hdr w0 w1 w2 w3, let rx := r0 ++ r1 ++ r2
        let body : List (BitVec 64) := [w0, w1, w2, w3]
        linkState s l = lkIDENT → lineMsg s l rx = some ⟨hdr, body, some (crc32c (wordBytes body))⟩ →
        (msgOf hdr body).type = 1 → bitsOf hdr.toNat 31 7 = 4 →
        let peer := bitsOf w0.toNat 0 14
        let echo := w2 ≠ 0 ∧ w2 ∈ (daxLink s l).identTx
        let right := fbit s (DAX_LINK_CFG l) DAX_LINK_CFG_peer_check = false ∨ peer = fget s (DAX_LINK_CFG l) DAX_LINK_CFG_peer_id
        Completes (.identMessage l r0 r1 r2) s (fun t =>
          fget t (DAX_LINK_STATUS l) DAX_LINK_STATUS_peer_seen = peer ∧ (echo → right → linkState t l = lkUP) ∧
          (¬echo ∨ ¬right → linkState t l = lkIDENT) ∧ (daxLink t l).identRx = some (w1, s.tim.freiz / nsU))) ∧
      (∀ w, regOn s (DAX_WAKE l) = true → wbit w DAX_WAKE_send = true → linkState s l ≠ lkUP → Completes (.wakePatternSend l w) s (fun t =>
        linkState t l = lkWAKE ∧ Emit.daxWake l ∈ t.out)) ∧
      (linkState s l = lkWAKE → Completes (.wakePatternEnd l) s (fun t =>
        linkState t l = (if linkEnabled s l then lkSIGNAL else lkDISABLED))) ∧
      (domOn s 12 = true → Completes (.wakePatternDetect l) s (fun t => fget t (DAX_WAKE l) DAX_WAKE_detected = 1)))

/-- 10 R305 to R308: what the lanes' descramblers restore is what their scramblers took, and the blocks of a message carry its words
and their CRC. Blocks received with an invalid sync header or an unknown type count. 10 R312 to R329, 12 R376, R379, 08 R254: a
tick frame that passes its checks is held for its tick, one that fails counts by
its cause. Of the messages that wait, RATIO goes first, then PROVENANCE, TWIN and firmware's. A message with a bad CRC is
dropped and counted; a good one acts by its type. A table entry is written, or refused by its code and kept as it was; an
island takes the map written.
The model's own choices in it: logs 78, 100, 101, 103, 104, 157. -/
def Obligations.LinkTraffic : Prop :=
  (∀ (st : BitVec 58) (w : BitVec 64), descramble st (scramble st w).1 = (w, (scramble st w).2)) ∧
  (∀ p st bs, (codeLanes descramble p st (codeLanes scramble p st bs).1).1 = bs) ∧
  (∀ m : DaxMsg, unitOf btMSG_START btMSG_END (msgBlocks m) =
    some ⟨((msgBlocks m).headD idleBlock).body, m.body, some (crc32c (wordBytes m.body))⟩) ∧
  ∀ (s : State) (l : Fin 2), Ready s →
    (∀ rx f, linkState s l = lkUP → lineFrame s l rx = some f →
      (∀ x, frameFail s f = none → domOf (bitsOf f.header.toNat 12 2) = some x → Completes (.tickFrameReceived l rx) s (fun t =>
        ⟨x, (f.words.headD 0).toNat, frameWords (f.words.drop 1) (f.words.drop 129)⟩ ∈ (daxLink t l).frames ∧
        rd t (DAX_BLOCK_ERR l) = rd s (DAX_BLOCK_ERR l) + BitVec.ofNat 32 ((lineBlocks s l rx).filter blockBad).length ∧
        (linkLine t l).rxPos = (linkLine s l).rxPos + rx.length ∧ rd t (DAX_CRC l) = rd s (DAX_CRC l) ∧ t.tim = s.tim)) ∧
      (∀ c, frameFail s f = some c → Completes (.tickFrameReceived l rx) s (fun t =>
        (daxLink t l).frames = (daxLink s l).frames ∧ (isTwin s = false → t.dax = s.dax) ∧
        rd t (DAX_CRC l) = rd s (DAX_CRC l) + (if c = 1 then 1 else 0) ∧ rd t (DAX_LATE l) = rd s (DAX_LATE l) + (if c = 3 then 1 else 0) ∧
        rd t (DAX_INDEX l) = rd s (DAX_INDEX l) + (if c = 2 ∨ c = 4 then 1 else 0)))) ∧
    (∀ i m, linkState s l = lkUP → msgNext (daxLink s l).queue = some i → (daxLink s l).queue[i]? = some m →
      Completes (.messageSend l) s (fun t => Emit.daxMsg l m ∈ t.out ∧ (daxLink t l).queue = (daxLink s l).queue.eraseIdx i ∧
        (daxLink t l).due = [] ∧ (∀ f ∈ (daxLink s l).due, Emit.daxFrame l f.header f.k f.words ∈ t.out) ∧
        ((daxLink s l).due = [] →
          let v := linkLine s l
          let stream := List.replicate (Config.idleBlocks l v.bursts) idleBlock ++ msgBlocks m
          let line := withMarkers (daxLink s l).engineId v.pos stream
          Emit.daxLine l ((List.range 4).map (fun lane => laneBlocks v.pos lane (codeLanes scramble v.pos v.scr line).1)) ∈ t.out))) ∧
    (∀ r0 r1 r2 (hdr : BitVec 64) (body : List (BitVec 64)) (crc : Option (BitVec 32)), linkState s l = lkUP → lineMsg s l (r0 ++ r1 ++ r2) = some ⟨hdr, body, crc⟩ →
      let dropped := fun t : State => rd t (DAX_MSG_DROP l) = rd s (DAX_MSG_DROP l) + 1 ∧ t.dax = s.dax ∧ t.prt = s.prt ∧ t.twn = s.twn
      let good := crc = some (crc32c (wordBytes body)) ∧ bitsOf hdr.toNat 31 7 = body.length ∧ 0 < body.length ∧ body.length ≤ 64
      let fromPeer := (msgOf hdr body).src = fget s (DAX_LINK_STATUS l) DAX_LINK_STATUS_peer_seen
      (crc ≠ some (crc32c (wordBytes body)) → Completes (.firmwareMessage l r0 r1 r2) s dropped ∧
        Completes (.provenanceMessage l r0 r1 r2) s dropped ∧ Completes (.ratioMessage l r0 r1 r2) s dropped ∧
        Completes (.twinMessage l r0 r1 r2) s dropped) ∧
      (good → (msgOf hdr body).type = 0x10 → (msgOf hdr body).bcast = false →
        (msgOf hdr body).dest = fget s DAX_ID DAX_ID_engine_id → Completes (.firmwareMessage l r0 r1 r2) s (fun t =>
          t.net.ctlq = s.net.ctlq ++ [⟨16 + l, (wordBytes body).map (·.toNat), none, none⟩] ∧ t.dax = s.dax)) ∧
      (good → (msgOf hdr body).type = 0x20 → fromPeer → twnMode s = 0 → Completes (.provenanceMessage l r0 r1 r2) s (fun t => t.twn = s.twn)) ∧
      (∀ p, good → (msgOf hdr body).type = 0x20 → fromPeer → l = 0 → twnMode s ≠ 0 → provEntries body = [p] →
        Completes (.provenanceMessage l r0 r1 r2) s (fun t => rd t TWN_MISMATCH = rd s TWN_MISMATCH +
          (match findTag s.twn.own p with | some o => if o.word = p.word then 0 else 1 | none => 1))) ∧
      (∀ b w v, good → (msgOf hdr body).type = 0x21 → fromPeer → l = 0 → isTwin s = true → ratioOwner s = false → body = [w] →
        b = bitsOf w.toNat 56 8 → bridge s b = some v → v.async = true → 0 < v.blocks → Completes (.ratioMessage l r0 r1 r2) s (fun t =>
          let j := v.block + (bitsOf w.toNat 52 4 + 16 - v.block % 16) % 16
          bridge t b = some { v with words := smSet 0 v.words j (bitsOf w.toNat 0 52 + 1) })) ∧
      (∀ w0 w1, good → (msgOf hdr body).type = 0x30 → fromPeer → l = 0 → isTwin s = true → body = [w0, w1] → Completes (.twinMessage l r0 r1 r2) s (fun t =>
        peerState t = (if w0.getLsbD 0 then 1 else 2) ∧ t.twn.peerWord0 = w0 ∧ t.twn.peerWord1 = w1))) ∧
    (∀ (j : Fin 8192) (w : W32), regOn s (DAX_TXMAP l j) = true →
      let k := DAX_TXMAP l j
      let refused := fun (c : Nat) (t : State) => fget t (DAX_TBL_STATUS l) DAX_TBL_STATUS_refusal = c ∧ rd t k = rd s k
      let taken := (psOthers s l true none).any (fun p => wget p DAX_PS_channel / 2 == j.val / 2)
      (wbit w DAX_TXMAP_valid = false → Completes (.txmapWrite l j w) s (fun t => rd t k = rd (fieldsWrite s k w) k ∧ t.dax = s.dax)) ∧
      (wbit w DAX_TXMAP_valid = true → wget w DAX_TXMAP_entry < 4256 → Completes (.txmapWrite l j w) s (refused 1)) ∧
      (wbit w DAX_TXMAP_valid = true → 4256 ≤ wget w DAX_TXMAP_entry → taken = true → Completes (.txmapWrite l j w) s (refused 2)) ∧
      (wbit w DAX_TXMAP_valid = true → 4256 ≤ wget w DAX_TXMAP_entry → taken = false → linkFits l (fieldsWrite s k w) = true →
        Completes (.txmapWrite l j w) s (fun t => rd t k = rd (fieldsWrite s k w) k ∧ t.dax = s.dax))) ∧
    (Completes (.txmapApply l) s (fun t => (daxLink t l).txmap =
      (smRange s.regs (DAX_TXMAP l 0) (DAX_TXMAP l 8192)).map (fun (k, w) => (k - DAX_TXMAP l 0, w)) ∧ t.mem = s.mem)) ∧
    (∀ (j : Fin 4096) (w : W32), regOn s (DAX_PS l j) = true →
      let k := DAX_PS l j
      (wbit w DAX_PS_valid = false → Completes (.psTableWrite l j w) s (fun t => rd t k = rd (fieldsWrite s k w) k ∧ t.dax = s.dax)) ∧
      (wbit w DAX_PS_valid = true → wget w DAX_PS_channel % 2 = 1 ∨ 8190 < wget w DAX_PS_channel → Completes (.psTableWrite l j w) s (fun t =>
        fget t (DAX_TBL_STATUS l) DAX_TBL_STATUS_refusal = 1 ∧ rd t k = rd s k)) ∧
      (wbit w DAX_PS_valid = true → wget w DAX_PS_channel % 2 = 0 → wget w DAX_PS_channel ≤ 8190 → wbit w DAX_PS_tx = false →
        (∀ p ∈ psOthers s l false (some j), wget p DAX_PS_d_slot ≠ wget w DAX_PS_d_slot ∧
          wget p DAX_PS_channel / 2 ≠ wget w DAX_PS_channel / 2) →
        (∀ p ∈ psOthers s (1 - l) false none, wget p DAX_PS_d_slot ≠ wget w DAX_PS_d_slot) → linkFits l (fieldsWrite s k w) = true →
        Completes (.psTableWrite l j w) s (fun t => rd t k = rd (fieldsWrite s k w) k ∧ t.dax = s.dax)))

/-- 15 R453, R454, R458 to R460, R463, R466, R476, 16 R478, R482, R501, 20 R584: an aligned write of a register takes its fields
under their types and leaves every other register; a sealed register keeps its word. A narrow, a misaligned, an unmapped
write and one to an island that is off are counted, and answered as the rules say. What a timed-out write did is open. The
registers that act do what their chapters say: re-arming, resets, background disables, starts of control cores. A control core whose protection
lets the access through meets an error as an access fault (15 R456, 16 R477); the host's writes are posted.
The model's own choices in it: logs 2, 18, 22, 23, 24, 159. -/
def Obligations.RegisterWrites : Prop :=
  ∀ (s : State), Ready s →
    (∀ (m : Fin 21) (off : BitVec 24) (data : BitVec 64),
      let o := off.toNat
      let v := data.setWidth 32
      let on := domOn s (powerOf (o / 0x10_0000) (o % 0x10_0000))
      let lets := fun (n : Nat) (store : Bool) => m.val < 8 → pmpLets s m (0x1000_0000 + o) n store = true
      let answered := fun (t : State) (ok : Bool) => (m.val ≠ 8 → Emit.writeResp m ok ∈ t.out) ∧
        (m.val < 8 → ok = false → smGet 0 (hartOf t m).csr csrMCAUSE = 7 ∧ (hartOf t m).pc = smGet 0 (hartOf s m).csr csrMTVEC &&& ~~~3#64)
      let plain := fun k : Nat => (k / 0x40000 = 7 ∧ k ≠ TWN_CTRL ∧ k ≠ TWN_CFG) ∨ (k / 0x40000 = 12 ∧ k ∉ [SCN_GEN_CLAIM, SCN_REC_CMD, SCN_CMT_CTRL]) ∨
        (k / 0x40000 = 13 ∧ k ≠ GAL_STG_CMD)
      let refused := fun (ok : Bool) (t : State) => answered t ok ∧ rd t ATR_ERR_CNT = rd s ATR_ERR_CNT + 1 ∧ t.mem = s.mem ∧
        ∀ k, ¬settleKey k → k ≠ ATR_ERR_CNT → k ≠ ATR_ERR_CAP → rd t k = rd s k
      (∀ k, lets 4 true → o % 4 = 0 → regDecode o = .reg k → on = true → plain k → isSealed s k = false → Completes (.registerWrite m off 2 data) s (fun t =>
        answered t true ∧ rd t k = rd (fieldsWrite s k v) k ∧ t.mem = s.mem ∧ t.gal = s.gal ∧ t.twn = s.twn ∧
        ∀ k', ¬settleKey k' → k' ≠ k → rd t k' = rd s k')) ∧
      (∀ k k', lets 8 true → o % 8 = 0 → regDecode o = .reg k → regDecode (o + 4) = .reg k' → k ≠ k' → on = true → plain k → plain k' → 11 < k / 0x40000 →
        11 < k' / 0x40000 → domOn s (powerOf ((o + 4) / 0x10_0000) ((o + 4) % 0x10_0000)) = true →
        Completes (.registerWrite m off 3 data) s (fun t => answered t true ∧ rd t k = rd (fieldsWrite s k v) k ∧
          rd t k' = rd (fieldsWrite s k' ((data >>> 32).setWidth 32)) k')) ∧
      (∀ k, lets 4 true → o % 4 = 0 → regDecode o = .reg k → on = true → plain k → isSealed s k = true → Completes (.registerWrite m off 2 data) s (refused true)) ∧
      (∀ size : Fin 4, lets (2 ^ size.val) true → size < 2 → o % 2 ^ size.val = 0 → Completes (.registerWrite m off size data) s (refused true)) ∧
      (∀ size : Fin 4, lets (2 ^ size.val) true → o % 2 ^ size.val ≠ 0 → Completes (.registerWrite m off size data) s (refused false)) ∧
      (lets 4 true → o % 4 = 0 → regDecode o = .unmapped → Completes (.registerWrite m off 2 data) s (refused false)) ∧
      (∀ k, lets 4 true → o % 4 = 0 → regDecode o = .reg k → on = false → Completes (.registerWrite m off 2 data) s (refused false)) ∧
      (lets 4 true → o % 4 = 0 → regDecode o = .reserved → on = true → Completes (.registerWrite m off 2 data) s (fun t =>
        answered t true ∧ t.mem = s.mem ∧ ∀ k, ¬settleKey k → rd t k = rd s k)) ∧
      (lets 4 false → Completes (.islandTimeout m off none) s (fun t =>
        Emit.readData m 0 false ∈ t.out ∧ rd t ATR_ERR_CNT = rd s ATR_ERR_CNT + 1 ∧ t.mem = s.mem ∧ (8 ≤ m.val → t.free = s.free) ∧
        (m.val < 8 → smGet 0 (hartOf t m).csr csrMCAUSE = 5))) ∧
      (∀ k, lets 4 true → regDecode (o / 4 * 4) = .reg k → 11 < k / 0x40000 → plain k → Completes (.islandTimeout m off (some v)) s (fun t =>
        answered t false ∧ rd t ATR_ERR_CNT = rd s ATR_ERR_CNT + 1 ∧ (8 ≤ m.val → t.free = s.free + 1) ∧
        rd t k = if (Config.freeValue s.free).getLsbD 0 then rd (fieldsWrite s k v) k else rd s k))) ∧
    (∀ w : W32,
      (regOn s ATR_ERR_REARM = true → Completes (.errorCaptureRearm w) s (fun t =>
        fget t ATR_ERR_CAP ATR_ERR_CAP_valid = (if wbit w ATR_ERR_REARM_rearm then 0 else fget s ATR_ERR_CAP ATR_ERR_CAP_valid) ∧
        rd t ATR_ERR_CNT = rd s ATR_ERR_CNT)) ∧
      (regOn s SYS_INT_REARM = true → Completes (.msixRearm w) s (fun t => ∀ v : Fin 32, w.getLsbD v = true →
        vecOr s (blocksPending s) v = true → (rd s (CTL_MSIX_TABLE (4 * v + 3))).getLsbD 0 = false →
        Emit.msix v (get64 s (CTL_MSIX_TABLE (4 * v)) (CTL_MSIX_TABLE (4 * v + 1))) (rd s (CTL_MSIX_TABLE (4 * v + 2))).toNat ∈ t.out)) ∧
      (regOn s SYS_SW_RESET = true →
        (wbit w SYS_SW_RESET_reset = true → wget w SYS_SW_RESET_key = 0x52E7 → Completes (.softwareReset w) s (fun t =>
          t.mem = [] ∧ t.gal = State.reset.gal ∧ t.str = State.reset.str ∧ t.scn = State.reset.scn ∧ t.cores = State.reset.cores ∧
          rd t SYS_RESET_CAUSE = 4 ∧ t.perm = s.perm)) ∧
        (wget w SYS_SW_RESET_key ≠ 0x52E7 → Completes (.softwareReset w) s (fun t =>
          t.mem = s.mem ∧ t.gal = s.gal ∧ t.str = s.str ∧ t.scn = s.scn ∧ rd t SYS_RESET_CAUSE = rd s SYS_RESET_CAUSE))) ∧
      (regOn s CTL_BG_EN = true → Completes (.backgroundDisable w) s (fun t =>
        let off := fun i : Nat => bgEnabled s i && !bgEnabled t i
        rd t CTL_BG_EN = rd (fieldsWrite s CTL_BG_EN w) CTL_BG_EN ∧
        (off 1 = true → t.ecc.scrub = none) ∧ (off 1 = false → t.ecc.scrub = s.ecc.scrub) ∧
        (off 8 = true → t.twn.conserve = none) ∧ (off 8 = false → t.twn.conserve = s.twn.conserve) ∧
        (∀ g, g < 4 → off (4 + g) = true → ∀ j ∈ t.ctl.running ++ t.ctl.copies, j.eng ≠ g) ∧
        (∀ g, g < 4 → off (4 + g) = false → ∀ j ∈ s.ctl.running, j.eng = g → j ∈ t.ctl.running))) ∧
      (regOn s CTL_CORE_RUN = true → Completes (.coreRun w) s (fun t =>
        rd t CTL_CORE_RUN = rd (fieldsWrite s CTL_CORE_RUN w) CTL_CORE_RUN ∧
        ∀ c : Fin 8, let was := (rd s CTL_CORE_RUN).getLsbD c
          let now := (rd t CTL_CORE_RUN).getLsbD c
          (was = now → smGet 0 t.ctl.corePc c = smGet 0 s.ctl.corePc c) ∧
          (was = now → hartOf t c = hartOf s c) ∧
          (was = false → now = true → smGet 0 t.ctl.corePc c = (if c = 0 then 0 else get64 s (CTL_BOOT_LO c) (CTL_BOOT_HI c) / 4 * 4) ∧
            hartOf t c = { pc := BitVec.ofNat 64 (smGet 0 t.ctl.corePc c), user := false, x := [], csr := [] }) ∧
          (was = true → now = false → smGet 0 t.ctl.corePc c = 0 ∧ ∀ r ∈ t.ctl.resv, r.2.1 ≠ c.val)))) ∧
    (∀ c : Fin 8, let cmp := get64 s (CTL_MTIMECMP_LO c) (CTL_MTIMECMP_HI c)
      (s.tim.elapsed < cmp * (100 * nsU) → Completes (.machineTimerInterrupt c) s (fun t => t.ctl.mtime = cmp ∧ c.val ∈ t.ctl.mtip)) ∧
      (cmp * (100 * nsU) ≤ s.tim.elapsed → Completes (.machineTimerInterrupt c) s (fun t => t.ctl.mtime = s.ctl.mtime ∧ t.tim = s.tim ∧
        (c.val ∈ t.ctl.mtip ↔ cmp ≤ s.ctl.mtime))))

/-- 15 R467 to R470 and the rules of its targets: a request of a mailbox is answered at once, with the value that its target
names in four words and OK; a target that is not listed is answered so, an argument out of range with RANGE, a
part that is off with OFF, an entry that is not there with EMPTY.
The model's own choices in it: log 113. -/
def Obligations.ReadingRoom : Prop :=
  ∀ (s : State) (mb : Fin 16) (arg : BitVec 24), Ready s → regOn s (RR_REQ mb) = true →
    let shown := fun (c v : Nat) (t : State) => fget t (RR_STATUS mb) RR_STATUS_result = c ∧ fget t (RR_STATUS mb) RR_STATUS_valid = 1 ∧
      rd t (RR_DATA0 mb) = BitVec.ofNat 32 v ∧ rd t (RR_DATA1 mb) = BitVec.ofNat 32 (v / 2 ^ 32) ∧
      rd t (RR_DATA2 mb) = BitVec.ofNat 32 (v / 2 ^ 64) ∧ rd t (RR_DATA3 mb) = BitVec.ofNat 32 (v / 2 ^ 96)
    let a := arg.toNat
    let a1 := (rd s (RR_ARG mb)).toNat
    let one := fun (i : Instr) (v : Nat) => (a = 0 → Completes i s (shown 0 v)) ∧ (a ≠ 0 → Completes i s (shown 2 0))
    (a1 = 0 →
      one (.dieIdentifier mb arg) Config.dieId.toNat ∧ one (.freizTime mb arg) (rrTime s.tim.freiz) ∧
      one (.ppsInTimestamp mb arg) (rrTime s.tim.ppsIn) ∧ one (.correctionAddress mb arg) s.ecc.lastCe ∧
      one (.errorCaptureAddress mb arg) s.ctl.errAddr ∧ one (.ledgerSequenceNumber mb arg) (s.ldg.next % 2 ^ 64) ∧
      (∀ x, domOf a = some x → Completes (.sampleIndex mb arg) s (shown 0 (nowIdx s x % 2 ^ 64)) ∧
        Completes (.stepOffsets mb arg) s (shown 0 ((BitVec.ofInt 64 (pdGet s.tim.delta x)).toNat + (BitVec.ofInt 32 (pdGet s.tim.rho x)).toNat * 2 ^ 64))) ∧
      (domOf a = none → Completes (.sampleIndex mb arg) s (shown 2 0) ∧ Completes (.stepOffsets mb arg) s (shown 2 0)) ∧
      (a < 8 → (∀ p f q n, s.net.ptpTs.find? (fun e => e.1 == a) = some (p, f, q, n) → Completes (.ptpTransmitTimestamp mb arg) s (fun t =>
          t.net.ptpTs = s.net.ptpTs.erase (p, f, q, n) ∧
          shown 0 (freizFrac f + freizNs f * 2 ^ 32 + freizSec f % 2 ^ 32 * 2 ^ 64 + (q % 2 ^ 16 * 2 ^ 16 + n % 16 * 2 ^ 12 + freizSec f / 2 ^ 32 % 2 ^ 12) * 2 ^ 96) t)) ∧
        (s.net.ptpTs.find? (fun e => e.1 == a) = none → Completes (.ptpTransmitTimestamp mb arg) s (shown 5 0))) ∧
      (let d := bitsOf a 12 12
       let tile := physOf s 1 (d / 64)
       (domOn s (unitPower 1 tile) = true → Completes (.nodeWord mb arg) s (shown 0 (node s (nodeKey tile d (bitsOf a 0 12))).toNat)) ∧
       (domOn s (unitPower 1 tile) = false → Completes (.nodeWord mb arg) s (shown 3 0))) ∧
      (a < 16384 → (domOn s 10 = true → Completes (.outputPatchEntry mb arg) s (shown 0 (rrPatch s a))) ∧
        (domOn s 10 = false → Completes (.outputPatchEntry mb arg) s (shown 3 0))) ∧
      (let c := bitsOf a 0 7
       c < 68 → a < 65536 → bitsOf a 8 8 < 16 → domOn s (unitPower 2 c) = true → Completes (.atelierRegister mb arg) s
         (shown 0 (smGet 0 (if bitOf a 7 then (coreOf s c).fendShadow else (coreOf s c).fendMain).d (bitsOf a 8 8)).toNat)) ∧
      (65536 ≤ a ∨ 68 ≤ bitsOf a 0 7 → Completes (.atelierRegister mb arg) s (shown 2 0))) ∧
    (∀ target : BitVec 7, (target = 0 ∨ target = 0x0F ∨ 0x12 ≤ target.toNat) → Completes (.unknownTarget mb target arg) s (shown 1 0)) ∧
    (let strip := bitsOf a 0 12 + (if bitOf a 12 then 4096 else 0)
     a < 32768 → domOn s 10 = true → a1 < 65536 →
      (bitsOf a 13 2 = 0 → (paramForm (bitOf a 12) a1).isSome = true → Completes (.stripValue mb arg) s (shown 0 (param s strip a1).toNat)) ∧
      (bitsOf a 13 2 = 2 → a1 = 0x90 → Completes (.stripValue mb arg) s (shown 0 (BitVec.ofInt 64 (stripRun s strip).gA).toNat)) ∧
      (bitsOf a 13 2 = 3 → Completes (.stripValue mb arg) s (shown 2 0))) ∧
    (let i := bitsOf a 0 3
     let o := bitsOf a 3 3
     let g := Nat.gcd (rateHz i) (rateHz o)
     let ph := bitsOf a1 0 16
     let tap := bitsOf a1 16 16
     a < 64 → i ≤ 5 → o ≤ 5 → ph < rateHz o / g → tap < 2 * (brLo o * (rateHz i / g) / (rateHz o / g) - 2) → domOn s 13 = true →
      Completes (.bridgeCoefficient mb arg) s (shown 0 (BitVec.ofInt 64 (Config.bridgeCoef i o false ph tap).toInt).toNat)) ∧
    (let kind := bitsOf a 22 2
     let num := bitsOf a 0 10
     bitsOf a 10 12 = 0 → kind < 3 → (kind = 0 → num < 8) → a1 < 4 → domOn s 11 = true →
      Completes (.networkCounter mb arg) s (shown 0 (smGet 0 s.net.counters (netCntKey kind num none a1)).toNat)) ∧
    (a < 16384 → a1 < 8 →
      (∀ e, ldgAt s a = some e → Completes (.ledgerEntry mb arg none) s (shown 0 (leVal (((ldgBytes e).drop (16 * a1)).take 16)))) ∧
      (ldgAt s a = none → Completes (.ledgerEntry mb arg none) s (shown 5 0))) ∧
    (∀ bad, (ldgAt s a).isSome = true → Completes (.ledgerEntry mb arg (some bad)) s (fun t => degraded t = true))

/-- 16 R486 to R490, R492 to R494: an entry of the ring, of a control core or of an issuer takes the issuer's next ticket; the ring's
entry holds it, the core's register shows it; with all tickets outstanding it waits. A command of an unknown code completes UNKNOWN, and its
record stands in its ring with the phase of the pass. A record that waits is written when its ring has room.
The model's own choices in it: logs 111, 117. -/
def Obligations.CommandAcceptance : Prop :=
  ∀ (s : State), Ready s →
    let code := fun e : BitVec 512 => eByte e 0 2
    let no := fun (iss : Nat) (e : BitVec 512) => code e / 256 % 256 * 2 ^ 24 + iss * 2 ^ 16 + smGet 0 s.ctl.seq iss
    let counted := fun (iss : Nat) (t : State) => smGet 0 t.ctl.seq iss = (smGet 0 s.ctl.seq iss + 1) % 65536
    (∀ w : W32, regOn s CTL_CMD_TAIL = true → let tail := wget w CTL_CMD_TAIL_tail
      let head := fget s CTL_CMD_HEAD CTL_CMD_HEAD_head
      let e := BitVec.ofNat 512 (memRead s (0x2000_0000 + 64 * head) 64)
      (ticketsFull s = true → Completes (.commandRingTail w) s (fun t =>
        fget t CTL_CMD_HEAD CTL_CMD_HEAD_head = head ∧ fget t CTL_CMD_TAIL CTL_CMD_TAIL_tail = tail ∧ t.mem = s.mem ∧ t.ctl.seq = s.ctl.seq)) ∧
      (ticketsFull s = false → tail = (head + 1) % 256 → code e ∉ knownCodes → toFirmware (bitsOf (no 0 e) 16 8) = false → Completes (.commandRingTail w) s (fun t =>
        fget t CTL_CMD_HEAD CTL_CMD_HEAD_head = tail ∧ counted 0 t ∧
        memBytes t.mem (0x2000_0000 + 64 * head + 4) 4 = leBytes 4 (no 0 e)))) ∧
    (∀ (c : Fin 8) (w : W32), regOn s (CTL_FCMD_CTRL c) = true →
      let e := fcmdEntry s c
      let busy := fbit s (CTL_FCMD_CTRL c) CTL_FCMD_CTRL_busy
      (wbit w CTL_FCMD_CTRL_issue = true → busy = false →
        (ticketsFull s = true → Completes (.firmwareCommandIssue c w) s (fun t =>
          fbit t (CTL_FCMD_CTRL c) CTL_FCMD_CTRL_busy = true ∧ t.ctl.outst = s.ctl.outst ∧ t.ctl.seq = s.ctl.seq)) ∧
        (ticketsFull s = false → code e ∉ knownCodes → Completes (.firmwareCommandIssue c w) s (fun t =>
          rd t (CTL_FCMD_TICKET c) = BitVec.ofNat 32 (no (c + 1) e) ∧ fbit t (CTL_FCMD_CTRL c) CTL_FCMD_CTRL_busy = false ∧ counted (c + 1) t))) ∧
      (wbit w CTL_FCMD_CTRL_issue = false ∨ busy = true → Completes (.firmwareCommandIssue c w) s (fun t =>
        t.ctl.outst = s.ctl.outst ∧ t.ctl.seq = s.ctl.seq ∧ rd t (CTL_FCMD_TICKET c) = rd s (CTL_FCMD_TICKET c)))) ∧
    (∀ (iss : Fin 256) (e : BitVec 512), code e ∉ knownCodes →
      (ticketsFull s = true ∨ s.ctl.waitq ≠ [] → Completes (.unknownCommand iss e) s (fun t =>
        t.ctl.waitq = s.ctl.waitq ++ [(iss.val, e)] ∧ t.ctl.seq = s.ctl.seq ∧ t.ctl.outst = s.ctl.outst)) ∧
      (let tail := fget s CTL_CQ_TAIL CTL_CQ_TAIL_tail
       ticketsFull s = false → s.ctl.waitq = [] → catState s ≠ 6 → toFirmware (bitsOf (no iss e) 16 8) = false → bitOf (eByte e 2 1) 0 = true →
       ringFull s false = false → (∀ h ∈ s.ctl.held, h.fw = true) → (∀ k ∈ s.ctl.outst, k.ticket ≠ no iss e) → Completes (.unknownCommand iss e) s (fun t =>
         counted iss t ∧ (∀ k ∈ t.ctl.outst, k.ticket ≠ no iss e) ∧ fget t CTL_CQ_TAIL CTL_CQ_TAIL_tail = (tail + 1) % 4096 ∧
         rd t CTL_CQ_WRITTEN = rd s CTL_CQ_WRITTEN + 1 ∧
         memBytes t.mem (0x2000_4000 + 32 * tail) 8 = leBytes 8 (no iss e % 2 ^ 32 + 0x0101 * 2 ^ 32 + code e % 256 * 2 ^ 48 +
           (if s.ctl.hostPhase0 then 0 else 2 ^ 63)) ∧
         (∀ x, x < 0x2000_4000 + 32 * tail ∨ 0x2000_4000 + 32 * tail + 32 ≤ x → memByte t.mem x = memByte s.mem x)))) ∧
    (∀ iss e, (iss < 0x10 ∨ 0x18 ≤ iss) → code e ∉ knownCodes → ticketsFull s = false → s.ctl.waitq = [(iss, e)] → s.scn.cmtWait = none →
      (∀ c, c < 8 → fbit s (CTL_FCMD_CTRL c) CTL_FCMD_CTRL_busy = false) →
      fget s CTL_CMD_HEAD CTL_CMD_HEAD_head = fget s CTL_CMD_TAIL CTL_CMD_TAIL_tail → Completes .ticketStallRelease s (fun t =>
        t.ctl.waitq = [] ∧ counted iss t)) ∧
    (ticketsFull s = true → Completes .ticketStallRelease s (fun t => t.ctl.waitq = s.ctl.waitq ∧ t.ctl.outst = s.ctl.outst)) ∧
    (∀ h, s.ctl.held.find? (fun h => !ringFull s h.fw) = some h → Completes .completionRecordWrite s (fun t =>
      t.ctl.held = s.ctl.held.erase h ∧ (∀ k ∈ t.ctl.outst, k.ticket ≠ h.ticket) ∧
      fget t (if h.fw then CTL_FW_CQ_TAIL else CTL_CQ_TAIL) CTL_CQ_TAIL_tail =
        (fget s (if h.fw then CTL_FW_CQ_TAIL else CTL_CQ_TAIL) CTL_CQ_TAIL_tail + 1) % 4096)) ∧
    (∀ (fw : Bool) (w : W32), let k := if fw then CTL_FW_CQ_HEAD else CTL_CQ_HEAD
      regOn s k = true → (s.ctl.held = [] ∨ ∃ h, s.ctl.held = [h] ∧ h.fw = fw) → ringFull (fieldsWrite s k w) fw = false →
      Completes (.completionRingRoom fw w) s (fun t => t.ctl.held = [] ∧ rd t k = rd (fieldsWrite s k w) k ∧
        fget t CTL_STATUS (if fw then CTL_STATUS_fw_cq_full else CTL_STATUS_cq_full) = 0))

/-- 16 R491, R492, 17 R522, R523: a copy starts on an idle engine that is enabled, or queues, or is refused; a finished copy has moved its bytes. An
ABORT stops the background work of its ticket and nothing else; while a drop that the DMA engines agreed to runs, none starts or ends
(18 R535). An image that passes its checks and is newer is programmed
into the other slot, which then holds its bytes; a failing one leaves its cause.
The model's own choices in it: logs 110, 112, 121. -/
def Obligations.CopiesAndLoads : Prop :=
  ∀ (s : State) (iss : Fin 256) (e : BitVec 512),
    (Accepts s 0x0901 e [(16, 21)] →
      let g := eByte e 36 1
      let job : CopyJob := ⟨g, eByte e 16 8, eByte e 24 8, eByte e 32 4, (allot iss e s).1⟩
      let queued := s.ctl.copies.filter (fun j => j.eng == g)
      let busy := s.ctl.running.any (fun j => j.eng == g)
      g < 4 → eByte e 32 4 % 8 = 0 →
      (bgEnabled s (4 + g) = true → busy = false → queued = [] → Completes (.copy iss e) s (fun t =>
        t.ctl.running = s.ctl.running ++ [job] ∧ t.ctl.copies = s.ctl.copies ∧ t.mem = s.mem)) ∧
      (bgEnabled s (4 + g) = true → (busy = true ∨ queued ≠ []) → queued.length < 16 → Completes (.copy iss e) s (fun t =>
        t.ctl.running = s.ctl.running ∧ t.ctl.copies = s.ctl.copies ++ [job] ∧ t.mem = s.mem)) ∧
      (bgEnabled s (4 + g) = false ∨ 16 ≤ queued.length → Completes (.copy iss e) s (fun t =>
        t.ctl.running = s.ctl.running ∧ t.ctl.copies = s.ctl.copies))) ∧
    (∀ (eng : Fin 4) j, Ready s → paused s 2 = false → s.ctl.running.any (fun k => k.eng == eng.val) = false → s.ctl.copies.find? (fun k => k.eng == eng.val) = some j →
      Completes (.copyStart eng) s (fun t => t.ctl.running = s.ctl.running ++ [j] ∧ t.ctl.copies = s.ctl.copies.erase j)) ∧
    (∀ (eng : Fin 4) j, Ready s → paused s 2 = false → s.ctl.running.find? (fun k => k.eng == eng.val) = some j → j.len = 8 → j.src % 8 = 0 → j.dst % 8 = 0 →
      inStore j.src 8 = true → inStore j.dst 8 = true → s.ecc.bad.contains (j.src / 8) = false →
      (∀ k ∈ s.ctl.outst, k.ticket = j.ticket → k.record = false) → Completes (.copyDone eng []) s (fun t =>
        (∀ i, i < 8 → memByte t.mem (j.dst + i) = memView s false (j.src + i)) ∧
        (∀ x, x < j.dst ∨ j.dst + 8 ≤ x → memByte t.mem x = memByte s.mem x) ∧
        t.ctl.running = s.ctl.running.erase j ∧ ∀ k ∈ t.ctl.outst, k.ticket ≠ j.ticket)) ∧
    (∀ eng : Fin 4, Ready s → paused s 2 = true → ∀ i ∈ [Instr.copyStart eng, .copyDone eng []], Completes i s (fun t =>
      t.ctl.running = s.ctl.running ∧ t.ctl.copies = s.ctl.copies ∧ t.mem = s.mem)) ∧
    (Accepts s 0x0A01 e [(16, 4)] →
      let n := eByte e 16 4
      (∀ r ∈ s.scn.recalls, r.ticket ≠ n) → (∀ c, s.twn.conserve = some c → c.ticket ≠ n) → (∀ r, s.twn.rot = some r → r.ticket ≠ n) →
      (∀ j, s.ctl.outst.any (fun k => k.ticket == n) = true → s.ecc.scrub = some j → j.ticket = n → Completes (.abort iss e) s (fun t => t.ecc.scrub = none)) ∧
      ((∀ j, s.ecc.scrub = some j → j.ticket ≠ n) → s.ctl.outst.any (fun k => k.ticket == n) = true → (∃ j ∈ s.ctl.running ++ s.ctl.copies, j.ticket = n) →
        Completes (.abort iss e) s (fun t => t.ctl.running = s.ctl.running.filter (fun j => j.ticket != n) ∧
          t.ctl.copies = s.ctl.copies.filter (fun j => j.ticket != n) ∧ t.ecc.scrub = s.ecc.scrub)) ∧
      (s.ctl.outst.any (fun k => k.ticket == n) = false → n ≠ (allot iss e s).1 → Completes (.abort iss e) s (fun t =>
        t.ctl.running = s.ctl.running ∧ t.ctl.copies = s.ctl.copies ∧ t.ecc.scrub = s.ecc.scrub ∧ t.twn = s.twn ∧ t.scn = s.scn))) ∧
    (Accepts s 0x0801 e [(16, 13)] →
      let a := eByte e 16 8
      let n := eByte e 24 4
      eByte e 28 1 = 1 → s.cat.load = none → inStore a n = true → imgLen s (.mem a) ≤ n →
      (∀ c, loadCheck s (.mem a) = some c → Completes (.loadCatalogue iss e) s (fun t =>
        t.cat = s.cat ∧ fget t CTL_CAT_STATUS CTL_CAT_STATUS_load_cause = c)) ∧
      (loadCheck s (.mem a) = none → imgSeq s (.mem a) ≤ get64 s CTL_CAT_SEQ_LO CTL_CAT_SEQ_HI → Completes (.loadCatalogue iss e) s (fun t =>
        t.cat = s.cat ∧ fget t CTL_CAT_STATUS CTL_CAT_STATUS_load_cause = 4)) ∧
      (loadCheck s (.mem a) = none → get64 s CTL_CAT_SEQ_LO CTL_CAT_SEQ_HI < imgSeq s (.mem a) → Completes (.loadCatalogue iss e) s (fun t =>
        t.cat = { s.cat with load := some ⟨a, n, 1 - fget s CTL_CAT_STATUS CTL_CAT_STATUS_slot, (allot iss e s).1⟩ } ∧ t.mem = s.mem ∧ t.perm = s.perm))) ∧
    (∀ (ok : Bool) j, Ready s → s.cat.load = some j → j.slot < 2 → catState s ≠ 6 →
      let usable := ok && s.perm.flashOk && !isAbsent s .vddio4 && (j.slot == 0 || s.perm.flashBig)
      Completes (.loadCatalogueDone ok) s (fun t => t.cat = { s.cat with load := none } ∧ t.perm.fuses = s.perm.fuses ∧
        (usable = true → ∀ i, i < 0x0800_0000 → flashByte t (slotBase j.slot + i) = if i < j.len then memView s false (j.addr + i) else 0xFF) ∧
        (usable = false → fget t CTL_CAT_STATUS CTL_CAT_STATUS_load_cause = 5) ∧
        ∀ x, x < slotBase j.slot ∨ (slotBase j.slot + 0x0800_0000 ≤ x ∧ j.len ≤ 0x0800_0000) → flashByte t x = flashByte s x))

/-- 16 R495 to R500: a descriptor that becomes valid is WAITING with its reload value, or READY with none; one that becomes
invalid leaves every list. A completion enters the FIFO, or is held by its source when it is full. The oldest one lowers its thread's counter; at the last
one the counter reloads and the thread is READY, or pending, or an overrun counts. A core takes the head of its list, or the first
unpinned thread of the longest other; a thread that ends is WAITING, or READY when one was pending.
The model's own choices in it: log 114. -/
def Obligations.Docent : Prop :=
  ∀ (s : State),
    let counter := fun (t : State) (th : Nat) => fget t (CTL_DOC_STATE th) CTL_DOC_STATE_counter
    let waits := fun (t : State) (th : Nat) => fbit t (CTL_DOC_STATE th) CTL_DOC_STATE_pending
    (∀ (th : Fin 4096) (w : W32), Ready s → regOn s (CTL_DOC_CFG th) = true →
      let home := wget w CTL_DOC_CFG_home
      let r := wget w CTL_DOC_CFG_reload
      let pins := ((List.range 4096).filter (fun u => docValid s u && docPinned s u && docHome s u == home)).length
      let kept := fun t : State => rd t (CTL_DOC_CFG th) = rd s (CTL_DOC_CFG th) ∧ rd t (CTL_DOC_STATE th) = rd s (CTL_DOC_STATE th) ∧ t.ctl.ready = s.ctl.ready
      (docValid s th = true → wbit w CTL_DOC_CFG_valid = true → Completes (.docentConfig th w) s kept) ∧
      (docValid s th = false → wbit w CTL_DOC_CFG_valid = true → wbit w CTL_DOC_CFG_pinned = true → 512 ≤ pins → Completes (.docentConfig th w) s kept) ∧
      (docValid s th = false → wbit w CTL_DOC_CFG_valid = true → (wbit w CTL_DOC_CFG_pinned = true → pins < 512) → Completes (.docentConfig th w) s (fun t =>
          docValid t th = true ∧ docHome t th = home ∧ counter t th = r ∧ waits t th = false ∧ docState t th = (if r = 0 then 1 else 0) ∧
          (r ≠ 0 → t.ctl.ready = s.ctl.ready) ∧ (r = 0 → ∃ k, th.val ∈ docList t k) ∧
          (r = 0 → wbit w CTL_DOC_CFG_pinned = true ∨ (docList s home).length < 512 → docList t home = docList s home ++ [th.val]))) ∧
      (docValid s th = false → wbit w CTL_DOC_CFG_valid = false → Completes (.docentConfig th w) s (fun t =>
        rd t (CTL_DOC_CFG th) = rd (fieldsWrite s (CTL_DOC_CFG th) w) (CTL_DOC_CFG th) ∧ rd t (CTL_DOC_STATE th) = rd s (CTL_DOC_STATE th) ∧
        t.ctl.ready = s.ctl.ready)) ∧
      (docValid s th = true → wbit w CTL_DOC_CFG_valid = false → Completes (.docentConfig th w) s (fun t =>
        docValid t th = false ∧ docState t th ≠ 1 ∧ ∀ c, c < 8 → docList t c = (docList s c).filter (· != th.val)))) ∧
    (∀ w : W32, Ready s → regOn s CTL_DOC_SIGNAL = true →
      (s.ctl.fifo.length < 1024 → Completes (.docentSignal w) s (fun t =>
        t.ctl.fifo = s.ctl.fifo ++ [bitsOf w.toNat 0 12] ∧ fget t CTL_DOC_FIFO CTL_DOC_FIFO_level = s.ctl.fifo.length + 1)) ∧
      (1024 ≤ s.ctl.fifo.length → Completes (.docentSignal w) s (fun t =>
        t.ctl.fifo = s.ctl.fifo ∧ t.ctl.fifoWait = s.ctl.fifoWait ++ [bitsOf w.toNat 0 12]))) ∧
    (let source := fun (i : Instr) (n : Nat) => let w := rd s (docSrcKey n)
       (w.getLsbD 31 = true → s.ctl.fifo.length < 1024 → Completes i s (fun t => t.ctl.fifo = s.ctl.fifo ++ [bitsOf w.toNat 0 12])) ∧
       (w.getLsbD 31 = true → 1024 ≤ s.ctl.fifo.length → Completes i s (fun t => t.ctl.fifo = s.ctl.fifo ∧
         smGet 0 t.ctl.heldCnt n = Nat.min 65535 (smGet 0 s.ctl.heldCnt n + 1))) ∧
       (w.getLsbD 31 = false → Completes i s (fun t => t.ctl.fifo = s.ctl.fifo ∧ t.ctl.heldCnt = s.ctl.heldCnt))
     (∀ x, awake s = true → s.due.contains (.docTick x) = true → source (.docentTickSource x) (32 + domNo x)) ∧
     (∀ src : Fin 32, awake s = true → s.due.contains (.docIrq src) = true → source (.docentIrqSource src) src)) ∧
    (∀ th rest, Ready s → s.ctl.fifo = th :: rest → th < 4096 → s.ctl.fifoWait = [] → s.ctl.heldCnt = [] →
      let c := counter s th
      let last := fun t : State => t.ctl.fifo = rest ∧ counter t th = fget s (CTL_DOC_CFG th) CTL_DOC_CFG_reload
      (docValid s th = false ∨ c = 0 → Completes .docentCompletion s (fun t => t.ctl.fifo = rest ∧ rd t (CTL_DOC_STATE th) = rd s (CTL_DOC_STATE th) ∧
        t.ctl.ready = s.ctl.ready ∧ rd t CTL_DOC_UNDERFLOW = rd s CTL_DOC_UNDERFLOW + (if docValid s th then 1 else 0))) ∧
      (docValid s th = true → 1 < c → Completes .docentCompletion s (fun t => t.ctl.fifo = rest ∧ counter t th = c - 1 ∧
        docState t th = docState s th ∧ t.ctl.ready = s.ctl.ready)) ∧
      (docValid s th = true → c = 1 →
        (docState s th = 0 → Completes .docentCompletion s (fun t => last t ∧ docState t th = 1 ∧ ∃ k, th ∈ docList t k)) ∧
        (docState s th ≠ 0 → waits s th = false → Completes .docentCompletion s (fun t => last t ∧ docState t th = docState s th ∧ waits t th = true)) ∧
        (docState s th ≠ 0 → waits s th = true → Completes .docentCompletion s (fun t => last t ∧ waits t th = true ∧
          rd t CTL_DOC_OVERRUN = rd s CTL_DOC_OVERRUN + 1)))) ∧
    (∀ (c : Fin 8) (w : W32), Ready s → regOn s (CTL_DOC_TAKE c) = true → w.getLsbD 0 = true →
      (∀ th l, docList s c = th :: l → th < 4096 → Completes (.docentTake c w) s (fun t =>
        rd t (CTL_DOC_GOT c) = BitVec.ofNat 32 (2 ^ 31 + th) ∧ docState t th = 2 ∧ docHome t th = docHome s th ∧
        docList t c = (th :: l).filter (· != th))) ∧
      (∀ k th, docList s c = [] → k < 8 → k ≠ c.val → ((docList s k).filter (fun u => !docPinned s u)).head? = some th → th < 4096 →
        (∀ j, j < 8 → j ≠ k → docList s j = []) → Completes (.docentTake c w) s (fun t =>
          rd t (CTL_DOC_GOT c) = BitVec.ofNat 32 (2 ^ 31 + 2 ^ 12 + th) ∧ docState t th = 2 ∧ docHome t th = c.val ∧ th ∉ docList t k)) ∧
      ((∀ j, j < 8 → docList s j = []) → Completes (.docentTake c w) s (fun t => rd t (CTL_DOC_GOT c) = 0 ∧ t.ctl.ready = s.ctl.ready))) ∧
    (∀ w : W32, Ready s → regOn s CTL_DOC_DONE = true → let th := bitsOf w.toNat 0 12
      (docState s th ≠ 2 → Completes (.docentDone w) s (fun t => docState t th = docState s th ∧ t.ctl.ready = s.ctl.ready)) ∧
      (docState s th = 2 → waits s th = false ∨ docValid s th = false → Completes (.docentDone w) s (fun t => docState t th = 0 ∧ t.ctl.ready = s.ctl.ready)) ∧
      (docState s th = 2 → waits s th = true → docValid s th = true → Completes (.docentDone w) s (fun t => docState t th = 1 ∧ waits t th = false ∧ ∃ k, th ∈ docList t k)))

/-- 17 R503, R511 to R525: the boot ROM sets the mode of the flash; a boot ROM that fails its own check stops; of two valid slots the one with the higher sequence number comes
into use, with its header in the Storeroom, and none is CONFIG_HALT. PHASE1 loads its sections and gives core 0 its entry, with the header's place in a0; a section that fails rejects the slot. A write
of continue starts PHASE2, at whose end the catalogue is applied; a failing body resets the engine. The outputs open at once or
at the next tick, with the seals of the catalogue, or the refusal says why not.
The model's own choices in it: logs 9, 13, 51, 120, 121, 122, 159. -/
def Obligations.Startup : Prop :=
  ∀ (s : State), Ready s →
    let slot := fun t : State => fget t CTL_CAT_STATUS CTL_CAT_STATUS_slot
    let i := imgInUse s
    (∀ (romOk : Bool) (unread : BitVec 2),
      let good := fun k : Nat => slotValid s unread.toNat k && !rejected s k
      let inUse := fun (k : Nat) (t : State) => catState t = 1 ∧ slot t = k ∧ t.cat.image = none ∧
        ∀ j, j < 0x5000 → memByte t.mem (0x4000_0000 + j) = flashByte s (slotBase k + j)
      (catState s ≠ 0 → Completes (.selecting romOk unread) s (fun t => catState t = catState s ∧ t.mem = s.mem ∧ t.cat = s.cat)) ∧
      (catState s = 0 → romOk = false → Completes (.selecting romOk unread) s (fun t => t.cat.romBad = true ∧ t.mem = s.mem ∧ awake t = false)) ∧
      (catState s = 0 → romOk = true →
        Completes (.selecting romOk unread) s (fun t => t.cat.flashMode = (if s.perm.flashOctal then .octal else .quad) ∧ t.perm = s.perm) ∧
        (good 0 = true → good 1 = true → Completes (.selecting romOk unread) s
          (inUse (if imgSeq s (.slot 0) < imgSeq s (.slot 1) then 1 else 0))) ∧
        (good 0 = true → good 1 = false → Completes (.selecting romOk unread) s (inUse 0)) ∧
        (good 0 = false → good 1 = true → Completes (.selecting romOk unread) s (inUse 1)) ∧
        (good 0 = false → good 1 = false → Completes (.selecting romOk unread) s (fun t => catState t = 6 ∧ t.mem = s.mem)))) ∧
    (∀ k x, i = .slot k → k < 2 → catState s = 1 → (imgSections s i).filter (fun y => y.type == 1 || y.type == 2) = [x] →
      (bodyOk s i x = true → destOk x.type x.dest x.len = true → x.type = 1 → x.entry ≠ 0 → Completes .phase1 s (fun t =>
        catState t = 2 ∧ smGet 0 t.ctl.corePc 0 = x.entry ∧ (hartOf t 0).pc = BitVec.ofNat 64 x.entry ∧ hartReg t 0 10 = 0x4000_0000 ∧ (∀ j, j < x.len → memByte t.mem (x.dest + j) = flashByte s (slotBase k + x.off + j)) ∧
        ∀ a, a < x.dest ∨ x.dest + x.len ≤ a → memByte t.mem a = memByte s.mem a)) ∧
      (bodyOk s i x = false → slotValid s 0 (1 - k) = false → Completes .phase1 s (fun t =>
        catState t = 6 ∧ rejected t k = true ∧ t.mem = s.mem))) ∧
    (∀ w : W32, regOn s CTL_CAT_CTRL = true → wbit w CTL_CAT_CTRL_open = false → Completes (.catalogueContinue w) s (fun t =>
      catState t = (if wbit w CTL_CAT_CTRL_continue = true ∧ catState s = 2 then 3 else catState s) ∧ t.cat = s.cat ∧ t.mem = s.mem)) ∧
    (∀ k, i = .slot k → k < 2 → catState s = 3 → bitOf (imgNat s i 23 1) 1 = false → s.scn.owned = [] → s.cat.initial = [] →
      (∀ x, phase2Order (imgSections s i) = [x] → bodyOk s i x = true →
        (x.type = 0x0D → Completes .phase2Done s (fun t => catState t = 4 ∧ t.cat.seals = imgNat s i x.off 4 % 256 ∧ t.mem = s.mem)) ∧
        (x.type = 0x0A → inStore (vaultBase s + x.dest) x.len = true → Completes .phase2Done s (fun t => catState t = 4 ∧
          (∀ j, j < x.len → memByte t.mem (vaultBase s + x.dest + j) = flashByte s (slotBase k + x.off + j)) ∧
          ∀ a, a < vaultBase s + x.dest ∨ vaultBase s + x.dest + x.len ≤ a → memByte t.mem a = memByte s.mem a)) ∧
        (14 ≤ x.type → Completes .phase2Done s (fun t => catState t = 4 ∧ rd t CTL_CAT_SKIPPED = rd s CTL_CAT_SKIPPED + 1 ∧ t.mem = s.mem))) ∧
      (phase2Order (imgSections s i) = [] → Completes .phase2Done s (fun t => catState t = 4 ∧ t.mem = s.mem)) ∧
      (∀ x l, phase2Order (imgSections s i) = x :: l → bodyOk s i x = false → Completes .phase2Done s (fun t =>
        rd t SYS_RESET_CAUSE = 4 ∧ rejected t k = true ∧ catState t = 0 ∧ t.mem = []))) ∧
    (let opened := fun (seals : Nat) (t : State) => catState t = 5 ∧ t.cat.openWait = false ∧ outputsOpen t = true ∧
       (seals.testBit 0 = true → fbit t (TIM_DOM_SEAL 0) TIM_DOM_SEAL_clock = true) ∧ (seals.testBit 3 = true → fbit t TIM_REF_SEAL TIM_REF_SEAL_clock = true) ∧
       (seals.testBit 4 = true → fbit t DRC_SEAL DRC_SEAL_timing = true) ∧ (seals.testBit 5 = true → fbit t TWN_SEAL TWN_SEAL_role = true) ∧
       (seals.testBit 6 = true → fbit t MEM_FUSE_SEAL MEM_FUSE_SEAL_fuse = true) ∧ (seals.testBit 7 = true → fbit t PWR_SEAL PWR_SEAL_policy = true)
     (∀ w : W32, regOn s CTL_CAT_CTRL = true → wbit w CTL_CAT_CTRL_open = true → wbit w CTL_CAT_CTRL_continue = false →
       let refused := fun n : Nat => Completes (.openOutputs w) s (fun t => fget t CTL_CAT_STATUS CTL_CAT_STATUS_open_refusal = n ∧ catState t = catState s ∧ t.cat = s.cat)
       (catState s = 5 ∨ s.cat.openWait = true → refused 4) ∧
       (s.cat.openWait = false → catState s ≠ 4 → catState s ≠ 5 → refused 1) ∧
       (s.cat.openWait = false → catState s = 4 → s.cat.initial ≠ [] → refused 2) ∧
       (s.cat.openWait = false → catState s = 4 → s.cat.initial = [] → s.cat.consTicket.isSome = true → refused 3) ∧
       (s.cat.openWait = false → catState s = 4 → s.cat.initial = [] → s.cat.consTicket = none →
         (firstRunning s = none → Completes (.openOutputs w) s (opened s.cat.seals)) ∧
         ((firstRunning s).isSome = true → Completes (.openOutputs w) s (fun t => t.cat = { s.cat with openWait := true } ∧ catState t = 4)))) ∧
     (s.cat.openWait = true → Completes .outputsOpened s (opened s.cat.seals)) ∧
     (s.cat.openWait = false → Completes .outputsOpened s (fun t => t.cat = s.cat ∧ catState t = catState s ∧ t.mem = s.mem)))

/-- 18 R530 to R543: a state change is refused while a drop or a raise runs, or when its byte is out of range; it holds at once where no domain drops or rises, and
else drops the domains that its map leaves without a key; a domain in which an internal unit holds a key rises with it (R533). A firmware key takes or gives up its domains. A drop that times out or is
refused is counted, and one that firmware asked for is tried again; a drop that commits puts its domains in their low states. Raised domains
are ON.
The model's own choices in it: logs 50, 52. -/
def Obligations.PowerStates : Prop :=
  ∀ (s : State),
    let doms := (List.range 15).filter (fun d => decide (1 ≤ d))
    (∀ (iss : Fin 256) (e : BitVec 512), Accepts s 0x0601 e [(16, 1)] →
      let v := eByte e 16 1
      (4 ≤ v ∨ s.pwr.drop.isSome = true ∨ s.pwr.raising ≠ 0 ∨ v = s.pwr.state → Completes (.setState iss e) s (fun t =>
        t.pwr = { s.pwr with raising := s.pwr.raising ||| keyedLow s })) ∧
      (v < 2 → v ≠ s.pwr.state → s.pwr.drop = none → s.pwr.raising = 0 →
        (∀ d ∈ doms, domOn s d = true ∧ bitOf (rd s (if v = 0 then PWR_MAP_RUN else PWR_MAP_QUIET)).toNat d = true) → Completes (.setState iss e) s (fun t =>
          t.pwr = { s.pwr with state := v, retry := 0 } ∧ fget t PWR_STATUS PWR_STATUS_state = v ∧ t.gal = s.gal)) ∧
      (2 ≤ v → v < 4 → v ≠ s.pwr.state → s.pwr.drop = none → s.pwr.raising = 0 → (∃ d ∈ doms, domOn s d = true) → Completes (.setState iss e) s (fun t =>
        ∃ p, t.pwr = { s.pwr with drop := some p, retry := 0, raising := keyedLow s } ∧ p.setState = some (v, (allot iss e s).1) ∧ (∀ d ∈ doms, bitOf p.doms d = domOn s d) ∧
          ∀ k, 1 ≤ k → k < 8 → rd t (PWR_FW_KEY k) = 0))) ∧
    (∀ (k : Fin 7) (w : W32), Ready s → s.pwr.drop = none →
      let key := PWR_FW_KEY (k + 1)
      let old := (rd s key).toNat
      (∀ d, 2 ≤ d → d < 14 → bitOf w.toNat d = true → bitOf old d = false → Completes (.firmwareKeyWrite k w) s (fun t =>
        hasKey t (k + 1) d = true ∧ bitOf (rd t key).toNat d = true ∧ bitOf t.pwr.retry d = false ∧ (domOn s d = false → bitOf t.pwr.raising d = true))) ∧
      (∀ d, 2 ≤ d → d < 14 → w &&& 0x7FFE#32 = 0 → bitOf old d = true → Completes (.firmwareKeyWrite k w) s (fun t =>
        hasKey t (k + 1) d = false ∧ bitOf (rd t key).toNat d = false ∧
        (domOn s d = true → softKeys s d = 2 ^ (k.val + 1) → ∃ p, t.pwr.drop = some p ∧ bitOf p.doms d = true)))) ∧
    (∀ p, Ready s → s.pwr.drop = some p → s.pwr.later = [] →
      let ended := fun (u : Nat) (t : State) => t.pwr.drop = none ∧ rd t PWR_REFUSED = rd s PWR_REFUSED + 1 ∧ fget t PWR_STATUS PWR_STATUS_refusing = u ∧
        (p.setState = none → t.pwr.retry = if u < 0x100 then s.pwr.retry ||| p.doms else s.pwr.retry)
      (∀ u : BitVec 16, (p.agreed.contains u.toNat = true → Completes (.quiesceTimeout u) s (ended u.toNat)) ∧
        (p.agreed.contains u.toNat = false → Completes (.quiesceTimeout u) s (fun t => t.pwr = s.pwr))) ∧
      (∀ u, u < 65536 → p.refused = some u → Completes .dropRefuse s (ended u)) ∧
      (p.refused = none → Completes .dropRefuse s (fun t => t.pwr = s.pwr)) ∧
      (p.refused.isSome = true → Completes .dropCommit s (fun t => t.pwr = s.pwr)) ∧
      (let target := match p.setState with | some (v, _) => v | none => fget s PWR_STATUS PWR_STATUS_state
       p.refused = none → Completes .dropCommit s (fun t => t.pwr.drop = none ∧ t.pwr.state = target ∧
        (∀ d, 2 ≤ d → d < 14 → domState t d = if bitOf p.doms d then lowOf s target d else domState s d) ∧
        (∀ d, 6 ≤ d → d < 10 → bitOf p.doms d = true → lowOf s target d = 3 → ∀ c, 17 * (d - 6) ≤ c → c < 17 * (d - 6) + 17 → coreOf t c = coreZero)))) ∧
    (Ready s →
      (s.pwr.retry ≠ 0 → s.pwr.drop = none → Completes .dropRetry s (fun t => t.pwr.retry = 0 ∧
        t.pwr.drop.map (fun p => p.doms) = (if keyless s s.pwr.retry = 0 then none else some (keyless s s.pwr.retry)))) ∧
      (s.pwr.retry = 0 ∨ s.pwr.drop.isSome = true → Completes .dropRetry s (fun t => t.pwr = s.pwr)) ∧
      Completes .raise s (fun t => ∀ d, 2 ≤ d → d < 14 → domState t d = if bitOf s.pwr.raising d then 0 else domState s d) ∧
      (s.pwr.raising ≠ 0 → (∀ d ∈ doms, bitOf s.pwr.raising d = true → domOn s d = true) → Completes .raiseComplete s (fun t =>
        t.pwr = { s.pwr with raising := 0, raiseTicket := none } ∧ ∀ n, s.pwr.raiseTicket = some n → (∀ k ∈ s.ctl.outst, k.ticket = n → k.record = false) →
          ∀ k ∈ t.ctl.outst, k.ticket ≠ n)) ∧
      (s.pwr.raising = 0 ∨ (∃ d ∈ doms, bitOf s.pwr.raising d = true ∧ domOn s d = false) → Completes .raiseComplete s (fun t => t.pwr = s.pwr)))

/-- 18 R544 to R551: in WATCH a look measures the enabled sentinels and counts consecutive looks at the threshold, and a lane or
link that is set reports; a detector that is always on, WAKE_N and the pins set report at once. The engine wakes by the first
cause in order, in RUN, with the cause shown. A running engine's sentinel shows its peak of 64 frames.
The model's own choices in it: logs 17, 54. -/
def Obligations.NightWatch : Prop :=
  ∀ (s : State),
    (s.pin.resetLow = false → s.cat.romBad = false →
      (∀ (peaks : List (Fin 32 × BitVec 24)) (lanes : BitVec 16) (links : BitVec 2),
        (s.pwr.state = 2 → Completes (.look peaks lanes links) s (fun t => rd t PWR_LOOKS = rd s PWR_LOOKS + 1 ∧
          (∀ n : Fin 32, fbit s (PWR_SENT_CFG n) PWR_SENT_CFG_enable = true →
            let p := match peaks.find? (fun q => q.1.val == n.val) with | some q => q.2.toNat | none => 0
            let thr := fget s (PWR_SENT_THR n) PWR_SENT_THR_threshold
            let h := smGet 0 s.pwr.hits n + 1
            fget t (PWR_SENT_PEAK n) PWR_SENT_PEAK_peak = p ∧ smGet 0 t.pwr.hits n = (if thr ≤ p then h else 0) ∧
            (thr ≤ p → Nat.max 1 (fget s (PWR_SENT_CFG n) PWR_SENT_CFG_looks) ≤ h → (1, n.val) ∈ t.pwr.wakes)) ∧
          (∀ l : Fin 16, bitOf (rd s PWR_NW_LINKS).toNat l = true → lanes.getLsbD l = true → ∃ l', l' ≤ l.val ∧ (2, l') ∈ t.pwr.wakes) ∧
          (∀ l : Fin 2, bitOf (rd s PWR_NW_LINKS).toNat (16 + l) = true → links.getLsbD l = true → ∃ l', l' ≤ l.val ∧ (3, l') ∈ t.pwr.wakes) ∧
          ((∀ n : Fin 32, fbit s (PWR_SENT_CFG n) PWR_SENT_CFG_enable = false) → rd s PWR_NW_LINKS = 0 → t.pwr.wakes = s.pwr.wakes))) ∧
        (s.pwr.state ≠ 2 → Completes (.look peaks lanes links) s (fun t => t.pwr = s.pwr))) ∧
      (∀ lane : Fin 16, Completes (.linkSignalDetect lane) s (fun t => t.pwr.wakes =
        if s.pwr.state = 2 ∧ fbit s PWR_NW_CFG PWR_NW_CFG_detect_always = true ∧ bitOf (rd s PWR_NW_LINKS).toNat lane = true
          then s.pwr.wakes ++ [(2, lane.val)] else s.pwr.wakes)) ∧
      Completes (.wakePin none) s (fun t => t.pwr.wakes = if s.pwr.state < 2 then s.pwr.wakes else s.pwr.wakes ++ [(4, 0)]) ∧
      (∀ g : Fin 32, Completes (.wakePin (some g)) s (fun t => t.pwr.wakes =
        if 2 ≤ s.pwr.state ∧ bitOf (rd s PWR_WAKE_GP).toNat g = true then s.pwr.wakes ++ [(5, g.val)] else s.pwr.wakes)) ∧
      (∀ c i, 2 ≤ s.pwr.state → (c, i) ∈ s.pwr.wakes → (∀ w ∈ s.pwr.wakes, c < w.1 ∨ (c = w.1 ∧ i ≤ w.2)) → Completes .wake s (fun t =>
        t.pwr.state = 0 ∧ t.pwr.wakes = [] ∧ rd t PWR_WAKE_CAUSE = BitVec.ofNat 32 ((if s.pwr.state = 3 then 2 ^ 16 else 0) + i * 2 ^ 8 + c) ∧
        rd t SYS_RESET_CAUSE = 8 ∧ t.gal = State.reset.gal ∧ t.perm = s.perm)) ∧
      (s.pwr.state < 2 ∨ s.pwr.wakes = [] → Completes .wake s (fun t => t.pwr = s.pwr ∧ t.mem = s.mem ∧ t.gal = s.gal))) ∧
    (∀ n : Fin 32, Ready s →
      let p := smGet 0 s.pwr.sentPk n
      let held := decide (fget s (PWR_SENT_THR n) PWR_SENT_THR_threshold ≤ p)
      fbit s (PWR_SENT_CFG n) PWR_SENT_CFG_enable = true → sideLocked s (sentSide s n) = true →
      (64 ≤ smGet 0 s.pwr.sentN n → p < 2 ^ 24 → Completes (.sentinelPeakUpdate n) s (fun t =>
        fget t (PWR_SENT_PEAK n) PWR_SENT_PEAK_peak = p ∧ fget t PWR_SENT_HELD ⟨n, 1⟩ = (if held then 1 else 0) ∧
        smGet 0 t.pwr.sentN n = 0 ∧ smGet 0 t.pwr.sentPk n = 0)) ∧
      (smGet 0 s.pwr.sentN n < 64 → Completes (.sentinelPeakUpdate n) s (fun t => t.pwr = s.pwr ∧ t.prt = s.prt)))

/-- 19 R552 to R564: an occurrence of an enabled code with a token joins the queue, or is counted as suppressed. The writer gives the oldest the
next sequence number, its time, its suppressed count and its words, in the ring, or in a last-resort slot once the Ledger has degraded. A freeze holds
when the queue is empty, and ends by command or when its time is over. The configuration registers act as their rules say.
The model's own choices in it: logs 130, 131. -/
def Obligations.LedgerEvents : Prop :=
  ∀ (s : State),
    let taken := fun code : Nat => fbit s LDG_CFG LDG_CFG_enable = true ∧ s.ldg.freezing = false ∧ fbit s (LDG_CODE_CFG code) LDG_CODE_CFG_enable = true ∧
      (fget s (LDG_CODE_CFG code) LDG_CODE_CFG_period_ms = 0 ∨ smGet 0 s.ldg.used code < codeDepth s code) ∧ s.ldg.queue.length < 256
    let joined := fun (code src : Nat) (det : List W32) (t : State) => t.ldg.queue = s.ldg.queue ++ [⟨code, src, det, s.tim.freiz⟩] ∧
      t.ldg.ring = s.ldg.ring ∧ rd t LDG_SUPPRESSED = rd s LDG_SUPPRESSED ∧
      smGet 0 t.ldg.used code = smGet 0 s.ldg.used code + (if fget s (LDG_CODE_CFG code) LDG_CODE_CFG_period_ms = 0 then 0 else 1)
    let dropped := fun (code : Nat) (t : State) => t.ldg.queue = s.ldg.queue ∧ rd t LDG_SUPPRESSED = rd s LDG_SUPPRESSED + 1 ∧
      smGet 0 t.ldg.supp code = Nat.min (smGet 0 s.ldg.supp code + 1) 0xFFFF_FFFF
    let flag := fun (t : State) (f : Fld) => fbit t LDG_STATUS f
    (∀ (iss : Fin 256) (e : BitVec 512),
      (Accepts s 0x0701 e [] →
        (flag s LDG_STATUS_frozen = true → Completes (.freeze iss e) s (fun t => t.ldg = s.ldg ∧ flag t LDG_STATUS_frozen = true)) ∧
        (flag s LDG_STATUS_frozen = false → s.ldg.queue = [] → Completes (.freeze iss e) s (fun t =>
          t.ldg = { s.ldg with freezing := true, freezeTickets := [] } ∧ flag t LDG_STATUS_frozen = true ∧ flag t LDG_STATUS_thawed = false)) ∧
        (flag s LDG_STATUS_frozen = false → s.ldg.queue ≠ [] → Completes (.freeze iss e) s (fun t =>
          t.ldg = { s.ldg with freezing := true, freezeTickets := s.ldg.freezeTickets ++ [(allot iss e s).1] } ∧ flag t LDG_STATUS_frozen = false))) ∧
      (Accepts s 0x0702 e [] → Completes (.unfreeze iss e) s (fun t =>
        t.ldg = { s.ldg with freezing := false, freezeTickets := [] } ∧ flag t LDG_STATUS_frozen = false))) ∧
    (Ready s →
      (s.ldg.queue = [] → s.ldg.freezing = true → flag s LDG_STATUS_frozen = false → Completes .freezeComplete s (fun t =>
        t.ldg = { s.ldg with freezeTickets := [] } ∧ flag t LDG_STATUS_frozen = true)) ∧
      (s.ldg.queue ≠ [] ∨ s.ldg.freezing = false ∨ flag s LDG_STATUS_frozen = true → Completes .freezeComplete s (fun t => t.ldg = s.ldg)) ∧
      (s.ldg.freezing = true → fget s LDG_CFG LDG_CFG_freeze_max_s ≠ 0 → Completes .freezeTimeout s (fun t =>
        t.ldg = { s.ldg with freezing := false, freezeTickets := [] } ∧ flag t LDG_STATUS_frozen = false ∧ flag t LDG_STATUS_thawed = true)) ∧
      (s.ldg.freezing = false ∨ fget s LDG_CFG LDG_CFG_freeze_max_s = 0 → Completes .freezeTimeout s (fun t => t.ldg = s.ldg)) ∧
      (∀ (code : Fin 1024) (src : BitVec 16) (det : List W32),
        (taken code → Completes (.ledgerOccurrence code src det) s (joined code src.toNat (det.take 24))) ∧
        (¬taken code → Completes (.ledgerOccurrence code src det) s (dropped code)) ∧
        Completes (.ledgerTokenAdd code) s (fun t => smGet 0 t.ldg.used code = smGet 0 s.ldg.used code - 1 ∧
          ∀ c, c ≠ code.val → smGet 0 t.ldg.used c = smGet 0 s.ldg.used c)) ∧
      (∀ o rest, s.ldg.queue = o :: rest →
        let entry := fun (t : State) (e : LdgEntry) => e.seq = s.ldg.next ∧ e.time = o.time ∧ e.code = o.code ∧ e.src = o.src ∧
          e.suppressed = smGet 0 s.ldg.supp o.code ∧ e.words.length = 24 ∧ e.words.take o.det.length = o.det.take 24 ∧
          t.ldg.queue = rest ∧ t.ldg.next = s.ldg.next + 1 ∧ smGet 0 t.ldg.supp o.code = 0 ∧ rd t LDG_WRITTEN = rd s LDG_WRITTEN + 1 ∧
          fget t LDG_STATUS LDG_STATUS_position = (s.ldg.next + 1) % 16384
        (degraded s = false → Completes (.ledgerEntryWrite none) s (fun t => ∃ e, entry t e ∧
          t.ldg.ring = smSet none s.ldg.ring (s.ldg.next % 16384) (some e))) ∧
        (degraded s = true → Completes (.ledgerEntryWrite none) s (fun t => ∃ e, entry t e ∧ t.ldg.ring = s.ldg.ring ∧
          t.ldg.slots = smSet none s.ldg.slots s.ldg.slotNext (some e) ∧ t.ldg.slotNext = if s.ldg.slotNext = 3 then 1 else s.ldg.slotNext + 1)) ∧
        (∀ bad, degraded s = false → Completes (.ledgerEntryWrite (some bad)) s (fun t => degraded t = true ∧ t.ldg.ring = [] ∧
          (∃ e, smGet none t.ldg.slots 0 = some e ∧ e.code = 0x3C0 ∧ e.seq = s.ldg.next) ∧
          ∃ e, smGet none t.ldg.slots 1 = some e ∧ e.code = o.code ∧ e.seq = s.ldg.next + 1))) ∧
      (∀ w : W32,
        (regOn s LDG_CFG = true → fbit s LDG_CFG LDG_CFG_enable = false → wbit w LDG_CFG_enable = true → s.ldg.later = [] → Completes (.ledgerEnable w) s (fun t =>
          t.ldg = { s.ldg with used := [] } ∧ fbit t LDG_CFG LDG_CFG_enable = true)) ∧
        (regOn s LDG_CFG = true → fbit s LDG_CFG LDG_CFG_enable = true ∨ wbit w LDG_CFG_enable = false → Completes (.ledgerEnable w) s (fun t =>
          t.ldg = s.ldg ∧ rd t LDG_CFG = rd (fieldsWrite s LDG_CFG w) LDG_CFG)) ∧
        (∀ code : Fin 1024, regOn s (LDG_CODE_CFG code) = true → Completes (.codeConfigWrite code w) s (fun t =>
          rd t (LDG_CODE_CFG code) = rd (fieldsWrite s (LDG_CODE_CFG code) w) (LDG_CODE_CFG code) ∧ smGet 0 t.ldg.used code = 0 ∧
          t.ldg.queue = s.ldg.queue ∧ t.ldg.ring = s.ldg.ring)) ∧
        (regOn s LDG_SW_EVENT = true → let code := 0x3E0 + wget w LDG_SW_EVENT_n
          (wbit w LDG_SW_EVENT_go = true → taken code → Completes (.softwareEvent w) s (joined code (wget w LDG_SW_EVENT_source) [])) ∧
          (wbit w LDG_SW_EVENT_go = true → ¬taken code → Completes (.softwareEvent w) s (dropped code)) ∧
          (wbit w LDG_SW_EVENT_go = false → Completes (.softwareEvent w) s (fun t => t.ldg = s.ldg)))))

/-- 20 R580 to R585, R597, R598: the host link's reset moves that link alone; a reset gives the engine its start, keeps
what it holds without power, and says its cause, and its pins take the states of reset; a supply that goes takes the pins that it feeds along.
TWIN_ALIVE is high while the outputs are open and the engine is not withdrawn. The JTAG instructions drive and capture as theirs say, touch nothing of the engine, and do nothing
without their supply; the fuses take bits under reset with VPP_FUSE, and show on a read.
The model's own choices in it: logs 9, 10, 17, 53, 57, 58. -/
def Obligations.PinsAndTestPort : Prop :=
  ∀ (s : State),
    let trains := !(s.pin.absent.contains .vddSds || s.pin.absent.contains .vddhSds || s.pin.absent.contains .vddio5) && decide (s.pwr.state < 2)
    let restarted := fun (cause : W32) (t : State) => t.mem = [] ∧ t.gal = State.reset.gal ∧ t.scn = State.reset.scn ∧ t.str = State.reset.str ∧
      t.cores = State.reset.cores ∧ t.tim = State.reset.tim ∧ t.perm = s.perm ∧ rd t SYS_RESET_CAUSE = cause ∧ catState t = 0
    let alone := fun t : State => t.mem = s.mem ∧ t.gal = s.gal ∧ t.scn = s.scn ∧ t.tim = s.tim ∧ t.perm = s.perm ∧ ∀ k, ¬settleKey k → rd t k = rd s k
    (s.pin.resetLow = false → s.pwr.state < 2 → s.pin.ir ∉ [.highz, .extest, .clamp] →
      pinMode s .alive = if catState s = 5 ∧ s.twn.withdrawn = false then .high else .low) ∧
    Completes .pcieReset s (fun t => t.pin = { s.pin with perstLow := true, pcieUp := false } ∧ alone t) ∧
    Completes .pciePerstRise s (fun t => t.pin = { s.pin with perstLow := false, pcieUp := trains } ∧ alone t) ∧
    Completes .powerOnReset s (fun t => restarted 1 t ∧ t.pin.ir = .idcode ∧ t.pin.resetLow = s.pin.resetLow ∧ t.pin.absent = s.pin.absent) ∧
    Completes (.resetPin false) s (fun t => restarted 2 t ∧ t.pin.resetLow = true ∧ t.pin.absent = s.pin.absent ∧
      ∀ g, (pinSupplies g).all (fun v => !s.pin.absent.contains v) = true → s.pin.ir ∉ [.highz, .extest, .clamp] → pinMode t g = match g with
        | .ownOut => .released
        | .serdesTx => .idle
        | .serdesRx => .terminated
        | .xspi => .csPulledUp
        | .dram => .resetLow
        | _ => .highZ) ∧
    Completes (.resetPin true) s (fun t => t.pin = { s.pin with resetLow := false } ∧ alone t) ∧
    (∀ v : Supply,
      (s.pin.absent.contains v = true → Completes (.optionalSupplyLoss v) s (fun t => t.pin = s.pin ∧ alone t)) ∧
      (s.pin.absent.contains v = false → Completes (.optionalSupplyLoss v) s (fun t => t.pin.absent = s.pin.absent ++ [v] ∧ (∀ g, v ∈ pinSupplies g → pinMode t g = .highZ) ∧
        (v = .vddSds ∨ v = .vddhSds ∨ v = .vddio5 → t.pin.pcieUp = false) ∧ (v = .vddSds ∨ v = .vddhSds → ∀ p, p < 8 → portUp t p = false) ∧
        (∀ (i : Fin 160) d, v = sideSupply i → v = .vddio0 ∨ v = .vddio1 ∨ v = .vddio2 → s.prt.sides.map (·.1) = [i.val] → side s i = some d → d.cause = 0 → sideMaster i d = false →
          sideWorks s i d = true → sideState t i = stABSENT))) ∧
      Completes (.optionalSupplyReturn v) s (fun t => t.pin.absent = s.pin.absent.filter (· != v) ∧ t.pin.resetLow = s.pin.resetLow ∧ alone t)) ∧
    (s.pin.absent.contains .vddio5 = false →
      let driven := fun (t : State) (m : PinMode) => ∀ g, pinSingle g = true → (pinSupplies g).all (fun v => !s.pin.absent.contains v) = true → pinMode t g = m
      let jtag := fun (ir : JtagIr) (i : Instr) (P : State → Prop) => Completes i s (fun t => P t ∧ t.pin.ir = ir ∧
        { t with pin := s.pin, out := s.out, perm := s.perm } = s ∧ t.pin.absent = s.pin.absent ∧ t.pin.resetLow = s.pin.resetLow)
      (∀ tdi : Bool, jtag .bypass (.bypass tdi) (fun t => t.out = [.tdo (if s.pin.bypassBit then 1 else 0) 1] ∧ t.pin.bypassBit = tdi ∧ t.perm = s.perm)) ∧
      jtag .idcode .idcode (fun t => t.out = [.tdo 0x1980_0A97 32] ∧ t.perm = s.perm) ∧
      (∀ cells preload : Nat, jtag .sample (.samplePreload cells preload) (fun t =>
        t.out = [.tdo cells (Nat.log2 cells + 1)] ∧ t.pin.boundary = cells ∧ t.pin.preload = preload ∧ t.perm = s.perm)) ∧
      jtag .extest .extest (fun t => t.out = [] ∧ t.pin.boundary = s.pin.preload ∧ t.perm = s.perm ∧ driven t .scan) ∧
      jtag .clamp .clamp (fun t => t.out = [] ∧ t.pin.boundary = s.pin.preload ∧ t.pin.bypassBit = false ∧ t.perm = s.perm ∧ driven t .scan) ∧
      jtag .highz .highz (fun t => t.out = [] ∧ t.pin.bypassBit = false ∧ t.perm = s.perm ∧ driven t .highZ) ∧
      (∀ bits : BitVec 256, jtag .fuseKey (.fuseKey bits) (fun t => t.out = [] ∧ t.perm.otp = s.perm.otp ∧ t.perm.flash = s.perm.flash ∧
        t.perm.fuses = if s.pin.resetLow && !s.pin.absent.contains .vppFuse then s.perm.fuses ||| bits else s.perm.fuses)) ∧
      jtag .fuseRead .fuseRead (fun t => t.out = [.tdo s.perm.fuses.toNat 256] ∧ t.perm = s.perm)) ∧
    (s.pin.absent.contains .vddio5 = true → ∀ (tdi : Bool) (cells preload : Nat) (bits : BitVec 256),
      ∀ i ∈ [Instr.bypass tdi, .idcode, .samplePreload cells preload, .extest, .clamp, .highz, .fuseKey bits, .fuseRead],
        exec i s = .next { s with out := [] })

/-- 16 R486, and the model's own queue (logs 11, 12): a step runs the command at the front of the queue on the state with the rest of
the queue; with no command waiting the engine idles.
The model's own choices in it: logs 12, 15, 16. -/
def Obligations.StepRunsFront : Prop :=
  ∀ s : State,
    (∀ i rest, s.pending = i :: rest → step s = exec i { s with pending := rest }) ∧
    (s.pending = [] → step s = .next s)

/-- No command faults or is refused, and none touches the queue of those that wait.
The model's own choices in it: logs 11, 14, 17. -/
def Obligations.CommandsComplete : Prop :=
  ∀ (i : Instr) (s : State), Completes i s (fun t => t.pending = s.pending)

/-- 20 R580, R584, 17 R514, 18 R530: while RESET_N holds the engine in reset, once the boot ROM has failed its own check, and in WATCH
and DORMANT, no command has an effect, apart from those of the always-on domain, the pins and the test port.
The model's own choices in it: log 17. -/
def Obligations.AsleepEngineIsInert : Prop :=
  ∀ (i : Instr) (s : State), awake s = false →
    (match i with
      | .look .. | .linkSignalDetect .. | .wakePin .. | .wake | .wakePatternDetect .. | .pcieReset | .pciePerstRise | .powerOnReset | .resetPin ..
      | .optionalSupplyLoss .. | .optionalSupplyReturn .. | .bypass .. | .idcode | .samplePreload .. | .extest | .clamp | .highz
      | .fuseKey .. | .fuseRead => False
      | _ => True) →
    exec i s = .next { s with out := [] }

/-- 17 R509, 20 R598, 13 R424, 17 R523: a step takes away no key-hash fuse; bits are set by FUSE_KEY alone, with RESET_N low, VPP_FUSE and VDDIO5 there; repair
entries and the flash are written by the commands that program them alone.
The model's own choices in it: logs 9, 17. -/
def Obligations.FusesOnlyGrow : Prop :=
  (∀ (K : BitVec 256) (s t : State), K &&& s.perm.fuses = K → step s = .next t → K &&& t.perm.fuses = K) ∧
  (∀ (i : Instr) (s t : State), exec i s = .next t →
    (t.perm.fuses = s.perm.fuses ∨ (∃ bits, i = .fuseKey bits ∧ s.pin.resetLow = true ∧ isAbsent s .vppFuse = false ∧ isAbsent s .vddio5 = false ∧
      t.perm.fuses = s.perm.fuses ||| bits)) ∧
    (t.perm.otp = s.perm.otp ∨ ∃ ok, i = .repairDone ok) ∧
    (t.perm.flash = s.perm.flash ∨ ∃ ok, i = .loadCatalogueDone ok))

/-- 00 R3 and the model's own form of memory (log 1): every step keeps the byte memories in their one canonical form, so that equal memories are
equal data.
The model's own choices in it: log 1. -/
def Obligations.MemoryStaysCanonical : Prop :=
  ∀ s t : State, s.memOk → step s = .next t → t.memOk

/-- 20 R580, 15 R453: after a power-on reset every register holds the reset word of its table, the memories list nothing and no
command waits; the reset cause is power-on, and the memory is in its canonical form.
The model's own choices in it: logs 1, 4, 5, 6, 7, 8, 9. -/
def Obligations.ResetState : Prop :=
  (∀ k, rd State.reset k = regReset k) ∧ State.reset.mem = [] ∧ State.reset.memOk ∧ State.reset.pending = [] ∧ regsOk State.reset ∧
  rd State.reset SYS_RESET_CAUSE = 1 ∧ State.reset.pwr.state = 0 ∧ catState State.reset = 0 ∧ awake State.reset = true ∧
  (∀ x, running State.reset x = false) ∧ State.reset.ctl.outst = [] ∧ twnMode State.reset = 0 ∧ chState State.reset 0 = 0

/-- What the commands of one group leave alone: the Reading Room changes its mailbox (and takes a PTP timestamp), the Docent
its threads and its queue, and neither a byte of memory, an audio value, a time, a counter of a link or a state of power.
The model's own choices in it: logs 113, 114. -/
def Obligations.FramesOfControl : Prop :=
  ∀ (s : State), Ready s →
    let audio := fun t : State => t.mem = s.mem ∧ t.gal = s.gal ∧ t.scn = s.scn ∧ t.str = s.str ∧ t.cores = s.cores ∧ t.prt = s.prt ∧ t.dax = s.dax ∧ t.line = s.line ∧
      t.tim = s.tim ∧ t.twn = s.twn ∧ t.ecc = s.ecc ∧ t.drc = s.drc ∧ t.cat = s.cat ∧ t.pwr = s.pwr ∧ t.pin = s.pin ∧ t.perm = s.perm
    (∀ (mb : Fin 16) (arg : BitVec 24), regOn s (RR_REQ mb) = true →
      ∀ i ∈ [Instr.dieIdentifier mb arg, .sampleIndex mb arg, .freizTime mb arg, .stepOffsets mb arg, .ppsInTimestamp mb arg,
        .ptpTransmitTimestamp mb arg, .nodeWord mb arg, .outputPatchEntry mb arg, .stripValue mb arg, .atelierRegister mb arg, .bridgeCoefficient mb arg,
        .networkCounter mb arg, .correctionAddress mb arg, .errorCaptureAddress mb arg, .ledgerEntry mb arg none, .ledgerSequenceNumber mb arg],
      Completes i s (fun t => audio t ∧ t.ldg = s.ldg ∧ t.free = s.free ∧ t.ctl.outst = s.ctl.outst ∧
        ∀ k, ¬settleKey k → k ∉ [RR_REQ mb, RR_STATUS mb, RR_DATA0 mb, RR_DATA1 mb, RR_DATA2 mb, RR_DATA3 mb] → rd t k = rd s k)) ∧
    (∀ (th : Fin 4096) (c : Fin 8) (w : W32), ∀ i ∈ [Instr.docentConfig th w, .docentSignal w, .docentCompletion, .docentTake c w, .docentDone w],
      Completes i s (fun t => audio t ∧ t.free = s.free ∧ t.ctl.outst = s.ctl.outst ∧ t.ctl.corePc = s.ctl.corePc ∧ t.ctl.running = s.ctl.running))
end

