-- ==== Sys2Proof/Laws/Maps.lean ====
section
/-! SUPPORT. Laws of the sparse maps and of byte memory: what a read gives after a write, and that every write keeps the
canonical form. -/

namespace Sys2Proof.Machine

/-! ## Sparse maps -/

/-- A map in canonical form: keys rise strictly and no value is the default. -/
def smOk {α : Type} [DecidableEq α] (d : α) : SMap α → Bool
  | [] => true
  | (k, v) :: t => decide (v ≠ d) && t.all (fun e => decide (k < e.1)) && smOk d t

theorem smGet_smDel {α : Type} (d : α) (m : SMap α) (k k' : Nat) :
    smGet d (smDel m k) k' = if k' = k then d else smGet d m k' := by
  induction m with
  | nil => simp [smDel, smGet]
  | cons e t ih =>
    obtain ⟨a, v⟩ := e
    unfold smDel at ih ⊢
    by_cases h : a = k
    · subst h
      simp only [List.filter_cons, bne_self_eq_false, Bool.false_eq_true, if_false, ih, smGet]
      by_cases h2 : k' = a
      · simp [h2]
      · simp [h2, Ne.symm h2]
    · have hb : (a != k) = true := by simp [h]
      simp only [List.filter_cons, hb, if_true, smGet, ih]
      by_cases h2 : a = k'
      · subst h2; simp [h]
      · simp [h2]

theorem smGet_smIns {α : Type} (d : α) (m : SMap α) (k k' : Nat) (v : α) (h : ∀ e ∈ m, e.1 ≠ k) :
    smGet d (smIns m k v) k' = if k' = k then v else smGet d m k' := by
  induction m with
  | nil => simp only [smIns, smGet, eq_comm]
  | cons e t ih =>
    obtain ⟨a, w⟩ := e
    have ha : a ≠ k := h (a, w) (by simp)
    have ih' := ih (fun e he => h e (by simp [he]))
    unfold smIns
    split
    · simp only [smGet]
      by_cases h2 : k' = k
      · simp [h2]
      · simp [h2, Ne.symm h2]
    · simp only [smGet, ih']
      by_cases h2 : a = k'
      · subst h2; simp [ha]
      · simp [h2]

theorem smDel_ne {α : Type} (m : SMap α) (k : Nat) : ∀ e ∈ smDel m k, e.1 ≠ k := by
  intro e he
  have := (List.mem_filter.mp he).2
  simpa using this

/-- Reading a key after a write gives the value written, and every other key reads as before. -/
theorem smGet_smSet {α : Type} [DecidableEq α] (d : α) (m : SMap α) (k k' : Nat) (v : α) :
    smGet d (smSet d m k v) k' = if k' = k then v else smGet d m k' := by
  unfold smSet
  split
  · next h => rw [smGet_smDel]; simp [h]
  · rw [smGet_smIns _ _ _ _ _ (smDel_ne m k), smGet_smDel]
    split <;> rfl

@[simp] theorem smGet_smSet_same {α : Type} [DecidableEq α] (d : α) (m : SMap α) (k : Nat) (v : α) :
    smGet d (smSet d m k v) k = v := by rw [smGet_smSet]; simp

theorem smGet_smSet_ne {α : Type} [DecidableEq α] (d : α) (m : SMap α) (k k' : Nat) (v : α) (h : k' ≠ k) :
    smGet d (smSet d m k v) k' = smGet d m k' := by rw [smGet_smSet]; simp [h]

theorem smDel_all {α : Type} (m : SMap α) (k a : Nat) (h : m.all (fun e => decide (a < e.1)) = true) :
    (smDel m k).all (fun e => decide (a < e.1)) = true := by
  rw [List.all_eq_true] at h ⊢
  intro e he
  exact h e (List.mem_filter.mp he).1

theorem smIns_all {α : Type} (m : SMap α) (k a : Nat) (v : α) (h : m.all (fun e => decide (a < e.1)) = true) (hk : a < k) :
    (smIns m k v).all (fun e => decide (a < e.1)) = true := by
  induction m with
  | nil => simp [smIns, hk]
  | cons e t ih =>
    simp only [List.all_cons, Bool.and_eq_true] at h
    unfold smIns
    split
    · simp [hk, h.1, h.2]
    · simp only [List.all_cons, Bool.and_eq_true]; exact ⟨h.1, ih h.2⟩

theorem smOk_smDel {α : Type} [DecidableEq α] (d : α) (m : SMap α) (k : Nat) (h : smOk d m = true) :
    smOk d (smDel m k) = true := by
  induction m with
  | nil => rfl
  | cons e t ih =>
    obtain ⟨a, v⟩ := e
    simp only [smOk, Bool.and_eq_true] at h
    have := ih h.2
    unfold smDel at this ⊢
    simp only [List.filter_cons]
    split
    · simp only [smOk, Bool.and_eq_true]
      exact ⟨⟨h.1.1, smDel_all t k a h.1.2⟩, this⟩
    · exact this

theorem smOk_smIns {α : Type} [DecidableEq α] (d : α) (m : SMap α) (k : Nat) (v : α) (hv : v ≠ d) (h : smOk d m = true)
    (hk : ∀ e ∈ m, e.1 ≠ k) : smOk d (smIns m k v) = true := by
  induction m with
  | nil => simp [smIns, smOk, hv]
  | cons e t ih =>
    obtain ⟨a, w⟩ := e
    have ha : a ≠ k := hk (a, w) (by simp)
    have h0 := h
    simp only [smOk, Bool.and_eq_true] at h
    unfold smIns
    split
    · next hlt =>
      simp only [smOk, Bool.and_eq_true, List.all_cons]
      refine ⟨⟨by simp [hv], by simpa using hlt, ?_⟩, h.1, h.2⟩
      have := h.1.2
      rw [List.all_eq_true] at this ⊢
      intro e he
      have := this e he
      simp only [decide_eq_true_eq] at this ⊢
      simp only at hlt
      omega
    · next hge =>
      simp only [smOk, Bool.and_eq_true]
      simp only at hge
      exact ⟨⟨h.1.1, smIns_all t k a v h.1.2 (by omega)⟩, ih h.2 (fun e he => hk e (by simp [he]))⟩

/-- A write keeps the canonical form. -/
theorem smOk_smSet {α : Type} [DecidableEq α] (d : α) (m : SMap α) (k : Nat) (v : α) (h : smOk d m = true) :
    smOk d (smSet d m k v) = true := by
  unfold smSet
  split
  · exact smOk_smDel d m k h
  · next hv => exact smOk_smIns d _ k v hv (smOk_smDel d m k h) (smDel_ne m k)

/-! ## Byte memory -/

theorem memWf_eq (m : List Host.Cell) : memWf m = smOk memDefault m := by
  induction m with
  | nil => rfl
  | cons c t ih =>
    obtain ⟨a, b⟩ := c
    cases t with
    | nil => by_cases hb : b = memDefault <;> simp [memWf, smOk, hb]
    | cons c' t' =>
      obtain ⟨a', b'⟩ := c'
      simp only [memWf, ih, smOk, List.all_cons]
      by_cases hb : b = memDefault
      · simp [hb]
      · simp only [ne_eq, hb, not_false_eq_true, decide_true, Bool.true_and]
        by_cases hlt : a < a'
        · simp only [hlt, decide_true, Bool.true_and]
          by_cases hall : t'.all (fun e => decide (a' < e.1)) = true
          · have : t'.all (fun e => decide (a < e.1)) = true := by
              rw [List.all_eq_true] at hall ⊢
              intro e he
              have := hall e he
              simp only [decide_eq_true_eq] at this ⊢
              omega
            simp [hall, this, hb]
          · simp [hall]
        · simp [hlt]

/-- Writing one byte keeps the canonical form. -/
theorem memPut_wf (m : List Host.Cell) (a : Nat) (b : Byte) (h : memWf m = true) : memWf (memPut m a b) = true := by
  rw [memWf_eq] at h ⊢
  exact smOk_smSet memDefault m a b h

/-- Writing bytes keeps the canonical form. -/
theorem memPutBytes_wf (l : List Byte) : ∀ (m : List Host.Cell) (a : Nat), memWf m = true → memWf (memPutBytes m a l) = true := by
  induction l with
  | nil => intro m a h; exact h
  | cons b t ih => intro m a h; exact ih _ _ (memPut_wf m a b h)

theorem memByte_memPut (m : List Host.Cell) (a a' : Nat) (b : Byte) :
    memByte (memPut m a b) a' = if a' = a then b else memByte m a' := smGet_smSet _ _ _ _ _

/-- Bytes outside the bytes written read as before. -/
theorem memByte_memPutBytes_out (l : List Byte) : ∀ (m : List Host.Cell) (a a' : Nat), (a' < a ∨ a + l.length ≤ a') →
    memByte (memPutBytes m a l) a' = memByte m a' := by
  induction l with
  | nil => intro m a a' _; rfl
  | cons b t ih =>
    intro m a a' h
    simp only [List.length_cons] at h
    rw [memPutBytes, ih _ _ _ (by omega), memByte_memPut]
    have : a' ≠ a := by omega
    simp [this]

/-- Bytes inside the bytes written read as written. -/
theorem memByte_memPutBytes_in (l : List Byte) : ∀ (m : List Host.Cell) (a i : Nat) (h : i < l.length),
    memByte (memPutBytes m a l) (a + i) = l[i] := by
  induction l with
  | nil => intro m a i h; simp at h
  | cons b t ih =>
    intro m a i h
    cases i with
    | zero =>
      rw [memPutBytes, memByte_memPutBytes_out _ _ _ _ (by omega), memByte_memPut]
      simp
    | succ j =>
      rw [memPutBytes, show a + (j + 1) = (a + 1) + j by omega, ih _ _ j (by simpa using h)]
      simp

/-- After reset memory is in canonical form. -/
theorem reset_memWf : memWf State.reset.mem = true := rfl

/-- What a unit of the engine writes keeps the canonical form. -/
theorem memStoreBytes_wf (s : State) (a : Nat) (l : List Byte) (h : memWf s.mem = true) :
    memWf (memStoreBytes s a l).mem = true := memPutBytes_wf l s.mem a h

end Sys2Proof.Machine
end

