-- ==== Sys2Proof/Laws/Regs.lean ====
section
/-! SUPPORT. Laws of registers and their fields: a register reads as written, the others as before. -/

namespace Sys2Proof.Machine

/-! ## Bits of a number -/

theorem bitsOf_lt (v lo len : Nat) : bitsOf v lo len < 2 ^ len := Nat.mod_lt _ (Nat.two_pow_pos _)

/-- A number as the bits above a field, the field, and the bits below it. -/
theorem bits_split (v lo len : Nat) : v = v / 2 ^ (lo + len) * 2 ^ (lo + len) + bitsOf v lo len * 2 ^ lo + v % 2 ^ lo := by
  have h1 := Nat.div_add_mod v (2 ^ lo)
  have h2 := Nat.div_add_mod (v / 2 ^ lo) (2 ^ len)
  have h3 : v / 2 ^ lo / 2 ^ len = v / 2 ^ (lo + len) := by rw [Nat.div_div_eq_div_mul, Nat.pow_add]
  rw [h3] at h2
  unfold bitsOf
  have h4 : 2 ^ (lo + len) = 2 ^ lo * 2 ^ len := Nat.pow_add ..
  rw [h4] at h2 ⊢
  generalize v / (2 ^ lo * 2 ^ len) = q at *
  generalize v / 2 ^ lo % 2 ^ len = f at *
  generalize v % 2 ^ lo = r at *
  generalize 2 ^ lo = A at *
  generalize 2 ^ len = B at *
  rw [← h1, ← h2]
  simp only [Nat.mul_add, Nat.mul_comm, Nat.mul_left_comm]

theorem putBits_split (v lo len x : Nat) :
    putBits v lo len x = v / 2 ^ (lo + len) * 2 ^ (lo + len) + x % 2 ^ len * 2 ^ lo + v % 2 ^ lo := by
  have h := bits_split v lo len
  unfold putBits
  omega

theorem putBits_lt (v lo len x n : Nat) (hv : v < 2 ^ n) (h : lo + len ≤ n) : putBits v lo len x < 2 ^ n := by
  rw [putBits_split]
  have e : n = lo + len + (n - (lo + len)) := by omega
  have h1 : v / 2 ^ (lo + len) < 2 ^ (n - (lo + len)) := by
    rw [Nat.div_lt_iff_lt_mul (Nat.two_pow_pos _), ← Nat.pow_add]
    have : n - (lo + len) + (lo + len) = n := by omega
    rw [this]; exact hv
  have h2 : x % 2 ^ len < 2 ^ len := Nat.mod_lt _ (Nat.two_pow_pos _)
  have h3 : v % 2 ^ lo < 2 ^ lo := Nat.mod_lt _ (Nat.two_pow_pos _)
  have e2 : 2 ^ n = 2 ^ (n - (lo + len)) * 2 ^ (lo + len) := by rw [← Nat.pow_add]; congr 1; omega
  have e3 : 2 ^ (lo + len) = 2 ^ len * 2 ^ lo := by rw [Nat.pow_add, Nat.mul_comm]
  rw [e2]
  have s1 : x % 2 ^ len * 2 ^ lo + v % 2 ^ lo < 2 ^ (lo + len) := by
    rw [e3]
    calc x % 2 ^ len * 2 ^ lo + v % 2 ^ lo < x % 2 ^ len * 2 ^ lo + 2 ^ lo := by omega
      _ = (x % 2 ^ len + 1) * 2 ^ lo := by rw [Nat.add_mul, Nat.one_mul]
      _ ≤ 2 ^ len * 2 ^ lo := Nat.mul_le_mul_right _ h2
  calc _ = v / 2 ^ (lo + len) * 2 ^ (lo + len) + (x % 2 ^ len * 2 ^ lo + v % 2 ^ lo) := by omega
    _ < v / 2 ^ (lo + len) * 2 ^ (lo + len) + 2 ^ (lo + len) := by omega
    _ = (v / 2 ^ (lo + len) + 1) * 2 ^ (lo + len) := by rw [Nat.add_mul, Nat.one_mul]
    _ ≤ _ := Nat.mul_le_mul_right _ h1

/-- The field reads as written. -/
theorem bitsOf_putBits (v lo len x : Nat) : bitsOf (putBits v lo len x) lo len = x % 2 ^ len := by
  rw [putBits_split]
  unfold bitsOf
  have h3 : v % 2 ^ lo < 2 ^ lo := Nat.mod_lt _ (Nat.two_pow_pos _)
  have e : v / 2 ^ (lo + len) * 2 ^ (lo + len) + x % 2 ^ len * 2 ^ lo + v % 2 ^ lo =
      2 ^ lo * (2 ^ len * (v / 2 ^ (lo + len)) + x % 2 ^ len) + v % 2 ^ lo := by
    rw [Nat.pow_add]
    simp only [Nat.mul_add, Nat.mul_comm, Nat.mul_assoc]
  rw [e, Nat.mul_add_div (Nat.two_pow_pos _), Nat.div_eq_of_lt h3, Nat.add_zero, Nat.mul_add_mod,
    Nat.mod_mod]

theorem bitsOf_testBit (v lo len i : Nat) : (bitsOf v lo len).testBit i = (decide (i < len) && v.testBit (lo + i)) := by
  unfold bitsOf
  rw [Nat.testBit_mod_two_pow, Nat.testBit_div_two_pow, Nat.add_comm]

theorem putBits_testBit (v lo len x i : Nat) (h : i < lo ∨ lo + len ≤ i) : (putBits v lo len x).testBit i = v.testBit i := by
  rw [putBits_split]
  have h3 : v % 2 ^ lo < 2 ^ lo := Nat.mod_lt _ (Nat.two_pow_pos _)
  have h2 : x % 2 ^ len < 2 ^ len := Nat.mod_lt _ (Nat.two_pow_pos _)
  rcases h with h | h
  · have e : v / 2 ^ (lo + len) * 2 ^ (lo + len) + x % 2 ^ len * 2 ^ lo + v % 2 ^ lo =
        2 ^ lo * (2 ^ len * (v / 2 ^ (lo + len)) + x % 2 ^ len) + v % 2 ^ lo := by
      rw [Nat.pow_add]; simp only [Nat.mul_add, Nat.mul_comm, Nat.mul_assoc]
    rw [e, Nat.testBit_two_pow_mul_add _ h3]
    simp [h, Nat.testBit_mod_two_pow]
  · have s1 : x % 2 ^ len * 2 ^ lo + v % 2 ^ lo < 2 ^ (lo + len) := by
      have e3 : 2 ^ (lo + len) = 2 ^ len * 2 ^ lo := by rw [Nat.pow_add, Nat.mul_comm]
      rw [e3]
      calc x % 2 ^ len * 2 ^ lo + v % 2 ^ lo < x % 2 ^ len * 2 ^ lo + 2 ^ lo := by omega
        _ = (x % 2 ^ len + 1) * 2 ^ lo := by rw [Nat.add_mul, Nat.one_mul]
        _ ≤ 2 ^ len * 2 ^ lo := Nat.mul_le_mul_right _ h2
    rw [Nat.add_assoc, Nat.mul_comm _ (2 ^ (lo + len)), Nat.testBit_two_pow_mul_add _ s1]
    have : ¬ i < lo + len := by omega
    simp only [this, if_false]
    rw [Nat.testBit_div_two_pow]
    congr 1; omega

/-- A field beside the one written reads as before. -/
theorem bitsOf_putBits_other (v lo len x lo' len' : Nat) (h : lo' + len' ≤ lo ∨ lo + len ≤ lo') :
    bitsOf (putBits v lo len x) lo' len' = bitsOf v lo' len' := by
  apply Nat.eq_of_testBit_eq
  intro i
  rw [bitsOf_testBit, bitsOf_testBit]
  by_cases hi : i < len'
  · rw [putBits_testBit _ _ _ _ _ (by omega)]
  · simp [hi]

/-! ## Registers -/

theorem find_smGet (m : SMap W32) (k : Nat) (d : W32) :
    (match m.find? (fun e => e.1 == k) with | some e => e.2 | none => d) = smGet d m k := by
  induction m with
  | nil => rfl
  | cons e t ih =>
    obtain ⟨a, v⟩ := e
    simp only [List.find?_cons, smGet]
    by_cases h : a = k
    · simp [h]
    · have : (a == k) = false := by simp [h]
      simp only [this, h, if_false]
      exact ih

theorem rd_eq (s : State) (k : Nat) : rd s k = smGet (regReset k) s.regs k := find_smGet s.regs k (regReset k)

theorem smGet_smSet_other {α : Type} [DecidableEq α] (d d' : α) (m : SMap α) (k k' : Nat) (v : α) (h : k' ≠ k) :
    smGet d (smSet d' m k v) k' = smGet d m k' := by
  unfold smSet
  split
  · rw [smGet_smDel]; simp [h]
  · rw [smGet_smIns _ _ _ _ _ (smDel_ne m k), smGet_smDel]; simp [h]

/-- A register reads as written. -/
@[simp] theorem rd_wr (s : State) (k : Nat) (v : W32) : rd (wr s k v) k = v := by
  rw [rd_eq]; simp [wr]

/-- The other registers read as before. -/
theorem rd_wr_ne (s : State) (k k' : Nat) (v : W32) (h : k' ≠ k) : rd (wr s k v) k' = rd s k' := by
  rw [rd_eq, rd_eq]; exact smGet_smSet_other _ _ _ _ _ _ h

/-- Registers are read from the register map alone. -/
theorem rd_congr (s t : State) (k : Nat) (h : t.regs = s.regs) : rd t k = rd s k := by unfold rd; rw [h]
theorem fget_congr (s t : State) (k : Nat) (f : Fld) (h : rd t k = rd s k) : fget t k f = fget s k f := by
  unfold fget; rw [h]

theorem rd_fset (s : State) (k : Nat) (f : Fld) (v : Nat) :
    rd (fset s k f v) k = BitVec.ofNat 32 (putBits (rd s k).toNat f.lo f.len v) := by simp [fset]
theorem rd_fset_ne (s : State) (k k' : Nat) (f : Fld) (v : Nat) (h : k' ≠ k) : rd (fset s k f v) k' = rd s k' :=
  rd_wr_ne _ _ _ _ h

theorem putBits_word (w : W32) (f : Fld) (v : Nat) (h : f.lo + f.len ≤ 32) :
    (BitVec.ofNat 32 (putBits w.toNat f.lo f.len v)).toNat = putBits w.toNat f.lo f.len v := by
  rw [BitVec.toNat_ofNat, Nat.mod_eq_of_lt (putBits_lt _ _ _ _ _ w.isLt h)]

/-- A field reads as written. -/
theorem fget_fset (s : State) (k : Nat) (f : Fld) (v : Nat) (h : f.lo + f.len ≤ 32) :
    fget (fset s k f v) k f = v % 2 ^ f.len := by
  unfold fget; rw [rd_fset, putBits_word _ _ _ h, bitsOf_putBits]

/-- The other fields of the register read as before. -/
theorem fget_fset_other (s : State) (k : Nat) (f g : Fld) (v : Nat) (h : f.lo + f.len ≤ 32)
    (hd : g.lo + g.len ≤ f.lo ∨ f.lo + f.len ≤ g.lo) : fget (fset s k f v) k g = fget s k g := by
  unfold fget; rw [rd_fset, putBits_word _ _ _ h, bitsOf_putBits_other _ _ _ _ _ _ hd]

theorem fget_fset_ne (s : State) (k k' : Nat) (f g : Fld) (v : Nat) (h : k' ≠ k) :
    fget (fset s k f v) k' g = fget s k' g := fget_congr _ _ _ _ (rd_fset_ne _ _ _ _ _ h)
theorem fget_wr_ne (s : State) (k k' : Nat) (g : Fld) (v : W32) (h : k' ≠ k) :
    fget (wr s k v) k' g = fget s k' g := fget_congr _ _ _ _ (rd_wr_ne _ _ _ _ h)

theorem rd_cntN (s : State) (k n : Nat) : rd (cntN s k n) k = rd s k + BitVec.ofNat 32 n := by
  unfold cntN
  split
  · next h => simp [h]
  · simp
/-- A counter counts one, modulo 2^32. -/
@[simp] theorem rd_cnt (s : State) (k : Nat) : rd (cnt s k) k = rd s k + 1 := rd_cntN s k 1
theorem rd_cntN_ne (s : State) (k k' n : Nat) (h : k' ≠ k) : rd (cntN s k n) k' = rd s k' := by
  unfold cntN
  split
  · rfl
  · exact rd_wr_ne _ _ _ _ h
theorem rd_cnt_ne (s : State) (k k' : Nat) (h : k' ≠ k) : rd (cnt s k) k' = rd s k' := rd_cntN_ne _ _ _ _ h

end Sys2Proof.Machine
end

