-- ==== Sys2Proof/Laws/State.lean ====
section
/-! SUPPORT. Every named update of the state, field by field, and how a field passes through a loop or a choice. -/

namespace Sys2Proof.Machine

/-- A loop keeps what each of its steps keeps. -/
theorem foldl_frame {α β : Type} (p : State → β) (g : State → α → State) (h : ∀ s a, p (g s a) = p s) :
    ∀ (l : List α) (s : State), p (l.foldl g s) = p s
  | [], _ => rfl
  | a :: l, s => by rw [List.foldl_cons, foldl_frame p g h l, h]

/-- As `foldl_frame`, for a loop that carries a value beside the state. -/
theorem foldl_frame1 {α β γ : Type} (p : State → β) (g : State × γ → α → State × γ) (h : ∀ s a, p (g s a).1 = p s.1) :
    ∀ (l : List α) (s : State × γ), p (l.foldl g s).1 = p s.1
  | [], _ => rfl
  | a :: l, s => by rw [List.foldl_cons, foldl_frame1 p g h l, h]

@[simp] theorem ite_pending (c : Prop) [Decidable c] (a b : State) : (if c then a else b).pending = if c then a.pending else b.pending := apply_ite State.pending c a b
@[simp] theorem ite_regs (c : Prop) [Decidable c] (a b : State) : (if c then a else b).regs = if c then a.regs else b.regs := apply_ite State.regs c a b
@[simp] theorem ite_mem (c : Prop) [Decidable c] (a b : State) : (if c then a else b).mem = if c then a.mem else b.mem := apply_ite State.mem c a b
@[simp] theorem ite_gal (c : Prop) [Decidable c] (a b : State) : (if c then a else b).gal = if c then a.gal else b.gal := apply_ite State.gal c a b
@[simp] theorem ite_scn (c : Prop) [Decidable c] (a b : State) : (if c then a else b).scn = if c then a.scn else b.scn := apply_ite State.scn c a b
@[simp] theorem ite_str (c : Prop) [Decidable c] (a b : State) : (if c then a else b).str = if c then a.str else b.str := apply_ite State.str c a b
@[simp] theorem ite_cores (c : Prop) [Decidable c] (a b : State) : (if c then a else b).cores = if c then a.cores else b.cores := apply_ite State.cores c a b
@[simp] theorem ite_atlFill (c : Prop) [Decidable c] (a b : State) : (if c then a else b).atlFill = if c then a.atlFill else b.atlFill := apply_ite State.atlFill c a b
@[simp] theorem ite_xmap (c : Prop) [Decidable c] (a b : State) : (if c then a else b).xmap = if c then a.xmap else b.xmap := apply_ite State.xmap c a b
@[simp] theorem ite_atlOut (c : Prop) [Decidable c] (a b : State) : (if c then a else b).atlOut = if c then a.atlOut else b.atlOut := apply_ite State.atlOut c a b
@[simp] theorem ite_prt (c : Prop) [Decidable c] (a b : State) : (if c then a else b).prt = if c then a.prt else b.prt := apply_ite State.prt c a b
@[simp] theorem ite_net (c : Prop) [Decidable c] (a b : State) : (if c then a else b).net = if c then a.net else b.net := apply_ite State.net c a b
@[simp] theorem ite_dax (c : Prop) [Decidable c] (a b : State) : (if c then a else b).dax = if c then a.dax else b.dax := apply_ite State.dax c a b
@[simp] theorem ite_line (c : Prop) [Decidable c] (a b : State) : (if c then a else b).line = if c then a.line else b.line := apply_ite State.line c a b
@[simp] theorem ite_tim (c : Prop) [Decidable c] (a b : State) : (if c then a else b).tim = if c then a.tim else b.tim := apply_ite State.tim c a b
@[simp] theorem ite_twn (c : Prop) [Decidable c] (a b : State) : (if c then a else b).twn = if c then a.twn else b.twn := apply_ite State.twn c a b
@[simp] theorem ite_ecc (c : Prop) [Decidable c] (a b : State) : (if c then a else b).ecc = if c then a.ecc else b.ecc := apply_ite State.ecc c a b
@[simp] theorem ite_drc (c : Prop) [Decidable c] (a b : State) : (if c then a else b).drc = if c then a.drc else b.drc := apply_ite State.drc c a b
@[simp] theorem ite_ctl (c : Prop) [Decidable c] (a b : State) : (if c then a else b).ctl = if c then a.ctl else b.ctl := apply_ite State.ctl c a b
@[simp] theorem ite_cat (c : Prop) [Decidable c] (a b : State) : (if c then a else b).cat = if c then a.cat else b.cat := apply_ite State.cat c a b
@[simp] theorem ite_pwr (c : Prop) [Decidable c] (a b : State) : (if c then a else b).pwr = if c then a.pwr else b.pwr := apply_ite State.pwr c a b
@[simp] theorem ite_ldg (c : Prop) [Decidable c] (a b : State) : (if c then a else b).ldg = if c then a.ldg else b.ldg := apply_ite State.ldg c a b
@[simp] theorem ite_pin (c : Prop) [Decidable c] (a b : State) : (if c then a else b).pin = if c then a.pin else b.pin := apply_ite State.pin c a b
@[simp] theorem ite_perm (c : Prop) [Decidable c] (a b : State) : (if c then a else b).perm = if c then a.perm else b.perm := apply_ite State.perm c a b
@[simp] theorem ite_due (c : Prop) [Decidable c] (a b : State) : (if c then a else b).due = if c then a.due else b.due := apply_ite State.due c a b
@[simp] theorem ite_out (c : Prop) [Decidable c] (a b : State) : (if c then a else b).out = if c then a.out else b.out := apply_ite State.out c a b
@[simp] theorem ite_free (c : Prop) [Decidable c] (a b : State) : (if c then a else b).free = if c then a.free else b.free := apply_ite State.free c a b

/-! ### wr -/

@[simp] theorem wr_pending (s : State) (k : Nat) (v : W32) : (wr s k v).pending = s.pending := rfl
@[simp] theorem wr_mem (s : State) (k : Nat) (v : W32) : (wr s k v).mem = s.mem := rfl
@[simp] theorem wr_gal (s : State) (k : Nat) (v : W32) : (wr s k v).gal = s.gal := rfl
@[simp] theorem wr_scn (s : State) (k : Nat) (v : W32) : (wr s k v).scn = s.scn := rfl
@[simp] theorem wr_str (s : State) (k : Nat) (v : W32) : (wr s k v).str = s.str := rfl
@[simp] theorem wr_cores (s : State) (k : Nat) (v : W32) : (wr s k v).cores = s.cores := rfl
@[simp] theorem wr_atlFill (s : State) (k : Nat) (v : W32) : (wr s k v).atlFill = s.atlFill := rfl
@[simp] theorem wr_xmap (s : State) (k : Nat) (v : W32) : (wr s k v).xmap = s.xmap := rfl
@[simp] theorem wr_atlOut (s : State) (k : Nat) (v : W32) : (wr s k v).atlOut = s.atlOut := rfl
@[simp] theorem wr_prt (s : State) (k : Nat) (v : W32) : (wr s k v).prt = s.prt := rfl
@[simp] theorem wr_net (s : State) (k : Nat) (v : W32) : (wr s k v).net = s.net := rfl
@[simp] theorem wr_dax (s : State) (k : Nat) (v : W32) : (wr s k v).dax = s.dax := rfl
@[simp] theorem wr_line (s : State) (k : Nat) (v : W32) : (wr s k v).line = s.line := rfl
@[simp] theorem wr_tim (s : State) (k : Nat) (v : W32) : (wr s k v).tim = s.tim := rfl
@[simp] theorem wr_twn (s : State) (k : Nat) (v : W32) : (wr s k v).twn = s.twn := rfl
@[simp] theorem wr_ecc (s : State) (k : Nat) (v : W32) : (wr s k v).ecc = s.ecc := rfl
@[simp] theorem wr_drc (s : State) (k : Nat) (v : W32) : (wr s k v).drc = s.drc := rfl
@[simp] theorem wr_ctl (s : State) (k : Nat) (v : W32) : (wr s k v).ctl = s.ctl := rfl
@[simp] theorem wr_cat (s : State) (k : Nat) (v : W32) : (wr s k v).cat = s.cat := rfl
@[simp] theorem wr_pwr (s : State) (k : Nat) (v : W32) : (wr s k v).pwr = s.pwr := rfl
@[simp] theorem wr_ldg (s : State) (k : Nat) (v : W32) : (wr s k v).ldg = s.ldg := rfl
@[simp] theorem wr_pin (s : State) (k : Nat) (v : W32) : (wr s k v).pin = s.pin := rfl
@[simp] theorem wr_perm (s : State) (k : Nat) (v : W32) : (wr s k v).perm = s.perm := rfl
@[simp] theorem wr_due (s : State) (k : Nat) (v : W32) : (wr s k v).due = s.due := rfl
@[simp] theorem wr_out (s : State) (k : Nat) (v : W32) : (wr s k v).out = s.out := rfl
@[simp] theorem wr_free (s : State) (k : Nat) (v : W32) : (wr s k v).free = s.free := rfl

/-! ### fset -/

@[simp] theorem fset_pending (s : State) (k : Nat) (f : Fld) (v : Nat) : (fset s k f v).pending = s.pending := rfl
@[simp] theorem fset_mem (s : State) (k : Nat) (f : Fld) (v : Nat) : (fset s k f v).mem = s.mem := rfl
@[simp] theorem fset_gal (s : State) (k : Nat) (f : Fld) (v : Nat) : (fset s k f v).gal = s.gal := rfl
@[simp] theorem fset_scn (s : State) (k : Nat) (f : Fld) (v : Nat) : (fset s k f v).scn = s.scn := rfl
@[simp] theorem fset_str (s : State) (k : Nat) (f : Fld) (v : Nat) : (fset s k f v).str = s.str := rfl
@[simp] theorem fset_cores (s : State) (k : Nat) (f : Fld) (v : Nat) : (fset s k f v).cores = s.cores := rfl
@[simp] theorem fset_atlFill (s : State) (k : Nat) (f : Fld) (v : Nat) : (fset s k f v).atlFill = s.atlFill := rfl
@[simp] theorem fset_xmap (s : State) (k : Nat) (f : Fld) (v : Nat) : (fset s k f v).xmap = s.xmap := rfl
@[simp] theorem fset_atlOut (s : State) (k : Nat) (f : Fld) (v : Nat) : (fset s k f v).atlOut = s.atlOut := rfl
@[simp] theorem fset_prt (s : State) (k : Nat) (f : Fld) (v : Nat) : (fset s k f v).prt = s.prt := rfl
@[simp] theorem fset_net (s : State) (k : Nat) (f : Fld) (v : Nat) : (fset s k f v).net = s.net := rfl
@[simp] theorem fset_dax (s : State) (k : Nat) (f : Fld) (v : Nat) : (fset s k f v).dax = s.dax := rfl
@[simp] theorem fset_line (s : State) (k : Nat) (f : Fld) (v : Nat) : (fset s k f v).line = s.line := rfl
@[simp] theorem fset_tim (s : State) (k : Nat) (f : Fld) (v : Nat) : (fset s k f v).tim = s.tim := rfl
@[simp] theorem fset_twn (s : State) (k : Nat) (f : Fld) (v : Nat) : (fset s k f v).twn = s.twn := rfl
@[simp] theorem fset_ecc (s : State) (k : Nat) (f : Fld) (v : Nat) : (fset s k f v).ecc = s.ecc := rfl
@[simp] theorem fset_drc (s : State) (k : Nat) (f : Fld) (v : Nat) : (fset s k f v).drc = s.drc := rfl
@[simp] theorem fset_ctl (s : State) (k : Nat) (f : Fld) (v : Nat) : (fset s k f v).ctl = s.ctl := rfl
@[simp] theorem fset_cat (s : State) (k : Nat) (f : Fld) (v : Nat) : (fset s k f v).cat = s.cat := rfl
@[simp] theorem fset_pwr (s : State) (k : Nat) (f : Fld) (v : Nat) : (fset s k f v).pwr = s.pwr := rfl
@[simp] theorem fset_ldg (s : State) (k : Nat) (f : Fld) (v : Nat) : (fset s k f v).ldg = s.ldg := rfl
@[simp] theorem fset_pin (s : State) (k : Nat) (f : Fld) (v : Nat) : (fset s k f v).pin = s.pin := rfl
@[simp] theorem fset_perm (s : State) (k : Nat) (f : Fld) (v : Nat) : (fset s k f v).perm = s.perm := rfl
@[simp] theorem fset_due (s : State) (k : Nat) (f : Fld) (v : Nat) : (fset s k f v).due = s.due := rfl
@[simp] theorem fset_out (s : State) (k : Nat) (f : Fld) (v : Nat) : (fset s k f v).out = s.out := rfl
@[simp] theorem fset_free (s : State) (k : Nat) (f : Fld) (v : Nat) : (fset s k f v).free = s.free := rfl

/-! ### put64 -/

@[simp] theorem put64_pending (s : State) (lo hi v : Nat) : (put64 s lo hi v).pending = s.pending := rfl
@[simp] theorem put64_mem (s : State) (lo hi v : Nat) : (put64 s lo hi v).mem = s.mem := rfl
@[simp] theorem put64_gal (s : State) (lo hi v : Nat) : (put64 s lo hi v).gal = s.gal := rfl
@[simp] theorem put64_scn (s : State) (lo hi v : Nat) : (put64 s lo hi v).scn = s.scn := rfl
@[simp] theorem put64_str (s : State) (lo hi v : Nat) : (put64 s lo hi v).str = s.str := rfl
@[simp] theorem put64_cores (s : State) (lo hi v : Nat) : (put64 s lo hi v).cores = s.cores := rfl
@[simp] theorem put64_atlFill (s : State) (lo hi v : Nat) : (put64 s lo hi v).atlFill = s.atlFill := rfl
@[simp] theorem put64_xmap (s : State) (lo hi v : Nat) : (put64 s lo hi v).xmap = s.xmap := rfl
@[simp] theorem put64_atlOut (s : State) (lo hi v : Nat) : (put64 s lo hi v).atlOut = s.atlOut := rfl
@[simp] theorem put64_prt (s : State) (lo hi v : Nat) : (put64 s lo hi v).prt = s.prt := rfl
@[simp] theorem put64_net (s : State) (lo hi v : Nat) : (put64 s lo hi v).net = s.net := rfl
@[simp] theorem put64_dax (s : State) (lo hi v : Nat) : (put64 s lo hi v).dax = s.dax := rfl
@[simp] theorem put64_line (s : State) (lo hi v : Nat) : (put64 s lo hi v).line = s.line := rfl
@[simp] theorem put64_tim (s : State) (lo hi v : Nat) : (put64 s lo hi v).tim = s.tim := rfl
@[simp] theorem put64_twn (s : State) (lo hi v : Nat) : (put64 s lo hi v).twn = s.twn := rfl
@[simp] theorem put64_ecc (s : State) (lo hi v : Nat) : (put64 s lo hi v).ecc = s.ecc := rfl
@[simp] theorem put64_drc (s : State) (lo hi v : Nat) : (put64 s lo hi v).drc = s.drc := rfl
@[simp] theorem put64_ctl (s : State) (lo hi v : Nat) : (put64 s lo hi v).ctl = s.ctl := rfl
@[simp] theorem put64_cat (s : State) (lo hi v : Nat) : (put64 s lo hi v).cat = s.cat := rfl
@[simp] theorem put64_pwr (s : State) (lo hi v : Nat) : (put64 s lo hi v).pwr = s.pwr := rfl
@[simp] theorem put64_ldg (s : State) (lo hi v : Nat) : (put64 s lo hi v).ldg = s.ldg := rfl
@[simp] theorem put64_pin (s : State) (lo hi v : Nat) : (put64 s lo hi v).pin = s.pin := rfl
@[simp] theorem put64_perm (s : State) (lo hi v : Nat) : (put64 s lo hi v).perm = s.perm := rfl
@[simp] theorem put64_due (s : State) (lo hi v : Nat) : (put64 s lo hi v).due = s.due := rfl
@[simp] theorem put64_out (s : State) (lo hi v : Nat) : (put64 s lo hi v).out = s.out := rfl
@[simp] theorem put64_free (s : State) (lo hi v : Nat) : (put64 s lo hi v).free = s.free := rfl

/-! ### emit -/

@[simp] theorem emit_pending (s : State) (e : Emit) : (emit s e).pending = s.pending := rfl
@[simp] theorem emit_regs (s : State) (e : Emit) : (emit s e).regs = s.regs := rfl
@[simp] theorem emit_mem (s : State) (e : Emit) : (emit s e).mem = s.mem := rfl
@[simp] theorem emit_gal (s : State) (e : Emit) : (emit s e).gal = s.gal := rfl
@[simp] theorem emit_scn (s : State) (e : Emit) : (emit s e).scn = s.scn := rfl
@[simp] theorem emit_str (s : State) (e : Emit) : (emit s e).str = s.str := rfl
@[simp] theorem emit_cores (s : State) (e : Emit) : (emit s e).cores = s.cores := rfl
@[simp] theorem emit_atlFill (s : State) (e : Emit) : (emit s e).atlFill = s.atlFill := rfl
@[simp] theorem emit_xmap (s : State) (e : Emit) : (emit s e).xmap = s.xmap := rfl
@[simp] theorem emit_atlOut (s : State) (e : Emit) : (emit s e).atlOut = s.atlOut := rfl
@[simp] theorem emit_prt (s : State) (e : Emit) : (emit s e).prt = s.prt := rfl
@[simp] theorem emit_net (s : State) (e : Emit) : (emit s e).net = s.net := rfl
@[simp] theorem emit_dax (s : State) (e : Emit) : (emit s e).dax = s.dax := rfl
@[simp] theorem emit_line (s : State) (e : Emit) : (emit s e).line = s.line := rfl
@[simp] theorem emit_tim (s : State) (e : Emit) : (emit s e).tim = s.tim := rfl
@[simp] theorem emit_twn (s : State) (e : Emit) : (emit s e).twn = s.twn := rfl
@[simp] theorem emit_ecc (s : State) (e : Emit) : (emit s e).ecc = s.ecc := rfl
@[simp] theorem emit_drc (s : State) (e : Emit) : (emit s e).drc = s.drc := rfl
@[simp] theorem emit_ctl (s : State) (e : Emit) : (emit s e).ctl = s.ctl := rfl
@[simp] theorem emit_cat (s : State) (e : Emit) : (emit s e).cat = s.cat := rfl
@[simp] theorem emit_pwr (s : State) (e : Emit) : (emit s e).pwr = s.pwr := rfl
@[simp] theorem emit_ldg (s : State) (e : Emit) : (emit s e).ldg = s.ldg := rfl
@[simp] theorem emit_pin (s : State) (e : Emit) : (emit s e).pin = s.pin := rfl
@[simp] theorem emit_perm (s : State) (e : Emit) : (emit s e).perm = s.perm := rfl
@[simp] theorem emit_due (s : State) (e : Emit) : (emit s e).due = s.due := rfl
@[simp] theorem emit_free (s : State) (e : Emit) : (emit s e).free = s.free := rfl

/-! ### addDue -/

@[simp] theorem addDue_pending (s : State) (d : Due) : (addDue s d).pending = s.pending := rfl
@[simp] theorem addDue_regs (s : State) (d : Due) : (addDue s d).regs = s.regs := rfl
@[simp] theorem addDue_mem (s : State) (d : Due) : (addDue s d).mem = s.mem := rfl
@[simp] theorem addDue_gal (s : State) (d : Due) : (addDue s d).gal = s.gal := rfl
@[simp] theorem addDue_scn (s : State) (d : Due) : (addDue s d).scn = s.scn := rfl
@[simp] theorem addDue_str (s : State) (d : Due) : (addDue s d).str = s.str := rfl
@[simp] theorem addDue_cores (s : State) (d : Due) : (addDue s d).cores = s.cores := rfl
@[simp] theorem addDue_atlFill (s : State) (d : Due) : (addDue s d).atlFill = s.atlFill := rfl
@[simp] theorem addDue_xmap (s : State) (d : Due) : (addDue s d).xmap = s.xmap := rfl
@[simp] theorem addDue_atlOut (s : State) (d : Due) : (addDue s d).atlOut = s.atlOut := rfl
@[simp] theorem addDue_prt (s : State) (d : Due) : (addDue s d).prt = s.prt := rfl
@[simp] theorem addDue_net (s : State) (d : Due) : (addDue s d).net = s.net := rfl
@[simp] theorem addDue_dax (s : State) (d : Due) : (addDue s d).dax = s.dax := rfl
@[simp] theorem addDue_line (s : State) (d : Due) : (addDue s d).line = s.line := rfl
@[simp] theorem addDue_tim (s : State) (d : Due) : (addDue s d).tim = s.tim := rfl
@[simp] theorem addDue_twn (s : State) (d : Due) : (addDue s d).twn = s.twn := rfl
@[simp] theorem addDue_ecc (s : State) (d : Due) : (addDue s d).ecc = s.ecc := rfl
@[simp] theorem addDue_drc (s : State) (d : Due) : (addDue s d).drc = s.drc := rfl
@[simp] theorem addDue_ctl (s : State) (d : Due) : (addDue s d).ctl = s.ctl := rfl
@[simp] theorem addDue_cat (s : State) (d : Due) : (addDue s d).cat = s.cat := rfl
@[simp] theorem addDue_pwr (s : State) (d : Due) : (addDue s d).pwr = s.pwr := rfl
@[simp] theorem addDue_ldg (s : State) (d : Due) : (addDue s d).ldg = s.ldg := rfl
@[simp] theorem addDue_pin (s : State) (d : Due) : (addDue s d).pin = s.pin := rfl
@[simp] theorem addDue_perm (s : State) (d : Due) : (addDue s d).perm = s.perm := rfl
@[simp] theorem addDue_out (s : State) (d : Due) : (addDue s d).out = s.out := rfl
@[simp] theorem addDue_free (s : State) (d : Due) : (addDue s d).free = s.free := rfl

/-! ### quietOut -/

@[simp] theorem quietOut_pending (s : State) : (quietOut s).pending = s.pending := rfl
@[simp] theorem quietOut_regs (s : State) : (quietOut s).regs = s.regs := rfl
@[simp] theorem quietOut_mem (s : State) : (quietOut s).mem = s.mem := rfl
@[simp] theorem quietOut_gal (s : State) : (quietOut s).gal = s.gal := rfl
@[simp] theorem quietOut_scn (s : State) : (quietOut s).scn = s.scn := rfl
@[simp] theorem quietOut_str (s : State) : (quietOut s).str = s.str := rfl
@[simp] theorem quietOut_cores (s : State) : (quietOut s).cores = s.cores := rfl
@[simp] theorem quietOut_atlFill (s : State) : (quietOut s).atlFill = s.atlFill := rfl
@[simp] theorem quietOut_xmap (s : State) : (quietOut s).xmap = s.xmap := rfl
@[simp] theorem quietOut_atlOut (s : State) : (quietOut s).atlOut = s.atlOut := rfl
@[simp] theorem quietOut_prt (s : State) : (quietOut s).prt = s.prt := rfl
@[simp] theorem quietOut_net (s : State) : (quietOut s).net = s.net := rfl
@[simp] theorem quietOut_dax (s : State) : (quietOut s).dax = s.dax := rfl
@[simp] theorem quietOut_line (s : State) : (quietOut s).line = s.line := rfl
@[simp] theorem quietOut_tim (s : State) : (quietOut s).tim = s.tim := rfl
@[simp] theorem quietOut_twn (s : State) : (quietOut s).twn = s.twn := rfl
@[simp] theorem quietOut_ecc (s : State) : (quietOut s).ecc = s.ecc := rfl
@[simp] theorem quietOut_drc (s : State) : (quietOut s).drc = s.drc := rfl
@[simp] theorem quietOut_ctl (s : State) : (quietOut s).ctl = s.ctl := rfl
@[simp] theorem quietOut_cat (s : State) : (quietOut s).cat = s.cat := rfl
@[simp] theorem quietOut_pwr (s : State) : (quietOut s).pwr = s.pwr := rfl
@[simp] theorem quietOut_ldg (s : State) : (quietOut s).ldg = s.ldg := rfl
@[simp] theorem quietOut_pin (s : State) : (quietOut s).pin = s.pin := rfl
@[simp] theorem quietOut_perm (s : State) : (quietOut s).perm = s.perm := rfl
@[simp] theorem quietOut_due (s : State) : (quietOut s).due = s.due := rfl
@[simp] theorem quietOut_free (s : State) : (quietOut s).free = s.free := rfl
@[simp] theorem quietOut_out (s : State) : (quietOut s).out = [] := rfl

/-! ### keep -/

@[simp] theorem keep_regs (s t : State) : (keep s t).regs = t.regs := rfl
@[simp] theorem keep_mem (s t : State) : (keep s t).mem = t.mem := rfl
@[simp] theorem keep_gal (s t : State) : (keep s t).gal = t.gal := rfl
@[simp] theorem keep_scn (s t : State) : (keep s t).scn = t.scn := rfl
@[simp] theorem keep_str (s t : State) : (keep s t).str = t.str := rfl
@[simp] theorem keep_cores (s t : State) : (keep s t).cores = t.cores := rfl
@[simp] theorem keep_atlFill (s t : State) : (keep s t).atlFill = t.atlFill := rfl
@[simp] theorem keep_xmap (s t : State) : (keep s t).xmap = t.xmap := rfl
@[simp] theorem keep_atlOut (s t : State) : (keep s t).atlOut = t.atlOut := rfl
@[simp] theorem keep_prt (s t : State) : (keep s t).prt = t.prt := rfl
@[simp] theorem keep_net (s t : State) : (keep s t).net = t.net := rfl
@[simp] theorem keep_dax (s t : State) : (keep s t).dax = t.dax := rfl
@[simp] theorem keep_line (s t : State) : (keep s t).line = t.line := rfl
@[simp] theorem keep_tim (s t : State) : (keep s t).tim = t.tim := rfl
@[simp] theorem keep_twn (s t : State) : (keep s t).twn = t.twn := rfl
@[simp] theorem keep_ecc (s t : State) : (keep s t).ecc = t.ecc := rfl
@[simp] theorem keep_drc (s t : State) : (keep s t).drc = t.drc := rfl
@[simp] theorem keep_ctl (s t : State) : (keep s t).ctl = t.ctl := rfl
@[simp] theorem keep_cat (s t : State) : (keep s t).cat = t.cat := rfl
@[simp] theorem keep_pwr (s t : State) : (keep s t).pwr = t.pwr := rfl
@[simp] theorem keep_ldg (s t : State) : (keep s t).ldg = t.ldg := rfl
@[simp] theorem keep_pin (s t : State) : (keep s t).pin = t.pin := rfl
@[simp] theorem keep_due (s t : State) : (keep s t).due = t.due := rfl
@[simp] theorem keep_out (s t : State) : (keep s t).out = t.out := rfl
@[simp] theorem keep_free (s t : State) : (keep s t).free = t.free := rfl
@[simp] theorem keep_pending (s t : State) : (keep s t).pending = s.pending := rfl

/-! ### keepButOtp -/

@[simp] theorem keepButOtp_regs (s t : State) : (keepButOtp s t).regs = t.regs := rfl
@[simp] theorem keepButOtp_mem (s t : State) : (keepButOtp s t).mem = t.mem := rfl
@[simp] theorem keepButOtp_gal (s t : State) : (keepButOtp s t).gal = t.gal := rfl
@[simp] theorem keepButOtp_scn (s t : State) : (keepButOtp s t).scn = t.scn := rfl
@[simp] theorem keepButOtp_str (s t : State) : (keepButOtp s t).str = t.str := rfl
@[simp] theorem keepButOtp_cores (s t : State) : (keepButOtp s t).cores = t.cores := rfl
@[simp] theorem keepButOtp_atlFill (s t : State) : (keepButOtp s t).atlFill = t.atlFill := rfl
@[simp] theorem keepButOtp_xmap (s t : State) : (keepButOtp s t).xmap = t.xmap := rfl
@[simp] theorem keepButOtp_atlOut (s t : State) : (keepButOtp s t).atlOut = t.atlOut := rfl
@[simp] theorem keepButOtp_prt (s t : State) : (keepButOtp s t).prt = t.prt := rfl
@[simp] theorem keepButOtp_net (s t : State) : (keepButOtp s t).net = t.net := rfl
@[simp] theorem keepButOtp_dax (s t : State) : (keepButOtp s t).dax = t.dax := rfl
@[simp] theorem keepButOtp_line (s t : State) : (keepButOtp s t).line = t.line := rfl
@[simp] theorem keepButOtp_tim (s t : State) : (keepButOtp s t).tim = t.tim := rfl
@[simp] theorem keepButOtp_twn (s t : State) : (keepButOtp s t).twn = t.twn := rfl
@[simp] theorem keepButOtp_ecc (s t : State) : (keepButOtp s t).ecc = t.ecc := rfl
@[simp] theorem keepButOtp_drc (s t : State) : (keepButOtp s t).drc = t.drc := rfl
@[simp] theorem keepButOtp_ctl (s t : State) : (keepButOtp s t).ctl = t.ctl := rfl
@[simp] theorem keepButOtp_cat (s t : State) : (keepButOtp s t).cat = t.cat := rfl
@[simp] theorem keepButOtp_pwr (s t : State) : (keepButOtp s t).pwr = t.pwr := rfl
@[simp] theorem keepButOtp_ldg (s t : State) : (keepButOtp s t).ldg = t.ldg := rfl
@[simp] theorem keepButOtp_pin (s t : State) : (keepButOtp s t).pin = t.pin := rfl
@[simp] theorem keepButOtp_due (s t : State) : (keepButOtp s t).due = t.due := rfl
@[simp] theorem keepButOtp_out (s t : State) : (keepButOtp s t).out = t.out := rfl
@[simp] theorem keepButOtp_free (s t : State) : (keepButOtp s t).free = t.free := rfl
@[simp] theorem keepButOtp_pending (s t : State) : (keepButOtp s t).pending = s.pending := rfl

/-! ### keepButFlash -/

@[simp] theorem keepButFlash_regs (s t : State) : (keepButFlash s t).regs = t.regs := rfl
@[simp] theorem keepButFlash_mem (s t : State) : (keepButFlash s t).mem = t.mem := rfl
@[simp] theorem keepButFlash_gal (s t : State) : (keepButFlash s t).gal = t.gal := rfl
@[simp] theorem keepButFlash_scn (s t : State) : (keepButFlash s t).scn = t.scn := rfl
@[simp] theorem keepButFlash_str (s t : State) : (keepButFlash s t).str = t.str := rfl
@[simp] theorem keepButFlash_cores (s t : State) : (keepButFlash s t).cores = t.cores := rfl
@[simp] theorem keepButFlash_atlFill (s t : State) : (keepButFlash s t).atlFill = t.atlFill := rfl
@[simp] theorem keepButFlash_xmap (s t : State) : (keepButFlash s t).xmap = t.xmap := rfl
@[simp] theorem keepButFlash_atlOut (s t : State) : (keepButFlash s t).atlOut = t.atlOut := rfl
@[simp] theorem keepButFlash_prt (s t : State) : (keepButFlash s t).prt = t.prt := rfl
@[simp] theorem keepButFlash_net (s t : State) : (keepButFlash s t).net = t.net := rfl
@[simp] theorem keepButFlash_dax (s t : State) : (keepButFlash s t).dax = t.dax := rfl
@[simp] theorem keepButFlash_line (s t : State) : (keepButFlash s t).line = t.line := rfl
@[simp] theorem keepButFlash_tim (s t : State) : (keepButFlash s t).tim = t.tim := rfl
@[simp] theorem keepButFlash_twn (s t : State) : (keepButFlash s t).twn = t.twn := rfl
@[simp] theorem keepButFlash_ecc (s t : State) : (keepButFlash s t).ecc = t.ecc := rfl
@[simp] theorem keepButFlash_drc (s t : State) : (keepButFlash s t).drc = t.drc := rfl
@[simp] theorem keepButFlash_ctl (s t : State) : (keepButFlash s t).ctl = t.ctl := rfl
@[simp] theorem keepButFlash_cat (s t : State) : (keepButFlash s t).cat = t.cat := rfl
@[simp] theorem keepButFlash_pwr (s t : State) : (keepButFlash s t).pwr = t.pwr := rfl
@[simp] theorem keepButFlash_ldg (s t : State) : (keepButFlash s t).ldg = t.ldg := rfl
@[simp] theorem keepButFlash_pin (s t : State) : (keepButFlash s t).pin = t.pin := rfl
@[simp] theorem keepButFlash_due (s t : State) : (keepButFlash s t).due = t.due := rfl
@[simp] theorem keepButFlash_out (s t : State) : (keepButFlash s t).out = t.out := rfl
@[simp] theorem keepButFlash_free (s t : State) : (keepButFlash s t).free = t.free := rfl
@[simp] theorem keepButFlash_pending (s t : State) : (keepButFlash s t).pending = s.pending := rfl

/-! ### keepQueue -/

@[simp] theorem keepQueue_regs (s t : State) : (keepQueue s t).regs = t.regs := rfl
@[simp] theorem keepQueue_mem (s t : State) : (keepQueue s t).mem = t.mem := rfl
@[simp] theorem keepQueue_gal (s t : State) : (keepQueue s t).gal = t.gal := rfl
@[simp] theorem keepQueue_scn (s t : State) : (keepQueue s t).scn = t.scn := rfl
@[simp] theorem keepQueue_str (s t : State) : (keepQueue s t).str = t.str := rfl
@[simp] theorem keepQueue_cores (s t : State) : (keepQueue s t).cores = t.cores := rfl
@[simp] theorem keepQueue_atlFill (s t : State) : (keepQueue s t).atlFill = t.atlFill := rfl
@[simp] theorem keepQueue_xmap (s t : State) : (keepQueue s t).xmap = t.xmap := rfl
@[simp] theorem keepQueue_atlOut (s t : State) : (keepQueue s t).atlOut = t.atlOut := rfl
@[simp] theorem keepQueue_prt (s t : State) : (keepQueue s t).prt = t.prt := rfl
@[simp] theorem keepQueue_net (s t : State) : (keepQueue s t).net = t.net := rfl
@[simp] theorem keepQueue_dax (s t : State) : (keepQueue s t).dax = t.dax := rfl
@[simp] theorem keepQueue_line (s t : State) : (keepQueue s t).line = t.line := rfl
@[simp] theorem keepQueue_tim (s t : State) : (keepQueue s t).tim = t.tim := rfl
@[simp] theorem keepQueue_twn (s t : State) : (keepQueue s t).twn = t.twn := rfl
@[simp] theorem keepQueue_ecc (s t : State) : (keepQueue s t).ecc = t.ecc := rfl
@[simp] theorem keepQueue_drc (s t : State) : (keepQueue s t).drc = t.drc := rfl
@[simp] theorem keepQueue_ctl (s t : State) : (keepQueue s t).ctl = t.ctl := rfl
@[simp] theorem keepQueue_cat (s t : State) : (keepQueue s t).cat = t.cat := rfl
@[simp] theorem keepQueue_pwr (s t : State) : (keepQueue s t).pwr = t.pwr := rfl
@[simp] theorem keepQueue_ldg (s t : State) : (keepQueue s t).ldg = t.ldg := rfl
@[simp] theorem keepQueue_pin (s t : State) : (keepQueue s t).pin = t.pin := rfl
@[simp] theorem keepQueue_perm (s t : State) : (keepQueue s t).perm = t.perm := rfl
@[simp] theorem keepQueue_due (s t : State) : (keepQueue s t).due = t.due := rfl
@[simp] theorem keepQueue_out (s t : State) : (keepQueue s t).out = t.out := rfl
@[simp] theorem keepQueue_free (s t : State) : (keepQueue s t).free = t.free := rfl
@[simp] theorem keepQueue_pending (s t : State) : (keepQueue s t).pending = s.pending := rfl
@[simp] theorem keep_perm (s t : State) : (keep s t).perm = s.perm := rfl
@[simp] theorem keepButOtp_perm (s t : State) : (keepButOtp s t).perm = { s.perm with otp := t.perm.otp } := rfl
@[simp] theorem keepButFlash_perm (s t : State) : (keepButFlash s t).perm = { s.perm with flash := t.perm.flash } := rfl

/-! ### cntN and cnt -/

@[simp] theorem cntN_pending (s : State) (k n : Nat) : (cntN s k n).pending = s.pending := by unfold cntN; split <;> rfl
@[simp] theorem cnt_pending (s : State) (k : Nat) : (cnt s k).pending = s.pending := cntN_pending s k 1
@[simp] theorem cntN_mem (s : State) (k n : Nat) : (cntN s k n).mem = s.mem := by unfold cntN; split <;> rfl
@[simp] theorem cnt_mem (s : State) (k : Nat) : (cnt s k).mem = s.mem := cntN_mem s k 1
@[simp] theorem cntN_gal (s : State) (k n : Nat) : (cntN s k n).gal = s.gal := by unfold cntN; split <;> rfl
@[simp] theorem cnt_gal (s : State) (k : Nat) : (cnt s k).gal = s.gal := cntN_gal s k 1
@[simp] theorem cntN_scn (s : State) (k n : Nat) : (cntN s k n).scn = s.scn := by unfold cntN; split <;> rfl
@[simp] theorem cnt_scn (s : State) (k : Nat) : (cnt s k).scn = s.scn := cntN_scn s k 1
@[simp] theorem cntN_str (s : State) (k n : Nat) : (cntN s k n).str = s.str := by unfold cntN; split <;> rfl
@[simp] theorem cnt_str (s : State) (k : Nat) : (cnt s k).str = s.str := cntN_str s k 1
@[simp] theorem cntN_cores (s : State) (k n : Nat) : (cntN s k n).cores = s.cores := by unfold cntN; split <;> rfl
@[simp] theorem cnt_cores (s : State) (k : Nat) : (cnt s k).cores = s.cores := cntN_cores s k 1
@[simp] theorem cntN_atlFill (s : State) (k n : Nat) : (cntN s k n).atlFill = s.atlFill := by unfold cntN; split <;> rfl
@[simp] theorem cnt_atlFill (s : State) (k : Nat) : (cnt s k).atlFill = s.atlFill := cntN_atlFill s k 1
@[simp] theorem cntN_xmap (s : State) (k n : Nat) : (cntN s k n).xmap = s.xmap := by unfold cntN; split <;> rfl
@[simp] theorem cnt_xmap (s : State) (k : Nat) : (cnt s k).xmap = s.xmap := cntN_xmap s k 1
@[simp] theorem cntN_atlOut (s : State) (k n : Nat) : (cntN s k n).atlOut = s.atlOut := by unfold cntN; split <;> rfl
@[simp] theorem cnt_atlOut (s : State) (k : Nat) : (cnt s k).atlOut = s.atlOut := cntN_atlOut s k 1
@[simp] theorem cntN_prt (s : State) (k n : Nat) : (cntN s k n).prt = s.prt := by unfold cntN; split <;> rfl
@[simp] theorem cnt_prt (s : State) (k : Nat) : (cnt s k).prt = s.prt := cntN_prt s k 1
@[simp] theorem cntN_net (s : State) (k n : Nat) : (cntN s k n).net = s.net := by unfold cntN; split <;> rfl
@[simp] theorem cnt_net (s : State) (k : Nat) : (cnt s k).net = s.net := cntN_net s k 1
@[simp] theorem cntN_dax (s : State) (k n : Nat) : (cntN s k n).dax = s.dax := by unfold cntN; split <;> rfl
@[simp] theorem cntN_line (s : State) (k n : Nat) : (cntN s k n).line = s.line := by unfold cntN; split <;> rfl
@[simp] theorem cnt_dax (s : State) (k : Nat) : (cnt s k).dax = s.dax := cntN_dax s k 1
@[simp] theorem cnt_line (s : State) (k : Nat) : (cnt s k).line = s.line := cntN_line s k 1
@[simp] theorem cntN_tim (s : State) (k n : Nat) : (cntN s k n).tim = s.tim := by unfold cntN; split <;> rfl
@[simp] theorem cnt_tim (s : State) (k : Nat) : (cnt s k).tim = s.tim := cntN_tim s k 1
@[simp] theorem cntN_twn (s : State) (k n : Nat) : (cntN s k n).twn = s.twn := by unfold cntN; split <;> rfl
@[simp] theorem cnt_twn (s : State) (k : Nat) : (cnt s k).twn = s.twn := cntN_twn s k 1
@[simp] theorem cntN_ecc (s : State) (k n : Nat) : (cntN s k n).ecc = s.ecc := by unfold cntN; split <;> rfl
@[simp] theorem cnt_ecc (s : State) (k : Nat) : (cnt s k).ecc = s.ecc := cntN_ecc s k 1
@[simp] theorem cntN_drc (s : State) (k n : Nat) : (cntN s k n).drc = s.drc := by unfold cntN; split <;> rfl
@[simp] theorem cnt_drc (s : State) (k : Nat) : (cnt s k).drc = s.drc := cntN_drc s k 1
@[simp] theorem cntN_ctl (s : State) (k n : Nat) : (cntN s k n).ctl = s.ctl := by unfold cntN; split <;> rfl
@[simp] theorem cnt_ctl (s : State) (k : Nat) : (cnt s k).ctl = s.ctl := cntN_ctl s k 1
@[simp] theorem cntN_cat (s : State) (k n : Nat) : (cntN s k n).cat = s.cat := by unfold cntN; split <;> rfl
@[simp] theorem cnt_cat (s : State) (k : Nat) : (cnt s k).cat = s.cat := cntN_cat s k 1
@[simp] theorem cntN_pwr (s : State) (k n : Nat) : (cntN s k n).pwr = s.pwr := by unfold cntN; split <;> rfl
@[simp] theorem cnt_pwr (s : State) (k : Nat) : (cnt s k).pwr = s.pwr := cntN_pwr s k 1
@[simp] theorem cntN_ldg (s : State) (k n : Nat) : (cntN s k n).ldg = s.ldg := by unfold cntN; split <;> rfl
@[simp] theorem cnt_ldg (s : State) (k : Nat) : (cnt s k).ldg = s.ldg := cntN_ldg s k 1
@[simp] theorem cntN_pin (s : State) (k n : Nat) : (cntN s k n).pin = s.pin := by unfold cntN; split <;> rfl
@[simp] theorem cnt_pin (s : State) (k : Nat) : (cnt s k).pin = s.pin := cntN_pin s k 1
@[simp] theorem cntN_perm (s : State) (k n : Nat) : (cntN s k n).perm = s.perm := by unfold cntN; split <;> rfl
@[simp] theorem cnt_perm (s : State) (k : Nat) : (cnt s k).perm = s.perm := cntN_perm s k 1
@[simp] theorem cntN_due (s : State) (k n : Nat) : (cntN s k n).due = s.due := by unfold cntN; split <;> rfl
@[simp] theorem cnt_due (s : State) (k : Nat) : (cnt s k).due = s.due := cntN_due s k 1
@[simp] theorem cntN_out (s : State) (k n : Nat) : (cntN s k n).out = s.out := by unfold cntN; split <;> rfl
@[simp] theorem cnt_out (s : State) (k : Nat) : (cnt s k).out = s.out := cntN_out s k 1
@[simp] theorem cntN_free (s : State) (k n : Nat) : (cntN s k n).free = s.free := by unfold cntN; split <;> rfl
@[simp] theorem cnt_free (s : State) (k : Nat) : (cnt s k).free = s.free := cntN_free s k 1

end Sys2Proof.Machine
end

