-- ==== Sys2Proof/Laws/Run.lean ====
section
/-! SUPPORT. What surrounds the effect of a command: what the settling after it can change, and the command of an awake
engine with nothing due. -/

namespace Sys2Proof.Machine

/-! ## What settling keeps -/

/-- The part of the state that settling never changes. -/
structure Rest where
  pending : List Instr
  mem : List Host.Cell
  gal : GalSt
  scn : ScnSt
  str : StrSt
  cores : SMap Core
  atlFill : List Nat
  xmap : SMap W32
  atlOut : SMap S64
  prt : PrtSt
  dax : DaxSt
  line : LineSt
  tim : TimSt
  twn : TwnSt
  ecc : MemSt
  drc : DrcSt
  cat : CatSt
  pwr : PwrSt
  ldg : LdgSt
  pin : PinSt
  perm : Perm
  free : Nat

def State.rest (s : State) : Rest :=
  { pending := s.pending, mem := s.mem, gal := s.gal, scn := s.scn, str := s.str, cores := s.cores, atlFill := s.atlFill,
    xmap := s.xmap, atlOut := s.atlOut, prt := s.prt, dax := s.dax, line := s.line, tim := s.tim, twn := s.twn, ecc := s.ecc, drc := s.drc,
    cat := s.cat, pwr := s.pwr, ldg := s.ldg, pin := s.pin, perm := s.perm, free := s.free }

theorem msixSend_rest (s : State) (v : Nat) : (msixSend s v).rest = s.rest := by
  unfold msixSend; dsimp only; split <;> rfl

theorem vecsSend_rest (l : List Nat) (s : State) : (vecsSend l s).rest = s.rest := foldl_frame State.rest _ msixSend_rest l s

theorem srcsSignal_rest (l : List Nat) (s : State) : (srcsSignal l s).rest = s.rest := by
  unfold srcsSignal
  apply foldl_frame
  intro s a
  split <;> rfl

theorem levelsHold_rest (up src : List Nat) (s : State) : (levelsHold up src s).rest = s.rest := rfl

theorem intEdges_form (s : State) : ∃ a b c d, intEdges s = levelsHold a b (srcsSignal c (vecsSend d s)) := ⟨_, _, _, _, rfl⟩

theorem intEdges_rest (s : State) : (intEdges s).rest = s.rest := by
  obtain ⟨a, b, c, d, h⟩ := intEdges_form s
  rw [h, levelsHold_rest, srcsSignal_rest, vecsSend_rest]

theorem syncKey_rest (slot d : Nat) (v : Bool) (s : State) : (syncKey slot d v s).rest = s.rest := by
  unfold syncKey setKey
  split
  · rfl
  · split <;> rfl

theorem syncFour_rest (a b c d : Bool) (s : State) : (syncFour a b c d s).rest = s.rest := by
  unfold syncFour; rw [syncKey_rest, syncKey_rest, syncKey_rest, syncKey_rest]

theorem syncKeys_rest (s : State) : (syncKeys s).rest = s.rest := by
  unfold syncKeys
  split
  · rfl
  · exact syncFour_rest ..

theorem mtipHold_rest (l : List Nat) (s : State) : (mtipHold l s).rest = s.rest := rfl

theorem timerPend_rest (s : State) : (timerPend s).rest = s.rest := mtipHold_rest ..

theorem net_rest (s : State) (n : NetSt) : ({ s with net := n } : State).rest = s.rest := rfl
theorem net_regs (s : State) (n : NetSt) : ({ s with net := n } : State).regs = s.regs := rfl

theorem portBusy_form (p n : Nat) (s : State) : ∃ m, portBusy p n s = { s with net := m } := ⟨_, rfl⟩
theorem netCount_form (k n : Nat) (leg : Option Nat) (tx : Bool) (b : Nat) (s : State) : ∃ m, netCount k n leg tx b s = { s with net := m } :=
  ⟨_, rfl⟩

/-- A frame that leaves a port changes the network's state and what left the engine, and nothing else. -/
theorem netSend_form (p : Nat) (l : List Byte) (s : State) : (netSend p l s).1 = s ∨ ∃ m e, (netSend p l s).1 = emit { s with net := m } e := by
  unfold netSend
  split
  · right
    dsimp only
    obtain ⟨m, hm⟩ := netCount_form 0 p none true ((l ++ List.replicate (60 - l.length) 0).length + 4) s
    rw [hm]
    obtain ⟨m', hm'⟩ := portBusy_form p (l ++ List.replicate (60 - l.length) 0).length { s with net := m }
    rw [hm']
    exact ⟨_, _, rfl⟩
  · exact .inl rfl

theorem netSend_rest (p : Nat) (l : List Byte) (s : State) : (netSend p l s).1.rest = s.rest := by
  rcases netSend_form p l s with h | ⟨m, e, h⟩ <;> rw [h]
  rfl

theorem mgmtFlush_rest (s : State) : (mgmtFlush s).rest = s.rest := by
  unfold mgmtFlush
  rw [foldl_frame State.rest]
  · rfl
  · intro s a
    dsimp only
    split
    · unfold mgmtSend; dsimp only; rw [netSend_rest]; rfl
    · rfl

theorem settleAwake_rest (s : State) : (settleAwake s).rest = s.rest := by
  unfold settleAwake; rw [mgmtFlush_rest, timerPend_rest, syncKeys_rest, intEdges_rest]

theorem settle_rest (s : State) : (settle s).rest = s.rest := by
  unfold settle; split
  · exact settleAwake_rest s
  · rfl

@[simp] theorem settle_pending (s : State) : (settle s).pending = s.pending := congrArg Rest.pending (settle_rest s)
@[simp] theorem settle_mem (s : State) : (settle s).mem = s.mem := congrArg Rest.mem (settle_rest s)
@[simp] theorem settle_gal (s : State) : (settle s).gal = s.gal := congrArg Rest.gal (settle_rest s)
@[simp] theorem settle_scn (s : State) : (settle s).scn = s.scn := congrArg Rest.scn (settle_rest s)
@[simp] theorem settle_str (s : State) : (settle s).str = s.str := congrArg Rest.str (settle_rest s)
@[simp] theorem settle_cores (s : State) : (settle s).cores = s.cores := congrArg Rest.cores (settle_rest s)
@[simp] theorem settle_atlFill (s : State) : (settle s).atlFill = s.atlFill := congrArg Rest.atlFill (settle_rest s)
@[simp] theorem settle_xmap (s : State) : (settle s).xmap = s.xmap := congrArg Rest.xmap (settle_rest s)
@[simp] theorem settle_atlOut (s : State) : (settle s).atlOut = s.atlOut := congrArg Rest.atlOut (settle_rest s)
@[simp] theorem settle_prt (s : State) : (settle s).prt = s.prt := congrArg Rest.prt (settle_rest s)
@[simp] theorem settle_dax (s : State) : (settle s).dax = s.dax := congrArg Rest.dax (settle_rest s)
@[simp] theorem settle_line (s : State) : (settle s).line = s.line := congrArg Rest.line (settle_rest s)
@[simp] theorem settle_tim (s : State) : (settle s).tim = s.tim := congrArg Rest.tim (settle_rest s)
@[simp] theorem settle_twn (s : State) : (settle s).twn = s.twn := congrArg Rest.twn (settle_rest s)
@[simp] theorem settle_ecc (s : State) : (settle s).ecc = s.ecc := congrArg Rest.ecc (settle_rest s)
@[simp] theorem settle_drc (s : State) : (settle s).drc = s.drc := congrArg Rest.drc (settle_rest s)
@[simp] theorem settle_cat (s : State) : (settle s).cat = s.cat := congrArg Rest.cat (settle_rest s)
@[simp] theorem settle_pwr (s : State) : (settle s).pwr = s.pwr := congrArg Rest.pwr (settle_rest s)
@[simp] theorem settle_ldg (s : State) : (settle s).ldg = s.ldg := congrArg Rest.ldg (settle_rest s)
@[simp] theorem settle_pin (s : State) : (settle s).pin = s.pin := congrArg Rest.pin (settle_rest s)
@[simp] theorem settle_perm (s : State) : (settle s).perm = s.perm := congrArg Rest.perm (settle_rest s)
@[simp] theorem settle_free (s : State) : (settle s).free = s.free := congrArg Rest.free (settle_rest s)

/-! ## Registers that settling leaves alone -/

theorem rd_emit (s : State) (e : Emit) (k : Nat) : rd (emit s e) k = rd s k := rfl
theorem rd_addDue (s : State) (d : Due) (k : Nat) : rd (addDue s d) k = rd s k := rfl

theorem rd_msixSend (s : State) (v k : Nat) (h : k ≠ CTL_MSIX_PBA 0) : rd (msixSend s v) k = rd s k := by
  unfold msixSend
  dsimp only
  split
  · exact rd_wr_ne _ _ _ _ h
  · rw [rd_emit]; exact rd_wr_ne _ _ _ _ h

theorem rd_vecsSend (l : List Nat) (s : State) (k : Nat) (h : k ≠ CTL_MSIX_PBA 0) : rd (vecsSend l s) k = rd s k :=
  foldl_frame (fun s => rd s k) _ (fun s v => rd_msixSend s v k h) l s

theorem rd_srcsSignal (l : List Nat) (s : State) (k : Nat) : rd (srcsSignal l s) k = rd s k := by
  refine foldl_frame (fun s => rd s k) _ ?_ l s
  intro s a
  split
  · exact rd_addDue ..
  · rfl

theorem rd_levelsHold (a b : List Nat) (s : State) (k : Nat) : rd (levelsHold a b s) k = rd s k := rfl

theorem rd_intEdges (s : State) (k : Nat) (h : k ≠ CTL_MSIX_PBA 0) : rd (intEdges s) k = rd s k := by
  obtain ⟨a, b, c, d, e⟩ := intEdges_form s
  rw [e, rd_levelsHold, rd_srcsSignal, rd_vecsSend _ _ _ h]

theorem rd_syncKey (slot d : Nat) (v : Bool) (s : State) (k : Nat) (h : k ≠ PWR_DOM_STATUS d) :
    rd (syncKey slot d v s) k = rd s k := by
  unfold syncKey setKey
  split
  · rfl
  · split
    · rfl
    · exact rd_fset_ne _ _ _ _ _ h

theorem rd_syncFour (a b c d : Bool) (s : State) (k : Nat) (h1 : k ≠ PWR_DOM_STATUS 1) (h2 : k ≠ PWR_DOM_STATUS 14) :
    rd (syncFour a b c d s) k = rd s k := by
  unfold syncFour; rw [rd_syncKey _ _ _ _ _ h2, rd_syncKey _ _ _ _ _ h1, rd_syncKey _ _ _ _ _ h2, rd_syncKey _ _ _ _ _ h1]

theorem rd_syncKeys (s : State) (k : Nat) (h1 : k ≠ PWR_DOM_STATUS 1) (h2 : k ≠ PWR_DOM_STATUS 14) :
    rd (syncKeys s) k = rd s k := by
  unfold syncKeys
  split
  · rfl
  · exact rd_syncFour _ _ _ _ _ _ h1 h2

theorem rd_mtipHold (l : List Nat) (s : State) (k : Nat) : rd (mtipHold l s) k = rd s k := rfl

theorem netSend_regs (p : Nat) (l : List Byte) (s : State) : (netSend p l s).1.regs = s.regs := by
  rcases netSend_form p l s with h | ⟨m, e, h⟩ <;> rw [h]
  rfl

theorem mgmtFlush_regs (s : State) : (mgmtFlush s).regs = s.regs := by
  unfold mgmtFlush
  rw [foldl_frame State.regs]
  intro s a
  dsimp only
  split
  · unfold mgmtSend; dsimp only; rw [netSend_regs]
  · rfl

/-- Settling writes no register but these three. -/
theorem rd_settle (s : State) (k : Nat) (h : ¬settleKey k) : rd (settle s) k = rd s k := by
  unfold settle
  split
  · unfold settleAwake
    rw [rd_congr _ _ _ (mgmtFlush_regs _)]
    show rd (mtipHold _ _) k = _
    rw [rd_mtipHold, rd_syncKeys _ _ (fun e => h (.inr (.inl e))) (fun e => h (.inr (.inr e))),
      rd_intEdges _ _ (fun e => h (.inl e))]
  · rfl

theorem fget_settle (s : State) (k : Nat) (f : Fld) (h : ¬settleKey k) : fget (settle s) k f = fget s k f :=
  fget_congr _ _ _ _ (rd_settle _ _ h)

/-! ## A command of an awake engine with nothing due -/

theorem flushDue_none (s : State) (h : s.due = []) : flushDue (quietOut s) = quietOut s := by
  unfold flushDue quietOut
  simp only [h, List.foldl_nil]

/-- The effect of a command meets the state as it stands, without what the last command sent. -/
theorem run_ready (f : State → State) (s : State) (h : Ready s) : run f s = .next (keep s (settle (f (quietOut s)))) := by
  unfold run; rw [if_pos h.1, flushDue_none s h.2]

theorem runOtp_ready (f : State → State) (s : State) (h : Ready s) :
    runOtp f s = .next (keepButOtp s (settle (f (quietOut s)))) := by
  unfold runOtp; rw [if_pos h.1, flushDue_none s h.2]

theorem runFlash_ready (f : State → State) (s : State) (h : Ready s) :
    runFlash f s = .next (keepButFlash s (settle (f (quietOut s)))) := by
  unfold runFlash; rw [if_pos h.1, flushDue_none s h.2]

/-- What holds of the settled effect holds after the command. -/
theorem completes_run {i : Instr} {s : State} {P : State → Prop} (f : State → State) (he : exec i s = run f s) (h : Ready s)
    (hp : P (keep s (settle (f (quietOut s))))) : Completes i s P := ⟨_, he.trans (run_ready f s h), hp⟩

@[simp] theorem rd_quietOut (s : State) (k : Nat) : rd (quietOut s) k = rd s k := rfl
@[simp] theorem fget_quietOut (s : State) (k : Nat) (f : Fld) : fget (quietOut s) k f = fget s k f := rfl
@[simp] theorem rd_keep (s t : State) (k : Nat) : rd (keep s t) k = rd t k := rfl
@[simp] theorem fget_keep (s t : State) (k : Nat) (f : Fld) : fget (keep s t) k f = fget t k f := rfl

end Sys2Proof.Machine
end

