-- ==== Sys2Proof/Laws/Atelier.lean ====
section
/-! SUPPORT. Laws of the Atelier cores: the issue of one instruction at a word that nothing in flight or pending stands
beside, and when its results are visible. -/

namespace Sys2Proof.Machine

@[simp] theorem coreOf_setCore (c : Nat) (k : Core) (s : State) : coreOf (setCore c k s) c = k := by
  simp [coreOf, setCore]
theorem coreOf_setCore_ne (c c' : Nat) (k : Core) (s : State) (h : c' ≠ c) : coreOf (setCore c k s) c' = coreOf s c' := by
  simp [coreOf, setCore, smGet_smSet_ne _ _ _ _ _ h]
theorem coreOf_congr (s t : State) (c : Nat) (h : t.cores = s.cores) : coreOf t c = coreOf s c := by unfold coreOf; rw [h]

/-! ## The boundary -/

/-- Where nothing is pending, in flight or due, the boundary changes nothing. -/
theorem boundary_plain (k : Core) (hw : k.wait = none) (hp : k.loopDue = false) (hl : k.landPend = false)
    (hc : k.cmpPend = false) (hd : cmpDue k = false) : boundary k = (k, []) := by
  have e : loopPops k = k := by simp [loopPops, hp]
  unfold boundary coreBoundary waitDone
  simp [e, hd, hl, hc, hw]

theorem wbUpTo_none (k : Core) (n : Nat) (h : (bankOf k).wb = []) : wbUpTo k.inHandler n k = (k, []) := by
  obtain ⟨m, sh, b, l, ph, pc, cyc, fr, fi, ih⟩ := k
  obtain ⟨d1, d2, d3, d4, d5, d6, d7, d8, d9, d10⟩ := m
  obtain ⟨e1, e2, e3, e4, e5, e6, e7, e8, e9, e10⟩ := sh
  cases ih <;> simp_all [wbUpTo, wbApplyAll, putBank, bankOf]

theorem bankOf_setBank (k : Core) (b : Bank) : bankOf (setBank k b) = b := by
  unfold bankOf setBank putBank; cases h : k.inHandler <;> simp

/-- Outside delay slots and loop bodies a plain instruction issues, counts, and goes on at the next word. -/
theorem coreIssue_plain (eff : Core → IssueEff) (k : Core) (hb : isBad k 0 k.pc = false) (hl : (bankOf k).loops = [])
    (hw : (bankOf k).wb = []) (hd : k.delay = none)
    (h1 : (eff k).delay = none) (h2 : (eff k).jump = none) (h3 : (eff k).core.delay = none)
    (h4 : (bankOf (eff k).core).loops = []) (h5 : (eff k).core.pc = k.pc) :
    coreIssue .plain eff k = ({ coreCount (eff k).tap (eff k).core with pc := (k.pc + 1) % 16384 }, (eff k).evs) := by
  unfold coreIssue
  rw [wbUpTo_none k _ hw]
  have e : coreAdvance (coreCount (eff k).tap (eff k).core) =
      ({ coreCount (eff k).tap (eff k).core with pc := (k.pc + 1) % 16384 }, []) := by
    unfold coreAdvance
    have hd' : (coreCount (eff k).tap (eff k).core).delay = none := by
      unfold coreCount setBank putBank; simp only; split <;> exact h3
    have hp' : (coreCount (eff k).tap (eff k).core).pc = k.pc := by
      unfold coreCount setBank putBank; simp only; split <;> exact h5
    have hl' : (bankOf (coreCount (eff k).tap (eff k).core)).loops = [] := by
      unfold coreCount
      show (bankOf (setBank _ _)).loops = []
      rw [bankOf_setBank]; exact h4
    rw [hd', hp']
    simp only [hl']
    rw [← hd']
  simp [hb, loopHalt, breaksBody, hl, hd, h1, h2, e]

/-! ## The issue in the engine -/

theorem fieldShow_cases (k : Nat) (f : Fld) (v : Nat) (s : State) : fieldShow k f v s = s ∨ fieldShow k f v s = fset s k f v := by
  unfold fieldShow; split
  · exact .inl rfl
  · exact .inr rfl

theorem fieldShow_keeps {α : Type} (p : State → α) (hr : ∀ s r, p { s with regs := r } = p s) (k : Nat) (f : Fld) (v : Nat) (s : State) :
    p (fieldShow k f v s) = p s := by
  rcases fieldShow_cases k f v s with h | h <;> rw [h]
  exact hr s _

theorem rd_fieldShow_ne (k n : Nat) (f : Fld) (v : Nat) (s : State) (h : n ≠ k) : rd (fieldShow k f v s) n = rd s n := by
  rcases fieldShow_cases k f v s with e | e <;> rw [e]
  exact rd_fset_ne _ _ _ _ _ h

/-- The fields that a core's step without events leaves alone. -/
theorem coreStep_quiet {α : Type} (c cyc pc : Nat) (k : Core) (s : State) (p : State → α) (hr : ∀ s r, p { s with regs := r } = p s) :
    p (coreStep c cyc pc k [] s) = p (setCore c k s) := by
  unfold coreStep; rw [fieldShow_keeps p hr, fieldShow_keeps p hr]; rfl

theorem rd_coreStep_quiet (c cyc pc : Nat) (k : Core) (s : State) (r : Nat) (h1 : r ≠ ATL_CORE_STATUS c) (h2 : r ≠ ATL_CORE_PQ c) :
    rd (coreStep c cyc pc k [] s) r = rd s r := by
  unfold coreStep; rw [rd_fieldShow_ne _ _ _ _ _ h2, rd_fieldShow_ne _ _ _ _ _ h1]; rfl

theorem issue_plain (c : Nat) (w : BitVec 64) (eff : Core → IssueEff) (s : State) (h : AtWord c w s)
    (hl : atlLegal w (coreOf s c).pc = true)
    (h1 : (eff (coreOf s c)).delay = none) (h2 : (eff (coreOf s c)).jump = none) (h3 : (eff (coreOf s c)).core.delay = none)
    (h4 : (bankOf (eff (coreOf s c)).core).loops = []) (h5 : (eff (coreOf s c)).core.pc = (coreOf s c).pc) :
    issue c w .plain eff s = coreStep c (coreOf s c).cyc (coreOf s c).pc
      { coreCount (eff (coreOf s c)).tap (eff (coreOf s c)).core with pc := ((coreOf s c).pc + 1) % 16384 } (eff (coreOf s c)).evs s := by
  unfold issue
  rw [boundary_plain _ h.noWait h.noPop h.noLand h.noCmp h.noDue]
  simp only [List.nil_append]
  rw [if_pos ⟨h.issues, h.word, hl⟩, coreIssue_plain eff _ h.good h.noLoop h.noFlight h.noDelay h1 h2 h3 h4 h5]

theorem atWord_quiet {c : Nat} {w : BitVec 64} {s : State} (h : AtWord c w s) : AtWord c w (quietOut s) :=
  ⟨h.ready, h.issues, h.noWait, h.noDelay, h.noPop, h.noLand, h.noCmp, h.noDue, h.noLoop, h.noFlight, h.word, h.good⟩

/-- The issue of any class of instruction, where nothing is pending or in flight. -/
theorem issue_any (c : Nat) (w : BitVec 64) (cls : OpClass) (eff : Core → IssueEff) (s : State) (h : AtWord c w s)
    (hl : atlLegal w (coreOf s c).pc = true) :
    issue c w cls eff s = coreStep c (coreOf s c).cyc (coreOf s c).pc (coreIssue cls eff (coreOf s c)).1 (coreIssue cls eff (coreOf s c)).2 s := by
  unfold issue
  rw [boundary_plain _ h.noWait h.noPop h.noLand h.noCmp h.noDue]
  simp only [List.nil_append]
  rw [if_pos ⟨h.issues, h.word, hl⟩]

/-- A command whose effect is a core's step without events: the core takes the state named, and nothing else changes. -/
theorem completes_step {i : Instr} (c : Fin 68) (f : State → State) (s : State) (a b : Nat) (x : Core)
    (he : exec i s = run f s) (h : Ready s) (e : f (quietOut s) = coreStep c a b x [] (quietOut s)) :
    Completes i s (fun t => coreOf t c = x ∧ OnlyCore c s t) := by
  refine completes_run _ he h ?_
  rw [e]
  constructor
  · rw [coreOf_congr _ _ _ (keep_cores _ _), coreOf_congr _ _ _ (settle_cores _), coreOf_congr _ _ _ (coreStep_quiet _ _ _ _ _ State.cores (fun _ _ => rfl)), coreOf_setCore]
  · constructor
    · intro c' hc
      rw [coreOf_congr _ _ _ (keep_cores _ _), coreOf_congr _ _ _ (settle_cores _), coreOf_congr _ _ _ (coreStep_quiet _ _ _ _ _ State.cores (fun _ _ => rfl)), coreOf_setCore_ne _ _ _ _ hc]
      rfl
    all_goals first
      | (intro k hk k1 k2; rw [rd_keep, rd_settle _ _ hk, rd_coreStep_quiet _ _ _ _ _ _ k1 k2]; rfl)
      | rw [keep_perm]
      | (simp only [keep_mem, settle_mem]; exact coreStep_quiet _ _ _ _ _ State.mem (fun _ _ => rfl))
      | (simp only [keep_gal, settle_gal]; exact coreStep_quiet _ _ _ _ _ State.gal (fun _ _ => rfl))
      | (simp only [keep_scn, settle_scn]; exact coreStep_quiet _ _ _ _ _ State.scn (fun _ _ => rfl))
      | (simp only [keep_str, settle_str]; exact coreStep_quiet _ _ _ _ _ State.str (fun _ _ => rfl))
      | (simp only [keep_atlOut, settle_atlOut]; exact coreStep_quiet _ _ _ _ _ State.atlOut (fun _ _ => rfl))
      | (simp only [keep_xmap, settle_xmap]; exact coreStep_quiet _ _ _ _ _ State.xmap (fun _ _ => rfl))
      | (simp only [keep_prt, settle_prt]; exact coreStep_quiet _ _ _ _ _ State.prt (fun _ _ => rfl))
      | (simp only [keep_dax, settle_dax]; exact coreStep_quiet _ _ _ _ _ State.dax (fun _ _ => rfl))
      | (simp only [keep_line, settle_line]; exact coreStep_quiet _ _ _ _ _ State.line (fun _ _ => rfl))
      | (simp only [keep_tim, settle_tim]; exact coreStep_quiet _ _ _ _ _ State.tim (fun _ _ => rfl))
      | (simp only [keep_twn, settle_twn]; exact coreStep_quiet _ _ _ _ _ State.twn (fun _ _ => rfl))
      | (simp only [keep_ecc, settle_ecc]; exact coreStep_quiet _ _ _ _ _ State.ecc (fun _ _ => rfl))
      | (simp only [keep_drc, settle_drc]; exact coreStep_quiet _ _ _ _ _ State.drc (fun _ _ => rfl))
      | (simp only [keep_cat, settle_cat]; exact coreStep_quiet _ _ _ _ _ State.cat (fun _ _ => rfl))
      | (simp only [keep_ldg, settle_ldg]; exact coreStep_quiet _ _ _ _ _ State.ldg (fun _ _ => rfl))
      | (simp only [keep_pin, settle_pin]; exact coreStep_quiet _ _ _ _ _ State.pin (fun _ _ => rfl))

/-- A plain instruction without events: the core takes the state that its effect leaves, and nothing else changes. -/
theorem completes_plain {i : Instr} (c : Fin 68) (w : BitVec 64) (eff : Core → IssueEff) (s : State)
    (he : exec i s = run (issue c w .plain eff) s) (h : AtWord c w s)
    (hl : atlLegal w (coreOf s c).pc = true) (hv : (eff (coreOf s c)).evs = [])
    (h1 : (eff (coreOf s c)).delay = none) (h2 : (eff (coreOf s c)).jump = none) (h3 : (eff (coreOf s c)).core.delay = none)
    (h4 : (bankOf (eff (coreOf s c)).core).loops = []) (h5 : (eff (coreOf s c)).core.pc = (coreOf s c).pc) :
    Completes i s (fun t => coreOf t c = { coreCount (eff (coreOf s c)).tap (eff (coreOf s c)).core with pc := ((coreOf s c).pc + 1) % 16384 } ∧
      OnlyCore c s t) := by
  have e := issue_plain c w eff (quietOut s) (atWord_quiet h) hl h1 h2 h3 h4 h5
  change (eff (coreOf (quietOut s) c)).evs = [] at hv
  rw [hv] at e
  exact completes_step c _ s _ _ _ he h.ready e

theorem Completes.mono {i : Instr} {s : State} {P Q : State → Prop} (h : Completes i s P) (hpq : ∀ t, P t → Q t) : Completes i s Q := by
  obtain ⟨t, a, b⟩ := h; exact ⟨t, a, hpq t b⟩

theorem bitsOf_encA (op rd ra rb file sh : Nat) (h0 : op < 256) (h1 : rd < 16) (h2 : ra < 16) (h3 : rb < 16) (h4 : file < 16) (h5 : sh < 256) :
    bitsOf (encA op rd ra rb file sh).toNat 56 8 = op ∧ bitsOf (encA op rd ra rb file sh).toNat 52 4 = rd ∧
    bitsOf (encA op rd ra rb file sh).toNat 48 4 = ra ∧ bitsOf (encA op rd ra rb file sh).toNat 44 4 = rb ∧
    bitsOf (encA op rd ra rb file sh).toNat 40 4 = file ∧ bitsOf (encA op rd ra rb file sh).toNat 32 8 = sh ∧
    bitsOf (encA op rd ra rb file sh).toNat 0 32 = 0 := by
  unfold encA bitsOf
  simp only [BitVec.toNat_ofNat]
  omega

theorem bitsOf_encI (op rd ra file imm : Nat) (h0 : op < 256) (h1 : rd < 16) (h2 : ra < 16) (h4 : file < 16) (h5 : imm < 2 ^ 32) :
    bitsOf (encI op rd ra file imm).toNat 56 8 = op ∧ bitsOf (encI op rd ra file imm).toNat 52 4 = rd ∧
    bitsOf (encI op rd ra file imm).toNat 48 4 = ra ∧ bitsOf (encI op rd ra file imm).toNat 44 4 = file ∧
    bitsOf (encI op rd ra file imm).toNat 32 12 = 0 ∧ bitsOf (encI op rd ra file imm).toNat 0 32 = imm := by
  unfold encI bitsOf
  simp only [BitVec.toNat_ofNat]
  omega

/-- Format A with fields in range is legal where its opcode's own limits hold. -/
theorem legalA (op rd ra rb file sh pc : Nat) (h0 : op < 256) (h1 : rd < 16) (h2 : ra < 16) (h3 : rb < 16) (h4 : file < 16) (h5 : sh < 256)
    (hl : (match op with
      | 0x00 | 0x01 | 0x02 => [rd, ra, rb, file, sh].all (· == 0)
      | 0x10 | 0x15 | 0x16 => [rb, file, sh].all (· == 0)
      | 0x11 | 0x12 | 0x13 | 0x14 | 0x17 | 0x18 | 0x19 | 0x1A | 0x1B => [file, sh].all (· == 0)
      | 0x1C | 0x1D | 0x1E | 0x1F => [rb, file].all (· == 0) && decide (sh < 64)
      | 0x20 => [rd, file, sh].all (· == 0)
      | 0x30 => [rb, file, sh].all (· == 0) && decide (rd < 8)
      | 0x31 => [rb, file, sh].all (· == 0) && decide (ra < 8)
      | 0x32 => [rb, sh].all (· == 0) && decide (file < 4) && decide (rd < 8)
      | 0x33 => [rb, sh].all (· == 0) && decide (file < 4) && decide (ra < 8)
      | 0x34 => [ra, rb, file, sh].all (· == 0)
      | 0x35 => [rd, ra, rb, file, sh % 4, sh / 32].all (· == 0)
      | 0x50 | 0x51 | 0x52 => [file, sh].all (· == 0) && decide (rd < 4) && decide (rb < 8)
      | 0x53 | 0x54 => [file, sh].all (· == 0) && decide (rd < 4)
      | 0x60 => [ra, rb, file, sh].all (· == 0) && decide (rd < 4)
      | 0x61 => [rb, file, sh].all (· == 0) && decide (rd < 4)
      | 0x62 | 0x63 => [rb, file, sh].all (· == 0) && decide (rd < 4) && decide (ra < 4)
      | 0x64 | 0x65 => [file, sh].all (· == 0) && decide (rd < 4) && decide (ra < 4) && decide (rb < 4)
      | 0x66 => [rb, file].all (· == 0) && decide (rd < 4) && decide (ra < 4) && sh != 128
      | 0x67 => [rb, file, sh].all (· == 0) && decide (ra < 4)
      | _ => false) = true) : atlLegal (encA op rd ra rb file sh) pc = true := by
  obtain ⟨a, b, c, d, e, f, g⟩ := bitsOf_encA op rd ra rb file sh h0 h1 h2 h3 h4 h5
  unfold atlLegal
  simp only [a, b, c, d, e, f, g]
  split at hl <;> first | exact hl | exact absurd hl (by decide)

@[simp] theorem coreLater_delay (n : Nat) (a : WbAct) (k : Core) : (coreLater n a k).delay = k.delay := by
  unfold coreLater setBank putBank; simp only; split <;> rfl
@[simp] theorem coreLater_pc (n : Nat) (a : WbAct) (k : Core) : (coreLater n a k).pc = k.pc := by
  unfold coreLater setBank putBank; simp only; split <;> rfl
@[simp] theorem coreLater_loops (n : Nat) (a : WbAct) (k : Core) : (bankOf (coreLater n a k)).loops = (bankOf k).loops := by
  unfold coreLater; rw [bankOf_setBank]

theorem aluStore_keeps (rd : Nat) (r : S64) (f : AluForm) (e : Bool) (k : Core) :
    (aluStore rd r f e k).delay = k.delay ∧ (bankOf (aluStore rd r f e k)).loops = (bankOf k).loops ∧ (aluStore rd r f e k).pc = k.pc := by
  unfold aluStore aluSticky
  cases e <;> cases f <;> simp

/-- The sticky bits of an ALU instruction's form (07 R226). -/
def aluBits (f : AluForm) (exact : Bool) : BitVec 5 :=
  if exact then 0 else match f with | .wrapping => 0b00100#5 | .saturating => 0b10000#5 | .exact => 0

/-- An ALU result is visible one instruction later. -/
theorem aluStore_seen (rd : Nat) (r : S64) (f : AluForm) (e : Bool) (k : Core) (hw : (bankOf k).wb = []) (hl : (bankOf k).loops = []) :
    seen { coreCount [] (aluStore rd r f e k) with pc := (k.pc + 1) % 16384 } = aluDone k rd r (aluBits f e) := by
  obtain ⟨m, sh, b, l, ph, pc, cyc, fr, fi, ih⟩ := k
  obtain ⟨d1, d2, d3, d4, d5, d6, d7, d8, d9, d10⟩ := m
  obtain ⟨e1, e2, e3, e4, e5, e6, e7, e8, e9, e10⟩ := sh
  cases ih <;> simp only [bankOf, Bool.false_eq_true, if_false, if_true] at hw hl <;> subst hw <;> subst hl <;>
  cases e <;> cases f <;> simp [seen, aluDone, aluBits, aluStore, aluSticky, stepped, coreCount, coreLater, setBank, putBank, bankOf, wbFlush, wbUpTo, wbApplyAll, wbApply, swNZ] <;> rfl

/-- N and Z alone are visible one instruction later. -/
theorem seen_nz (n z : Bool) (k : Core) (hw : (bankOf k).wb = []) (hl : (bankOf k).loops = []) :
    seen { coreCount [] (coreLater 1 (.nz n z) k) with pc := (k.pc + 1) % 16384 } =
      stepped k { bankOf k with sw := swNZ (bankOf k).sw n z 0 } := by
  obtain ⟨m, sh, b, l, ph, pc, cyc, fr, fi, ih⟩ := k
  obtain ⟨d1, d2, d3, d4, d5, d6, d7, d8, d9, d10⟩ := m
  obtain ⟨e1, e2, e3, e4, e5, e6, e7, e8, e9, e10⟩ := sh
  cases ih <;> simp only [bankOf, Bool.false_eq_true, if_false, if_true] at hw hl <;> subst hw <;> subst hl <;>
  simp [seen, stepped, coreCount, coreLater, setBank, putBank, bankOf, wbFlush, wbUpTo, wbApplyAll, wbApply, swNZ]

/-- An ALU instruction (07 R226): its result, its flags, and nothing else. -/
theorem completes_alu {i : Instr} (c : Fin 68) (w : BitVec 64) (rd : Nat) (v : Core → Int) (f : AluForm) (s : State)
    (he : exec i s = run (issue c w .plain (fun k => aluWrite rd (v k) f k)) s) (h : AtWord c w s)
    (hl : atlLegal w (coreOf s c).pc = true) :
    Completes i s (fun u => seen (coreOf u c) =
      aluDone (coreOf s c) rd (aluResult (v (coreOf s c)) f)
        (aluBits f (decide ((aluResult (v (coreOf s c)) f).toInt = v (coreOf s c)))) ∧ OnlyCore c s u) := by
  have q := aluStore_seen rd (aluResult (v (coreOf s c)) f) f (decide ((aluResult (v (coreOf s c)) f).toInt = v (coreOf s c)))
    (coreOf s c) h.noFlight h.noLoop
  have g := aluStore_keeps rd (aluResult (v (coreOf s c)) f) f (decide ((aluResult (v (coreOf s c)) f).toInt = v (coreOf s c))) (coreOf s c)
  refine (completes_plain c w _ s he h hl ?_ ?_ ?_ ?_ ?_ ?_).mono ?_
  · simp only [aluWrite, effPlain]
  · simp only [aluWrite, effPlain]
  · simp only [aluWrite, effPlain]
  · simp only [aluWrite, effPlain]; exact g.1.trans h.noDelay
  · simp only [aluWrite, effPlain]; exact g.2.1.trans h.noLoop
  · simp only [aluWrite, effPlain]; exact g.2.2
  · rintro u ⟨h1, h2⟩
    refine ⟨?_, h2⟩
    rw [h1]
    simp only [aluWrite, effPlain]
    exact q

end Sys2Proof.Machine
end

