-- ==== Sys2Proof/Laws/Words.lean ====
section
/-! SUPPORT. Which words of formats I, M, L and B are legal, and what the effects of Atelier instructions change in a core. -/

namespace Sys2Proof.Machine

theorem legalI (op rd ra file imm pc : Nat) (h0 : op < 256) (h1 : rd < 16) (h2 : ra < 16) (h4 : file < 16) (h5 : imm < 2 ^ 32)
    (hl : (match op with
      | 0x28 | 0x29 => [ra, file].all (· == 0)
      | 0x2A => [file].all (· == 0)
      | 0x36 => [ra, imm / 65536].all (· == 0) && decide (file < 4) && decide (rd < 8)
      | _ => false) = true) : atlLegal (encI op rd ra file imm) pc = true := by
  obtain ⟨a, b, c, d, e, f⟩ := bitsOf_encI op rd ra file imm h0 h1 h2 h4 h5
  unfold atlLegal
  simp only [a, b, c, d, e, f]
  split at hl <;> simp_all

theorem legalM (op rd ra sp : Nat) (nmx : Bool) (px mx : Nat) (nmy : Bool) (py my pc : Nat) (h0 : op < 256) (h1 : rd < 16) (h2 : ra < 16)
    (h3 : sp < 4) (h4 : px < 8) (h5 : mx < 8) (h6 : py < 8) (h7 : my < 8)
    (hl : (match op with
      | 0x40 => [ra, b2n nmy, py, my].all (· == 0) && decide (sp < 3)
      | 0x41 => [ra, b2n nmy, py, my].all (· == 0) && decide (sp < 3) && decide (rd < 8)
      | 0x42 => [rd, b2n nmy, py, my].all (· == 0) && decide (sp < 3)
      | 0x43 => [rd, b2n nmy, py, my].all (· == 0) && decide (sp < 3) && decide (ra < 8)
      | 0x44 => [ra, b2n nmy, py, my].all (· == 0) && (sp == 0 || sp == 2)
      | 0x55 | 0x56 | 0x57 => [sp, b2n nmx, px, mx].all (· == 0) && decide (rd < 4)
      | 0x58 | 0x59 => [sp].all (· == 0) && decide (rd < 4)
      | 0x5A => [sp, ra % 2].all (· == 0) && (rd == 0 || rd == 2)
      | _ => false) = true) : atlLegal (encM op rd ra sp nmx px mx nmy py my) pc = true := by
  have hv : (encM op rd ra sp nmx px mx nmy py my).toNat = op * 2 ^ 56 + rd * 2 ^ 52 + ra * 2 ^ 48 + sp * 2 ^ 46 + b2n nmx * 2 ^ 45 + px * 2 ^ 42 +
    mx * 2 ^ 39 + b2n nmy * 2 ^ 38 + py * 2 ^ 35 + my * 2 ^ 32 := by
    unfold encM; rw [BitVec.toNat_ofNat]; apply Nat.mod_eq_of_lt
    have : b2n nmx ≤ 1 := by cases nmx <;> decide
    have : b2n nmy ≤ 1 := by cases nmy <;> decide
    omega
  have b1 : b2n nmx ≤ 1 := by cases nmx <;> decide
  have b2 : b2n nmy ≤ 1 := by cases nmy <;> decide
  unfold atlLegal
  rw [hv]
  have a : bitsOf (op * 2 ^ 56 + rd * 2 ^ 52 + ra * 2 ^ 48 + sp * 2 ^ 46 + b2n nmx * 2 ^ 45 + px * 2 ^ 42 + mx * 2 ^ 39 + b2n nmy * 2 ^ 38 + py * 2 ^ 35 + my * 2 ^ 32) 56 8 = op := by unfold bitsOf; omega
  have b : bitsOf (op * 2 ^ 56 + rd * 2 ^ 52 + ra * 2 ^ 48 + sp * 2 ^ 46 + b2n nmx * 2 ^ 45 + px * 2 ^ 42 + mx * 2 ^ 39 + b2n nmy * 2 ^ 38 + py * 2 ^ 35 + my * 2 ^ 32) 52 4 = rd := by unfold bitsOf; omega
  have c : bitsOf (op * 2 ^ 56 + rd * 2 ^ 52 + ra * 2 ^ 48 + sp * 2 ^ 46 + b2n nmx * 2 ^ 45 + px * 2 ^ 42 + mx * 2 ^ 39 + b2n nmy * 2 ^ 38 + py * 2 ^ 35 + my * 2 ^ 32) 48 4 = ra := by unfold bitsOf; omega
  have d : bitsOf (op * 2 ^ 56 + rd * 2 ^ 52 + ra * 2 ^ 48 + sp * 2 ^ 46 + b2n nmx * 2 ^ 45 + px * 2 ^ 42 + mx * 2 ^ 39 + b2n nmy * 2 ^ 38 + py * 2 ^ 35 + my * 2 ^ 32) 46 2 = sp := by unfold bitsOf; omega
  have e : bitsOf (op * 2 ^ 56 + rd * 2 ^ 52 + ra * 2 ^ 48 + sp * 2 ^ 46 + b2n nmx * 2 ^ 45 + px * 2 ^ 42 + mx * 2 ^ 39 + b2n nmy * 2 ^ 38 + py * 2 ^ 35 + my * 2 ^ 32) 0 32 = 0 := by unfold bitsOf; omega
  have f : bitsOf (op * 2 ^ 56 + rd * 2 ^ 52 + ra * 2 ^ 48 + sp * 2 ^ 46 + b2n nmx * 2 ^ 45 + px * 2 ^ 42 + mx * 2 ^ 39 + b2n nmy * 2 ^ 38 + py * 2 ^ 35 + my * 2 ^ 32) 32 7 = b2n nmy * 64 + py * 8 + my := by unfold bitsOf; omega
  have g : bitsOf (op * 2 ^ 56 + rd * 2 ^ 52 + ra * 2 ^ 48 + sp * 2 ^ 46 + b2n nmx * 2 ^ 45 + px * 2 ^ 42 + mx * 2 ^ 39 + b2n nmy * 2 ^ 38 + py * 2 ^ 35 + my * 2 ^ 32) 39 8 = sp % 2 * 128 + b2n nmx * 64 + px * 8 + mx := by unfold bitsOf; omega
  have g' : bitsOf (op * 2 ^ 56 + rd * 2 ^ 52 + ra * 2 ^ 48 + sp * 2 ^ 46 + b2n nmx * 2 ^ 45 + px * 2 ^ 42 + mx * 2 ^ 39 + b2n nmy * 2 ^ 38 + py * 2 ^ 35 + my * 2 ^ 32) 39 9 = sp * 128 + b2n nmx * 64 + px * 8 + mx := by unfold bitsOf; omega
  simp only [a, b, c, d, e, f, g, g']
  split at hl <;> simp_all


theorem bitsOf_encB (op cond ra imm t : Nat) (h0 : op < 256) (h1 : cond < 16) (h2 : ra < 16) (h3 : imm < 65536) (h4 : t < 16384) :
    bitsOf (encB op cond ra imm t).toNat 56 8 = op ∧ bitsOf (encB op cond ra imm t).toNat 52 4 = cond ∧
    bitsOf (encB op cond ra imm t).toNat 48 4 = ra ∧ bitsOf (encB op cond ra imm t).toNat 14 18 = 0 ∧
    bitsOf (encB op cond ra imm t).toNat 32 16 = imm ∧ bitsOf (encB op cond ra imm t).toNat 0 14 = t := by
  unfold encB bitsOf
  simp only [BitVec.toNat_ofNat]
  omega

theorem legalB (op cond ra imm t pc : Nat) (h0 : op < 256) (h1 : cond < 16) (h2 : ra < 16) (h3 : imm < 65536) (h4 : t < 16384)
    (hl : (match op with
      | 0x03 => [cond, ra, t].all (· == 0)
      | 0x04 => decide (cond ≤ 9) && [ra, imm].all (· == 0)
      | 0x05 => [cond, imm].all (· == 0) && decide (ra < 8)
      | 0x06 => decide (cond ≤ 9) && decide (ra < 8) && [imm, t].all (· == 0)
      | 0x07 => [cond, ra].all (· == 0) && decide ((pc + 1) % 16384 ≤ t)
      | 0x08 => [cond, imm].all (· == 0) && decide ((pc + 1) % 16384 ≤ t)
      | _ => false) = true) : atlLegal (encB op cond ra imm t) pc = true := by
  obtain ⟨a, b, c, d, e, f⟩ := bitsOf_encB op cond ra imm t h0 h1 h2 h3 h4
  unfold atlLegal
  simp only [a, b, c, d, e, f]
  split at hl <;> simp_all

theorem bitsOf_encL (op ra rb len imm : Nat) (h0 : op < 256) (h1 : ra < 16) (h2 : rb < 16) (h3 : len < 16) (h4 : imm < 2 ^ 32) :
    bitsOf (encL op ra rb len imm).toNat 56 8 = op ∧ bitsOf (encL op ra rb len imm).toNat 52 4 = 0 ∧
    bitsOf (encL op ra rb len imm).toNat 44 4 = rb ∧ bitsOf (encL op ra rb len imm).toNat 40 4 = len ∧
    bitsOf (encL op ra rb len imm).toNat 32 8 = 0 := by
  unfold encL bitsOf
  simp only [BitVec.toNat_ofNat]
  omega

theorem legalL (op ra rb len imm pc : Nat) (h0 : op < 256) (h1 : ra < 16) (h2 : rb < 16) (h3 : len < 16) (h4 : imm < 2 ^ 32)
    (hl : (match op with
      | 0x70 => [rb].all (· == 0) && decide (1 ≤ len) && decide (len ≤ 8)
      | 0x71 => [len].all (· == 0)
      | _ => false) = true) : atlLegal (encL op ra rb len imm) pc = true := by
  obtain ⟨a, b, c, d, e⟩ := bitsOf_encL op ra rb len imm h0 h1 h2 h3 h4
  unfold atlLegal
  simp only [a, b, c, d, e]
  split at hl <;> simp_all

theorem memWr_form (k : Core) (sp a : Nat) (v : BitVec 64) :
    ∃ x y e b, memWr k sp a v = { k with xm := x, ym := y, em := e, bad := b } := by
  unfold memWr coreWr
  split
  · exact ⟨_, _, _, _, rfl⟩
  · exact ⟨_, _, _, _, rfl⟩
  · split
    · split
      · exact ⟨_, _, _, _, rfl⟩
      · exact ⟨_, _, _, _, rfl⟩
    · exact ⟨_, _, _, _, rfl⟩

theorem pmOne_form (nm : Bool) (i m : Nat) (k : Core) :
    pmOne nm i m k = if nm then k else coreLater 1 (.p i (BitVec.ofNat 16 (pmVal k i m (coreP k i)))) k := rfl

theorem coreLater_form (n : Nat) (a : WbAct) (k : Core) :
    coreLater n a k = setBank k { bankOf k with wb := (bankOf k).wb ++ [⟨(bankOf k).issued + n, a⟩] } := rfl

/-- The pointers, and the registers that address them, are read past what is in flight. -/
theorem pmVal_later (n : Nat) (a : WbAct) (k : Core) (i m p : Nat) : pmVal (coreLater n a k) i m p = pmVal k i m p := by
  obtain ⟨m, sh, b, l, ph, pc, cyc, fr, fi, ih⟩ := k
  cases ih <;> rfl
theorem coreP_later (n : Nat) (a : WbAct) (k : Core) (i : Nat) : coreP (coreLater n a k) i = coreP k i := by
  obtain ⟨m, sh, b, l, ph, pc, cyc, fr, fi, ih⟩ := k
  cases ih <;> rfl
theorem pmVal_mem (k : Core) (x : SMap S64) (y : SMap (BitVec 64)) (e : SMap S64) (b : List Nat) (i m p : Nat) :
    pmVal { k with xm := x, ym := y, em := e, bad := b } i m p = pmVal k i m p := rfl
theorem coreP_mem (k : Core) (x : SMap S64) (y : SMap (BitVec 64)) (e : SMap S64) (b : List Nat) (i : Nat) :
    coreP { k with xm := x, ym := y, em := e, bad := b } i = coreP k i := rfl

end Sys2Proof.Machine
end

