-- ==== Sys2Proof/WellFormed.lean ====
section
/-! DEFINITION. Well-formed commands: the limits of an operand that its type does not give. A command that breaks one still
has its meaning, which is the refusal, or the absence of any effect, that its rule states. -/

namespace Sys2Proof

/-- 16 R486: bytes 0 and 1 of a command entry hold its code. -/
def entryCode (e : BitVec 512) : Nat := e.toNat % 65536

/-- An access lies within the 40-bit Atrium space and is not empty (15 R451). -/
def accessWf (addr n : Nat) : Bool := decide (1 ≤ n) && decide (addr + n ≤ 2 ^ 40)

/-- 01 R10: the tick buffers of a kind, and the stages of a strip's. -/
def lateWf (kind : LateKind) (entry : Fin 4096) (stage : Fin 3) : Bool :=
  match kind with
  | .inStrip | .outStrip => true
  | .column | .net => stage == 0
  | .core => decide (entry.val < 68) && stage == 0
  | .side => decide (entry.val < 160) && stage == 0
  | .link => decide (entry.val < 2) && stage == 0

/-- Whether the operands lie within the limits of the command's rule. -/
def Instr.wf : Instr → Bool
  | .recall _ e => entryCode e == 0x0101
  | .timeStep _ e => entryCode e == 0x0201
  | .scrub _ e => entryCode e == 0x0301
  | .repair _ e => entryCode e == 0x0302
  | .retireChannel _ e => entryCode e == 0x0401
  | .readmitChannel _ e => entryCode e == 0x0402
  | .conserve _ e => entryCode e == 0x0501
  | .rotate _ e => entryCode e == 0x0502
  | .setState _ e => entryCode e == 0x0601
  | .freeze _ e => entryCode e == 0x0701
  | .unfreeze _ e => entryCode e == 0x0702
  | .loadCatalogue _ e => entryCode e == 0x0801
  | .copy _ e => entryCode e == 0x0901
  | .abort _ e => entryCode e == 0x0A01
  | .br _ cc _ => decide (cc.val ≤ 9)
  | .brr _ cc _ => decide (cc.val ≤ 9)
  | .sha _ _ _ sh => sh != 0x80#8
  | .lmr _ _ len _ => decide (1 ≤ len.val)
  | .tickBufferLate kind _ entry stage => lateWf kind entry stage
  | .stripStageLate _ _ stage => decide (stage.val < 3)
  | .mergeEntryComplete port _ => decide (port.val < 142)
  | .atriumRead _ addr size _ => accessWf addr size
  | .atriumWrite _ addr bytes _ => accessWf addr bytes.length
  | .atelierWindowAccess _ addr size _ => accessWf addr (2 ^ size.val)
  | .setAliasWrite _ addr _ _ _ => decide (addr % 8 = 0)
  | .clrAliasWrite _ addr _ _ _ => decide (addr % 8 = 0)
  | .storeroomAmo _ _ dbl addr _ _ => decide (addr % (if dbl then 8 else 4) = 0)
  | .laneAlign m => decide (m.seen.length = 4)
  | .docentIrqSource src => decide (1 ≤ src.val)
  | .ledgerOccurrence _ _ det => decide (det.length ≤ 24)
  | .samplePreload cells preload => decide (cells < 2 ^ 4096) && decide (preload < 2 ^ 4096)
  | _ => true

end Sys2Proof
end

