-- ==== Sys2Proof/Tests/Slice0.lean ====
section
/-! SUPPORT. Tests: worked examples of the spec, ill-formed commands, and for each statement with hypotheses the states and
operands that meet them. -/

open Sys2Proof Sys2Proof.Machine

namespace Sys2Proof.Tests

set_option Elab.async false

/-- Registers set on the state after reset. -/
def regsSet (l : List (Nat × W32)) (s : State) : State := l.foldl (fun s e => wr s e.1 e.2) s
/-- A field of a register set. -/
def fldSet (k : Nat) (f : Fld) (v : Nat) (s : State) : State := fset s k f v
/-- Bytes in memory. -/
def memSet (a : Nat) (l : List Byte) (s : State) : State := { s with mem := memPutBytes s.mem a l }
/-- Domain `x` runs at 48 kHz and has processed tick 9. -/
def runs (x : Dom) (s : State) : State := { s with tim := { s.tim with gens := pdSet s.tim.gens x ⟨true, 1, false, 10, some 9, 0⟩ } }
/-- A command entry: the code and values at byte offsets. -/
def entry (code : Nat) (l : List (Nat × Nat)) : BitVec 512 := BitVec.ofNat 512 (l.foldl (fun a e => a + e.2 * 256 ^ e.1) code)
/-- Every ticket is outstanding. -/
def ticketsOut (s : State) : State := { s with ctl := { s.ctl with outst := (List.range 1024).map (fun n => ⟨n, 0, false, none⟩) } }
/-- One outstanding ticket without a record. -/
def ticketOut (n : Nat) (s : State) : State := { s with ctl := { s.ctl with outst := [⟨n, 0x0901, false, none⟩] } }
/-- Bytes of a value from a byte address of the flash on. -/
def flashPut (a n v : Nat) (m : SMap Byte) : SMap Byte := (List.range n).foldl (fun m i => smSet 0xFF m (a + i) (BitVec.ofNat 8 (v / 256 ^ i))) m
/-- An image in slot 1 with one section of this type, whose body is 5, 6, … at offset 0x5000. -/
def flashSect (type len crc dest entry : Nat) : SMap Byte :=
  let b := 0x0800_0000
  let t := b + 0x1000
  flashPut (b + 0x5000) len 0x0605 (flashPut (t + 24) 8 entry (flashPut (t + 16) 8 dest (flashPut (t + 12) 4 crc (flashPut (t + 8) 4 len
    (flashPut (t + 4) 4 0x5000 (flashPut (t + 2) 2 0 (flashPut t 2 type (flashPut (b + 20) 4 1 []))))))))
/-- A core that runs, about to issue the word `w` at address 5 of its program. -/
def coreAt (w : BitVec 64) : Core := 
  { coreZero with phase := .run, pc := 5, cyc := 7, pm := [(5, w)],
                  main := { bankZero with d := [(1, 0x7FFF_FFFF_FFFF_FFFF), (2, 1), (3, 2)], a := [(1, accLoad (2 ^ 98))], p := [(1, 9), (2, 16383)], m := [(1, 1)] } }
/-- Core 0 holds `k` and serves logical core 0 in domain A, which runs. -/
def atlOn (k : Core) (s : State) : State :=
  runs .A (fldSet (ATL_LCORE_STATUS 0) ATL_LCORE_STATUS_domain 1 (fldSet (ATL_CORE_STATUS 0) ATL_CORE_STATUS_clk_ok 1 { s with cores := [(0, k)] }))
/-- DRAM with one ready channel of 16 GiB, and a long-memory partition at its base. -/
def dramUp (s : State) : State :=
  fldSet (DRC_CH_STATUS 0) DRC_CH_STATUS_state 2 (fldSet DRC_STATUS DRC_STATUS_ready 1 (regsSet [(DRC_PART_CFG 0, 0x8000_0004), (DRC_PART_SIZE 0, 64),
    (DRC_PART_BASE_HI 0, 1), (ATL_LM_BASE_HI, 1), (ATL_LM_STRIDE, 1)]
    { s with drc := { s.drc with subs := [0, 1], geom := 0x12F, cfg := 1 } }))
/-- `AtWord`, decided. -/
def atWordB (c : Nat) (w : BitVec 64) (s : State) : Bool :=
  let k := coreOf s c
  decide (Ready s) && coreIssues s c && k.wait.isNone && k.delay.isNone && !k.loopDue && !k.landPend && !k.cmpPend && !cmpDue k &&
    (bankOf k).loops.isEmpty && (bankOf k).wb.isEmpty && smGet 0 k.pm k.pc == w && !isBad k 0 k.pc
/-- `Accepts`, decided. -/
def acceptsB (s : State) (code : Nat) (e : BitVec 512) (used : List (Nat × Nat)) : Bool :=
  decide (Ready s) && eByte e 0 2 == code && decide (s.ctl.outst.length < 1024) && s.ctl.waitq.isEmpty && catState s != 6 && (eReserved e used).isNone
/-- A side that carries domain A through the 24-bit words of a slot. -/
def sideA (master : Bool) : Side := { sideFresh (BitVec.ofNat 32 (2 ^ PRT_SIDE_CFG_enable.lo + 2 ^ PRT_SIDE_CFG_domain.lo + 2 ^ PRT_SIDE_CFG_slot.lo +
  b2n master * 2 ^ PRT_SIDE_CFG_master.lo)) 3 with fresh := false }
/-- Side `i` alone is enabled. -/
def sideOn (i : Nat) (d : Side) (s : State) : State := { s with prt := { s.prt with sides := [(i, some d)] } }
/-- A receive flow of one channel of domain A on its first leg, 24-bit, 6 samples a packet. -/
def rxA : RxFlow := ⟨BitVec.ofNat 32 (2 ^ 30 + 2 ^ 26 + 97 * 2 ^ 19 + 2 ^ 12 + 4095), BitVec.ofNat 32 (6 * 2 ^ 16 + 1000), 0, List.replicate 32 0, none, [], 0, none, none, none, false⟩
/-- Receive flow `f` alone runs. -/
def rxOn (f : Nat) (r : RxFlow) (s : State) : State := { s with net := { s.net with rx := [(f, some r)] } }
/-- Transmit flow `f` alone runs. -/
def txOn (f : Nat) (r : TxFlow) (s : State) : State := { s with net := { s.net with tx := [(f, some r)] } }
/-- A transmit flow of one channel of domain A on its first leg to port 0. -/
def txA (next : Nat) : TxFlow := ⟨BitVec.ofNat 32 (2 ^ 30 + 2 ^ 26 + 97 * 2 ^ 19 + 2 ^ 12), 6, 0, 0, List.replicate 32 0, next, false⟩
/-- An RTP packet of payload type 97 with this sequence number, timestamp and payload. -/
def rtpA (seq ts : Nat) (l : List Byte) : List Byte := [0x80, 97] ++ beBytes 2 seq ++ beBytes 4 ts ++ [0, 0, 0, 9] ++ l
/-- Link `l` in a state. -/
def lk (l st : Nat) (s : State) : State := fldSet (DAX_LINK_STATUS l) DAX_LINK_STATUS_state st s
/-- A bridge from domain A to domain B. -/
def brAB (async : Bool) : Bridge := { inDom := .A, outDom := .B, inD := false, slot := 0, async := async, inRate := 1, outRate := 1, s := 2, lat := 3, hist := [], first := none, stamps := [], u := none, r := 5, words := [], own := false, base := 2 ^ 48, err := 0, integ := 0, steady := false, calm := 0, blocks := 0, block := 0, gain := 0, fadeFrom := 0, fadeTo := 0, k := 64, out := 0 }
/-- Bridge `b` alone runs. -/
def brOn (b : Nat) (v : Bridge) (s : State) : State := { s with prt := { s.prt with bridges := [(b, some v)] } }
/-- A rotation that has just begun, and one that stands in a phase. -/
def rotOf (kind logical spare old : Nat) : Rotation := { kind := kind, logical := logical, spare := spare, old := old, fateOff := false, ticket := 4, goodA := 0, goodB := 0, goodC := 0, copied := 0, frames := 0, diff := false, switchAt := none }
def rotIn (r : Rotation) (phase : Nat) (s : State) : State :=
  setRotStatus { s with twn := { s.twn with rot := some r } } r.kind r.spare r.logical phase
/-- Domains A and B run. -/
def runsAB (s : State) : State := runs .B (runs .A s)

/-- Blocks as the lanes of a link carry them from position 0 on. -/
def onLanes (bs : List Block66) : List Block66 := (codeLanes scramble 0 (List.replicate 4 0) bs).1
/-- The blocks of one message, with these header bits above the type. -/
def lineMsgOf (hdr : BitVec 64) (body : List (BitVec 64)) (crc : BitVec 32) : List Block66 :=
  onLanes (ctrlBlock btMSG_START hdr.toNat :: (body.map dataBlock ++ [ctrlBlock btMSG_END (crc.toNat * 256)]))
/-- The blocks of one tick frame. -/
def lineFrameOf (hdr : BitVec 64) (words : List (BitVec 64)) (crc : BitVec 32) : List Block66 :=
  onLanes (ctrlBlock btFRAME_START hdr.toNat :: (words.map dataBlock ++ [ctrlBlock btFRAME_END (crc.toNat * 256)]))
/-- MARKER blocks on four lanes, that of lane 3 this many blocks after that of lane 0. -/
def marksAt (skew : Nat) : List MarkerSeen :=
  (List.range 4).map (fun i => ⟨if i = 3 then skew else 0, 77, ⟨2, (scramble (descramble 0 77).2 (markerBlock 5 i).body).1⟩⟩)
/-- The bit clocks of a frame of 24-bit words from the most significant bit of the left slot on, word select a bit ahead. -/
def i2sFrame (l r : Nat) : PortWave := .serial ((wsShape false 24).zip (msbBits 24 l ++ msbBits 24 r))
/-- A control core that runs, with these control and status registers. -/
def hartsOn (c : Nat) (csr : SMap (BitVec 64)) (s : State) : State :=
  setHart s c { pc := 0x4000_0040, user := false, x := [], csr := csr }

/-! ## Worked examples of the spec and of the standards it names -/

/-- 02, one node product: +0.5 through a gain of 2^18 is 0.25. -/
theorem test_node_product : (storeVal (prodG 0x0080000000000000 (2 ^ 18))).1 = 0x0040000000000000 := by decide
/-- 02, a sum that strays out of range: +30 +4 +3 −8 in units of 2^30, then right by 30, stores +29. -/
theorem test_excursion_returns :
    (let u : Int := 2 ^ 122
     let a := (accAdd (accAdd (accAdd (accLoad (30 * u)) (4 * u)).1 (3 * u)).1 (-8 * u)).1
     a.e8 = 0 ∧ (storeS64 (shaAcc a (-30)).1).1 = 0x1D00000000000000) := by decide
/-- 02, the same sum after its first addition: −30 held, one excursion. -/
theorem test_excursion_counted : (accAdd (accLoad (30 * 2 ^ 122)) (4 * 2 ^ 122)).1.e8 = 1 := by decide
/-- 02, leaving as 24 bits: ties go to even and the top value is clipped. -/
theorem test_leaving_24 : [0x0000000100000000#64, 0x0000000300000000#64, 0x00FFFFFF00000000#64, 0x0100000000000000#64, 0xFF00000000000000#64].map
    (fun w => toPcm 24 w 0) = [(0, false), (2, false), (8388607, true), (8388607, true), (-8388608, false)] := by decide
/-- 06, a wrap: B3 = 0x1000, L3 = 0x0180, P3 = 0x117E, M3 = +3 gives P3 = 0x1001. -/
theorem test_circular_wrap :
    pmVal { coreZero with b := [(3, 0x1000)], l := [(3, 0x180)], main := { bankZero with p := [(3, 0x117E)], m := [(3, 3)] } } 3 3 0x117E = 0x1001 := by
  decide
/-- 15, where accesses land: an alias, a reserved index and two unmapped offsets. -/
theorem test_where_accesses_land :
    [0xD05048, 0xE0305C, 0x000018, 0xD44000].map regDecode = [.reg (GAL_TILE_INT_EN 5), .reserved, .unmapped, .unmapped] := by decide +kernel
/-- 13, a bucket of depth 3 with three corrections: the next one overflows. -/
theorem test_bucket_overflow :
    (let s := fldSet (MEM_BKT_LEVEL 12) MEM_BKT_LEVEL_level 3 (fldSet (MEM_BKT_CFG 12) MEM_BKT_CFG_depth 3 State.reset)
     fget (bucketRaise s 12) (MEM_BKT_LEVEL 12) MEM_BKT_LEVEL_level = 3) := by decide +kernel
/-- 11, a grandmaster one millisecond away: −1,000,010 ns is refused. -/
theorem test_servo_refuses : rd (servoApply (regsSet [(TIM_SERVO_OFFSET, BitVec.ofInt 32 (-1000010))] State.reset)) TIM_STEP_REFUSED = 1 := by
  decide +kernel
/-- FIPS 180-4: SHA-256 of the empty message begins e3b0c442. -/
theorem test_sha256_empty : (sha256 []).take 4 = [0xE3, 0xB0, 0xC4, 0x42] := by decide +kernel

/-! ## Ill-formed commands: one for each check -/

theorem test_ill_formed_entries : [Instr.recall 0 0, .timeStep 0 0, .scrub 0 0, .repair 0 0, .retireChannel 0 0, .readmitChannel 0 0, .conserve 0 0,
    .rotate 0 0, .setState 0 0, .freeze 0 0, .unfreeze 0 0, .loadCatalogue 0 0, .copy 0 0, .abort 0 0].all (fun i => !i.wf) = true := by decide +kernel
theorem test_ill_formed_core : [Instr.br 0 10 0, .brr 0 15 0, .sha 0 0 0 0x80, .lmr 0 0 0 0].all (fun i => !i.wf) = true := by decide
theorem test_ill_formed_access : [Instr.atriumRead 8 0 0 [], .atriumWrite 8 0xFF_FFFF_FFFF [1, 2] [], .atelierWindowAccess 8 0xFF_FFFF_FFFF 3 none,
    .setAliasWrite 8 0x5000_0001 0 0 [], .clrAliasWrite 8 0x6000_0004 0 0 [], .storeroomAmo 0 .swap true 0x4000_0004 0 [],
    .mergeEntryComplete 142 []].all (fun i => !i.wf) = true := by decide
theorem test_ill_formed_others : [Instr.stripStageLate false 0 3, .laneAlign ⟨0, []⟩, .tickBufferLate .core .A 68 0, .tickBufferLate .link .A 0 1, .docentIrqSource 0,
    .ledgerOccurrence 0 0 (List.replicate 25 0), .samplePreload (2 ^ 4096) 0, .samplePreload 0 (2 ^ 4096)].all (fun i => !i.wf) = true := by
  decide +kernel
/-- Checks let well-formed commands through. -/
theorem test_well_formed : [Instr.recall 0 0x0101, .br 0 9 0, .sha 0 0 0 0x7F, .lmr 0 0 8 0, .stripStageLate true 5 2, .mergeEntryComplete 141 [],
    .atriumRead 8 0 1 [], .docentIrqSource 1].all (·.wf) = true := by decide +kernel

/-! ## Witnesses: for each statement with hypotheses, states and operands that meet them, clause by clause -/

/-- The check `atWordB` says what `AtWord` does. -/
theorem atWord_of_check {c : Nat} {w : BitVec 64} {s : State} (h : atWordB c w s = true) : AtWord c w s := by
  simp only [atWordB, Bool.and_eq_true, decide_eq_true_eq, Option.isNone_iff_eq_none, Bool.not_eq_true', List.isEmpty_iff, beq_iff_eq] at h
  obtain ⟨⟨⟨⟨⟨⟨⟨⟨⟨⟨⟨h1, h2⟩, h3⟩, h4⟩, h5⟩, h6⟩, h7⟩, h8⟩, h9⟩, h10⟩, h11⟩, h12⟩ := h
  exact ⟨h1, h2, h3, h4, h5, h6, h7, h8, h9, h10, h11, h12⟩
/-- The check `acceptsB` says what `Accepts` does. -/
theorem accepts_of_check {s : State} {code : Nat} {e : BitVec 512} {used : List (Nat × Nat)} (h : acceptsB s code e used = true) :
    Accepts s code e used := by
  simp only [acceptsB, Bool.and_eq_true, decide_eq_true_eq, beq_iff_eq, List.isEmpty_iff, bne_iff_ne, Option.isNone_iff_eq_none] at h
  obtain ⟨⟨⟨⟨⟨h1, h2⟩, h3⟩, h4⟩, h5⟩, h6⟩ := h
  exact ⟨h1, h2, h3, h4, h5, h6⟩
/-- A frame that a port ends before the span's end has room, however long its queue is. -/
theorem portRoom_of_idle {s : State} {p n span : Nat} (h : smGet 0 s.net.txFree p + lineTime s p (n + 24) ≤ s.tim.elapsed + span) :
    portRoom s p n span = true := by
  unfold portRoom
  exact decide_eq_true (Nat.le_trans h (Nat.le_add_right _ _))
/-- Core 0 stands before each of these words. -/
def standsBefore (l : List (BitVec 64)) : Bool := l.all (fun w => atWordB 0 w (atlOn (coreAt w) State.reset))

theorem wit_AluArithmeticCompareBitwise : standsBefore (([0x11, 0x12, 0x13, 0x14, 0x17, 0x18, 0x19, 0x1A, 0x1B].map (fun op => encA op 15 1 2 0 0)) ++
    [encA 0x10 15 1 0 0 0, encA 0x15 15 1 0 0 0, encA 0x16 15 1 0 0 0, encA 0x20 0 1 2 0 0]) = true := by decide +kernel
theorem wit_AluShiftImmediate : standsBefore ([encA 0x1C 15 1 0 0 63, encA 0x1D 15 1 0 0 63, encA 0x1E 0 1 0 0 63, encA 0x1F 0 1 0 0 0,
    encI 0x28 15 0 0 0xFFFF_FFFF, encI 0x29 15 0 0 0x8000_0000, encI 0x2A 15 1 0 0xFFFF_FFFF]) = true := by decide +kernel
theorem wit_Moves : standsBefore [encA 0x30 7 1 0 0 0, encA 0x31 15 7 0 0 0, encA 0x32 7 1 0 3 0, encA 0x33 15 7 0 1 0, encA 0x34 15 0 0 0 0,
    encA 0x35 0 0 0 0 28, encI 0x36 7 0 3 0xFFFF] = true := by decide +kernel
theorem wit_LoadsStores : standsBefore [encM 0x40 15 0 0 false 1 1 false 0 0, encM 0x41 7 0 1 true 1 1 false 0 0, encM 0x42 0 15 2 false 1 1 false 0 0,
    encM 0x43 0 7 0 false 7 7 false 0 0, encM 0x44 15 0 2 false 1 1 false 0 0] = true ∧
    (memRd (coreAt 0) 0 9).2 = [] ∧ (memRd (coreAt 0) 1 9).2 = [] ∧ (memRd (coreAt 0) 2 9).2 = [] := by decide +kernel
theorem wit_MultiplyAccumulate : standsBefore ([0x50, 0x51, 0x52].map (fun op => encA op 3 15 7 0 0) ++
    [encA 0x53 3 15 15 0 0, encA 0x54 0 0 0 0 0]) = true := by decide +kernel
theorem wit_TapsAndYProducts : standsBefore ([0x55, 0x56, 0x57].map (fun op => encM op 3 1 0 false 0 0 false 1 1) ++
    [encM 0x58 3 15 0 false 1 1 true 1 1, encM 0x59 0 1 0 false 1 1 false 2 1, encM 0x5A 2 14 0 true 1 1 false 2 1]) = true ∧
    (memRd (coreAt 0) 1 (coreP (coreAt 0) 2)).2 = [] ∧ (memRd (coreAt 0) 0 (coreP (coreAt 0) 2)).2 = [] := by decide +kernel
theorem wit_AccumulatorOps : standsBefore [encA 0x60 3 0 0 0 0, encA 0x61 3 15 0 0 0, encA 0x62 3 1 0 0 0, encA 0x63 3 1 0 0 0, encA 0x64 3 1 2 0 0,
    encA 0x65 3 1 2 0 0, encA 0x66 3 1 0 0 0x81, encA 0x67 15 1 0 0 0] = true := by decide +kernel
theorem wit_FlowControlAndFrameEnd : standsBefore [encA 0x00 0 0 0 0 0, encB 0x04 9 0 0 16383, encB 0x05 0 7 0 0, encB 0x06 9 7 0 0, encB 0x07 0 0 65535 6,
    encB 0x07 0 0 0 16383, encB 0x08 0 3 0 6, encB 0x03 0 0 16383 0, encA 0x02 0 0 0 0 0, encA 0x01 0 0 0 0 0] = true := by decide +kernel
theorem wit_StepRunsFront : step { State.reset with pending := [.fuseRead] } = exec .fuseRead State.reset := rfl
theorem wit_AsleepEngineIsInert : [{ State.reset with pin := { State.reset.pin with resetLow := true } },
    { State.reset with cat := { State.reset.cat with romBad := true } },
    { State.reset with pwr := { State.reset.pwr with state := 2 } }].all (fun s => !awake s) = true := by decide
theorem wit_MemoryStaysCanonical : State.reset.memOk := by unfold State.memOk; decide
theorem wit_FusesOnlyGrow : (0 : BitVec 256) &&& State.reset.perm.fuses = 0 := by decide
theorem wit_FramesOfControl : Ready State.reset ∧ ∀ mb ∈ [0, 15], regOn State.reset (RR_REQ mb) = true := by decide +kernel
theorem wit_FlowControlAndFrameEnd_1 : [
    (let s : State := atlOn (coreAt (encA 0x01 0 0 0 0 0)) (fldSet (ATL_CORE_FEND 0) ATL_CORE_FEND_high_water 3 State.reset); decide (atWordB 0 (encA 0x01 0 0 0 0 0) s = true ∧ (coreOf s 0).cyc < 65536)),
    (let s : State := atlOn { coreAt (encA 0x01 0 0 0 0 0) with em := [(3, 4)], shadow := { bankZero with wb := [⟨2, .d 2 7⟩] } } (fldSet (ATL_CORE_STATUS 0) ATL_CORE_STATUS_late 1 (fldSet (ATL_CORE_FEND 0) ATL_CORE_FEND_high_water 300 State.reset)); decide (atWordB 0 (encA 0x01 0 0 0 0 0) s = true ∧ (coreOf s 0).cyc < 65536))].all id = true := by decide +kernel
theorem wit_LongMemoryRequests : [
    (let s : State := fldSet (ATL_LCORE_STATUS 0) ATL_LCORE_STATUS_lm_size 1 (atlOn { coreAt (encL 0x71 3 1 0 0x1_FFFF) with lmIssued := 63, lmPos := 4 } (dramUp State.reset)); decide (atWordB 0 (encL 0x71 3 1 0 0x1_FFFF) s = true ∧ (coreOf s 0).lmIssued < 64 ∧ (coreOf s 0).cyc ≤ coreCutoff s 0 ∧ lmSize s 0 ≠ 0 ∧ coreActive s 0 = true ∧ dmaRefuse s 13 (lmAddr s 0 0x20001) 8 = none ∧ (coreServes s 0).getD 0 = 0)),
    (let s : State := fldSet (ATL_LCORE_STATUS 0) ATL_LCORE_STATUS_lm_size 1 (atlOn { coreAt (encL 0x71 3 1 0 0x1_FFFF) with lmIssued := 64, lmPos := 4 } (dramUp State.reset)); decide (atWordB 0 (encL 0x71 3 1 0 0x1_FFFF) s = true ∧ ¬(coreOf s 0).lmIssued < 64)),
    (let s : State := fldSet (ATL_LCORE_STATUS 0) ATL_LCORE_STATUS_lm_size 1 (atlOn { coreAt (encL 0x70 3 0 8 0) with lmPos := 248 } (dramUp (memSet 0x1_0000_0010 [1, 2] State.reset))); decide (atWordB 0 (encL 0x70 3 0 8 0) s = true ∧ (coreOf s 0).lmIssued < 64 ∧ (coreOf s 0).cyc ≤ coreCutoff s 0 ∧ lmSize s 0 ≠ 0 ∧ (coreOf s 0).lmPos + 8 ≤ 256 ∧ coreActive s 0 = true ∧ (List.range 8).all (fun i => (dmaRefuse s 13 (lmAddr s 0 (2 + i)) 8).isNone))),
    (let s : State := fldSet (ATL_LCORE_STATUS 0) ATL_LCORE_STATUS_lm_size 1 (atlOn { coreAt (encL 0x70 3 0 8 0) with lmPos := 249 } (dramUp State.reset)); decide (atWordB 0 (encL 0x70 3 0 8 0) s = true ∧ ¬((coreOf s 0).lmPos + 8 ≤ 256)))].all id = true := by decide +kernel
theorem wit_CoreEvents_1 : [
    (let s : State := atlOn (coreAt 0xFF00_0000_0000_0000) State.reset; decide (atWordB 0 0xFF00_0000_0000_0000 s = true ∧ atlLegal 0xFF00_0000_0000_0000 5 = false)),
    (let s : State := atlOn { coreAt 0 with loopDue := true, main := { bankZero with loops := [⟨3, 4, 1⟩] } } State.reset; decide (Ready s ∧ coreIssues s 0 = true ∧ (coreOf s 0).loopDue = true ∧ (bankOf (coreOf s 0)).loops = [⟨3, 4, 1⟩])),
    (let s : State := atlOn { coreAt 0 with wait := some (9, false) } State.reset; decide (Ready s ∧ coreIssues s 0 = true ∧ cmpDue (coreOf s 0) = false ∧ (coreOf s 0).loopDue = false ∧ (coreOf s 0).wait = some (9, false) ∧ (coreOf s 0).landPend = false ∧ (coreOf s 0).cmpPend = false)),
    (let s : State := atlOn { coreAt 0 with wait := some (9, false), landPend := true, landVec := 16383 } State.reset; decide (Ready s ∧ coreIssues s 0 = true ∧ cmpDue (coreOf s 0) = false ∧ (coreOf s 0).loopDue = false ∧ (coreOf s 0).wait = some (9, false) ∧ coreEligible (coreOf s 0) = true ∧ (coreOf s 0).landPend = true ∧ (coreOf s 0).main.wb = [])),
    (let s : State := atlOn { coreAt 0 with cmpEn := true, cmpCycle := 7 } State.reset; decide (Ready s ∧ coreIssues s 0 = true ∧ cmpDue (coreOf s 0) = true ∧ (coreOf s 0).wait = none)),
    (let s : State := atlOn { coreAt 0 with landPend := true, cmpPend := true, landVec := 16383, cmpVec := 3 } State.reset; decide (Ready s ∧ coreIssues s 0 = true ∧ coreEligible (coreOf s 0) = true ∧ (coreOf s 0).landPend = true ∧ (coreOf s 0).main.wb = [] ∧ (coreOf s 0).loopDue = false ∧ (coreOf s 0).wait = none))].all id = true := by decide +kernel
theorem wit_CoreEvents_2 : [
    (let s : State := atlOn (coreAt 0) State.reset; decide (Ready s ∧ (coreRunDom s 0).isSome = true ∧ (coreOf s 0).phase = .run)),
    (let s : State := atlOn { coreAt 0 with frame := 9, lmReads := [⟨255, 1, [0x1_0000_0008], [77]⟩] } State.reset; decide (Ready s ∧ (coreOf s 0).lmReads = [⟨255, 1, [0x1_0000_0008], [77]⟩] ∧ lostWords s [0x1_0000_0008 / 8] = [])),
    (let s : State := atlOn { coreAt 0 with lmReads := [⟨0, 8, [], []⟩, ⟨8, 1, [], []⟩] } State.reset; decide (Ready s ∧ (coreOf s 0).lmReads = [⟨0, 8, [], []⟩, ⟨8, 1, [], []⟩])),
    (let s : State := atlOn { coreAt 0 with phase := .ended, pq := [(16383, 5), (0, 6), (16383, 7)] } (fldSet (ATL_CORE_PQ 0) ATL_CORE_PQ_level 3 State.reset); decide (Ready s ∧ (coreOf s 0).phase = .ended ∧ (coreOf s 0).pq = [(16383, 5), (0, 6), (16383, 7)]))].all id = true := by decide +kernel
theorem wit_CoreWindowsAndMaps : [
    (let s : State := { State.reset with atlFill := [] }; decide (Ready s ∧ target 0x8435_1FF8 8 = .window 67 0x51FF8 ∧ (coreRunDom s 67).isNone = true ∧ windowAt s 67 0x51FF8 true = .word 3 767 ∧ s.ecc.merge.find? (fun e => e.port == portWindow 67 && e.word == (0x8000_0000 + 0x10_0000 * 67 + 0x51FF8) / 8) = none)),
    (let s : State := { State.reset with atlFill := [], cores := [(67, { coreZero with ym := [(8191, 5)] })] }; decide (Ready s ∧ target 0x8434_FFF8 8 = .window 67 0x4FFF8 ∧ (coreRunDom s 67).isNone = true ∧ windowAt s 67 0x4FFF8 false = .word 2 8191 ∧ isBad (coreOf s 67) 2 8191 = false ∧ s.ecc.merge.find? (fun e => e.port == portWindow 67 && e.word == (0x8000_0000 + 0x10_0000 * 67 + 0x4FFF8) / 8) = none)),
    (let s : State := { State.reset with atlFill := [3, 67], cores := [(67, { coreZero with ym := [(8191, 5)], pm := [(0, 3)], pc := 4 })] }; decide (Ready s ∧ s.atlFill.contains 67 = true ∧ s.ecc.stalled = [])),
    (let s : State := regsSet [(ATL_XMAP 63 63, 0x8000_0007)] State.reset; decide (Ready s ∧ regOn s (ATL_XMAP 63 63) = true)),
    (let s : State := State.reset; decide (Ready s ∧ regOn s (ATL_XMAP 63 63) = true)),
    (let s : State := regsSet [(ATL_XMAP 63 63, 0x8000_1FFF)] { State.reset with xmap := [(5, 7), (64 * 63 + 2, 8)] }; decide (Ready s))].all id = true := by decide +kernel
theorem wit_RotationPhases_1 : [
    (let s : State := rotIn (rotOf 1 3 67 5) 1 State.reset; let r : Rotation := rotOf 1 3 67 5; decide (Ready s ∧ s.twn.rot = some r ∧ 1 ≤ r.kind ∧ r.kind ≤ 3 ∧ r.spare < unitCount r.kind ∧ r.old < unitCount r.kind ∧ r.spare ≠ r.old ∧ r.logical < logicalCount r.kind ∧ r.kind ≠ 2 ∧ rotPhase s = 1 ∧ s.gal.badNodes = [] ∧ s.str.badState = [])),
    (let s : State := rotIn { rotOf 2 0 67 0 with copied := 16384 } 1 (atlOn { coreAt 9 with phase := .ended, lastFend := 33069, xm := [(3, 4)] } State.reset); let r : Rotation := { rotOf 2 0 67 0 with copied := 16384 }; decide (Ready s ∧ s.twn.rot = some r ∧ r.kind = 2 ∧ rotPhase s = 1 ∧ paused s 6 = false ∧ 16384 ≤ r.copied ∧ (coreOf s r.old).phase = .ended ∧ (coreOf s r.old).lastFend + 200 ≤ coreBudget s r.old)),
    (let s : State := rotIn { rotOf 2 0 67 0 with frames := 4096 } 1 State.reset; let r : Rotation := { rotOf 2 0 67 0 with frames := 4096 }; decide (Ready s ∧ s.twn.rot = some r ∧ r.kind = 2 ∧ rotPhase s = 1 ∧ 4096 ≤ r.frames)),
    (let s : State := rotIn { rotOf 3 31 33 0 with goodA := 1 } 2 { State.reset with scn := { State.reset.scn with sDom := [(63, some .A)] } }; let r : Rotation := { rotOf 3 31 33 0 with goodA := 1 }; decide (Ready s ∧ s.twn.rot = some r ∧ rotPhase s = 2 ∧ paused s 6 = false ∧ unitServes s r.kind r.logical .A = true ∧ r.spare < unitCount r.kind ∧ r.old < unitCount r.kind)),
    (let s : State := rotIn { rotOf 3 31 33 0 with goodA := 1 } 2 { State.reset with scn := { State.reset.scn with sDom := [(63, some .A)] } }; let r : Rotation := { rotOf 3 31 33 0 with goodA := 1 }; decide (Ready s ∧ s.twn.rot = some r ∧ rotPhase s = 2 ∧ paused s 6 = false ∧ unitServes s r.kind r.logical .A = true ∧ r.diff = false ∧ rotReady s { r with goodA := 2 } = true)),
    (let s : State := rotIn (rotOf 3 31 33 0) 2 { State.reset with scn := { State.reset.scn with sDom := [(63, some .A)] } }; let r : Rotation := rotOf 3 31 33 0; decide (Ready s ∧ s.twn.rot = some r ∧ rotPhase s = 2 ∧ paused s 6 = false ∧ unitServes s r.kind r.logical .A = true ∧ r.diff = false ∧ rotReady s { r with goodA := 1 } = false))].all id = true := by decide +kernel
theorem wit_RotationPhases_2 : [
    (let s : State := fldSet (GAL_TILE_STATUS 67) GAL_TILE_STATUS_clk_ok 1 (rotIn (rotOf 1 63 67 0) 3 State.reset); let r : Rotation := rotOf 1 63 67 0; decide (Ready s ∧ s.twn.rot = some r ∧ rotPhase s = 3 ∧ clkOk s r.kind r.spare = true ∧ switchDue s r = true)),
    (let s : State := rotIn { rotOf 1 63 67 0 with fateOff := true } 4 State.reset; let r : Rotation := { rotOf 1 63 67 0 with fateOff := true }; decide (Ready s ∧ s.twn.rot = some r ∧ rotPhase s = 4)),
    (let s : State := rotIn (rotOf 2 63 67 0) 4 State.reset; let r : Rotation := rotOf 2 63 67 0; decide (Ready s ∧ s.twn.rot = some r ∧ rotPhase s = 4))].all id = true := by decide +kernel
theorem wit_TickEvents : [
    (let s : State := { runs .A State.reset with tim := { (runs .A State.reset).tim with freiz := 3 } }; decide (Ready s ∧ running s .A = true ∧ (genOf s .A).last = some 9 ∧ s.tim.stepWait = none)),
    (let s : State := { runs .B State.reset with tim := { (runs .B State.reset).tim with freiz := 10 ^ 40 } }; decide (Ready s ∧ running s .B = true ∧ (genOf s .B).last = some 9 ∧ s.tim.stepWait = none)),
    (let s : State := { runs .C State.reset with tim := { (runs .C State.reset).tim with freiz := 3, elapsed := 5, gens := { (runs .C State.reset).tim.gens with c := ⟨true, 1, true, 10, some 9, 7 * nsU⟩ } } }; decide (Ready s ∧ running s .C = true ∧ (genOf s .C).last = some 9 ∧ s.tim.stepWait = none ∧ (genOf s .C).indep = true)),
    (let s : State := runs .A State.reset; decide (Ready s ∧ running s .B = false))].all id = true := by decide +kernel
theorem wit_ColumnJobs : [
    (let s : State := { State.reset with gal := { State.reset.gal with jobs := [⟨65, 7, some .A, false, 3, 0⟩, ⟨66, 7, some .A, false, 3, 0⟩], dval := [(65, 3), (66, 4)] } }; decide (Ready s ∧ s.gal.jobs.find? (fun q => q.d == 65) = some ⟨65, 7, some .A, false, 3, 0⟩ ∧ s.gal.jobs.find? (fun q => q.d == 65 && q.dom == some .A) = some ⟨65, 7, some .A, false, 3, 0⟩)),
    (let s : State := { runs .A State.reset with scn := { State.reset.scn with dDom := [(4095, some .A)] }, str := { State.reset.str with run := [(8191, { stripFresh with lateStages := [1] })] } }; decide (Ready s ∧ stripDom s 8191 = some .A)),
    (let s : State := atlOn (coreAt 0) State.reset; decide (Ready s ∧ coreRunDom s 0 = some .A ∧ (coreOf s 0).phase = .run)),
    (let s : State := fldSet (NET_MAP 4095) NET_MAP_channel 4095 { rxOn 1023 rxA (runs .A State.reset) with net := { (rxOn 1023 rxA (runs .A State.reset)).net with chanVal := [(4095, 9)] } }; decide (Ready s ∧ netChanDom s 4095 = some .A)),
    (let s : State := fldSet (GAL_TILE_STATUS 63) GAL_TILE_STATUS_clk_ok 1 { runs .A State.reset with scn := { State.reset.scn with sDom := [(4095, some .A)] }, gal := { State.reset.gal with jobs := [⟨4095, 7, some .A, false, -3, 4095⟩], srcX := [(4095, 0x7FFF_FFFF_FFFF_FFFF)], nodes := [(nodeKey 63 4095 4095, 0x7FFFFF_7FFFFF_01FF)], dval := [(5, 5)] } }; let j : ColJob := ⟨4095, 7, some .A, false, -3, 4095⟩; decide (Ready s ∧ jobFor s 4095 = some j ∧ tileOf s 4095 = some 63 ∧ clkOk s 1 63 = true ∧ ndState (node s (nodeKey 63 j.d 4095)) = nSTEADY ∧ s.gal.badNodes.contains (nodeKey 63 j.d 4095) = false)),
    (let s : State := fldSet (GAL_TILE_STATUS 0) GAL_TILE_STATUS_clk_ok 1 { runs .A State.reset with gal := { State.reset.gal with jobs := [⟨5, 7, some .A, false, 2 ^ 150, 4095⟩] } }; let j : ColJob := ⟨5, 7, some .A, false, 2 ^ 150, 4095⟩; decide (Ready s ∧ jobFor s 5 = some j ∧ tileOf s 5 = some 0 ∧ clkOk s 1 0 = true ∧ ndState (node s (nodeKey 0 j.d 4095)) = nSTEADY))].all id = true := by decide +kernel
theorem wit_NodeTransitions : [
    (let s : State := fldSet (GAL_TILE_STATUS 0) GAL_TILE_STATUS_clk_ok 1 { runs .A State.reset with scn := { State.reset.scn with sDom := [(9, some .A)] }, gal := { State.reset.gal with jobs := [⟨5, 7, some .A, false, 2, 9⟩], srcZc := [(9, false)], genTab := [(16 * domNo .A + 3, ⟨1, 7, 2, 64⟩)], nodes := [(nodeKey 0 5 9, ndPut (ndSetState 0x1234_5678_9ABC_0000 nARMED 0x1FF) 9 4 3)] } }; let j : ColJob := ⟨5, 7, some .A, false, 2, 9⟩; let k := nodeKey 0 5 9; let e := genEntry s .A (ndGen (node s k)); decide (Ready s ∧ jobFor s 5 = some j ∧ tileOf s 5 = some 0 ∧ clkOk s 1 0 = true ∧ deferAt s 0 k = none ∧ ndState (node s k) = nARMED ∧ domS s 9 = some .A ∧ smGet true s.gal.srcZc 9 = false ∧ e.deadline ≤ j.n ∧ (slotAlloc s .A 0 7 true).isSome ∧ 2 ≤ e.fallbackLen ∧ s.gal.badNodes = [])),
    (let s : State := fldSet (GAL_TILE_STATUS 0) GAL_TILE_STATUS_clk_ok 1 { runs .A State.reset with scn := { State.reset.scn with sDom := [(9, some .A)] }, gal := { State.reset.gal with jobs := [⟨5, 7, some .A, false, 2, 9⟩], srcZc := [(9, false)], genTab := [(16 * domNo .A + 3, ⟨1, 7, 2, 64⟩)], slots := (List.range 512).map (fun i => (i, ⟨some 3, 500, 1, 0, none, 0⟩)), nodes := [(nodeKey 0 5 9, ndPut (ndSetState 0x1234_5678_9ABC_0000 nARMED 0x1FF) 9 4 3)] } }; let j : ColJob := ⟨5, 7, some .A, false, 2, 9⟩; let k := nodeKey 0 5 9; decide (Ready s ∧ jobFor s 5 = some j ∧ tileOf s 5 = some 0 ∧ deferAt s 0 k = none ∧ ndState (node s k) = nARMED ∧ (slotAlloc s .A 0 7 true).isNone)),
    (let s : State := fldSet (GAL_TILE_STATUS 0) GAL_TILE_STATUS_clk_ok 1 { runs .A State.reset with scn := { State.reset.scn with sDom := [(9, some .A)] }, gal := { State.reset.gal with jobs := [⟨5, 7, some .A, false, 2, 9⟩], slots := [(511, ⟨some 3, 5, 2, 0, none, 0⟩)], nodes := [(nodeKey 0 5 9, ndSetState 0x1234_5678_9ABC_8000 nRAMPING 511)] } }; let k := nodeKey 0 5 9; decide (Ready s ∧ jobFor s 5 = some ⟨5, 7, some .A, false, 2, 9⟩ ∧ tileOf s 5 = some 0 ∧ clkOk s 1 0 = true ∧ deferAt s 0 k = none ∧ ndState (node s k) = nRAMPING ∧ (slotOf s 0 (ndSlot (node s k))).start = some 3 ∧ 3 + (slotOf s 0 (ndSlot (node s k))).len ≤ 8)),
    (let s : State := fldSet (GAL_TILE_STATUS 0) GAL_TILE_STATUS_clk_ok 1 { runs .A State.reset with scn := { State.reset.scn with sDom := [(9, some .A)] }, gal := { State.reset.gal with jobs := [⟨5, 7, some .A, false, 2, 9⟩], slots := [(0, ⟨some 3, 5, 1, 0, none, 0⟩)], nodes := [(nodeKey 0 5 9, ndSetState 0x1234_5678_9ABC_8000 nRAMPING 0)] } }; let k := nodeKey 0 5 9; decide (Ready s ∧ jobFor s 5 = some ⟨5, 7, some .A, false, 2, 9⟩ ∧ ndState (node s k) = nRAMPING ∧ (slotOf s 0 (ndSlot (node s k))).start = some 3))].all id = true := by decide +kernel
theorem wit_StagingPort : [
    (let s : State := regsSet [(GAL_STG_NODE, BitVec.ofNat 32 (4095 * 2 ^ GAL_STG_NODE_d_slot.lo + 4095 * 2 ^ GAL_STG_NODE_s_slot.lo)), (GAL_STG_GAIN, BitVec.ofNat 32 (0x7FFFFF * 2 ^ GAL_STG_GAIN_gain.lo + 9 * 2 ^ GAL_STG_GAIN_gen.lo))] (fldSet (GAL_TILE_STATUS 63) GAL_TILE_STATUS_role 2 State.reset); decide (Ready s ∧ regOn s GAL_STG_CMD = true ∧ wbit 0xFFFF_FFFF GAL_STG_CMD_stage = true ∧ fbit s GAL_STG_CMD GAL_STG_CMD_busy = false ∧ (stgWriteRegs s).linked = false ∧ (tileOf s (stgWriteRegs s).d).isNone)),
    (let s : State := regsSet [(GAL_STG_NODE, BitVec.ofNat 32 (4095 * 2 ^ GAL_STG_NODE_d_slot.lo + 4095 * 2 ^ GAL_STG_NODE_s_slot.lo)), (GAL_STG_GAIN, BitVec.ofNat 32 (0x7FFFFF * 2 ^ GAL_STG_GAIN_gain.lo + 9 * 2 ^ GAL_STG_GAIN_gen.lo))] State.reset; decide (Ready s ∧ (stgWriteRegs s).d = 4095 ∧ (stgWriteRegs s).gain = 0x7FFFFF ∧ (stgWriteRegs s).gen = 9 ∧ tileOf s 4095 = some 63 ∧ domD s 4095 = none)),
    (let s : State := regsSet [(GAL_STG_NODE, BitVec.ofNat 32 (4095 * 2 ^ GAL_STG_NODE_d_slot.lo + 4095 * 2 ^ GAL_STG_NODE_s_slot.lo)), (GAL_STG_GAIN, BitVec.ofNat 32 (0x7FFFFF * 2 ^ GAL_STG_GAIN_gain.lo + 9 * 2 ^ GAL_STG_GAIN_gen.lo))] { State.reset with scn := { State.reset.scn with dDom := [(4095, some .C)] } }; decide (Ready s ∧ domD s 4095 = some .C ∧ tagCommitted s .C 9 = true)),
    (let s : State := regsSet [(GAL_STG_NODE, BitVec.ofNat 32 (4095 * 2 ^ GAL_STG_NODE_d_slot.lo + 4095 * 2 ^ GAL_STG_NODE_s_slot.lo)), (GAL_STG_GAIN, BitVec.ofNat 32 (0x7FFFFF * 2 ^ GAL_STG_GAIN_gain.lo + 7 * 2 ^ GAL_STG_GAIN_gen.lo))] { State.reset with scn := { State.reset.scn with dDom := [(4095, some .C)] } }; let k := nodeKey 63 4095 4095; decide (Ready s ∧ domD s 4095 = some .C ∧ (stgWriteRegs s).gen = 7 ∧ tagCommitted s .C 7 = false ∧ ndState (node s k) < nARMED)),
    (let s : State := regsSet [(GAL_STG_NODE, BitVec.ofNat 32 (4095 * 2 ^ GAL_STG_NODE_d_slot.lo + 7 * 2 ^ GAL_STG_NODE_s_slot.lo)), (GAL_STG_GAIN, BitVec.ofNat 32 (7 * 2 ^ GAL_STG_GAIN_gen.lo))] { State.reset with scn := { State.reset.scn with dDom := [(4095, some .C)] }, gal := { State.reset.gal with defer := (List.range 64).map (fun i => ⟨63, i, 0, 3, false⟩) } }; decide (Ready s ∧ tileOf s 4095 = some 63 ∧ 64 ≤ defersOf s 63 ∧ ndState (node s (nodeKey 63 4095 7)) < nARMED)),
    (let s : State := fldSet GAL_STG_CMD GAL_STG_CMD_busy 1 { State.reset with scn := { State.reset.scn with dDom := [(4095, some .C)] }, gal := { State.reset.gal with stgWait := some ⟨4095, 0, 5, 7, false, 0, 0⟩, nodes := [(nodeKey 63 4095 0, ndSetState 0 nARMED 0x1FF)], defer := (List.range 63).map (fun i => ⟨63, i, 0, 3, false⟩) } }; decide (Ready s ∧ tileOf s 4095 = some 63 ∧ tagCommitted s .C 7 = false ∧ nARMED ≤ ndState (node s (nodeKey 63 4095 0)) ∧ deferAt s 63 (nodeKey 63 4095 0) = none ∧ (s.gal.defer.filter (fun e => e.tile == 63)).length < 64))].all id = true := by decide +kernel
theorem wit_TagsAndRecords : [
    (let s : State := State.reset; decide (Ready s ∧ regOn s SCN_GEN_CLAIM = true ∧ claimTag s .C = some 1)),
    (let s : State := fldSet (SCN_GEN 2) SCN_GEN_claimed 0xFE (fldSet (SCN_GEN 2) SCN_GEN_last_claimed 7 State.reset); decide (Ready s ∧ regOn s SCN_GEN_CLAIM = true ∧ claimTag s .C = none)),
    (let s : State := regsSet [(SCN_REC_W0_HI, 0x9000_0000)] { State.reset with scn := { State.reset.scn with recWait := none } }; decide (Ready s ∧ regOn s SCN_REC_CMD = true ∧ wbit 0xFFFF_FFFF SCN_REC_CMD_stage = true ∧ fbit s SCN_REC_CMD SCN_REC_CMD_busy = false ∧ rKind (BitVec.ofNat 64 (get64 s SCN_REC_W0_LO SCN_REC_W0_HI)) = 9)),
    (let s : State := fldSet (SCN_GEN 0) SCN_GEN_claimed 2 (regsSet [(SCN_REC_W0_HI, 0x3000_0000), (SCN_REC_W0_LO, 0xFFF), (SCN_REC_W1_HI, 0), (SCN_REC_W1_LO, 0)] { runs .A State.reset with scn := { State.reset.scn with sDom := [(4095, some .A)], recs := [⟨0x3000_0000_0000_0FFF, 5, 3, .A⟩] } }); let w0 := BitVec.ofNat 64 (get64 s SCN_REC_W0_LO SCN_REC_W0_HI); let w1 := BitVec.ofNat 64 (get64 s SCN_REC_W1_LO SCN_REC_W1_HI); let w : W32 := BitVec.ofNat 32 (2 ^ SCN_REC_CMD_stage.lo + 2 ^ SCN_REC_CMD_gen.lo); decide (Ready s ∧ rKind w0 = 3 ∧ recRange s w0 w1 = true ∧ domOn s 10 = true ∧ recDomains s w0 w1 = true ∧ domS s (rSlot w0) = some .A ∧ mayUse s .software .A 1 = true ∧ wget w SCN_REC_CMD_gen = 1)),
    (let s : State := regsSet [(SCN_REC_W0_HI, 0x3000_0000), (SCN_REC_W0_LO, 0xFFF), (SCN_REC_W1_HI, 2), (SCN_REC_W1_LO, 7)] State.reset; let w0 := BitVec.ofNat 64 (get64 s SCN_REC_W0_LO SCN_REC_W0_HI); let w1 := BitVec.ofNat 64 (get64 s SCN_REC_W1_LO SCN_REC_W1_HI); decide (Ready s ∧ rKind w0 = 3 ∧ recRange s w0 w1 = true ∧ domOn s 10 = true ∧ recDomains s w0 w1 = true ∧ domS s (rSlot w0) = none)),
    (let s : State := fldSet (SCN_GEN 0) SCN_GEN_claimed 2 { runs .A State.reset with scn := { State.reset.scn with dDom := [(5, some .A)], patch := [(9, { patchReset with state := .fading, recDom := some .A })], recWait := some (0x4000_0000_0000_0009, 5, 1) } }; let v0 : BitVec 64 := 0x4000_0000_0000_0009; let v1 : BitVec 64 := 5; decide (Ready s ∧ rKind v0 = 4 ∧ recRange s v0 v1 = true ∧ recDomain s v0 v1 = some .A ∧ mayUse s .software .A 1 = true ∧ recTarget s v0 v1 = true ∧ recDomains s v0 v1 = true ∧ (patchOf s 9).state = .fading ∧ s.scn.patchDefer.length < 256))].all id = true := by decide +kernel
theorem wit_CommitsAndCrossfades_1 : [
    (let s : State := fldSet (SCN_GEN 2) SCN_GEN_claimed 0x8000 (runs .C State.reset); let e := entry 0x0102 [(16, 15), (17, 3), (19, 1), (24, 0xFFFF_FFFF_FFFF_FFFF)]; let r : CmtReq := ⟨some .C, eByte e 16 1, eByte e 18 1, eByte e 19 1 = 1, eByte e 24 8, eByte e 32 4⟩; decide (acceptsB s 0x0102 e [(16, 4), (24, 12)] = true ∧ domOf (eByte e 17 1) = some .C ∧ cmtRefusal s r = none ∧ eByte e 16 1 < 16 ∧ eByte e 18 1 ≤ 2 ∧ eByte e 19 1 ≤ 1)),
    (let s : State := fldSet (SCN_GEN 2) SCN_GEN_claimed 0x8000 (runs .C State.reset); let e := entry 0x0102 [(16, 15), (17, 3), (18, 1), (24, 0xFFFF_FFFF_FFFF_FFFF)]; decide (acceptsB s 0x0102 e [(16, 4), (24, 12)] = true ∧ cmtRefusal s ⟨some .C, 15, 1, false, eByte e 24 8, 0⟩ = none)),
    (let s : State := fldSet (SCN_GEN 2) SCN_GEN_claimed 0x8000 (runs .C State.reset); let e := entry 0x0102 [(16, 15), (17, 3), (18, 2), (24, 3), (32, 999999999)]; decide (acceptsB s 0x0102 e [(16, 4), (24, 12)] = true ∧ cmtRefusal s ⟨some .C, 15, 2, false, 3, 999999999⟩ = none)),
    (let s : State := fldSet (SCN_GEN 0) SCN_GEN_claimed 2 (runs .A State.reset); let w : W32 := BitVec.ofNat 32 (2 ^ SCN_CMT_CTRL_commit.lo + 2 ^ SCN_CMT_CTRL_gen.lo); let r := portReq (fieldsWrite s SCN_CMT_CTRL w); decide (Ready s ∧ wbit w SCN_CMT_CTRL_commit = true ∧ s.scn.cmtWait = none ∧ ticketsFull s = false ∧ r.dom = some .A ∧ r.mode = 0 ∧ cmtRefusal s r = none)),
    (let s : State := fldSet (SCN_GEN 0) SCN_GEN_claimed 6 { runs .A (ticketOut 4 State.reset) with scn := { State.reset.scn with commits := [⟨.A, 1, some 10, false, 4, none⟩] } }; decide (Ready s ∧ running s .A = true ∧ genC s .A = 0 ∧ isClaimed s .A 1 = true ∧ (genOf s .A).next = 10)),
    (let s : State := { State.reset with due := [.patchEnd 16383], scn := { State.reset.scn with patch := [(16383, { patchReset with state := .fading, k := 64, recDom := some .A })] } }; let p := patchOf s 16383; decide (awake s = true ∧ s.due.contains (.patchEnd 16383) = true ∧ p.state = .fading))].all id = true := by decide +kernel
theorem wit_CommitsAndCrossfades_2 : [
    (let s : State := { State.reset with due := [.patchEnd 5], scn := { State.reset.scn with patchDefer := [⟨5, .sslot 9, 70, 3, some .B, true, false⟩], patch := [(5, { patchReset with state := .fading, k := 64, recDom := some .A })] } }; let p := patchOf s 5; decide (awake s = true ∧ s.due.contains (.patchEnd 5) = true ∧ p.state = .fading)),
    (let s : State := { State.reset with due := [.patchEnd 5], scn := { State.reset.scn with patchDefer := [⟨4, .sslot 9, 70, 3, some .B, true, false⟩, ⟨5, .nothing, 70, 3, some .B, false, false⟩], patch := [(5, { patchReset with state := .fading, k := 64, recDom := some .A })] } }; let p := patchOf s 5; decide (awake s = true ∧ s.due.contains (.patchEnd 5) = true ∧ p.state = .fading))].all id = true := by decide +kernel
theorem wit_Recalls : [
    (let s : State := regsSet [(SCN_VAULT_BASE_LO, 0x4000_0000), (SCN_VAULT_SIZE, 64), (CTL_BG_EN, 1)] (memSet (0x4000_0000 + 32 * 4095) [0, 0, 2, 0, 0, 0, 0, 0, 3, 0, 0, 0, 1, 2, 3, 4, 5, 1] (runs .A State.reset)); let e := entry 0x0101 [(16, 4095)]; decide (acceptsB s 0x0101 e [(16, 4), (24, 12)] = true ∧ eByte e 16 2 < 4096 ∧ vaultSize s ≠ 0 ∧ bgEnabled s 0 = true ∧ dirEntry s (eByte e 16 2) = some (0x20000, 3, 0x04030201, 5) ∧ (claimTag s .A).isSome ∧ (claimTag s .C).isSome)),
    (let s : State := regsSet [(SCN_VAULT_BASE_LO, 0x4000_0000), (SCN_VAULT_SIZE, 64), (CTL_BG_EN, 1)] (memSet (0x4000_0000 + 32 * 4095) [0, 0, 2, 0, 0, 0, 0, 0, 3, 0, 0, 0, 1, 2, 3, 4, 5, 1] { runs .A State.reset with scn := { State.reset.scn with recalls := [⟨3, 7, 0, ⟨none, none, none⟩, false, 9, .staging, 0, 5, 6, 1, ⟨none, none, none⟩, 2, 0, 0, false, none, 0, 0, none⟩] } }); let e := entry 0x0101 [(16, 4095)]; decide (acceptsB s 0x0101 e [(16, 4), (24, 12)] = true ∧ dirEntry s (eByte e 16 2) = some (0x20000, 3, 0x04030201, 5) ∧ s.scn.recalls.any (fun q => q.phase == .staging) = true)),
    (let s : State := { State.reset with scn := { State.reset.scn with recalls := [⟨3, 7, 0, ⟨none, none, none⟩, false, 9, .committing, 0, 5, 6, 1, ⟨none, none, none⟩, 2, 0, 0, false, none, 0, 0, none⟩, ⟨4, 8, 0, ⟨none, none, none⟩, false, 9, .waiting, 0, 5, 6, 1, ⟨none, none, none⟩, 0, 0, 0, false, none, 0, 0, none⟩] } }; decide (Ready s ∧ s.scn.recalls.any (fun q => q.phase == .staging) = false ∧ (s.scn.recalls.find? (fun q => q.phase == .waiting)).map (fun r => r.id) = some 4)),
    (let s : State := { State.reset with scn := { State.reset.scn with recalls := [⟨3, 7, 0, ⟨none, none, none⟩, false, 9, .staging, 0x4000_0000, 5, 6, 1, ⟨some 2, none, none⟩, 4, 1, 0, false, none, 0, 0, none⟩] } }; decide (Ready s ∧ (~~~(0 : BitVec 32)).toNat ≠ 6)),
    (let s : State := { State.reset with scn := { State.reset.scn with recalls := [⟨3, 7, 0, ⟨none, none, some 50⟩, false, 9, .staging, 0x4000_0000, 0, 0xFFFF_FFFF, 7, ⟨some 2, none, some 4⟩, 0, 0, 0, false, none, 0, 0, none⟩] } }; decide (Ready s ∧ (~~~(0 : BitVec 32)).toNat = 0xFFFF_FFFF)),
    (let s : State := { State.reset with pwr := { State.reset.pwr with drop := some ⟨2, none, [], [5], none⟩ }, scn := { State.reset.scn with recalls := [⟨3, 7, 0, ⟨none, none, none⟩, false, 9, .waiting, 0, 5, 6, 1, ⟨none, none, none⟩, 2, 0, 0, false, none, 0, 0, none⟩] } }; decide (Ready s ∧ paused s 5 = true))].all id = true := by decide +kernel
theorem wit_StripTransitions_1 : [
    (let s : State := { State.reset with due := [.interpEnd 8191 0xB5], str := { State.reset.str with run := [(8191, { stripFresh with fades := [⟨0xB0, 3, 4⟩, ⟨0xB5, 3, 4⟩, ⟨0xAF, 1, 1⟩] })] } }; decide (awake s = true ∧ s.due.contains (.interpEnd 8191 0xB5) = true ∧ secBase 0xB5 = some 0xB0)),
    (let s : State := { State.reset with due := [.gainEnd 9 0], str := { State.reset.str with run := [(9, { stripFresh with fades := [⟨0, 3, 4⟩, ⟨1, 3, 4⟩, ⟨2, 1, 1⟩] }), (10, { stripFresh with hold := 4 })] } }; decide (awake s = true ∧ s.due.contains (.gainEnd 9 0) = true)),
    (let s : State := { State.reset with due := [.enableEnd 9 0x90], str := { State.reset.str with run := [(9, { stripFresh with fades := [⟨0x90, 3, 4⟩, ⟨1, 3, 4⟩] })] } }; decide (awake s = true ∧ s.due.contains (.enableEnd 9 0x90) = true ∧ (stripRun s 9).held = [])),
    (let s : State := { State.reset with due := [.switchEnd 9 0xA1], str := { State.reset.str with run := [(9, { stripFresh with fades := [⟨0xA1, 3, 4⟩, ⟨1, 3, 4⟩] })] } }; decide (awake s = true ∧ s.due.contains (.switchEnd 9 0xA1) = true ∧ (stripRun s 9).held = [])),
    (let s : State := { State.reset with due := [.delayEnd 0], str := { State.reset.str with run := [(0, { stripFresh with fades := [⟨4, 3, 4⟩, ⟨1, 3, 4⟩] })] } }; decide (awake s = true ∧ s.due.contains (.delayEnd 0) = true ∧ (stripRun s 0).held = [])),
    (let s : State := { State.reset with due := [.dipHalf 0], str := { State.reset.str with run := [(0, { stripFresh with dip := some ⟨1, 2, 32⟩ })] } }; decide (awake s = true ∧ s.due.contains (.dipHalf 0) = true ∧ (stripRun s 0).dip = some ⟨1, 2, 32⟩))].all id = true := by decide +kernel
theorem wit_StripTransitions_2 : [
    (let s : State := { State.reset with due := [.dipEnd 0], str := { State.reset.str with run := [(0, { stripFresh with dip := some ⟨1, 2, 64⟩ })] } }; decide (awake s = true ∧ s.due.contains (.dipEnd 0) = true ∧ (stripRun s 0).held = [])),
    (let s : State := { State.reset with due := [.gateClose 0 0x98], str := { State.reset.str with run := [(0, { stripFresh with hold := 3, gateOpen := true, mode := 1 })] } }; decide (awake s = true ∧ s.due.contains (.gateClose 0 0x98) = true)),
    (let s : State := { State.reset with scn := { State.reset.scn with dDom := [(4095, some .A)] }, str := { State.reset.str with run := [(8191, { stripFresh with lateStages := [1] })] } }; decide (Ready s ∧ (stripDom s 8191).isSome = true)),
    (let s : State := { State.reset with scn := { State.reset.scn with dDom := [(4095, some .A)] }, str := { State.reset.str with live := [(65536 * 8191 + 4, 64)] } }; decide (Ready s ∧ (stripDom s 8191).isSome = true ∧ 64 ≤ (param s 8191 4).toNat ∧ (stripRun s 8191).dlyLate = false))].all id = true := by decide +kernel
theorem wit_MetersAndArchive : [
    (let s : State := fldSet STR_MTR_CFG STR_MTR_CFG_enable 1 { State.reset with str := { State.reset.str with meters := [(3, ⟨9, 8, 7⟩)], meterSeq := 3, tpPeak := [(3, 4)] } }; decide (Ready s ∧ strOn s = true ∧ fbit s STR_MTR_CFG STR_MTR_CFG_enable = true)),
    (let s : State := { runs .A State.reset with scn := { State.reset.scn with sDom := [(5, some .A)] }, str := { State.reset.str with groups := [(3, { groupZero with n := 1 }), (511, { groupZero with members := [0x10005], n := 4800, sum := 77, blocks := List.replicate 30 3, count := 9, resetReq := true })] } }; decide (Ready s ∧ (blockDone s 511).isSome)),
    (let s : State := State.reset; decide (Ready s ∧ regOn s STR_LG_RESET = true)),
    (let s : State := { State.reset with str := { State.reset.str with arcPend := [(3, .A, 64, []), (4095, .A, 64, [(0, 3)]), (4095, .A, 128, [])] } }; decide (Ready s ∧ s.str.arcPend.find? (fun e => e.1 == 4095) = some (4095, .A, 64, [(0, 3)])))].all id = true := by decide +kernel
theorem wit_Playback_1 : [
    (let s : State := State.reset; decide (Ready s ∧ regOn s (STR_PB_CTRL 63) = true ∧ pbRefusal s 63 ≠ 0)),
    (let s : State := fldSet STR_ARC_CTRL STR_ARC_CTRL_enable 1 (regsSet [(STR_ARC_SIZE, 0x300), (STR_PB_SRC 63, BitVec.ofNat 32 (2 ^ STR_PB_SRC_domain.lo + 4095 * 2 ^ STR_PB_SRC_s_slot.lo)), (STR_PB_START_LO 63, 0x1100), (STR_PB_FROM_LO 63, 0x1000), (STR_PB_LEN 63, 5)] { State.reset with scn := { State.reset.scn with sDom := [(4095, some .A)] } }); decide (Ready s ∧ regOn s (STR_PB_CTRL 63) = true ∧ pbRefusal s 63 = 0 ∧ domOf (fget s (STR_PB_SRC 63) STR_PB_SRC_domain) = some .A)),
    (let s : State := { State.reset with str := { State.reset.str with pb := [(0, some ⟨3, .A, 5, 900, 0, false, false, 0, false⟩), (63, some ⟨3, .A, 5, 900, 0, false, false, 0, false⟩)] } }; decide (Ready s ∧ regOn s (STR_PB_CTRL 63) = true ∧ (pbOf s 63).isSome)),
    (let s : State := fldSet (STR_PB_STATUS 63) STR_PB_STATUS_state 1 { runs .A State.reset with str := { State.reset.str with pb := [(63, some ⟨3, .A, 5, 10, 0, false, false, 0, false⟩)] } }; decide (Ready s ∧ (pbOf s 63).isSome ∧ running s .A = true ∧ pbState s 63 = 1 ∧ 10 ≤ (genOf s .A).next)),
    (let s : State := fldSet (STR_PB_STATUS 63) STR_PB_STATUS_state 2 { runs .A State.reset with str := { State.reset.str with pb := [(63, some ⟨3, .A, 5, 6, 4, false, false, 0, false⟩)] } }; decide (Ready s ∧ (pbOf s 63).isSome ∧ running s .A = true ∧ 6 + 4 ≤ (genOf s .A).next)),
    (let s : State := fldSet (STR_PB_STATUS 63) STR_PB_STATUS_state 1 { runs .A State.reset with str := { State.reset.str with pb := [(63, some ⟨3, .A, 5, 600, 0, true, false, 0, false⟩)] } }; decide (Ready s ∧ (pbOf s 63).isSome ∧ running s .A = true))].all id = true := by decide +kernel
theorem wit_Playback_2 : [
    (let s : State := fldSet (STR_PB_STATUS 63) STR_PB_STATUS_state 2 { runs .A State.reset with str := { State.reset.str with pb := [(63, some ⟨3, .A, 5, 6, 4, false, false, 0, false⟩)] } }; decide (Ready s ∧ (pbOf s 63).isSome ∧ pbState s 63 = 2))].all id = true := by decide +kernel
theorem wit_Servo : [
    (let s : State := regsSet [(TIM_SERVO_OFFSET, 0xFFFF_FC17), (TIM_STEP_LIMIT, 1000)] State.reset; decide (Ready s ∧ regOn s TIM_SERVO_CTRL = true ∧ (clampN 1000 1000000000 (fget s TIM_STEP_LIMIT TIM_STEP_LIMIT_limit_ns) : Int) < (rd s TIM_SERVO_OFFSET).toInt.natAbs)),
    (let s : State := fldSet TIM_DPLL_STATUS TIM_DPLL_STATUS_selected 0 (fldSet TIM_SERVO_STATUS TIM_SERVO_STATUS_step_refused 1 (fldSet TIM_SERVO_CFG TIM_SERVO_CFG_ki 64 (fldSet TIM_SERVO_CFG TIM_SERVO_CFG_kp 700 (regsSet [(TIM_SERVO_OFFSET, 0xFFFF_FC18), (TIM_STEP_LIMIT, 1000)] { State.reset with tim := { State.reset.tim with integ := 5 } })))); let theta := (rd s TIM_SERVO_OFFSET).toInt; decide (Ready s ∧ theta = -1000 ∧ selected s = 0)),
    (let s : State := fldSet TIM_DPLL_STATUS TIM_DPLL_STATUS_selected 8 (fldSet TIM_SERVO_STATUS TIM_SERVO_STATUS_step_refused 1 State.reset); decide (Ready s ∧ selected s ≠ 0)),
    (let s : State := State.reset; decide (Ready s ∧ regOn s TIM_SERVO_CTRL = true)),
    (let s : State := fldSet TIM_SERVO_STATUS TIM_SERVO_STATUS_fed 1 (fldSet TIM_REF_STATUS TIM_REF_STATUS_qualified 0x1FF { State.reset with tim := { State.reset.tim with integ := 5, adj := 9, fedTimer := 4 } }); decide (Ready s ∧ fbit s TIM_SERVO_STATUS TIM_SERVO_STATUS_fed = true ∧ regOn s TIM_SERVO_CTRL = true))].all id = true := by decide +kernel
theorem wit_TimeSteps : [
    (let s : State := runs .A State.reset; let e := entry 0x0201 [(16, 1), (17, 1), (24, 0xFFFF_FFFF_FFFF_FFFF), (32, 0xFFFF_FFFF)]; decide (acceptsB s 0x0201 e [(16, 2), (24, 12)] = true ∧ eByte e 16 1 = 1 ∧ eByte e 17 1 = 1 ∧ s.tim.stepWait = none ∧ (stepDom s).isSome = true)),
    (let s : State := fldSet TIM_SERVO_STATUS TIM_SERVO_STATUS_step_refused 1 (regsSet [(TIM_SERVO_REFUSED, 0x8000_0000)] (runs .A State.reset)); let e := entry 0x0201 [(16, 1)]; decide (acceptsB s 0x0201 e [(16, 2), (24, 12)] = true ∧ eByte e 16 1 = 1 ∧ eByte e 17 1 = 0 ∧ s.tim.stepWait = none ∧ (stepDom s).isSome = true ∧ fbit s TIM_SERVO_STATUS TIM_SERVO_STATUS_step_refused = true)),
    (let s : State := fldSet (TIM_DOM_CFG 2) TIM_DOM_CFG_independent 1 (fldSet TIM_SERVO_STATUS TIM_SERVO_STATUS_step_refused 1 { ticketOut 4 State.reset with tim := { State.reset.tim with freiz := 100, stepWait := some ⟨-40, 4⟩, delta := ⟨3, 4, 5⟩, rho := ⟨1, 2, 3⟩ } }); decide (Ready s ∧ s.tim.stepWait = some ⟨-40, 4⟩)),
    (let s : State := { runs .A (ticketOut 4 State.reset) with tim := { (runs .A State.reset).tim with freiz := 2 ^ 70, stepWait := some ⟨2 ^ 64, 4⟩ } }; decide (Ready s ∧ s.tim.stepWait = some ⟨2 ^ 64, 4⟩))].all id = true := by decide +kernel
theorem wit_ReferenceInputs_1 : [
    (let s : State := fldSet TIM_DPLL_STATUS TIM_DPLL_STATUS_sysref_ok 1 { State.reset with tim := { State.reset.tim with missing := [(8, 2)] } }; decide (Ready s ∧ (0xFFFF_F9C0 : BitVec 32).toInt.natAbs ≤ 1600 * clampN 1 1000 (fget s TIM_REF_QUAL TIM_REF_QUAL_tol) ∧ fbit s TIM_DPLL_STATUS TIM_DPLL_STATUS_sysref_ok = true)),
    (let s : State := fldSet TIM_SERVO_STATUS TIM_SERVO_STATUS_fed 1 State.reset; decide (Ready s ∧ (1 : BitVec 32).toInt.natAbs ≤ 1600 * clampN 1 1000 (fget s TIM_REF_QUAL TIM_REF_QUAL_tol) ∧ fbit s TIM_SERVO_STATUS TIM_SERVO_STATUS_fed = true)),
    (let s : State := State.reset; decide (Ready s ∧ ¬((0x7FFF_FFFF : BitVec 32).toInt.natAbs ≤ 1600 * clampN 1 1000 (fget s TIM_REF_QUAL TIM_REF_QUAL_tol)))),
    (let s : State := fldSet TIM_REF_STATUS TIM_REF_STATUS_qualified 0x1FF (fldSet TIM_REF_STATUS TIM_REF_STATUS_present 0x1FF { State.reset with tim := { State.reset.tim with missing := [(4, 2), (5, 1)] } }); decide (Ready s ∧ smGet 0 s.tim.missing 4 + 1 = 3)),
    (let s : State := fldSet TIM_REF_STATUS TIM_REF_STATUS_qualified 0x1FF (fldSet TIM_REF_STATUS TIM_REF_STATUS_present 0x1FF { State.reset with tim := { State.reset.tim with missing := [(4, 2), (5, 1)] } }); decide (Ready s ∧ smGet 0 s.tim.missing 5 + 1 = 2)),
    (let s : State := fldSet TIM_REF_STATUS TIM_REF_STATUS_qualified 0x1FF { State.reset with tim := { State.reset.tim with missing := [(4, 2)] } }; decide (Ready s ∧ smGet 0 s.tim.missing 4 = 2))].all id = true := by decide +kernel
theorem wit_ReferenceInputs_2 : [
    (let s : State := fldSet TIM_SERVO_STATUS TIM_SERVO_STATUS_fed 1 (fldSet TIM_REF_STATUS TIM_REF_STATUS_qualified 0x1FF (fldSet TIM_REF_STATUS TIM_REF_STATUS_present 0x1FF State.reset)); decide (Ready s ∧ fbit s TIM_SERVO_STATUS TIM_SERVO_STATUS_fed = true)),
    (let s : State := fldSet TIM_REF_STATUS TIM_REF_STATUS_qualified 0x1FF State.reset; decide (Ready s ∧ qualified s 8 = true)),
    (let s : State := fldSet TIM_DPLL_STATUS TIM_DPLL_STATUS_selected 4 (fldSet TIM_DPLL_STATUS TIM_DPLL_STATUS_state 2 (fldSet TIM_REF_STATUS TIM_REF_STATUS_qualified 0x1FF State.reset)); decide (Ready s ∧ qualified s 4 = true ∧ selected s = 4 ∧ dpllState s false ≤ 2)),
    (let s : State := fldSet TIM_DPLL_STATUS TIM_DPLL_STATUS_sysref_ok 1 (fldSet TIM_REF_STATUS TIM_REF_STATUS_qualified 0x1FE (regsSet [(TIM_PRIO 0, BitVec.ofNat 32 (2 ^ TIM_PRIO_enable.lo + 8 * 2 ^ TIM_PRIO_input.lo))] { State.reset with tim := { State.reset.tim with holdOff := true } })); decide (Ready s ∧ sysrefOk s = true ∧ s.tim.holdOff = true ∧ selectInput s = (some 8, false))),
    (let s : State := fldSet TIM_DPLL_STATUS TIM_DPLL_STATUS_sysref_ok 1 (fldSet TIM_SEL_CFG TIM_SEL_CFG_revertive 1 (fldSet TIM_REF_STATUS TIM_REF_STATUS_qualified 0x1FE (regsSet [(TIM_PRIO 1, BitVec.ofNat 32 (2 ^ TIM_PRIO_enable.lo + 3 * 2 ^ TIM_PRIO_rank.lo + 2 ^ TIM_PRIO_input.lo)), (TIM_PRIO 0, BitVec.ofNat 32 (2 ^ TIM_PRIO_enable.lo + 8 * 2 ^ TIM_PRIO_input.lo))] (fldSet TIM_DPLL_STATUS TIM_DPLL_STATUS_selected 1 State.reset)))); decide (Ready s ∧ sysrefOk s = true ∧ refRank s 8 = some 0 ∧ refRank s (selected s) = some 3 ∧ fbit s TIM_SEL_CFG TIM_SEL_CFG_revertive = true ∧ qualified s 8 = true ∧ s.tim.holdOff = false ∧ selectInput s = (some 8, false))),
    (let s : State := fldSet TIM_DPLL_STATUS TIM_DPLL_STATUS_sysref_ok 1 (fldSet TIM_DPLL_STATUS TIM_DPLL_STATUS_rank_conflict 1 (fldSet TIM_REF_STATUS TIM_REF_STATUS_qualified 0x1FE (regsSet [(TIM_PRIO 0, BitVec.ofNat 32 (2 ^ TIM_PRIO_enable.lo + 8 * 2 ^ TIM_PRIO_input.lo))] State.reset))); decide (Ready s ∧ sysrefOk s = true ∧ fbit s TIM_DPLL_STATUS TIM_DPLL_STATUS_rank_conflict = true ∧ selectInput s = (some 8, false)))].all id = true := by decide +kernel
theorem wit_ReferenceInputs_3 : [
    (let s : State := fldSet TIM_DPLL_STATUS TIM_DPLL_STATUS_sysref_ok 1 (fldSet TIM_REF_STATUS TIM_REF_STATUS_qualified 0x1FE State.reset); let w : W32 := BitVec.ofNat 32 (2 ^ TIM_PRIO_enable.lo + 8 * 2 ^ TIM_PRIO_input.lo); decide (Ready s ∧ sysrefOk s = true ∧ s.tim.holdOff = false ∧ regOn s (TIM_PRIO 7) = true ∧ isSealed s (TIM_PRIO 7) = false ∧ selectInput (fieldsWrite s (TIM_PRIO 7) w) = (some 8, false))),
    (let s : State := fldSet TIM_DPLL_STATUS TIM_DPLL_STATUS_sysref_ok 1 (fldSet TIM_REF_STATUS TIM_REF_STATUS_qualified 0x1FE (regsSet [(TIM_PRIO 0, BitVec.ofNat 32 (2 ^ TIM_PRIO_enable.lo + 8 * 2 ^ TIM_PRIO_input.lo))] State.reset)); let w : W32 := 0xFFFF_FFFF; decide (Ready s ∧ sysrefOk s = true ∧ s.tim.holdOff = false ∧ regOn s TIM_SEL_CFG = true ∧ isSealed s TIM_SEL_CFG = false ∧ selectInput (fieldsWrite s TIM_SEL_CFG w) = (some 8, false))),
    (let s : State := fldSet TIM_DPLL_STATUS TIM_DPLL_STATUS_sysref_ok 1 { State.reset with tim := { State.reset.tim with holdOff := true } }; decide (Ready s ∧ s.tim.holdOff = true ∧ sysrefOk s = true ∧ (selectInput s).1 = none)),
    (let s : State := fldSet TIM_DPLL_STATUS TIM_DPLL_STATUS_selected 3 (fldSet TIM_DPLL_STATUS TIM_DPLL_STATUS_sysref_ok 0 { State.reset with tim := { State.reset.tim with holdOff := true } }); decide (Ready s ∧ s.tim.holdOff = true ∧ sysrefOk s = false))].all id = true := by decide +kernel
theorem wit_DpllsAndPps_1 : [
    (let s : State := fldSet TIM_DPLL_STATUS TIM_DPLL_STATUS_state 1 { State.reset with tim := { State.reset.tim with samples := [3] } }; decide (Ready s ∧ dpllState s false = 1 ∧ (0xFFFF_F060 : BitVec 32).toInt.natAbs ≤ 4000)),
    (let s : State := fldSet TIM_DPLL_STATUS TIM_DPLL_STATUS_aux_state 1 { State.reset with tim := { State.reset.tim with auxSamples := [3] } }; decide (Ready s ∧ dpllState s true = 1 ∧ (4000 : BitVec 32).toInt.natAbs ≤ 4000)),
    (let s : State := fldSet TIM_DPLL_STATUS TIM_DPLL_STATUS_selected 3 (fldSet TIM_DPLL_STATUS TIM_DPLL_STATUS_state 2 { State.reset with tim := { State.reset.tim with bw := 65536 * 7 } }); decide (Ready s ∧ dpllState s false = 2 ∧ selected s ≠ 0)),
    (let s : State := fldSet TIM_DPLL_STATUS TIM_DPLL_STATUS_aux_state 2 { State.reset with tim := { State.reset.tim with auxBw := 65536 * 7000 } }; decide (Ready s ∧ dpllState s true = 2)),
    (let s : State := fldSet TIM_DPLL_STATUS TIM_DPLL_STATUS_state 2 { State.reset with tim := { State.reset.tim with samples := List.replicate 62 7 } }; decide (Ready s ∧ dpllState s false = 2)),
    (let s : State := fldSet TIM_DPLL_STATUS TIM_DPLL_STATUS_aux_state 2 State.reset; decide (Ready s ∧ dpllState s true = 2))].all id = true := by decide +kernel
theorem wit_DpllsAndPps_2 : [
    (let s : State := fldSet TIM_DPLL_STATUS TIM_DPLL_STATUS_state 3 (fldSet TIM_DPLL_STATUS TIM_DPLL_STATUS_aux_state 3 State.reset); decide (Ready s ∧ dpllState s false = 3)),
    (let s : State := fldSet TIM_DPLL_STATUS TIM_DPLL_STATUS_state 3 (fldSet TIM_DPLL_STATUS TIM_DPLL_STATUS_aux_state 3 State.reset); decide (Ready s ∧ dpllState s true = 3)),
    (let s : State := fldSet TIM_REF_STATUS TIM_REF_STATUS_qualified 0x1FF (fldSet TIM_DPLL_STATUS TIM_DPLL_STATUS_sysref_ok 1 State.reset); decide (Ready s)),
    (let s : State := { fldSet TIM_DPLL_STATUS TIM_DPLL_STATUS_sysref_ok 0 State.reset with tim := { State.reset.tim with holdOff := true } }; decide (Ready s ∧ fbit s TIM_DPLL_STATUS TIM_DPLL_STATUS_sysref_ok = false)),
    (let s : State := fldSet CTL_CAT_STATUS CTL_CAT_STATUS_state 5 (fldSet PRT_PPS_CFG PRT_PPS_CFG_enable 1 { State.reset with tim := { State.reset.tim with freiz := 5 } }); decide (Ready s ∧ fbit s PRT_PPS_CFG PRT_PPS_CFG_enable = true ∧ fbit s PRT_PPS_CFG PRT_PPS_CFG_locked_only = false ∧ outputsOpen s = true ∧ domOn s 13 = true ∧ s.pin.absent.contains .vddio3 = false)),
    (let s : State := { State.reset with pin := { State.reset.pin with ppsOut := true } }; decide (Ready s ∧ s.pin.ppsOut = true))].all id = true := by decide +kernel
theorem wit_DpllsAndPps_3 : [
    (let s : State := State.reset; decide (Ready s ∧ s.pin.absent.contains .vddio3 = false ∧ domOn s 13 = true ∧ s.tim.freiz ≤ 0xFFFF_FFFF_FFFF))].all id = true := by decide +kernel
theorem wit_TwinControl_1 : [
    (let s : State := fldSet TWN_CFG TWN_CFG_mode 2 State.reset; decide (Ready s ∧ isTwin s = true)),
    (let s : State := fldSet TWN_STATUS TWN_STATUS_diverge 1 (fldSet TWN_STATUS TWN_STATUS_peer 1 (fldSet TWN_CFG TWN_CFG_mode 2 { State.reset with twn := { State.reset.twn with withdrawn := true } })); decide (Ready s ∧ isTwin s = true ∧ peerState s ≠ 0 ∧ s.twn.withdrawn = true ∧ roleB s = false)),
    (let s : State := fldSet TWN_STATUS TWN_STATUS_peer 3 (fldSet TWN_CFG TWN_CFG_mode 1 State.reset); decide (Ready s ∧ isTwin s = true ∧ peerState s ≠ 0 ∧ s.twn.withdrawn = false)),
    (let s : State := fldSet TWN_STATUS TWN_STATUS_on_air 1 (fldSet TWN_STATUS TWN_STATUS_owner 1 { State.reset with twn := { State.reset.twn with withdrawDue := true, releaseDue := true } }); decide (Ready s ∧ s.twn.withdrawDue = true)),
    (let s : State := fldSet TWN_STATUS TWN_STATUS_peer 2 (fldSet TWN_CFG TWN_CFG_mode 1 State.reset); decide (Ready s ∧ isTwin s = true ∧ regOn s TWN_CTRL = true ∧ 2 ≤ peerState s)),
    (let s : State := fldSet TWN_STATUS TWN_STATUS_peer 1 (fldSet TWN_CFG TWN_CFG_mode 1 State.reset); decide (Ready s ∧ isTwin s = true ∧ regOn s TWN_CTRL = true ∧ peerState s < 2 ∧ s.twn.withdrawn = false))].all id = true := by decide +kernel
theorem wit_TwinControl_2 : [
    (let s : State := State.reset; decide (Ready s ∧ isTwin s = false ∧ regOn s TWN_CTRL = true)),
    (let s : State := fldSet TWN_CFG TWN_CFG_mode 1 State.reset; decide (Ready s ∧ isTwin s = true ∧ peerState s ≠ 1)),
    (let s : State := fldSet TWN_STATUS TWN_STATUS_peer 1 (fldSet TWN_CFG TWN_CFG_mode 1 { State.reset with scn := { State.reset.scn with dDom := [(5, some .A)] } }); decide (Ready s ∧ isTwin s = true ∧ peerState s = 1 ∧ someUnmatched s = true)),
    (let s : State := fldSet TWN_STATUS TWN_STATUS_accused 1 (fldSet TWN_STATUS TWN_STATUS_cause 8 (fldSet TWN_STATUS TWN_STATUS_peer 1 (fldSet TWN_CFG TWN_CFG_mode 1 { State.reset with twn := { State.reset.twn with withdrawn := true } }))); decide (Ready s ∧ isTwin s = true ∧ peerState s = 1 ∧ someUnmatched s = false)),
    (let s : State := fldSet TWN_STATUS TWN_STATUS_owner 1 State.reset; decide (Ready s ∧ isOwner s = true ∧ regOn s TWN_CTRL = true)),
    (let s : State := runs .A (fldSet TWN_STATUS TWN_STATUS_own_in 1 { State.reset with twn := { State.reset.twn with relLock := true, highs := 2 } }); decide (Ready s ∧ (ownDomain s).isSome = true))].all id = true := by decide +kernel
theorem wit_TwinControl_3 : [
    (let s : State := fldSet CTL_CAT_STATUS CTL_CAT_STATUS_state 5 (fldSet TWN_STATUS TWN_STATUS_on_air 1 (fldSet TWN_CFG TWN_CFG_own_enable 1 (fldSet TWN_CFG TWN_CFG_role 1 (fldSet TWN_CFG TWN_CFG_mode 1 (runs .A { State.reset with twn := { State.reset.twn with highs := 1 } }))))); decide (Ready s ∧ (ownDomain s).isSome = true ∧ isTwin s = true ∧ outputsOpen s = true ∧ onAir s = true ∧ fbit s TWN_CFG TWN_CFG_own_enable = true ∧ isOwner s = false ∧ s.twn.relLock = false ∧ roleB s = true ∧ 2 ≤ s.twn.highs + 1))].all id = true := by decide +kernel
theorem wit_Provenance : [
    (let s : State := fldSet TWN_CFG TWN_CFG_mode 3 { State.reset with twn := { State.reset.twn with acc := [(4095, some ⟨.C, 7, 99, 64⟩)] } }; decide (Ready s ∧ twnMode s ≠ 0 ∧ s.twn.acc = [(4095, some ⟨.C, 7, 99, 64⟩)])),
    (let s : State := { State.reset with twn := { State.reset.twn with own := [⟨.B, 7, 5, 99, false⟩, ⟨.B, 8, 5, 99, false⟩] } }; decide (Ready s ∧ s.twn.own.any (fun w => w.dom == .B && w.d == 5 && w.j == 7 && !w.seen) = true))].all id = true := by decide +kernel
theorem wit_ConserveAndRotate_1 : [
    (let s : State := regsSet [(CTL_BG_EN, 0xFFFF_FFFF)] State.reset; let e := entry 0x0501 [(16, 63), (17, 1), (24, 0x41FF_8000)]; decide (acceptsB s 0x0501 e [(16, 2), (24, 8)] = true ∧ inStore (eByte e 24 8) 32768 = true ∧ fbit s CTL_BG_EN CTL_BG_EN_conserve = true ∧ s.twn.conserve = none)),
    (let s : State := fldSet (GAL_TILE_STATUS 67) GAL_TILE_STATUS_role roleOff (fldSet (ATL_CORE_STATUS 65) ATL_CORE_STATUS_role roleOff (regsSet [(CTL_BG_EN, 0xFFFF_FFFF)] State.reset)); let e := entry 0x0501 [(16, 1), (24, 0x4000_0000)]; decide (acceptsB s 0x0501 e [(16, 2), (24, 8)] = true ∧ roleOf s 1 67 = roleOff ∧ roleOf s 2 65 = roleOff)),
    (let s : State := { ticketOut 4 State.reset with twn := { State.reset.twn with conserve := some ⟨1, false, 0x4000_0000, 4, 0⟩, consSeq := 8 } }; decide (Ready s ∧ paused s 1 = false ∧ s.twn.conserve = some ⟨1, false, 0x4000_0000, 4, 0⟩)),
    (let s : State := { ticketOut 4 State.reset with twn := { State.reset.twn with conserve := some ⟨1, true, 0x4000_0000, 4, 7⟩, consSeq := 8 } }; decide (Ready s ∧ paused s 1 = false ∧ s.twn.conserve = some ⟨1, true, 0x4000_0000, 4, 7⟩)),
    (let s : State := regsSet [(CTL_BG_EN, 0xFFFF_FFFF)] State.reset; let e := entry 0x0502 [(16, 2), (17, 63), (18, 67), (19, 1)]; decide (acceptsB s 0x0502 e [(16, 4)] = true ∧ fbit s CTL_BG_EN CTL_BG_EN_rotation = true ∧ s.twn.rot = none ∧ canSpare s 2 67 = true)),
    (let s : State := fldSet TWN_ROT_SCHED TWN_ROT_SCHED_enable 1 (fldSet TWN_ROT_SCHED TWN_ROT_SCHED_kinds 4 { ticketsOut State.reset with twn := { State.reset.twn with schedNext := 159 } }); decide (Ready s ∧ fbit s TWN_ROT_SCHED TWN_ROT_SCHED_enable = true ∧ schedPick s s.twn.schedNext = some 159 ∧ ticketsFull s = true))].all id = true := by decide +kernel
theorem wit_ConserveAndRotate_2 : [
    (let s : State := fldSet TWN_ROT_SCHED TWN_ROT_SCHED_enable 1 (fldSet TWN_ROT_SCHED TWN_ROT_SCHED_kinds 2 { State.reset with twn := { State.reset.twn with schedNext := 159 } }); decide (Ready s ∧ schedPick s s.twn.schedNext = some 64 ∧ ticketsFull s = false))].all id = true := by decide +kernel
theorem wit_ChannelMigration : [
    (let s : State := fldSet (DRC_CH_STATUS 1) DRC_CH_STATUS_state 2 (regsSet [(CTL_BG_EN, 0xFFFF_FFFF)] { dramUp State.reset with drc := { (dramUp State.reset).drc with subs := [0, 1, 2, 3], geoms := [0x12F, 0x12F, 0, 0] } }); let e := entry 0x0401 [(16, 1)]; decide (acceptsB s 0x0401 e [(16, 1)] = true ∧ bgEnabled s 3 = true ∧ chState s 1 = chREADY ∧ s.drc.migr = none ∧ retiredCh s = none ∧ subsN s ≠ 2 ∧ chunksK s + 2 * ((chunksK s + (subsN s - 2) - 1) / (subsN s - 2)) ≤ smallestLeft s 1 / grainOf s)),
    (let s : State := fldSet DRC_STATUS DRC_STATUS_retired 1 (fldSet DRC_STATUS DRC_STATUS_retired_valid 1 (fldSet (DRC_CH_STATUS 1) DRC_CH_STATUS_state chFAULTY (regsSet [(CTL_BG_EN, 0xFFFF_FFFF)] { dramUp State.reset with drc := { (dramUp State.reset).drc with subs := [0, 1, 2, 3] } }))); let e := entry 0x0402 [(16, 1)]; decide (acceptsB s 0x0402 e [(16, 1)] = true ∧ bgEnabled s 3 = true ∧ chState s 1 = chFAULTY ∧ s.drc.migr = none)),
    (let s : State := ticketOut 4 (fldSet (DRC_CH_STATUS 3) DRC_CH_STATUS_state chRETIRING { dramUp State.reset with drc := { (dramUp State.reset).drc with subs := [0, 1, 6, 7], migr := some ⟨3, false, 9, 4, false, true⟩ } }); decide (Ready s ∧ s.drc.migr = some ⟨3, false, 9, 4, false, true⟩)),
    (let s : State := ticketOut 4 (fldSet DRC_STATUS DRC_STATUS_retired 3 (fldSet DRC_STATUS DRC_STATUS_retired_valid 1 (fldSet (DRC_CH_STATUS 3) DRC_CH_STATUS_state chREADMITTING { dramUp State.reset with drc := { (dramUp State.reset).drc with subs := [0, 1, 6, 7], migr := some ⟨3, true, 9, 4, false, true⟩ } }))); decide (Ready s ∧ s.drc.migr = some ⟨3, true, 9, 4, false, true⟩)),
    (let s : State := ticketOut 4 (fldSet (DRC_CH_STATUS 3) DRC_CH_STATUS_state chREADMITTING { dramUp State.reset with drc := { (dramUp State.reset).drc with subs := [0, 1, 6, 7], migr := some ⟨3, true, 9, 4, true, true⟩ } }); decide (Ready s ∧ s.drc.migr = some ⟨3, true, 9, 4, true, true⟩ ∧ retiredCh s = none))].all id = true := by decide +kernel
theorem wit_AtriumAccesses_1 : [
    (let s : State := { regsSet [(CTL_CORE_CACHE 7, 0x80)] State.reset with ecc := { State.reset.ecc with badArr := [28 * 2 ^ 32 + 8 * (7 * 1024 + 5) + 3] }, ctl := { State.reset.ctl with dcache := [(7 * 1024 + 5, some (0x41FF_FFC0 / 64))] } }; decide (Ready s ∧ pmpLets s 7 0x41FF_FFE0 8 false = true ∧ cacheFault s 7 0x41FF_FFE0 = some (8 * (7 * 1024 + 5) + 3))),
    (let s : State := memSet 0x41FF_FFC0 [1, 2, 3, 4] { State.reset with ecc := { State.reset.ecc with merge := [⟨63, 0x41FF_FFC8 / 8, 0xFF, 1, 8⟩] } }; decide (Ready s ∧ 0x41FF_FFC1 % 32 + 63 ≤ 128 ∧ inStore 0x41FF_FFC1 63 = true ∧ filling s 0x41FF_FFC1 63 = false ∧ (wordsIn 0x41FF_FFC1 63).all (fun w => !s.ecc.bad.contains w))),
    (let s : State := memSet 0x2007_FF80 [1, 2, 3, 4] State.reset; decide (Ready s ∧ 0x2000_0000 ≤ 0x2007_FF80 ∧ 0x2007_FF80 + 128 ≤ 0x2008_0000 ∧ filling s 0x2007_FF80 128 = false)),
    (let s : State := { memSet 0x2007_FFF8 [1, 2, 3, 4] State.reset with ecc := { State.reset.ecc with bad := [0x2007_FFF8 / 8] } }; decide (Ready s ∧ filling s 0x2007_FFF8 8 = false ∧ s.ecc.bad.contains (0x2007_FFF8 / 8) = true ∧ queueHolds s (0x2007_FFF8 / 8) = false)),
    (let s : State := { memSet 0x41FF_FFF8 [1, 2, 3, 4] State.reset with ecc := { State.reset.ecc with bad := [0x41FF_FFF8 / 8] } }; decide (Ready s ∧ filling s 0x41FF_FFF8 8 = false ∧ s.ecc.bad.contains (0x41FF_FFF8 / 8) = true)),
    (let s : State := { memSet 0x41FF_FFF8 [1, 2, 3, 4] State.reset with ecc := { State.reset.ecc with bad := [0x41FF_FFF8 / 8], merge := [⟨63, 0x41FF_FFF8 / 8, 0xFF, 1, 8⟩] } }; decide (Ready s ∧ filling s 0x41FF_FFF8 8 = false))].all id = true := by decide +kernel
theorem wit_AtriumAccesses_2 : [
    (let s : State := State.reset; decide (Ready s ∧ pmpLets s 0 0x2000_0000 8 true = true ∧ filling s 0x2000_0000 8 = false)),
    (let s : State := { State.reset with ecc := { State.reset.ecc with bad := [0x41FF_FFF8 / 8], merge := (List.range 15).map (fun i => ⟨63, i, 0xFF, 1, 8⟩) } }; let bank := storeBank (0x41FF_FFF9 - 0x4000_0000); decide (Ready s ∧ filling s 0x41FF_FFF9 7 = false ∧ bank = 63 ∧ s.ecc.merge.find? (fun e => e.port == bank && e.word == 0x41FF_FFF9 / 8) = none ∧ (s.ecc.merge.filter (fun e => e.port == bank)).length < 16)),
    (let s : State := State.reset; decide (Ready s ∧ pmpLets s 3 0x7FFF_FFFF 1 false = true ∧ target 0x7FFF_FFFF 1 = .none)),
    (let s : State := State.reset; decide (Ready s ∧ pmpLets s 3 0x21_0000_0000 1 true = true ∧ target 0x21_0000_0000 1 = .none)),
    (let s : State := memSet 0x41FF_FFF8 [1, 2, 3, 4, 5, 6, 7, 0xF0] State.reset; decide (Ready s ∧ filling s 0x41FF_FFF8 8 = false ∧ s.ecc.bad.contains (0x41FF_FFF8 / 8) = false)),
    (let s : State := { State.reset with ctl := { State.reset.ctl with harts := [(3, { pc := 0x4000_0104, user := true, x := [], csr := [(csrMSTATUS, 8), (csrMTVEC, 0x4100_0003)] })] } }; decide (Ready s ∧ pmpLets s 3 0x4000_0000 8 false = false ∧ pmpLets s 3 0x4000_0000 8 true = false))].all id = true := by decide +kernel
theorem wit_AtriumAccesses_3 : [
    (let s : State := { memSet 0x4000_0000 [5] State.reset with ctl := { State.reset.ctl with harts := [(3, { pc := 4, user := true, x := [], csr := [(csrPMPCFG, 0x19), (csrPMPADDR, 0x1000_01FF)] })] } }; decide (Ready s ∧ pmpLets s 3 0x4000_0000 8 false = true ∧ pmpLets s 3 0x4000_0000 8 true = false))].all id = true := by decide +kernel
theorem wit_AtomicOperations : [
    (let s : State := memSet 0x4000_0004 [0xFF, 0xFF, 0xFF, 0x80] State.reset; decide (Ready s ∧ pmpLets s 7 0x4000_0004 4 false = true ∧ pmpLets s 7 0x4000_0004 4 true = true ∧ 0x4000_0004 % 4 = 0 ∧ inStore 0x4000_0004 4 = true ∧ filling s 0x4000_0004 4 = false ∧ queueHolds s (0x4000_0004 / 8) = false ∧ s.ecc.bad.contains (0x4000_0004 / 8) = false)),
    (let s : State := memSet 0x4000_0004 [0xFF, 0xFF, 0xFF, 0x80] { State.reset with ctl := { State.reset.ctl with resv := [(storeBank 4, 7, 0x4000_0004 / 8)] } }; decide (Ready s ∧ s.ctl.resv.contains (storeBank (0x4000_0004 - 0x4000_0000), 7, 0x4000_0004 / 8) = true)),
    (let s : State := memSet 0x4000_0004 [0xFF, 0xFF, 0xFF, 0x80] { State.reset with ctl := { State.reset.ctl with resv := [(storeBank 4, 6, 0x4000_0004 / 8)] } }; decide (Ready s ∧ s.ctl.resv.contains (storeBank 0, 7, 0x4000_0000 / 8) = false)),
    (let s : State := memSet 0x4000_0004 [0xFF, 0xFF, 0xFF, 0x80] State.reset; decide (Ready s)),
    (let s : State := memSet 0x4000_0000 [5] State.reset; decide (Ready s ∧ 0x4000_0000 % 8 = 0))].all id = true := by decide +kernel
theorem wit_MemoryUpkeep_1 : [
    (let s : State := memSet 0x4000_0000 [1, 2, 3, 4, 5, 6, 7, 8] { State.reset with ecc := { State.reset.ecc with merge := [⟨0, 0x0800_0000, 0xAABB_CCDD_EEFF_1122, 0x81, 8⟩, ⟨0, 0x0800_0001, 0, 1, 8⟩] } }; let e : MergeEnt := ⟨0, 0x0800_0000, 0xAABB_CCDD_EEFF_1122, 0x81, 8⟩; decide (Ready s ∧ s.ecc.merge.find? (fun e => e.port == 0) = some e ∧ queueHolds s e.word = false ∧ s.ecc.bad.contains e.word = false ∧ 8 * e.word < 0x1_0000_0000)),
    (let s : State := memSet 0x4000_0000 [1, 2, 3, 4, 5, 6, 7, 8] { State.reset with ecc := { State.reset.ecc with bad := [0x0800_0000], merge := [⟨65, 0x0800_0000, 0xAABB_CCDD_EEFF_1122, 0x81, 8⟩] } }; decide (Ready s ∧ queueHolds s 0x0800_0000 = false ∧ s.ecc.bad.contains 0x0800_0000 = true)),
    (let s : State := memSet 0x4000_0000 [1] { State.reset with ecc := { State.reset.ecc with wback := [3, 4] } }; decide (Ready s)),
    (let s : State := fldSet (MEM_BKT_LEVEL 31) MEM_BKT_LEVEL_level 4 State.reset; decide (Ready s)),
    (let s : State := fldSet (MEM_BKT_LEVEL 31) MEM_BKT_LEVEL_level 200 State.reset; decide (Ready s ∧ regOn s (MEM_BKT_CFG 31) = true)),
    (let s : State := fldSet (MEM_BKT_LEVEL 28) MEM_BKT_LEVEL_level 255 State.reset; decide (Ready s ∧ bktDepth s 28 = 256 ∧ (match patrolRead ⟨28, 77, 3, 0xFFFF, 0x3FF⟩ with | .fixed _ 2 => true | _ => false) = true))].all id = true := by decide +kernel
theorem wit_MemoryUpkeep_2 : [
    (let s : State := fldSet (MEM_BKT_CFG 0) MEM_BKT_CFG_depth 3 (fldSet (MEM_BKT_LEVEL 0) MEM_BKT_LEVEL_level 3 State.reset); decide (Ready s ∧ bktDepth s 0 = 3 ∧ (match patrolRead ⟨0, 77, 2 ^ 78, 0, 0⟩ with | .fixed _ 1 => true | _ => false) = true)),
    (let s : State := State.reset; decide (Ready s ∧ patrolRead ⟨3, nodeKey 63 5 6, 2 ^ 79, 0, 0⟩ = .uncorrectable)),
    (let s : State := { State.reset with ecc := { State.reset.ecc with wback := [3, 4], flips := [(3, 1), (4, 2)] } }; decide (Ready s)),
    (let s : State := fldSet (MEM_BANK_STATUS 63) MEM_BANK_STATUS_filling 1 State.reset; decide (Ready s ∧ fbit s (MEM_BANK_STATUS 63) MEM_BANK_STATUS_filling = true ∧ s.ecc.stalled = [])),
    (let s : State := { State.reset with ecc := { State.reset.ecc with fillCommon := true } }; decide (Ready s ∧ s.ecc.fillCommon = true ∧ s.ecc.stalled = [])),
    (let s : State := fldSet (MEM_BANK_STATUS 63) MEM_BANK_STATUS_filling 1 { State.reset with ecc := { State.reset.ecc with stalled := [⟨20, 0x41FF_FFF8, 8, some 0x0807_0605_0403_0201, none⟩] } }; decide (Ready s ∧ fbit s (MEM_BANK_STATUS 63) MEM_BANK_STATUS_filling = true ∧ storeBank (0x41FF_FFF8 - 0x4000_0000) = 63))].all id = true := by decide +kernel
theorem wit_MemoryUpkeep_3 : [
    (let s : State := ticketOut 9 { State.reset with ecc := { State.reset.ecc with repair := [(0x8000_0010, 9)] }, perm := { State.reset.perm with otp := [(0, 3)] } }; decide (Ready s ∧ s.ecc.repair = [(0x8000_0010, 9)])),
    (let s : State := ticketOut 9 { State.reset with ecc := { State.reset.ecc with repair := [(0x8000_0010, 9), (0x8000_0020, 10)] } }; decide (Ready s))].all id = true := by decide +kernel
theorem wit_ScrubAndRepair : [
    (let s : State := regsSet [(CTL_BG_EN, 0xFFFF_FFFF)] State.reset; let e := entry 0x0301 [(16, 0x2000_0000), (24, 0x8_0000), (32, 0x41FF_FEC0)]; decide (acceptsB s 0x0301 e [(16, 24)] = true ∧ bgEnabled s 1 = true ∧ inStore 0x41FF_FEC0 320 = true ∧ 0x41FF_FEC0 % 64 = 0 ∧ s.ecc.scrub = none)),
    (let s : State := regsSet [(CTL_BG_EN, 0xFFFF_FFFF)] (dramUp State.reset); let e := entry 0x0301 [(16, 0x1_0000_0000), (24, dramBytes (dramUp State.reset)), (32, 0x4000_0000)]; decide (acceptsB s 0x0301 e [(16, 24)] = true ∧ bgEnabled s 1 = true ∧ inDramSpace 0x1_0000_0000 (dramBytes s) = true ∧ dramReady s = true ∧ s.ecc.scrub = none ∧ dramBytes s ≠ 0)),
    (let s : State := ticketOut 9 { State.reset with ecc := { State.reset.ecc with scrub := some ⟨0x2000_0000, 64, 0x4000_0000, 9, [], [], 0, 0⟩, scrubSeq := 4 } }; decide (Ready s ∧ paused s 3 = false ∧ s.ecc.scrub = some ⟨0x2000_0000, 64, 0x4000_0000, 9, [], [], 0, 0⟩)),
    (let s : State := { State.reset with pin := { State.reset.pin with absent := [] }, perm := { State.reset.perm with otp := (List.range 254).map (fun i => (i, 0)) }, ecc := { State.reset.ecc with repair := [(0, 0)] } }; let e := entry 0x0302 [(16, 0xFFFF), (18, 639), (20, 3)]; decide (acceptsB s 0x0302 e [(16, 5)] = true ∧ s.pin.absent.contains .vppFuse = false ∧ fbit s MEM_FUSE_SEAL MEM_FUSE_SEAL_fuse = false ∧ s.perm.otp.length + s.ecc.repair.length < 256))].all id = true := by decide +kernel
theorem wit_DramTraining_1 : [
    (let s : State := dramUp State.reset; decide (Ready s ∧ regOn s DRC_CTRL = true ∧ dramReady s = true)),
    (let s : State := fldSet DRC_STATUS DRC_STATUS_training 1 State.reset; decide (Ready s ∧ regOn s DRC_CTRL = true)),
    (let s : State := fldSet DRC_CFG DRC_CFG_ch_enable 0 State.reset; decide (Ready s ∧ regOn s DRC_CTRL = true ∧ chEnabled (rd s DRC_CFG) = [])),
    (let s : State := fldSet DRC_CFG DRC_CFG_rate 5 (fldSet DRC_CFG DRC_CFG_ch_enable 8 State.reset); decide (Ready s ∧ chEnabled (rd s DRC_CFG) ≠ [] ∧ wget (rd s DRC_CFG) DRC_CFG_rate = 5)),
    (let s : State := fldSet DRC_CFG DRC_CFG_grain 11 (fldSet DRC_CFG DRC_CFG_ch_enable 8 State.reset); decide (Ready s ∧ chEnabled (rd s DRC_CFG) ≠ [] ∧ wget (rd s DRC_CFG) DRC_CFG_grain = 11)),
    (let s : State := regsSet [(DRC_CH_GEOM 3, 0x170)] (fldSet DRC_CFG DRC_CFG_grain 10 (fldSet DRC_CFG DRC_CFG_rate 4 (fldSet DRC_CFG DRC_CFG_ch_enable 8 State.reset))); decide (Ready s ∧ chEnabled (rd s DRC_CFG) = [3] ∧ 2 ^ 34 < geomBytes (rd s (DRC_CH_GEOM 3))))].all id = true := by decide +kernel
theorem wit_DramTraining_2 : [
    (let s : State := regsSet [(DRC_CH_GEOM 3, 0x160)] (fldSet DRC_CFG DRC_CFG_grain 10 (fldSet DRC_CFG DRC_CFG_rate 4 (fldSet DRC_CFG DRC_CFG_ch_enable 8 State.reset))); decide (Ready s ∧ chEnabled (rd s DRC_CFG) = [3] ∧ 2 ^ 34 = geomBytes (rd s (DRC_CH_GEOM 3)))),
    (let s : State := fldSet DRC_STATUS DRC_STATUS_training 1 (fldSet (DRC_CH_STATUS 3) DRC_CH_STATUS_state chTRAINING (fldSet (DRC_CH_STATUS 0) DRC_CH_STATUS_state chTRAINING State.reset)); decide (Ready s ∧ fbit s DRC_STATUS DRC_STATUS_training = true ∧ s.drc.migr = none)),
    (let s : State := fldSet DRC_STATUS DRC_STATUS_migrating 1 (fldSet DRC_STATUS DRC_STATUS_training 1 (fldSet (DRC_CH_STATUS 3) DRC_CH_STATUS_state chREADMITTING { dramUp State.reset with drc := { (dramUp State.reset).drc with migr := some ⟨3, true, 0, 4, false, false⟩ } })); decide (Ready s ∧ s.drc.migr = some ⟨3, true, 0, 4, false, false⟩ ∧ s.pin.absent.contains .vddqDram = false)),
    (let s : State := fldSet DRC_STATUS DRC_STATUS_retired 3 (fldSet DRC_STATUS DRC_STATUS_retired_valid 1 (fldSet DRC_STATUS DRC_STATUS_migrating 1 (fldSet DRC_STATUS DRC_STATUS_training 1 (fldSet (DRC_CH_STATUS 3) DRC_CH_STATUS_state chREADMITTING (ticketOut 4 { dramUp State.reset with drc := { (dramUp State.reset).drc with migr := some ⟨3, true, 0, 4, false, false⟩ } }))))); decide (Ready s ∧ s.drc.migr = some ⟨3, true, 0, 4, false, false⟩ ∧ retiredCh s = some 3))].all id = true := by decide +kernel
theorem wit_DramScheduling_1 : [
    (let s : State := { dramUp State.reset with drc := { (dramUp State.reset).drc with refDue := [(1, 4)], rq := [⟨1, 3, 1, 0, 2⟩] } }; decide (Ready s ∧ chState s 0 ≠ chFAULTY ∧ dramRuns s = true ∧ (match (dramOrder s 1)[0]? with | some .refresh => true | _ => false) = true)),
    (let s : State := { dramUp State.reset with drc := { (dramUp State.reset).drc with replay := [(0, 2)] } }; decide (Ready s ∧ chState s 0 ≠ chFAULTY ∧ dramRuns s = true ∧ (match (dramOrder s 1)[0]? with | some .replay => true | _ => false) = true)),
    (let s : State := { dramUp State.reset with drc := { (dramUp State.reset).drc with retrainDue := [0, 1] } }; decide (Ready s ∧ (match (dramOrder s 1)[0]? with | some .retrain => true | _ => false) = true)),
    (let s : State := { dramUp State.reset with drc := { (dramUp State.reset).drc with rfmDue := [(0, 3), (1, 4), (1, 5)] } }; decide (Ready s ∧ (match (dramOrder s 1)[1]? with | some (.rfm 5) => true | _ => false) = true)),
    (let s : State := { dramUp State.reset with drc := { (dramUp State.reset).drc with rq := [⟨1, 3, 1, 0, 2⟩, ⟨0, 3, 1, 0, 2⟩] } }; decide (Ready s ∧ (match (dramOrder s 1)[0]? with | some (DramCmd.read r) => decide (r = ⟨1, 3, 1, 0, 2⟩) | _ => false) = true)),
    (let s : State := memSet 0x1_0000_0000 (List.replicate 64 9) { dramUp State.reset with drc := { (dramUp State.reset).drc with drain := [1], wq := [⟨1, 0x400_0000, 0xFF, 0x81, false, false, 2⟩] } }; decide (Ready s ∧ (match (dramOrder s 1)[0]? with | some (DramCmd.write e) => decide (e.burst = 0x400_0000) | _ => false) = true ∧ s.drc.stalled = []))].all id = true := by decide +kernel
theorem wit_DramScheduling_2 : [
    (let s : State := fldSet (DRC_CH_STATUS 1) DRC_CH_STATUS_state chRETIRING { dramUp State.reset with drc := { (dramUp State.reset).drc with subs := [0, 1, 2, 3], chunks := 4, migr := some ⟨1, false, 2, 4, false, true⟩ } }; decide (Ready s ∧ chState s 1 ≠ chFAULTY ∧ dramRuns s = true ∧ (match (dramOrder s 2)[0]? with | some .copy => true | _ => false) = true)),
    (let s : State := dramUp State.reset; decide (Ready s ∧ dramRuns s = true ∧ s.drc.subs.contains 1 = true)),
    (let s : State := { dramUp State.reset with drc := { (dramUp State.reset).drc with hot := [0, 3] } }; decide (Ready s)),
    (let s : State := { dramUp State.reset with drc := { (dramUp State.reset).drc with hot := [0] } }; decide (Ready s)),
    (let s : State := { dramUp State.reset with drc := { (dramUp State.reset).drc with wq := List.replicate 56 ⟨7, 0x400_0000, 0xFF, 0x81, false, false, 2⟩ } }; decide (Ready s ∧ hiWm s ≤ (s.drc.wq.filter (fun e => e.sub == 7)).length)),
    (let s : State := { dramUp State.reset with drc := { (dramUp State.reset).drc with wq := [⟨7, 3, 0, 1, false, false, 2⟩, ⟨7, 4, 0, 1, true, false, 2⟩] } }; decide (Ready s ∧ (s.drc.wq.filter (fun e => e.sub == 7)).find? (fun e => e.deadline && !e.aged) = some ⟨7, 4, 0, 1, true, false, 2⟩))].all id = true := by decide +kernel
theorem wit_DramScheduling_3 : [
    (let s : State := { dramUp State.reset with drc := { (dramUp State.reset).drc with drain := [0, 7, 3], wq := [] } }; decide (Ready s ∧ (s.drc.wq.filter (fun e => e.sub == 7)).length ≤ loWm s)),
    (let s : State := { dramUp State.reset with drc := { (dramUp State.reset).drc with rq := [⟨7, 3, 1, 0, 2⟩, ⟨7, 3, 2, 0, 2⟩, ⟨7, 5, 2, 0, 2⟩] } }; decide (Ready s ∧ s.drc.rq.find? (fun r => r.sub == 7 && r.cls == 2) = some ⟨7, 3, 2, 0, 2⟩)),
    (let s : State := { dramUp State.reset with drc := { (dramUp State.reset).drc with alerts := [(0, 3)], retry := [(0, 7)] } }; decide (Ready s ∧ 2 ≤ chState s 0 ∧ chState s 0 < 6)),
    (let s : State := fldSet (ATR_MST_STATUS 20) ATR_MST_STATUS_throttled 1 State.reset; decide (Ready s ∧ throttled s 20 = true)),
    (let s : State := { dramUp State.reset with drc := { (dramUp State.reset).drc with rows := [⟨7, 3, 1, 0, []⟩, ⟨6, 3, 1, 0, []⟩] } }; decide (Ready s))].all id = true := by decide +kernel
theorem wit_DomainControl : [
    (let s : State := runs .C State.reset; decide (Ready s ∧ regOn s (TIM_DOM_CTRL (domNo .C)) = true ∧ running s .C = true)),
    (let s : State := fldSet (TIM_DOM_CFG 2) TIM_DOM_CFG_rate 6 State.reset; decide (Ready s ∧ running s .C = false ∧ 5 < wget (rd s (TIM_DOM_CFG 2)) TIM_DOM_CFG_rate)),
    (let s : State := fldSet (TIM_DOM_CFG 2) TIM_DOM_CFG_independent 1 (fldSet (TIM_DOM_CFG 2) TIM_DOM_CFG_rate 5 (runs .A State.reset)); decide (Ready s ∧ running s .C = false ∧ wget (rd s (TIM_DOM_CFG 2)) TIM_DOM_CFG_rate ≤ 5)),
    (let s : State := fldSet (TIM_DOM_CFG 0) TIM_DOM_CFG_rate 2 { State.reset with tim := { State.reset.tim with rho := pdSet State.reset.tim.rho .A 7 } }; decide (Ready s ∧ running s .A = false ∧ wget (rd s (TIM_DOM_CFG 0)) TIM_DOM_CFG_rate = 2 ∧ pdGet s.tim.rho .A = 7)),
    (let s : State := { runs .C State.reset with scn := { State.reset.scn with dDom := [(5, some .C)] } }; decide (Ready s ∧ domBound s .C = true)),
    (let s : State := runs .A (runs .C State.reset); decide (Ready s ∧ domBound s .C = false))].all id = true := by decide +kernel
theorem wit_Bridges_1 : [
    (let s : State := State.reset; decide (Ready s ∧ regOn s (PRT_BR_CTRL 255) = true ∧ brState s 255 = brSTOPPED ∧ brRefusal s 255 ≠ 0)),
    (let s : State := fldSet (PRT_BR_CFG 255) PRT_BR_CFG_in_domain 1 (fldSet (PRT_BR_CFG 255) PRT_BR_CFG_out_domain 2 (runsAB State.reset)); decide (Ready s ∧ regOn s (PRT_BR_CTRL 255) = true ∧ brState s 255 = brSTOPPED ∧ brRefusal s 255 = 0)),
    (let s : State := fldSet (PRT_BR_STATUS 255) PRT_BR_STATUS_state brRUNNING (runsAB (brOn 255 { brAB false with gain := 70, k := 3 } State.reset)); decide (Ready s ∧ brState s 255 ≠ brSTOPPING ∧ (bridge s 255).isSome)),
    (let s : State := fldSet (PRT_BR_STATUS 0) PRT_BR_STATUS_state brWAITING (runsAB (brOn 0 { brAB false with s := 7 } State.reset)); decide (Ready s ∧ (bridge s 0).isSome ∧ brState s 0 = brWAITING ∧ 7 + 3 ≤ (genOf s .B).next)),
    (let s : State := fldSet (PRT_BR_STATUS 0) PRT_BR_STATUS_state brWAITING (runsAB (brOn 0 { brAB true with blocks := 64, calm := 64 } State.reset)); decide (Ready s ∧ (bridge s 0).isSome ∧ brState s 0 = brWAITING)),
    (let s : State := runsAB (brOn 0 { brAB true with words := [(0, 78)], err := 3 } State.reset); let v : Bridge := { brAB true with words := [(0, 78)], err := 3 }; decide (Ready s ∧ (bridge s 0) = some v ∧ brBlockDue v 10 = true ∧ (genOf s .B).next = 10 ∧ ratioOwner s = true))].all id = true := by decide +kernel
theorem wit_Bridges_2 : [
    (let s : State := fldSet TWN_CFG TWN_CFG_mode 1 (runsAB (brOn 0 { brAB true with words := [(0, 78), (1, 80)], own := true, base := 9, integ := 4, err := -3 } State.reset)); let v : Bridge := { brAB true with words := [(0, 78), (1, 80)], own := true, base := 9, integ := 4, err := -3 }; decide (Ready s ∧ (bridge s 0) = some v ∧ brBlockDue v 10 = true ∧ ratioOwner s = true ∧ isTwin s = true)),
    (let s : State := fldSet TWN_CFG TWN_CFG_role 1 (fldSet TWN_CFG TWN_CFG_mode 1 (runsAB (brOn 0 (brAB true) State.reset))); decide (Ready s ∧ (bridge s 0).isSome ∧ brBlockDue (brAB true) 10 = true ∧ ratioOwner s = false)),
    (let s : State := { brOn 3 (brAB true) State.reset with due := [.brStopped 3] }; decide (awake s = true ∧ s.due.contains (.brStopped 3) = true))].all id = true := by decide +kernel
theorem wit_PortSides_1 : [
    (let s : State := sideOn 158 (sideA true) (runs .A State.reset); decide (Ready s ∧ regOn s (PRT_SIDE_CFG 159) = true ∧ side s 159 = none)),
    (let s : State := sideOn 0 (sideA true) (runs .A State.reset); decide (Ready s ∧ sideDom s 0 = some .A ∧ running s .A = true)),
    (let s : State := sideOn 0 (sideA true) State.reset; decide (Ready s ∧ sideDom s 0 = some .A ∧ running s .A = false)),
    (let s : State := sideOn 94 { sideA false with wordL := 3, wordR := 4 } (runs .A State.reset); decide (Ready s ∧ isRx 94 = true ∧ waveGood 94 (sideA false) (i2sFrame 0x7FFFFF 0x800000) = true ∧ sideWorks s 94 (sideA false) = true ∧ (genOf s .A).last.isSome = true ∧ s.pin.absent.contains (sideSupply 94) = false)),
    (let s : State := sideOn 96 { sideA false with wordL := 3, wordR := 4 } (runs .A State.reset); decide (Ready s ∧ isRx 96 = true ∧ isAes 96 = true ∧ sideWorks s 96 (sideA false) = true)),
    (let s : State := sideOn 94 { sideA false with wordL := 3, wordR := 4, glitchRun := 1 } (runs .A State.reset); decide (Ready s ∧ sideWorks s 94 (sideA false) = true ∧ sideMaster 94 (sideA false) = false ∧ waveGood 94 (sideA false) (.serial (serialBits true 1 0x7FFFFF (-0x800000) false)) = false))].all id = true := by decide +kernel
theorem wit_PortSides_2 : [
    (let s : State := fldSet CTL_CAT_STATUS CTL_CAT_STATUS_state 5 (sideOn 1 { sideA true with sending := some true, wordL := 0x7FFF_FFFF_FFFF_FFFF, gain := unityG, fadeFrom := unityG, fadeTo := unityG, frames := 1 } (fldSet (PRT_SIDE_STATUS 1) PRT_SIDE_STATUS_state 2 (runs .A State.reset))); let d := { sideA true with sending := some true, wordL := 0x7FFF_FFFF_FFFF_FFFF, gain := unityG, fadeFrom := unityG, fadeTo := unityG, frames := 1 }; decide (Ready s ∧ sideWorks s 1 d = true ∧ outputsOpen s = true ∧ sideMaster 1 d = true ∧ isRx 1 = false ∧ sideDrives s 1 = true ∧ side s 1 = some d)),
    (let s : State := fldSet CTL_CAT_STATUS CTL_CAT_STATUS_state 5 (sideOn 1 { sideA true with sending := some false, sentL := 0x3FFF_FFFF_FFFF_FFFF, sentN := 8, gain := unityG, fadeFrom := unityG, fadeTo := unityG, lastBit := true, frames := 1 } (fldSet (PRT_SIDE_STATUS 1) PRT_SIDE_STATUS_state 2 (runs .A State.reset))); let d := { sideA true with sending := some false, sentL := 0x3FFF_FFFF_FFFF_FFFF, sentN := 8, gain := unityG, fadeFrom := unityG, fadeTo := unityG, lastBit := true, frames := 1 }; decide (Ready s ∧ sideWorks s 1 d = true ∧ outputsOpen s = true ∧ sideMaster 1 d = true ∧ isRx 1 = false ∧ sideDrives s 1 = true)),
    (let s : State := fldSet CTL_CAT_STATUS CTL_CAT_STATUS_state 5 (sideOn 128 { sideA true with sending := some true, wordL := 0x3FFF_FFFF_FFFF_FFFF, gain := unityG, fadeFrom := unityG, fadeTo := unityG, frames := 1 } (fldSet (PRT_SIDE_STATUS 128) PRT_SIDE_STATUS_state 2 (runs .A State.reset))); let d := { sideA true with sending := some true, wordL := 0x3FFF_FFFF_FFFF_FFFF, gain := unityG, fadeFrom := unityG, fadeTo := unityG, frames := 1 }; decide (Ready s ∧ sideWorks s 128 d = true ∧ outputsOpen s = true ∧ sideMaster 128 d = true ∧ isRx 128 = false ∧ isAes 128 = true ∧ sideDrives s 128 = true ∧ side s 128 = some d ∧ nowIdx s .A = 9)),
    (let s : State := fldSet CTL_CAT_STATUS CTL_CAT_STATUS_state 5 (sideOn 1 { sideA false with frames := 0 } (runs .A State.reset)); decide (Ready s ∧ sideWorks s 1 (sideA false) = true ∧ outputsOpen s = true ∧ sideMaster 1 (sideA false) = false ∧ isRx 1 = false)),
    (let s : State := fldSet (PRT_SIDE_STATUS 0) PRT_SIDE_STATUS_state 2 (sideOn 0 { sideA false with glitchRun := 2 } (runs .A State.reset)); decide (Ready s ∧ sideQuietTick s 0 = some { sideA false with glitchRun := 2 })),
    (let s : State := fldSet (PRT_SIDE_STATUS 0) PRT_SIDE_STATUS_state 2 (sideOn 0 { sideA false with glitchRun := 0 } (runs .A State.reset)); decide (Ready s ∧ (sideQuietTick s 0).isSome))].all id = true := by decide +kernel
theorem wit_PortSides_3 : [
    (let s : State := { fldSet (PRT_SIDE_STATUS 0) PRT_SIDE_STATUS_state stSTARTING (sideOn 0 (sideA false) (runs .A State.reset)) with due := [.sideLock 0] }; decide (awake s = true ∧ s.due.contains (.sideLock 0) = true ∧ sideState s 0 ≠ stLOCKED)),
    (let s : State := { fldSet (PRT_SIDE_STATUS 0) PRT_SIDE_STATUS_muted 1 (sideOn 0 { sideA false with gain := unityG } (runs .A State.reset)) with due := [.sideFade 0] }; decide (awake s = true ∧ s.due.contains (.sideFade 0) = true)),
    (let s : State := sideOn 0 (sideA false) State.reset; decide (Ready s ∧ regOn s (PRT_SIDE_MASK 159) = true)),
    (let s : State := fldSet (PRT_SIDE_MASK 0) ⟨0, 2⟩ 2 (sideOn 0 (sideA false) State.reset); decide (Ready s ∧ (side s 0).isSome ∧ inFrame s 0 (sideA false) = false)),
    (let s : State := fldSet (PRT_SIDE_MASK 1) ⟨0, 2⟩ 2 (sideOn 1 { sideA false with sending := some true } (runs .A State.reset)); decide (Ready s ∧ (side s 1).isSome ∧ inFrame s 1 { sideA false with sending := some true } = true)),
    (let s : State := { State.reset with prt := { State.reset.prt with gpSent := 0xFFFF_FFFF } }; decide (Ready s ∧ regOn s PRT_GP_SENT_CLR = true))].all id = true := by decide +kernel
theorem wit_PortSides_4 : [
    (let s : State := State.reset; decide (Ready s)),
    (let s : State := fldSet (PRT_GP_CFG 31) PRT_GP_CFG_function 2 (ticketsOut State.reset); decide (Ready s ∧ fget s (PRT_GP_CFG 31) PRT_GP_CFG_function = 2 ∧ ticketsFull s = true)),
    (let s : State := fldSet (PRT_GP_CFG 31) PRT_GP_CFG_function 2 { State.reset with ctl := { State.reset.ctl with seq := [(0x21, 65535)] } }; decide (Ready s ∧ fget s (PRT_GP_CFG 31) PRT_GP_CFG_function = 2 ∧ ticketsFull s = false))].all id = true := by decide +kernel
theorem wit_NetworkPorts_1 : [
    (let s : State := State.reset; decide (Ready s ∧ regOn s (NET_GRP_CFG 1) = true ∧ fbit s (NET_GRP_CFG 1) NET_GRP_CFG_enable = false)),
    (let s : State := regsSet [(NET_PORT_STATUS 4, 8), (NET_PORT_STATUS 6, 8)] (fldSet (NET_GRP_CFG 1) NET_GRP_CFG_enable 1 State.reset); decide (Ready s ∧ regOn s (NET_GRP_CFG 1) = true ∧ fbit s (NET_GRP_CFG 1) NET_GRP_CFG_enable = true)),
    (let s : State := regsSet [(NET_PORT_STATUS 7, 8)] State.reset; decide (Ready s ∧ netOn s = true ∧ portPresent s 7 = true ∧ laneSupply s = true)),
    (let s : State := fldSet (NET_PORT_STATUS 7) NET_PORT_STATUS_up 1 (regsSet [(NET_PORT_STATUS 7, 8)] State.reset); decide (Ready s ∧ portPresent s 7 = true)),
    (let s : State := fldSet (NET_PORT_STATUS 7) NET_PORT_STATUS_up 1 State.reset; decide (Ready s ∧ netOn s = true ∧ portUp s 7 = true)),
    (let s : State := fldSet (NET_PORT_STATUS 7) NET_PORT_STATUS_up 1 (regsSet [(NET_PORT_MAC_LO 7, 0x0405_0607), (NET_PORT_MAC_HI 7, 0x0203)] State.reset); let bytes : List Byte := [2, 3, 4, 5, 6, 7, 0, 0, 0, 0, 0, 1, 0x12, 0x34] ++ List.replicate 46 0; decide (Ready s ∧ netOn s = true ∧ portUp s 7 = true ∧ 60 ≤ bytes.length ∧ oct bytes 0 6 = portMac s 7 ∧ portMac s 7 ≠ 0 ∧ oct bytes 0 1 % 2 = 0))].all id = true := by decide +kernel
theorem wit_NetworkPorts_2 : [
    (let s : State := fldSet (NET_PORT_STATUS 7) NET_PORT_STATUS_up 1 (regsSet [(NET_PORT_MAC_LO 7, 0x0405_0607), (NET_PORT_MAC_HI 7, 0x0203)] { State.reset with net := { State.reset.net with members := [⟨7, grpKey 0xE0000005 false, none, [⟨some [], none, 2⟩], false⟩] } }); let m : Member := ⟨7, grpKey 0xE0000005 false, none, [⟨some [], none, 2⟩], false⟩; decide (Ready s ∧ netOn s = true ∧ portUp s 7 = true ∧ portMac s 7 ≠ 0 ∧ memberOf s 7 (grpKey 0xE0000005 false) = some m)),
    (let s : State := fldSet (NET_PORT_STATUS 7) NET_PORT_STATUS_up 1 (regsSet [(NET_PORT_MAC_LO 7, 0x0405_0607), (NET_PORT_MAC_HI 7, 0x0203)] { State.reset with net := { State.reset.net with members := [⟨7, 5, some [], [⟨some [3], some [], 1⟩], false⟩] } }); let m : Member := ⟨7, 5, some [], [⟨some [3], some [], 1⟩], false⟩; decide (Ready s ∧ netOn s = true ∧ portUp s 7 = true ∧ portMac s 7 ≠ 0 ∧ memberOf s 7 5 = some m)),
    (let s : State := fldSet (NET_PORT_STATUS 7) NET_PORT_STATUS_up 1 (regsSet [(NET_PORT_MAC_LO 7, 0x0405_0607), (NET_PORT_MAC_HI 7, 0x0203)] { State.reset with net := { State.reset.net with members := [⟨7, 5, some [4], [⟨some [3], some [4], 1⟩, ⟨some [], some [3], 2⟩], false⟩] } }); let m : Member := ⟨7, 5, some [4], [⟨some [3], some [4], 1⟩, ⟨some [], some [3], 2⟩], false⟩; decide (Ready s ∧ memberOf s 7 5 = some m)),
    (let s : State := fldSet (NET_PORT_STATUS 7) NET_PORT_STATUS_up 1 { State.reset with net := { State.reset.net with members := [⟨7, 5, some [3], [], false⟩, ⟨7, grpKey 4 false, some [3], [], false⟩] } }; decide (Ready s ∧ portUp s 7 = true)),
    (let s : State := { State.reset with net := { State.reset.net with members := [⟨7, 5, some [3], [], false⟩] } }; decide (Ready s ∧ portUp s 7 = false)),
    (let s : State := fldSet (NET_PORT_STATUS 7) NET_PORT_STATUS_up 1 { State.reset with net := { State.reset.net with members := [⟨7, grpKey 4 false, some [3], [⟨some [], some [3], 2⟩], false⟩] } }; decide (Ready s ∧ portUp s 7 = true))].all id = true := by decide +kernel
theorem wit_NetworkPorts_3 : [
    (let s : State := fldSet (NET_PORT_STATUS 7) NET_PORT_STATUS_up 1 (regsSet [(NET_PORT_MAC_LO 7, 0x0405_0607), (NET_PORT_MAC_HI 7, 0x0203)] { State.reset with net := { State.reset.net with members := [⟨7, 5, some [3], [], true⟩] } }); decide (Ready s ∧ netOn s = true ∧ portUp s 7 = true ∧ portMac s 7 ≠ 0)),
    (let s : State := fldSet (NET_PORT_STATUS 7) NET_PORT_STATUS_up 1 (fldSet NET_MGMT_CFG NET_MGMT_CFG_enable 1 (fldSet NET_MGMT_CFG NET_MGMT_CFG_port_mask 0x80 State.reset)); decide (Ready s ∧ fbit s NET_MGMT_CFG NET_MGMT_CFG_enable = true ∧ bitOf (fget s NET_MGMT_CFG NET_MGMT_CFG_port_mask) 7 = true ∧ portUp s 7 = true ∧ mgmtAllowed s 9 = false)),
    (let s : State := regsSet [(NET_MGMT_ALLOW 0, 9)] (fldSet (NET_PORT_STATUS 7) NET_PORT_STATUS_up 1 (fldSet NET_MGMT_CFG NET_MGMT_CFG_enable 1 (fldSet NET_MGMT_CFG NET_MGMT_CFG_port_mask 0x80 State.reset))); let msg : List Byte := [0x46, 0x5A, 1, 1, 0, 0, 0, 0, 64, 0, 0, 0, 0, 0, 0, 0] ++ [0x02, 0x07] ++ List.replicate 62 0; decide (Ready s ∧ mgmtAllowed s 9 = true ∧ mgmtError msg = 0 ∧ ticketsFull s = false))].all id = true := by decide +kernel
theorem wit_NetworkFlows_1 : [
    (let s : State := State.reset; let code := flowRefusal s false (rd s (NET_RXF_CFG 1023)) 0 (List.replicate 32 0); decide (Ready s ∧ regOn s (NET_RXF_CTRL 1023) = true ∧ rxFlow s 1023 = none ∧ code = 1)),
    (let s : State := regsSet [(NET_PORT_STATUS 0, 8), (NET_RXF_CFG 1023, rxA.cfg), (NET_RXF_TIMING 1023, rxA.timing)] (runs .A State.reset); let code := flowRefusal s false (rd s (NET_RXF_CFG 1023)) (wget (rd s (NET_RXF_TIMING 1023)) NET_RXF_TIMING_spp) ((List.range 32).map (fun j => rd s (NET_RXLEG (2 * 1023 + j / 16) (j % 16)))); decide (Ready s ∧ regOn s (NET_RXF_CTRL 1023) = true ∧ rxFlow s 1023 = none ∧ code = 0)),
    (let s : State := rxOn 1023 rxA (runs .A State.reset); decide (Ready s ∧ regOn s (NET_RXF_CTRL 1023) = true ∧ (rxFlow s 1023).isSome)),
    (let s : State := regsSet [(NET_PORT_STATUS 0, 8), (NET_TXF_CFG 1023, (txA 0).cfg), (NET_TXF_PKT 1023, (txA 0).pkt)] (runs .A State.reset); let code := flowRefusal s true (rd s (NET_TXF_CFG 1023)) (wget (rd s (NET_TXF_PKT 1023)) NET_TXF_PKT_spp) ((List.range 32).map (fun j => rd s (NET_TXLEG (2 * 1023 + j / 16) (j % 16)))); decide (Ready s ∧ regOn s (NET_TXF_CTRL 1023) = true ∧ txFlow s 1023 = none ∧ code = 0)),
    (let s : State := txOn 1023 (txA 12) (runs .A State.reset); decide (Ready s ∧ regOn s (NET_TXF_CTRL 1023) = true ∧ (txFlow s 1023).isSome ∧ nowIdx s .A < 12)),
    (let s : State := txOn 1023 (txA 6) (runs .A State.reset); decide (Ready s ∧ (txFlow s 1023).isSome ∧ 6 ≤ nowIdx s .A ∧ (genOf s .A).last.isSome = true))].all id = true := by decide +kernel
theorem wit_NetworkFlows_2 : [
    (let s : State := fldSet (NET_PORT_STATUS 0) NET_PORT_STATUS_up 1 (rxOn 1023 rxA (runs .A State.reset)); decide (Ready s ∧ portUp s (lgPort (legWord rxA.legs 0)) = true ∧ netOn s = true ∧ (rtpParse [1, 2, 3]).isNone ∧ legEn rxA.cfg 0 = true)),
    (let s : State := fldSet (NET_PORT_STATUS 0) NET_PORT_STATUS_up 1 (rxOn 1023 rxA { runs .A State.reset with tim := { (runs .A State.reset).tim with gens := pdSet State.reset.tim.gens .A ⟨true, 1, false, 1001, some 1000, 0⟩ } }); decide (Ready s ∧ portUp s (lgPort (legWord rxA.legs 0)) = true ∧ (rtpParse (rtpA 7 952 (List.replicate 18 1))).map (fun k => (k.pt, k.ts, k.body.length)) = some (97, 952, 18) ∧ linkTicks s rxA = 48)),
    (let s : State := fldSet (NET_PORT_STATUS 0) NET_PORT_STATUS_up 1 (rxOn 1023 rxA { runs .A State.reset with tim := { (runs .A State.reset).tim with gens := pdSet State.reset.tim.gens .A ⟨true, 1, false, 1001, some 1000, 0⟩ } }); decide (Ready s ∧ portUp s (lgPort (legWord rxA.legs 0)) = true ∧ (rtpParse (rtpA 7 5043 (List.replicate 18 1))).map (fun k => (k.pt, k.ts, k.body.length)) = some (97, 5043, 18))),
    (let s : State := fldSet (NET_PORT_STATUS 0) NET_PORT_STATUS_up 1 (rxOn 1023 rxA { regsSet [(NET_MAP 4095, 17)] (runs .A State.reset) with tim := { (runs .A State.reset).tim with gens := pdSet State.reset.tim.gens .A ⟨true, 1, false, 1001, some 1000, 0⟩ } }); let m := 1000 - 48 + 4095 - 5; decide (Ready s ∧ portUp s (lgPort (legWord rxA.legs 0)) = true ∧ mapChan s 4095 m = 17 ∧ chanFlow s 17 (fun g r => if g = 1023 then m else playIdx s r) = some (1023, 4095))),
    (let s : State := rxOn 1023 { rxA with lastWrite := some 0, window := [9], below := 8 } { runs .A State.reset with tim := { (runs .A State.reset).tim with gens := pdSet State.reset.tim.gens .A ⟨true, 1, false, 385, some 384, 0⟩ } }; decide (Ready s ∧ (rxFlow s 1023).isSome ∧ 0 + 64 * rxS rxA < rxNext s 1023)),
    (let s : State := fldSet (NET_RXF_STATUS 1023) NET_RXF_STATUS_leg1_up 1 (rxOn 1023 { rxA with lastLeg0 := some 0, lastLeg1 := some 0 } { runs .A State.reset with tim := { (runs .A State.reset).tim with gens := pdSet State.reset.tim.gens .A ⟨true, 1, false, 385, some 384, 0⟩ } }); decide (Ready s ∧ 0 + 16 * rxS rxA < rxNext s 1023))].all id = true := by decide +kernel
theorem wit_NetworkFlows_3 : [
    (let s : State := fldSet CTL_CAT_STATUS CTL_CAT_STATUS_state 5 { regsSet [(NET_PORT_STATUS 0, 8), (NET_PORT_MAC_LO 0, 7)] (txOn 3 (txA 0) (runs .A State.reset)) with due := [.txSend 3] }; decide (awake s = true ∧ s.due.contains (.txSend 3) = true ∧ (genOf s .A).last.isSome = true ∧ 0 + txS (txA 0) ≤ nowIdx s .A ∧ outputsOpen s = true ∧ txLegs s (txA 0).cfg (txA 0).legs = [(0, 0)] ∧ arrBad s 9 (queueWord 0) = false)),
    (let s : State := fldSet CTL_CAT_STATUS CTL_CAT_STATUS_state 5 { fldSet (NET_PORT_STATUS 0) NET_PORT_STATUS_up 1 (regsSet [(NET_PORT_STATUS 0, 8), (NET_PORT_MAC_LO 0, 7)] (txOn 3 (txA 0) (runs .A State.reset))) with due := [.txSend 3] }; decide (awake s = true ∧ s.due.contains (.txSend 3) = true ∧ (genOf s .A).last.isSome = true ∧ 0 + txS (txA 0) ≤ nowIdx s .A ∧ outputsOpen s = true ∧ txLegs s (txA 0).cfg (txA 0).legs = [(0, 0)] ∧ arrBad s 9 (queueWord 0) = false ∧ portUp s 0 = true ∧ portMac s 0 ≠ 0 ∧ netOn s = true ∧ smGet 0 s.net.txFree 0 + lineTime s 0 (78 + 18 + 24) ≤ s.tim.elapsed + (tickIn s .A 7).toNat))].all id = true := by decide +kernel
theorem wit_LinkBringUp_1 : [
    (let s : State := lk 1 lkDISABLED State.reset; decide (Ready s ∧ regOn s (DAX_LINK_CFG 1) = true ∧ linkState s 1 ≠ lkWAKE ∧ linkEnabled s 1 = false ∧ linkEnabled (fieldsWrite s (DAX_LINK_CFG 1) (BitVec.ofNat 32 (2 ^ DAX_LINK_CFG_enable.lo))) 1 = true)),
    (let s : State := lk 1 lkUP (fldSet (DAX_LINK_CFG 1) DAX_LINK_CFG_enable 1 State.reset); decide (Ready s ∧ regOn s (DAX_LINK_CFG 1) = true ∧ linkEnabled s 1 = true ∧ linkEnabled (fieldsWrite s (DAX_LINK_CFG 1) 0) 1 = false)),
    (let s : State := lk 1 lkSIGNAL (fldSet (DAX_WAKE 1) DAX_WAKE_detected 1 State.reset); decide (Ready s ∧ linkState s 1 = lkSIGNAL)),
    (let s : State := lk 0 lkBLOCK State.reset; decide (Ready s ∧ linkState s 0 = lkBLOCK)),
    (let s : State := lk 0 lkALIGN State.reset; decide (Ready s ∧ linkState s 0 = lkALIGN ∧ markersOk (marksAt 32) = true)),
    (let s : State := lk 0 lkALIGN State.reset; decide (Ready s ∧ linkState s 0 = lkALIGN))].all id = true := by decide +kernel
theorem wit_LinkBringUp_2 : [
    (let s : State := lk 1 lkUP (fldSet (DAX_LINK_CFG 1) DAX_LINK_CFG_enable 1 { State.reset with dax := { State.reset.dax with link1 := { State.reset.dax.link1 with frames := [⟨.A, 3, []⟩] } } }); decide (Ready s ∧ linkState s 1 = lkUP)),
    (let s : State := lk 1 lkBLOCK (fldSet (DAX_LINK_CFG 1) DAX_LINK_CFG_enable 1 State.reset); decide (Ready s ∧ linkState s 1 = lkBLOCK)),
    (let s : State := lk 1 lkIDENT { State.reset with tim := { State.reset.tim with freiz := 2 ^ 40 }, dax := { State.reset.dax with link1 := { State.reset.dax.link1 with engineId := 77, identTx := [5], identRx := some (9, 4) } } }; decide (Ready s ∧ linkState s 1 = lkIDENT)),
    (let s : State := lk 1 lkIDENT { State.reset with tim := { State.reset.tim with freiz := 2 ^ 40 }, dax := { State.reset.dax with link1 := { State.reset.dax.link1 with identTx := [5] } } }; let body : List (BitVec 64) := [77, 9, 5, 0]; decide (Ready s ∧ linkState s 1 = lkIDENT ∧ (msgOf (BitVec.ofNat 64 (1 * 2 ^ 8 + 4 * 2 ^ 31)) body).type = 1 ∧ bitsOf (BitVec.ofNat 64 (1 * 2 ^ 8 + 4 * 2 ^ 31)).toNat 31 7 = 4 ∧ fbit s (DAX_LINK_CFG 1) DAX_LINK_CFG_peer_check = false ∧ lineMsg s 1 (lineMsgOf (BitVec.ofNat 64 (1 * 2 ^ 8 + 4 * 2 ^ 31)) [77, 9, 5, 0] (crc32c (wordBytes [77, 9, 5, 0]))) = some ⟨(BitVec.ofNat 64 (1 * 2 ^ 8 + 4 * 2 ^ 31)) + 0xE1, [77, 9, 5, 0], some (crc32c (wordBytes [77, 9, 5, 0]))⟩)),
    (let s : State := lk 1 lkIDENT (fldSet (DAX_LINK_CFG 1) DAX_LINK_CFG_peer_check 1 { State.reset with dax := { State.reset.dax with link1 := { State.reset.dax.link1 with identTx := [5] } } }); decide (Ready s ∧ fbit s (DAX_LINK_CFG 1) DAX_LINK_CFG_peer_check = true ∧ 77 ≠ fget s (DAX_LINK_CFG 1) DAX_LINK_CFG_peer_id ∧ lineMsg s 1 (lineMsgOf (BitVec.ofNat 64 (1 * 2 ^ 8 + 4 * 2 ^ 31)) [77, 9, 5, 0] (crc32c (wordBytes [77, 9, 5, 0]))) = some ⟨(BitVec.ofNat 64 (1 * 2 ^ 8 + 4 * 2 ^ 31)) + 0xE1, [77, 9, 5, 0], some (crc32c (wordBytes [77, 9, 5, 0]))⟩)),
    (let s : State := lk 1 lkIDENT State.reset; decide (Ready s ∧ regOn s (DAX_WAKE 1) = true ∧ linkState s 1 ≠ lkUP))].all id = true := by decide +kernel
theorem wit_LinkBringUp_3 : [
    (let s : State := lk 1 lkWAKE (fldSet (DAX_LINK_CFG 1) DAX_LINK_CFG_enable 1 State.reset); decide (Ready s ∧ linkState s 1 = lkWAKE ∧ linkEnabled s 1 = true)),
    (let s : State := lk 1 lkWAKE State.reset; decide (Ready s ∧ linkState s 1 = lkWAKE ∧ linkEnabled s 1 = false)),
    (let s : State := State.reset; decide (Ready s ∧ domOn s 12 = true))].all id = true := by decide +kernel
theorem wit_LinkTraffic_1 : [
    (let s : State := lk 1 lkUP (runs .A State.reset); let f : LinkUnit := ⟨(BitVec.ofNat 64 (2 ^ 12 + 1 * 2 ^ 8)) + 0xD1, [11], some (crc32c (wordBytes ([11])))⟩; decide (Ready s ∧ lineFrame s 1 (lineFrameOf (BitVec.ofNat 64 (2 ^ 12 + 1 * 2 ^ 8)) [11] (crc32c (wordBytes ([11])))) = some f ∧ linkState s 1 = lkUP ∧ frameFail s f = none ∧ domOf (bitsOf f.header.toNat 12 2) = some .A)),
    (let s : State := lk 1 lkUP (runs .A State.reset); let f : LinkUnit := ⟨(BitVec.ofNat 64 (2 ^ 12 + 1 * 2 ^ 8)) + 0xD1, [7], some (crc32c (wordBytes ([7])))⟩; decide (Ready s ∧ lineFrame s 1 (lineFrameOf (BitVec.ofNat 64 (2 ^ 12 + 1 * 2 ^ 8)) [7] (crc32c (wordBytes ([7])))) = some f ∧ linkState s 1 = lkUP ∧ frameFail s f = some 3)),
    (let s : State := lk 1 lkUP (runs .A State.reset); let f : LinkUnit := ⟨(BitVec.ofNat 64 (2 ^ 12 + 1 * 2 ^ 8)) + 0xD1, [12], some (crc32c (wordBytes ([12])))⟩; decide (Ready s ∧ lineFrame s 1 (lineFrameOf (BitVec.ofNat 64 (2 ^ 12 + 1 * 2 ^ 8)) [12] (crc32c (wordBytes ([12])))) = some f ∧ frameFail s f = some 4)),
    (let s : State := lk 1 lkUP (runs .A State.reset); let f : LinkUnit := ⟨(BitVec.ofNat 64 (2 ^ 12 + 2 * 2 ^ 8)) + 0xD1, [11], some (crc32c (wordBytes ([11])))⟩; decide (Ready s ∧ lineFrame s 1 (lineFrameOf (BitVec.ofNat 64 (2 ^ 12 + 2 * 2 ^ 8)) [11] (crc32c (wordBytes ([11])))) = some f ∧ frameFail s f = some 2)),
    (let s : State := lk 1 lkUP (runs .A State.reset); let f : LinkUnit := ⟨(0) + 0xD1, [11], some (5)⟩; decide (Ready s ∧ lineFrame s 1 (lineFrameOf (0) [11] (5)) = some f ∧ frameFail s f = some 1)),
    (let s : State := lk 0 lkUP { State.reset with dax := { State.reset.dax with link0 := { State.reset.dax.link0 with queue := [⟨0x10, 0, false, 0, 1, [1]⟩, ⟨0x30, 0, false, 0, 1, [2]⟩, ⟨0x21, 0, false, 0, 1, [3]⟩, ⟨0x20, 0, false, 0, 1, [4]⟩, ⟨0x21, 0, false, 0, 1, [5]⟩] } } }; decide (Ready s ∧ linkState s 0 = lkUP ∧ msgNext (daxLink s 0).queue = some 2))].all id = true := by decide +kernel
theorem wit_LinkTraffic_2 : [
    (let s : State := lk 1 lkUP State.reset; decide (Ready s ∧ linkState s 1 = lkUP ∧ (0 : BitVec 32) ≠ crc32c (wordBytes [7]) ∧ lineMsg s 1 (lineMsgOf (BitVec.ofNat 64 (0x10 * 2 ^ 8 + 2 ^ 31)) [7] 0) = some ⟨(BitVec.ofNat 64 (0x10 * 2 ^ 8 + 2 ^ 31)) + 0xE1, [7], some 0⟩)),
    (let s : State := lk 1 lkUP State.reset; let hdr := BitVec.ofNat 64 (0x10 * 2 ^ 8 + fget s DAX_ID DAX_ID_engine_id * 2 ^ 16 + 2 ^ 31); decide (Ready s ∧ linkState s 1 = lkUP ∧ (msgOf hdr [7]).type = 0x10 ∧ (msgOf hdr [7]).bcast = false ∧ (msgOf hdr [7]).dest = fget s DAX_ID DAX_ID_engine_id ∧ bitsOf hdr.toNat 31 7 = 1 ∧ lineMsg s 1 (lineMsgOf (BitVec.ofNat 64 (0x10 * 2 ^ 8 + fget State.reset DAX_ID DAX_ID_engine_id * 2 ^ 16 + 2 ^ 31)) [7] (crc32c (wordBytes [7]))) = some ⟨(BitVec.ofNat 64 (0x10 * 2 ^ 8 + fget State.reset DAX_ID DAX_ID_engine_id * 2 ^ 16 + 2 ^ 31)) + 0xE1, [7], some (crc32c (wordBytes [7]))⟩)),
    (let s : State := lk 1 lkUP State.reset; let hdr := BitVec.ofNat 64 (0x20 * 2 ^ 8 + 2 * 2 ^ 31); decide (Ready s ∧ (msgOf hdr [0x1005, 7]).type = 0x20 ∧ (msgOf hdr [7]).src = fget s (DAX_LINK_STATUS 1) DAX_LINK_STATUS_peer_seen ∧ twnMode s = 0 ∧ lineMsg s 1 (lineMsgOf (BitVec.ofNat 64 (0x20 * 2 ^ 8 + 2 * 2 ^ 31)) [0x1005, 7] (crc32c (wordBytes [0x1005, 7]))) = some ⟨(BitVec.ofNat 64 (0x20 * 2 ^ 8 + 2 * 2 ^ 31)) + 0xE1, [0x1005, 7], some (crc32c (wordBytes [0x1005, 7]))⟩)),
    (let s : State := lk 0 lkUP (fldSet TWN_CFG TWN_CFG_mode 1 State.reset); let hdr := BitVec.ofNat 64 (0x20 * 2 ^ 8 + 2 * 2 ^ 31); decide (Ready s ∧ (msgOf hdr [0x1005, 7]).type = 0x20 ∧ (msgOf hdr [7]).src = fget s (DAX_LINK_STATUS 0) DAX_LINK_STATUS_peer_seen ∧ twnMode s ≠ 0 ∧ provEntries [0x1005, 7] = [⟨.A, 0, 5, 7, false⟩] ∧ findTag s.twn.own ⟨.A, 0, 5, 7, false⟩ = none ∧ lineMsg s 0 (lineMsgOf (BitVec.ofNat 64 (0x20 * 2 ^ 8 + 2 * 2 ^ 31)) [0x1005, 7] (crc32c (wordBytes [0x1005, 7]))) = some ⟨(BitVec.ofNat 64 (0x20 * 2 ^ 8 + 2 * 2 ^ 31)) + 0xE1, [0x1005, 7], some (crc32c (wordBytes [0x1005, 7]))⟩)),
    (let s : State := lk 0 lkUP (fldSet TWN_CFG TWN_CFG_mode 1 { State.reset with twn := { State.reset.twn with own := [⟨.A, 0, 5, 7, false⟩] } }); decide (Ready s ∧ twnMode s ≠ 0 ∧ provEntries [0x1005, 7] = [⟨.A, 0, 5, 7, false⟩] ∧ (findTag s.twn.own ⟨.A, 0, 5, 7, false⟩).isSome ∧ lineMsg s 0 (lineMsgOf (BitVec.ofNat 64 (0x20 * 2 ^ 8 + 2 * 2 ^ 31)) [0x1005, 7] (crc32c (wordBytes [0x1005, 7]))) = some ⟨(BitVec.ofNat 64 (0x20 * 2 ^ 8 + 2 * 2 ^ 31)) + 0xE1, [0x1005, 7], some (crc32c (wordBytes [0x1005, 7]))⟩)),
    (let s : State := lk 0 lkUP (fldSet TWN_CFG TWN_CFG_role 1 (fldSet TWN_CFG TWN_CFG_mode 1 (runsAB (brOn 255 { brAB true with blocks := 5, block := 20 } State.reset)))); let hdr := BitVec.ofNat 64 (0x21 * 2 ^ 8 + 2 ^ 31); let w := BitVec.ofNat 64 (255 * 2 ^ 56 + 3 * 2 ^ 52 + 99); decide (Ready s ∧ (msgOf hdr [w]).type = 0x21 ∧ (msgOf hdr [w]).src = fget s (DAX_LINK_STATUS 0) DAX_LINK_STATUS_peer_seen ∧ isTwin s = true ∧ ratioOwner s = false ∧ (bridge s 255).isSome ∧ lineMsg s 0 (lineMsgOf (BitVec.ofNat 64 (0x21 * 2 ^ 8 + 2 ^ 31)) [BitVec.ofNat 64 (255 * 2 ^ 56 + 3 * 2 ^ 52 + 99)] (crc32c (wordBytes [BitVec.ofNat 64 (255 * 2 ^ 56 + 3 * 2 ^ 52 + 99)]))) = some ⟨(BitVec.ofNat 64 (0x21 * 2 ^ 8 + 2 ^ 31)) + 0xE1, [BitVec.ofNat 64 (255 * 2 ^ 56 + 3 * 2 ^ 52 + 99)], some (crc32c (wordBytes [BitVec.ofNat 64 (255 * 2 ^ 56 + 3 * 2 ^ 52 + 99)]))⟩))].all id = true := by decide +kernel
theorem wit_LinkTraffic_3 : [
    (let s : State := lk 0 lkUP (fldSet TWN_CFG TWN_CFG_mode 1 State.reset); let hdr := BitVec.ofNat 64 (0x30 * 2 ^ 8 + 2 * 2 ^ 31); decide (Ready s ∧ (msgOf hdr [0xFFFF_FFFF_FFFF_FFFE, 9]).type = 0x30 ∧ (msgOf hdr []).src = fget s (DAX_LINK_STATUS 0) DAX_LINK_STATUS_peer_seen ∧ isTwin s = true ∧ lineMsg s 0 (lineMsgOf (BitVec.ofNat 64 (0x30 * 2 ^ 8 + 2 * 2 ^ 31)) [0xFFFF_FFFF_FFFF_FFFE, 9] (crc32c (wordBytes [0xFFFF_FFFF_FFFF_FFFE, 9]))) = some ⟨(BitVec.ofNat 64 (0x30 * 2 ^ 8 + 2 * 2 ^ 31)) + 0xE1, [0xFFFF_FFFF_FFFF_FFFE, 9], some (crc32c (wordBytes [0xFFFF_FFFF_FFFF_FFFE, 9]))⟩)),
    (let s : State := regsSet [(DAX_TXMAP 1 8191, 0x8000_1234)] State.reset; decide (Ready s ∧ regOn s (DAX_TXMAP 1 8191) = true ∧ wbit 0x0000_1FFF DAX_TXMAP_valid = false)),
    (let s : State := regsSet [(DAX_TXMAP 1 8191, 0x8000_1234)] State.reset; decide (Ready s ∧ wbit 0x8000_109F DAX_TXMAP_valid = true ∧ wget 0x8000_109F DAX_TXMAP_entry < 4256)),
    (let s : State := regsSet [(DAX_PS 1 4095, BitVec.ofNat 32 (2 ^ DAX_PS_valid.lo + 2 ^ DAX_PS_tx.lo + 8190 * 2 ^ DAX_PS_channel.lo))] State.reset; decide (Ready s ∧ wbit 0x8000_10A0 DAX_TXMAP_valid = true ∧ wget 0x8000_10A0 DAX_TXMAP_entry = 4256 ∧ (psOthers s 1 true none).any (fun p => wget p DAX_PS_channel / 2 == 8191 / 2) = true)),
    (let s : State := State.reset; decide (Ready s ∧ wget 0x8000_10A0 DAX_TXMAP_entry = 4256 ∧ (psOthers s 1 true none).any (fun p => wget p DAX_PS_channel / 2 == 8191 / 2) = false ∧ linkFits 1 (fieldsWrite s (DAX_TXMAP 1 8191) 0x8000_10A0) = true)),
    (let s : State := regsSet [(DAX_TXMAP 1 8191, 0x8000_1234), (DAX_TXMAP 0 3, 0x8000_1234)] State.reset; decide (Ready s))].all id = true := by decide +kernel
theorem wit_LinkTraffic_4 : [
    (let s : State := regsSet [(DAX_PS 1 4095, 5)] State.reset; decide (Ready s ∧ regOn s (DAX_PS 1 4095) = true ∧ wbit 0x0000_FFFF DAX_PS_valid = false)),
    (let s : State := regsSet [(DAX_PS 1 4095, 5)] State.reset; decide (Ready s)),
    (let s : State := State.reset; let w : W32 := BitVec.ofNat 32 (2 ^ DAX_PS_valid.lo + 8190 * 2 ^ DAX_PS_channel.lo + 4095 * 2 ^ DAX_PS_d_slot.lo); decide (Ready s ∧ wget w DAX_PS_channel = 8190 ∧ wbit w DAX_PS_tx = false ∧ psOthers s 1 false (some 4095) = [] ∧ psOthers s 0 false none = [] ∧ linkFits 1 (fieldsWrite s (DAX_PS 1 4095) w) = true))].all id = true := by decide +kernel
theorem wit_RegisterWrites_1 : [
    (let s : State := memSet 5 [1] State.reset; decide (Ready s ∧ regDecode (4 * TWN_CFG) = .reg TWN_CFG ∧ 4 * TWN_CFG % 4 = 0 ∧ (BitVec.ofNat 24 (4 * TWN_CFG)).toNat = 4 * TWN_CFG ∧ domOn s (powerOf (4 * TWN_CFG / 0x10_0000) (4 * TWN_CFG % 0x10_0000)) = true ∧ TWN_CFG / 0x40000 = 7 ∧ TWN_CFG ≠ TWN_CTRL ∧ isSealed s TWN_CFG = false)),
    (let s : State := State.reset; let o := 4 * SCN_REC_W0_LO; decide (Ready s ∧ o % 8 = 0 ∧ regDecode o = .reg (o / 4) ∧ regDecode (o + 4) = .reg (o / 4 + 1) ∧ o / 4 ∉ [SCN_GEN_CLAIM, SCN_REC_CMD, SCN_CMT_CTRL] ∧ o / 4 + 1 ∉ [SCN_GEN_CLAIM, SCN_REC_CMD, SCN_CMT_CTRL] ∧ o / 4 / 0x40000 = 12 ∧ (o / 4 + 1) / 0x40000 = 12 ∧ domOn s (powerOf (o / 0x10_0000) (o % 0x10_0000)) = true)),
    (let s : State := fldSet TWN_SEAL TWN_SEAL_role 1 State.reset; decide (Ready s ∧ regDecode (4 * TWN_CFG) = .reg TWN_CFG ∧ domOn s 1 = true ∧ isSealed s TWN_CFG = true)),
    (let s : State := State.reset; decide (Ready s ∧ (1 : Fin 4) < 2 ∧ 0x10_0002 % 2 ^ 1 = 0)),
    (let s : State := State.reset; decide (Ready s ∧ 0x10_0004 % 2 ^ 3 ≠ 0)),
    (let s : State := State.reset; decide (Ready s ∧ regDecode 0x0F_FFFC = .unmapped))].all id = true := by decide +kernel
theorem wit_RegisterWrites_2 : [
    (let s : State := fldSet (PWR_DOM_STATUS 13) PWR_DOM_STATUS_state 3 State.reset; decide (Ready s ∧ regDecode (4 * PRT_GP_OUT) = .reg PRT_GP_OUT ∧ domOn s (powerOf (4 * PRT_GP_OUT / 0x10_0000) (4 * PRT_GP_OUT % 0x10_0000)) = false)),
    (let s : State := State.reset; decide (Ready s)),
    (let s : State := State.reset; let o := 4 * SCN_REC_W0_LO; decide (Ready s ∧ regDecode (o / 4 * 4) = .reg (o / 4) ∧ o / 4 ∉ [SCN_GEN_CLAIM, SCN_REC_CMD, SCN_CMT_CTRL])),
    (let s : State := hartsOn 7 [(csrMTVEC, 0x4000_0101)] State.reset; decide (Ready s ∧ pmpLets s 7 0x1070_0000 4 false = true)),
    (let s : State := hartsOn 7 [(csrMTVEC, 0x4000_0101)] State.reset; decide (Ready s ∧ regDecode 0x0F_FFFC = .unmapped ∧ pmpLets s 7 0x100F_FFFC 4 true = true ∧ pmpLets s 7 0x1010_0004 8 true = true)),
    (let s : State := fldSet ATR_ERR_CAP ATR_ERR_CAP_valid 1 State.reset; decide (Ready s ∧ regOn s ATR_ERR_REARM = true ∧ wbit 1 ATR_ERR_REARM_rearm = true))].all id = true := by decide +kernel
theorem wit_RegisterWrites_3 : [
    (let s : State := regsSet [(SYS_INT_ROUTE 15, 0xFFFF_FFFF), (LDG_STATUS, 0x8000_0000), (LDG_INT_EN, 4), (CTL_MSIX_TABLE 127, 0), (CTL_MSIX_TABLE 126, 9)] State.reset; let v : Nat := fget s (SYS_INT_ROUTE 15) SYS_INT_ROUTE_vector; decide (Ready s ∧ regOn s SYS_INT_REARM = true ∧ v < 32 ∧ vecOr s (blocksPending s) v = true ∧ (rd s (CTL_MSIX_TABLE (4 * v + 3))).getLsbD 0 = false)),
    (let s : State := memSet 0x4000_0000 [7] (runs .A State.reset); let w : W32 := BitVec.ofNat 32 (0x52E7 * 2 ^ SYS_SW_RESET_key.lo + 2 ^ SYS_SW_RESET_reset.lo); decide (Ready s ∧ regOn s SYS_SW_RESET = true ∧ wbit w SYS_SW_RESET_reset = true ∧ wget w SYS_SW_RESET_key = 0x52E7)),
    (let s : State := memSet 0x4000_0000 [7] (runs .A State.reset); decide (Ready s ∧ regOn s SYS_SW_RESET = true ∧ wget 1 SYS_SW_RESET_key ≠ 0x52E7)),
    (let s : State := { regsSet [(CTL_BG_EN, 0xFFFF_FFFF)] State.reset with ecc := { State.reset.ecc with scrub := some ⟨0x4000_0000, 8, 0x4001_0000, 5, [], [], 0, 0⟩ }, ctl := { State.reset.ctl with running := [⟨0, 0, 0, 8, 1⟩, ⟨3, 0, 0, 8, 2⟩], copies := [⟨3, 0, 0, 8, 3⟩] }, twn := { State.reset.twn with conserve := some ⟨1, false, 0x4002_0000, 9, 0⟩ } }; decide (Ready s ∧ regOn s CTL_BG_EN = true ∧ bgEnabled s 1 = true ∧ bgEnabled s 8 = true ∧ bgEnabled s 7 = true)),
    (let s : State := { regsSet [(CTL_CORE_RUN, 0x81), (CTL_BOOT_LO 1, 0x4000_0007), (CTL_BOOT_HI 1, 0)] State.reset with ctl := { State.reset.ctl with corePc := [(7, 8)], resv := [(1, 7, 2), (3, 1, 5)] } }; decide (Ready s ∧ regOn s CTL_CORE_RUN = true)),
    (let s : State := regsSet [(CTL_MTIMECMP_LO 2, 5), (CTL_MTIMECMP_HI 2, 0)] State.reset; let cmp := get64 s (CTL_MTIMECMP_LO 2) (CTL_MTIMECMP_HI 2); decide (Ready s ∧ s.tim.elapsed < cmp * (100 * nsU)))].all id = true := by decide +kernel
theorem wit_RegisterWrites_4 : [
    (let s : State := regsSet [(CTL_MTIMECMP_LO 2, 0), (CTL_MTIMECMP_HI 2, 0)] State.reset; let cmp := get64 s (CTL_MTIMECMP_LO 2) (CTL_MTIMECMP_HI 2); decide (Ready s ∧ cmp * (100 * nsU) ≤ s.tim.elapsed))].all id = true := by decide +kernel
theorem wit_ReadingRoom_1 : [
    (let s : State := { runs .A State.reset with tim := { (runs .A State.reset).tim with freiz := 5 * secU + 7 * nsU + 3, ppsIn := 9 * secU }, ecc := { State.reset.ecc with lastCe := 77 }, ctl := { State.reset.ctl with errAddr := 0x2_0000_0003 }, ldg := { State.reset.ldg with next := 4 } }; decide (Ready s ∧ regOn s (RR_REQ 15) = true ∧ rd s (RR_ARG 15) = 0)),
    (let s : State := { runs .A State.reset with tim := { (runs .A State.reset).tim with freiz := 5 * secU + 7 * nsU + 3, ppsIn := 9 * secU } }; decide (Ready s ∧ regOn s (RR_REQ 15) = true ∧ rd s (RR_ARG 15) = 0 ∧ domOf 0 = none ∧ domOf 4 = none)),
    (let s : State := { runs .A State.reset with tim := { (runs .A State.reset).tim with freiz := 5 * secU + 7 * nsU + 3, ppsIn := 9 * secU } }; decide (Ready s ∧ regOn s (RR_REQ 15) = true ∧ rd s (RR_ARG 15) = 0 ∧ domOf 1 = some .A ∧ nowIdx s .A = 9)),
    (let s : State := { State.reset with tim := { State.reset.tim with delta := pdSet State.reset.tim.delta .C (-5), rho := pdSet State.reset.tim.rho .C (-3) } }; decide (Ready s ∧ regOn s (RR_REQ 0) = true ∧ rd s (RR_ARG 0) = 0 ∧ domOf 3 = some .C)),
    (let s : State := { State.reset with net := { State.reset.net with ptpTs := [(1, 5, 6, 7), (7, 3 * secU + 9 * nsU + 2, 70000, 3)] } }; let f := 3 * secU + 9 * nsU + 2; decide (Ready s ∧ regOn s (RR_REQ 0) = true ∧ rd s (RR_ARG 0) = 0 ∧ s.net.ptpTs.find? (fun e => e.1 == 7) = some (7, f, 70000, 3))),
    (let s : State := { State.reset with net := { State.reset.net with ptpTs := [(1, 5, 6, 7)] } }; decide (Ready s ∧ regOn s (RR_REQ 0) = true ∧ rd s (RR_ARG 0) = 0 ∧ s.net.ptpTs.find? (fun e => e.1 == 7) = none ∧ ldgAt s 7 = none))].all id = true := by decide +kernel
theorem wit_ReadingRoom_2 : [
    (let s : State := State.reset; decide (Ready s ∧ regOn s (RR_REQ 0) = true ∧ rd s (RR_ARG 0) = 0 ∧ domOn s (unitPower 1 (physOf s 1 (4095 / 64))) = true ∧ domOn s 10 = true)),
    (let s : State := regsSet [(PWR_DOM_STATUS 5, 0x30000), (PWR_DOM_STATUS 10, 0x30000)] State.reset; decide (Ready s ∧ regOn s (RR_REQ 0) = true ∧ rd s (RR_ARG 0) = 0 ∧ domOn s (unitPower 1 (physOf s 1 (4095 / 64))) = false ∧ domOn s 10 = false)),
    (let s : State := { State.reset with cores := [(67, { coreZero with fendShadow := { coreZero.shadow with d := [(15, 0xFFFF_0000_1111_2222#64)] } })] }; decide (Ready s ∧ regOn s (RR_REQ 0) = true ∧ rd s (RR_ARG 0) = 0 ∧ domOn s (unitPower 2 67) = true ∧ bitsOf (67 + 128 + 15 * 256) 0 7 = 67 ∧ bitsOf (67 + 128 + 15 * 256) 8 8 = 15)),
    (let s : State := regsSet [(RR_ARG 0, 5)] State.reset; decide (Ready s ∧ regOn s (RR_REQ 0) = true)),
    (let s : State := regsSet [(RR_ARG 0, 0x11)] State.reset; decide (Ready s ∧ regOn s (RR_REQ 0) = true ∧ domOn s 10 = true ∧ (paramForm (bitOf 4096 12) 0x11).isSome = true ∧ bitsOf 4096 13 2 = 0)),
    (let s : State := regsSet [(RR_ARG 0, 0x90)] State.reset; decide (Ready s ∧ regOn s (RR_REQ 0) = true ∧ domOn s 10 = true ∧ bitsOf (2 * 8192 + 5) 13 2 = 2))].all id = true := by decide +kernel
theorem wit_ReadingRoom_3 : [
    (let s : State := regsSet [(RR_ARG 0, 0xFFFF)] State.reset; decide (Ready s ∧ regOn s (RR_REQ 0) = true ∧ domOn s 10 = true ∧ bitsOf (3 * 8192 + 5) 13 2 = 3)),
    (let s : State := regsSet [(RR_ARG 0, 3 * 65536 + 0)] State.reset; decide (Ready s ∧ regOn s (RR_REQ 0) = true)),
    (let s : State := { regsSet [(RR_ARG 0, 3)] State.reset with net := { State.reset.net with counters := [(netCntKey 2 1023 none 3, 8), (netCntKey 0 7 none 3, 8)] } }; decide (Ready s ∧ regOn s (RR_REQ 0) = true ∧ bitsOf (2 * 2 ^ 22 + 1023) 10 12 = 0 ∧ bitsOf (2 * 2 ^ 22 + 1023) 22 2 = 2 ∧ domOn s 11 = true)),
    (let s : State := { regsSet [(RR_ARG 0, 7)] State.reset with ldg := { State.reset.ldg with ring := [(16383, some ⟨3, 5, 0x40, 1, 0, [1, 2, 3]⟩)] } }; let e : LdgEntry := ⟨3, 5, 0x40, 1, 0, [1, 2, 3]⟩; decide (Ready s ∧ regOn s (RR_REQ 0) = true ∧ ldgAt s 16383 = some e ∧ (rd s (RR_ARG 0)).toNat < 8)),
    (let s : State := { regsSet [(RR_ARG 0, 7)] State.reset with ldg := { State.reset.ldg with ring := [(16383, some ⟨3, 5, 0x40, 1, 0, [1, 2, 3]⟩)] } }; decide (Ready s ∧ regOn s (RR_REQ 0) = true ∧ (ldgAt s 16383).isSome = true))].all id = true := by decide +kernel
theorem wit_CommandAcceptance_1 : [
    (let s : State := ticketsOut (regsSet [(CTL_CMD_HEAD, 3)] State.reset); decide (Ready s ∧ regOn s CTL_CMD_TAIL = true ∧ ticketsFull s = true)),
    (let s : State := { memSet (0x2000_0000 + 64 * 255) (leBytes 64 (0xFE01 + 0x10000)) (regsSet [(CTL_CMD_HEAD, 255), (CTL_CMD_TAIL, 255)] State.reset) with ctl := { State.reset.ctl with seq := [(0, 65535)] } }; let e := BitVec.ofNat 512 (leVal (memBytes s.mem (0x2000_0000 + 64 * 255) 64)); let no := eByte e 0 2 / 256 % 256 * 2 ^ 24 + 0 + 65535; decide (Ready s ∧ regOn s CTL_CMD_TAIL = true ∧ ticketsFull s = false ∧ wget 0 CTL_CMD_TAIL_tail = (fget s CTL_CMD_HEAD CTL_CMD_HEAD_head + 1) % 256 ∧ eByte e 0 2 ∉ knownCodes ∧ toFirmware (bitsOf no 16 8) = false)),
    (let s : State := ticketsOut State.reset; decide (Ready s ∧ regOn s (CTL_FCMD_CTRL 7) = true ∧ ticketsFull s = true ∧ wbit 1 CTL_FCMD_CTRL_issue = true ∧ fbit s (CTL_FCMD_CTRL 7) CTL_FCMD_CTRL_busy = false)),
    (let s : State := regsSet [(CTL_FCMD_W 7 0, 0x10901)] State.reset; decide (Ready s ∧ regOn s (CTL_FCMD_CTRL 7) = true ∧ ticketsFull s = false)),
    (let s : State := regsSet [(CTL_FCMD_W 7 0, 0x1FE01)] State.reset; let e := fcmdEntry s 7; decide (Ready s ∧ regOn s (CTL_FCMD_CTRL 7) = true ∧ ticketsFull s = false ∧ eByte e 0 2 ∉ knownCodes ∧ wbit 1 CTL_FCMD_CTRL_issue = true ∧ fbit s (CTL_FCMD_CTRL 7) CTL_FCMD_CTRL_busy = false)),
    (let s : State := fldSet (CTL_FCMD_CTRL 7) CTL_FCMD_CTRL_busy 1 State.reset; decide (Ready s ∧ regOn s (CTL_FCMD_CTRL 7) = true ∧ fbit s (CTL_FCMD_CTRL 7) CTL_FCMD_CTRL_busy = true))].all id = true := by decide +kernel
theorem wit_CommandAcceptance_2 : [
    (let s : State := ticketsOut State.reset; let e := entry 0x0001 []; decide (Ready s ∧ ticketsFull s = true ∧ eByte e 0 2 ∉ knownCodes)),
    (let s : State := { regsSet [(CTL_CQ_TAIL, 4095), (CTL_CQ_HEAD, 4094)] State.reset with ctl := { State.reset.ctl with outst := [⟨5, 1, true, none⟩] } }; let e := entry 0x0001 [(2, 1)]; let no := eByte e 0 2 / 256 % 256 * 2 ^ 24 + 255 * 2 ^ 16; decide (Ready s ∧ ticketsFull s = false ∧ s.ctl.waitq = [] ∧ catState s ≠ 6 ∧ toFirmware (bitsOf no 16 8) = false ∧ bitOf (eByte e 2 1) 0 = true ∧ (ringFull s false = false ∧ (∀ h ∈ s.ctl.held, h.fw = true) ∧ (∀ k ∈ s.ctl.outst, k.ticket ≠ no) ∧ eByte e 0 2 ∉ knownCodes ∧ fget s CTL_CQ_TAIL CTL_CQ_TAIL_tail = 4095))),
    (let s : State := { State.reset with ctl := { State.reset.ctl with waitq := [(0x18, entry 0x0001 [])] } }; decide (Ready s ∧ ticketsFull s = false ∧ s.scn.cmtWait = none ∧ (List.range 8).all (fun c => !fbit s (CTL_FCMD_CTRL c) CTL_FCMD_CTRL_busy) ∧ fget s CTL_CMD_HEAD CTL_CMD_HEAD_head = fget s CTL_CMD_TAIL CTL_CMD_TAIL_tail ∧ eByte (entry 0x0001 []) 0 2 ∉ knownCodes)),
    (let s : State := { ticketsOut State.reset with ctl := { (ticketsOut State.reset).ctl with waitq := [(0x18, entry 0x0001 [])] } }; decide (Ready s ∧ ticketsFull s = true)),
    (let s : State := { State.reset with ctl := { State.reset.ctl with held := [⟨true, 5, 6, 7, 8, some 3, 77⟩, ⟨false, 1, 1, 1, 1, none, 78⟩], outst := [⟨77, 1, true, none⟩, ⟨78, 1, true, none⟩] } }; decide (Ready s ∧ s.ctl.held.find? (fun h => !ringFull s h.fw) = some ⟨true, 5, 6, 7, 8, some 3, 77⟩)),
    (let s : State := { regsSet [(CTL_FW_CQ_TAIL, 4), (CTL_FW_CQ_HEAD, 5)] State.reset with ctl := { State.reset.ctl with held := [⟨true, 5, 6, 7, 8, some 3, 77⟩] } }; decide (Ready s ∧ regOn s CTL_FW_CQ_HEAD = true ∧ ringFull s true = true ∧ ringFull (fieldsWrite s CTL_FW_CQ_HEAD 4) true = false))].all id = true := by decide +kernel
theorem wit_CopiesAndLoads_1 : [
    (let s : State := State.reset; let e := entry 0x0901 [(36, 3), (32, 8), (16, 0x4000_0000), (24, 0x4000_0100)]; decide (Ready s ∧ eByte e 0 2 = 0x0901 ∧ s.ctl.outst.length < 1024 ∧ s.ctl.waitq = [] ∧ catState s ≠ 6 ∧ eReserved e [(16, 21)] = none ∧ eByte e 36 1 < 4 ∧ eByte e 32 4 % 8 = 0 ∧ bgEnabled s 7 = true)),
    (let s : State := { State.reset with ctl := { State.reset.ctl with running := [⟨3, 0, 0, 8, 5⟩], copies := List.replicate 15 ⟨3, 0, 0, 8, 6⟩ } }; let e := entry 0x0901 [(36, 3), (32, 8), (16, 0x4000_0000), (24, 0x4000_0100)]; decide (Ready s ∧ eByte e 0 2 = 0x0901 ∧ s.ctl.waitq = [] ∧ eReserved e [(16, 21)] = none ∧ bgEnabled s 7 = true ∧ (s.ctl.copies.filter (fun j => j.eng == 3)).length < 16)),
    (let s : State := { State.reset with ctl := { State.reset.ctl with copies := List.replicate 16 ⟨3, 0, 0, 8, 6⟩ } }; let e := entry 0x0901 [(36, 3), (32, 8), (16, 0x4000_0000), (24, 0x4000_0100)]; decide (Ready s ∧ eByte e 0 2 = 0x0901 ∧ s.ctl.waitq = [] ∧ eReserved e [(16, 21)] = none ∧ 16 ≤ (s.ctl.copies.filter (fun j => j.eng == 3)).length)),
    (let s : State := { State.reset with ctl := { State.reset.ctl with copies := [⟨2, 0, 0, 8, 5⟩, ⟨3, 0, 0, 8, 6⟩] } }; decide (Ready s ∧ s.ctl.running.any (fun k => k.eng == 3) = false ∧ s.ctl.copies.find? (fun k => k.eng == 3) = some ⟨3, 0, 0, 8, 6⟩)),
    (let s : State := { State.reset with ctl := { State.reset.ctl with copies := [⟨3, 0, 0, 8, 6⟩], running := [⟨2, 0x4000_0000, 0x4000_0008, 8, 5⟩] }, pwr := { State.reset.pwr with drop := some ⟨0x4000, none, [], [2, 5], none⟩ } }; decide (Ready s ∧ paused s 2 = true)),
    (let s : State := memSet 0x4000_0000 [1, 2, 3, 4, 5, 6, 7, 8] { State.reset with ctl := { State.reset.ctl with running := [⟨1, 0x4000_0000, 0x41FF_FFF8, 8, 5⟩], outst := [⟨5, 0x901, false, none⟩] } }; decide (Ready s ∧ inStore 0x4000_0000 8 = true ∧ inStore 0x41FF_FFF8 8 = true ∧ s.ecc.bad.contains (0x4000_0000 / 8) = false ∧ (∀ k ∈ s.ctl.outst, k.ticket = 5 → k.record = false) ∧ s.ctl.running.find? (fun k => k.eng == 1) = some ⟨1, 0x4000_0000, 0x41FF_FFF8, 8, 5⟩))].all id = true := by decide +kernel
theorem wit_CopiesAndLoads_2 : [
    (let s : State := { ticketOut 5 State.reset with ecc := { State.reset.ecc with scrub := some ⟨0x4000_0000, 8, 0x4001_0000, 5, [], [], 0, 0⟩ } }; let e := entry 0x0A01 [(16, 5)]; decide (Ready s ∧ eByte e 0 2 = 0x0A01 ∧ s.ctl.outst.length < 1024 ∧ s.ctl.waitq = [] ∧ catState s ≠ 6 ∧ eReserved e [(16, 4)] = none ∧ eByte e 16 4 = 5 ∧ s.scn.recalls = [] ∧ s.twn.rot = none ∧ s.twn.conserve = none ∧ s.ctl.outst.any (fun k => k.ticket == 5) = true)),
    (let s : State := { ticketOut 5 State.reset with ctl := { (ticketOut 5 State.reset).ctl with running := [⟨3, 0, 0, 8, 5⟩, ⟨2, 0, 0, 8, 6⟩] } }; let e := entry 0x0A01 [(16, 5)]; decide (Ready s ∧ eReserved e [(16, 4)] = none ∧ s.ctl.outst.any (fun k => k.ticket == 5) = true ∧ s.ecc.scrub = none ∧ s.scn.recalls = [] ∧ s.twn.rot = none ∧ s.twn.conserve = none)),
    (let s : State := { ticketOut 5 State.reset with ecc := { State.reset.ecc with scrub := some ⟨0x4000_0000, 8, 0x4001_0000, 5, [], [], 0, 0⟩ } }; let e := entry 0x0A01 [(16, 4)]; decide (Ready s ∧ eReserved e [(16, 4)] = none ∧ s.ctl.outst.any (fun k => k.ticket == 4) = false ∧ (4 : Nat) ≠ (allot 0 e s).1)),
    (let s : State := State.reset; let e := entry 0x0801 [(16, 0x4000_0000), (24, 0x1000), (28, 1)]; decide (Ready s ∧ eByte e 0 2 = 0x0801 ∧ catState s ≠ 6 ∧ eReserved e [(16, 13)] = none ∧ eByte e 28 1 = 1 ∧ s.cat.load = none ∧ inStore 0x4000_0000 0x1000 = true ∧ imgLen s (.mem 0x4000_0000) ≤ 0x1000 ∧ loadCheck s (.mem 0x4000_0000) = some 1)),
    (let s : State := memSet 0x4000_0000 [1, 2, 3] { State.reset with cat := { State.reset.cat with load := some ⟨0x4000_0000, 2, 1, 9⟩ }, perm := { State.reset.perm with flash := [(0x0800_0002, 7)], flashOk := true, flashBig := true } }; decide (Ready s ∧ catState s ≠ 6 ∧ isAbsent s .vddio4 = false ∧ s.perm.flashOk = true ∧ s.perm.flashBig = true)),
    (let s : State := { State.reset with cat := { State.reset.cat with load := some ⟨0x4000_0000, 2, 1, 9⟩ } }; decide (Ready s ∧ catState s ≠ 6))].all id = true := by decide +kernel
theorem wit_Docent_1 : [
    (let s : State := regsSet [(CTL_DOC_CFG 4095, 0x8100_0003)] State.reset; decide (Ready s ∧ regOn s (CTL_DOC_CFG 4095) = true ∧ docValid s 4095 = true ∧ wbit 0x8200_0005 CTL_DOC_CFG_valid = true)),
    (let s : State := State.reset; decide (Ready s ∧ docValid s 4095 = false ∧ wbit 0xC700_0000 CTL_DOC_CFG_valid = true ∧ ((List.range 4096).filter (fun u => docValid s u && docPinned s u && docHome s u == 7)).length < 512)),
    (let s : State := State.reset; decide (Ready s ∧ docValid s 0 = false ∧ wbit 0x8700_FFFF CTL_DOC_CFG_valid = true ∧ wbit 0x8700_FFFF CTL_DOC_CFG_pinned = false)),
    (let s : State := { regsSet [(CTL_DOC_CFG 5, 0x8100_0003), (CTL_DOC_STATE 5, 0x4000_0000)] State.reset with ctl := { State.reset.ctl with ready := [(2, [1, 5, 3])] } }; decide (Ready s ∧ docValid s 5 = true ∧ wbit 0 CTL_DOC_CFG_valid = false)),
    (let s : State := State.reset; decide (Ready s ∧ docValid s 5 = false ∧ wbit 7 CTL_DOC_CFG_valid = false)),
    (let s : State := { State.reset with ctl := { State.reset.ctl with fifo := List.replicate 1023 1 } }; decide (Ready s ∧ regOn s CTL_DOC_SIGNAL = true ∧ s.ctl.fifo.length < 1024))].all id = true := by decide +kernel
theorem wit_Docent_2 : [
    (let s : State := { State.reset with ctl := { State.reset.ctl with fifo := List.replicate 1024 1 } }; decide (Ready s ∧ 1024 ≤ s.ctl.fifo.length)),
    (let s : State := { regsSet [(CTL_DOC_TICK 2, 0x8000_1FFF)] State.reset with due := [.docTick .C] }; decide (awake s = true ∧ s.due.contains (.docTick .C) = true ∧ (rd s (docSrcKey (32 + domNo .C))).getLsbD 31 = true ∧ s.ctl.fifo.length < 1024)),
    (let s : State := { regsSet [(CTL_DOC_IRQ 31, 0x8000_0FFF)] State.reset with due := [.docIrq 31] }; decide (awake s = true ∧ s.due.contains (.docIrq 31) = true ∧ (rd s (docSrcKey 31)).getLsbD 31 = true)),
    (let s : State := { regsSet [(CTL_DOC_TICK 0, 0x8000_0FFF)] State.reset with due := [.docTick .A], ctl := { State.reset.ctl with fifo := List.replicate 1024 1, heldCnt := [(32, 65535)] } }; decide (awake s = true ∧ (rd s (docSrcKey 32)).getLsbD 31 = true ∧ 1024 ≤ s.ctl.fifo.length)),
    (let s : State := { State.reset with due := [.docTick .A] }; decide (awake s = true ∧ (rd s (docSrcKey 32)).getLsbD 31 = false)),
    (let s : State := { regsSet [(CTL_DOC_CFG 4095, 0x8000_0009)] State.reset with ctl := { State.reset.ctl with fifo := [4095, 2] } }; decide (Ready s ∧ docValid s 4095 = true ∧ fget s (CTL_DOC_STATE 4095) CTL_DOC_STATE_counter = 0 ∧ s.ctl.fifoWait = [] ∧ s.ctl.heldCnt = []))].all id = true := by decide +kernel
theorem wit_Docent_3 : [
    (let s : State := { State.reset with ctl := { State.reset.ctl with fifo := [4095, 2] } }; decide (Ready s ∧ docValid s 4095 = false)),
    (let s : State := { regsSet [(CTL_DOC_CFG 7, 0x8000_0009), (CTL_DOC_STATE 7, 2)] State.reset with ctl := { State.reset.ctl with fifo := [7] } }; decide (Ready s ∧ docValid s 7 = true ∧ 1 < fget s (CTL_DOC_STATE 7) CTL_DOC_STATE_counter)),
    (let s : State := { regsSet [(CTL_DOC_CFG 7, 0x8000_0009), (CTL_DOC_STATE 7, 0x0300_0001)] State.reset with ctl := { State.reset.ctl with fifo := [7] } }; decide (Ready s ∧ docValid s 7 = true ∧ fget s (CTL_DOC_STATE 7) CTL_DOC_STATE_counter = 1 ∧ docState s 7 = 0)),
    (let s : State := { regsSet [(CTL_DOC_CFG 7, 0x8000_0009), (CTL_DOC_STATE 7, 0x8300_0001)] State.reset with ctl := { State.reset.ctl with fifo := [7] } }; decide (Ready s ∧ docValid s 7 = true ∧ fget s (CTL_DOC_STATE 7) CTL_DOC_STATE_counter = 1 ∧ docState s 7 = 2 ∧ fbit s (CTL_DOC_STATE 7) CTL_DOC_STATE_pending = false)),
    (let s : State := { regsSet [(CTL_DOC_CFG 7, 0x8000_0009), (CTL_DOC_STATE 7, 0xA300_0001)] State.reset with ctl := { State.reset.ctl with fifo := [7] } }; decide (Ready s ∧ docValid s 7 = true ∧ fget s (CTL_DOC_STATE 7) CTL_DOC_STATE_counter = 1 ∧ docState s 7 = 2 ∧ fbit s (CTL_DOC_STATE 7) CTL_DOC_STATE_pending = true)),
    (let s : State := { State.reset with ctl := { State.reset.ctl with ready := [(7, [4095, 2])] } }; decide (Ready s ∧ regOn s (CTL_DOC_TAKE 7) = true ∧ docList s 7 = [4095, 2]))].all id = true := by decide +kernel
theorem wit_Docent_4 : [
    (let s : State := { regsSet [(CTL_DOC_CFG 9, 0xC000_0000)] State.reset with ctl := { State.reset.ctl with ready := [(0, [9, 4095])] } }; decide (Ready s ∧ docList s 7 = [] ∧ ((docList s 0).filter (fun u => !docPinned s u)).head? = some 4095 ∧ (List.range 8).all (fun j => j == 0 || docList s j == []))),
    (let s : State := State.reset; decide (Ready s ∧ (List.range 8).all (fun j => docList s j == []))),
    (let s : State := regsSet [(CTL_DOC_STATE 4095, 0x4000_0000)] State.reset; decide (Ready s ∧ regOn s CTL_DOC_DONE = true ∧ docState s 4095 ≠ 2)),
    (let s : State := regsSet [(CTL_DOC_STATE 4095, 0x8000_0000)] State.reset; decide (Ready s ∧ docState s 4095 = 2 ∧ fbit s (CTL_DOC_STATE 4095) CTL_DOC_STATE_pending = false)),
    (let s : State := regsSet [(CTL_DOC_STATE 4095, 0xA000_0000)] State.reset; decide (Ready s ∧ docState s 4095 = 2 ∧ docValid s 4095 = false)),
    (let s : State := regsSet [(CTL_DOC_CFG 4095, 0x8000_0009), (CTL_DOC_STATE 4095, 0xA000_0000)] State.reset; decide (Ready s ∧ docValid s 4095 = true ∧ docState s 4095 = 2 ∧ fbit s (CTL_DOC_STATE 4095) CTL_DOC_STATE_pending = true))].all id = true := by decide +kernel
theorem wit_Startup_1 : [
    (let s : State := fldSet CTL_CAT_STATUS CTL_CAT_STATUS_state 5 State.reset; decide (Ready s ∧ catState s ≠ 0)),
    (let s : State := State.reset; decide (Ready s ∧ catState s = 0)),
    (let s : State := State.reset; decide (Ready s ∧ catState s = 0 ∧ (slotValid s 0 0 && !rejected s 0) = false ∧ (slotValid s 0 1 && !rejected s 1) = false)),
    (let s : State := { fldSet CTL_CAT_STATUS CTL_CAT_STATUS_slot 1 (fldSet CTL_CAT_STATUS CTL_CAT_STATUS_state 1 State.reset) with perm := { State.reset.perm with flash := flashSect 1 2 (crc32c [5, 6]).toNat 0x4010_0000 0x4010_0000 } }; let i := imgInUse s; let x := imgSection s i 0; decide (Ready s ∧ i = .slot 1 ∧ catState s = 1 ∧ (imgSections s i).length = 1 ∧ x.type = 1 ∧ bodyOk s i x = true ∧ destOk x.type x.dest x.len = true ∧ x.entry ≠ 0)),
    (let s : State := { fldSet CTL_CAT_STATUS CTL_CAT_STATUS_slot 1 (fldSet CTL_CAT_STATUS CTL_CAT_STATUS_state 1 State.reset) with perm := { State.reset.perm with flash := flashSect 1 2 0 0x4010_0000 0x4010_0000 } }; let i := imgInUse s; let x := imgSection s i 0; decide (Ready s ∧ i = .slot 1 ∧ catState s = 1 ∧ (imgSections s i).length = 1 ∧ x.type = 1 ∧ bodyOk s i x = false ∧ slotValid s 0 0 = false)),
    (let s : State := fldSet CTL_CAT_STATUS CTL_CAT_STATUS_state 2 State.reset; decide (Ready s ∧ regOn s CTL_CAT_CTRL = true ∧ wbit 1 CTL_CAT_CTRL_open = false ∧ wbit 1 CTL_CAT_CTRL_continue = true ∧ catState s = 2))].all id = true := by decide +kernel
theorem wit_Startup_2 : [
    (let s : State := { fldSet CTL_CAT_STATUS CTL_CAT_STATUS_slot 1 (fldSet CTL_CAT_STATUS CTL_CAT_STATUS_state 3 State.reset) with perm := { State.reset.perm with flash := flashSect 0x0D 1 (crc32c [5]).toNat 0 0 } }; let i := imgInUse s; let x := imgSection s i 0; decide (Ready s ∧ i = .slot 1 ∧ catState s = 3 ∧ (phase2Order (imgSections s i)).length = 1 ∧ x.type = 0x0D ∧ bodyOk s i x = true ∧ bitOf (imgNat s i 23 1) 1 = false ∧ s.scn.owned = [] ∧ s.cat.initial = [])),
    (let s : State := regsSet [(SCN_VAULT_BASE_LO, 0x4000_0000)] { fldSet CTL_CAT_STATUS CTL_CAT_STATUS_slot 1 (fldSet CTL_CAT_STATUS CTL_CAT_STATUS_state 3 State.reset) with perm := { State.reset.perm with flash := flashSect 0x0A 2 (crc32c [5, 6]).toNat 0x40 0 } }; let i := imgInUse s; let x := imgSection s i 0; decide (Ready s ∧ i = .slot 1 ∧ catState s = 3 ∧ (phase2Order (imgSections s i)).length = 1 ∧ x.type = 0x0A ∧ bodyOk s i x = true ∧ bitOf (imgNat s i 23 1) 1 = false ∧ inStore (vaultBase s + x.dest) x.len = true)),
    (let s : State := { fldSet CTL_CAT_STATUS CTL_CAT_STATUS_slot 1 (fldSet CTL_CAT_STATUS CTL_CAT_STATUS_state 3 State.reset) with perm := { State.reset.perm with flash := flashSect 14 1 (crc32c [5]).toNat 0 0 } }; let i := imgInUse s; let x := imgSection s i 0; decide (Ready s ∧ i = .slot 1 ∧ catState s = 3 ∧ (phase2Order (imgSections s i)).length = 1 ∧ x.type = 14 ∧ bodyOk s i x = true ∧ bitOf (imgNat s i 23 1) 1 = false)),
    (let s : State := { fldSet CTL_CAT_STATUS CTL_CAT_STATUS_slot 1 (fldSet CTL_CAT_STATUS CTL_CAT_STATUS_state 3 State.reset) with perm := { State.reset.perm with flash := flashSect 1 1 (crc32c [5]).toNat 0 0 } }; let i := imgInUse s; decide (Ready s ∧ i = .slot 1 ∧ catState s = 3 ∧ (phase2Order (imgSections s i)).length = 0 ∧ bitOf (imgNat s i 23 1) 1 = false)),
    (let s : State := { fldSet CTL_CAT_STATUS CTL_CAT_STATUS_slot 1 (fldSet CTL_CAT_STATUS CTL_CAT_STATUS_state 3 State.reset) with perm := { State.reset.perm with flash := flashSect 14 1 0 0 0 } }; let i := imgInUse s; let x := imgSection s i 0; decide (Ready s ∧ i = .slot 1 ∧ catState s = 3 ∧ (phase2Order (imgSections s i)).length = 1 ∧ bodyOk s i x = false ∧ bitOf (imgNat s i 23 1) 1 = false)),
    (let s : State := fldSet CTL_CAT_STATUS CTL_CAT_STATUS_state 5 State.reset; decide (Ready s ∧ regOn s CTL_CAT_CTRL = true ∧ catState s = 5 ∧ wbit 2 CTL_CAT_CTRL_open = true ∧ wbit 2 CTL_CAT_CTRL_continue = false))].all id = true := by decide +kernel
theorem wit_Startup_3 : [
    (let s : State := fldSet CTL_CAT_STATUS CTL_CAT_STATUS_state 6 State.reset; decide (Ready s ∧ s.cat.openWait = false ∧ catState s ≠ 4 ∧ catState s ≠ 5)),
    (let s : State := { fldSet CTL_CAT_STATUS CTL_CAT_STATUS_state 4 State.reset with cat := { State.reset.cat with initial := [(.A, 1)] } }; decide (Ready s ∧ s.cat.openWait = false ∧ catState s = 4 ∧ s.cat.initial ≠ [])),
    (let s : State := { fldSet CTL_CAT_STATUS CTL_CAT_STATUS_state 4 State.reset with cat := { State.reset.cat with consTicket := some 4 } }; decide (Ready s ∧ s.cat.openWait = false ∧ catState s = 4 ∧ s.cat.initial = [] ∧ s.cat.consTicket.isSome = true)),
    (let s : State := { fldSet CTL_CAT_STATUS CTL_CAT_STATUS_state 4 State.reset with cat := { State.reset.cat with seals := 0xFF } }; decide (Ready s ∧ s.cat.openWait = false ∧ catState s = 4 ∧ s.cat.initial = [] ∧ s.cat.consTicket = none ∧ firstRunning s = none)),
    (let s : State := { fldSet CTL_CAT_STATUS CTL_CAT_STATUS_state 4 (runs .C State.reset) with cat := { State.reset.cat with seals := 0xFF } }; decide (Ready s ∧ s.cat.openWait = false ∧ catState s = 4 ∧ s.cat.initial = [] ∧ s.cat.consTicket = none ∧ (firstRunning s).isSome = true)),
    (let s : State := { fldSet CTL_CAT_STATUS CTL_CAT_STATUS_state 4 State.reset with cat := { State.reset.cat with openWait := true } }; decide (Ready s ∧ s.cat.openWait = true))].all id = true := by decide +kernel
theorem wit_Startup_4 : [
    (let s : State := State.reset; decide (Ready s ∧ s.cat.openWait = false))].all id = true := by decide +kernel
theorem wit_PowerStates_1 : [
    (let s : State := { State.reset with pwr := { State.reset.pwr with raising := 2 } }; let e := entry 0x0601 [(16, 1)]; decide (Ready s ∧ eByte e 0 2 = 0x0601 ∧ s.ctl.outst.length < 1024 ∧ s.ctl.waitq = [] ∧ catState s ≠ 6 ∧ eReserved e [(16, 1)] = none ∧ s.pwr.raising ≠ 0)),
    (let s : State := fldSet (PWR_DOM_STATUS 13) PWR_DOM_STATUS_state 3 (fldSet (PWR_DOM_STATUS 13) PWR_DOM_STATUS_keys 0x100 State.reset); let e := entry 0x0601 [(16, 0)]; decide (Ready s ∧ eByte e 0 2 = 0x0601 ∧ eReserved e [(16, 1)] = none ∧ eByte e 16 1 = s.pwr.state ∧ keyedLow s = 0x2000)),
    (let s : State := regsSet [(PWR_MAP_QUIET, 0x7FFE)] State.reset; let e := entry 0x0601 [(16, 1)]; decide (Ready s ∧ eByte e 0 2 = 0x0601 ∧ s.ctl.waitq = [] ∧ catState s ≠ 6 ∧ eReserved e [(16, 1)] = none ∧ s.pwr.drop = none ∧ s.pwr.raising = 0 ∧ eByte e 16 1 ≠ s.pwr.state ∧ ((List.range 15).filter (fun d => decide (1 ≤ d))).all (fun d => domOn s d && bitOf (rd s PWR_MAP_QUIET).toNat d))),
    (let s : State := regsSet [(PWR_FW_KEY 7, 0x4000), (PWR_FW_KEY 1, 2)] State.reset; let e := entry 0x0601 [(16, 3)]; decide (Ready s ∧ eByte e 0 2 = 0x0601 ∧ s.ctl.waitq = [] ∧ catState s ≠ 6 ∧ eReserved e [(16, 1)] = none ∧ s.pwr.drop = none ∧ s.pwr.raising = 0 ∧ domOn s 14 = true)),
    (let s : State := { fldSet (PWR_DOM_STATUS 13) PWR_DOM_STATUS_state 3 State.reset with pwr := { State.reset.pwr with retry := 0x2000 } }; decide (Ready s ∧ s.pwr.drop = none ∧ bitOf 0x2000 13 = true ∧ bitOf (rd s (PWR_FW_KEY 7)).toNat 13 = false ∧ domOn s 13 = false)),
    (let s : State := regsSet [(PWR_DOM_STATUS 2, 0x80), (PWR_FW_KEY 7, 4)] State.reset; decide (Ready s ∧ s.pwr.drop = none ∧ (1 : W32) &&& 0x7FFE#32 = 0 ∧ bitOf (rd s (PWR_FW_KEY 7)).toNat 2 = true ∧ domOn s 2 = true ∧ softKeys s 2 = 2 ^ 7))].all id = true := by decide +kernel
theorem wit_PowerStates_2 : [
    (let s : State := { State.reset with pwr := { State.reset.pwr with drop := some ⟨0x2000, none, [], [0x0D, 0xFFFF], none⟩, retry := 1 } }; decide (Ready s ∧ s.pwr.later = [] ∧ s.pwr.drop.isSome = true)),
    (let s : State := { State.reset with pwr := { State.reset.pwr with drop := some ⟨0x2000, none, [], [0x0D, 0xFFFF], none⟩, retry := 1 } }; decide (Ready s ∧ s.pwr.later = [])),
    (let s : State := { ticketOut 5 State.reset with pwr := { State.reset.pwr with drop := some ⟨0x2000, some (1, 5), [(0, 0x2000), (3, 0x2000)], [], some 9⟩ } }; decide (Ready s ∧ s.pwr.later = [])),
    (let s : State := { State.reset with pwr := { State.reset.pwr with drop := some ⟨0x2000, some (1, 5), [], [], some 9⟩ } }; decide (Ready s)),
    (let s : State := { fldSet (PWR_DOM_CFG 9) PWR_DOM_CFG_low 3 State.reset with cores := [(67, { coreZero with pc := 5 }), (50, { coreZero with pc := 5 })], pwr := { State.reset.pwr with drop := some ⟨0x2204, none, [], [], none⟩ } }; decide (Ready s ∧ s.pwr.later = [] ∧ lowOf s 0 9 = 3)),
    (let s : State := { State.reset with pwr := { State.reset.pwr with drop := some ⟨0x7FFE, some (3, 5), [], [], none⟩ }, cores := [(67, { coreZero with pc := 5 })] }; decide (Ready s ∧ s.pwr.later = [] ∧ lowOf s 3 9 = 3))].all id = true := by decide +kernel
theorem wit_PowerStates_3 : [
    (let s : State := { State.reset with pwr := { State.reset.pwr with retry := 0x2000 } }; decide (Ready s ∧ s.pwr.retry ≠ 0 ∧ s.pwr.drop = none)),
    (let s : State := regsSet [(PWR_DOM_STATUS 13, 0)] { State.reset with pwr := { State.reset.pwr with retry := 0x2000 } }; decide (Ready s ∧ s.pwr.retry ≠ 0 ∧ s.pwr.drop = none ∧ keyless s s.pwr.retry = 0x2000)),
    (let s : State := State.reset; decide (Ready s ∧ s.pwr.retry = 0 ∧ s.pwr.raising = 0)),
    (let s : State := { regsSet ((List.range 12).map (fun d => (PWR_DOM_STATUS (d + 2), 0x30000#32))) State.reset with pwr := { State.reset.pwr with raising := 0x3FF0 } }; decide (Ready s)),
    (let s : State := { ticketOut 5 State.reset with pwr := { State.reset.pwr with raising := 0x3FF0, raiseTicket := some 5 } }; decide (Ready s ∧ s.pwr.raising ≠ 0 ∧ (List.range 15).all (fun d => domOn s d))),
    (let s : State := { fldSet (PWR_DOM_STATUS 14) PWR_DOM_STATUS_state 2 State.reset with pwr := { State.reset.pwr with raising := 0x4000 } }; decide (Ready s ∧ bitOf s.pwr.raising 14 = true ∧ domOn s 14 = false))].all id = true := by decide +kernel
theorem wit_NightWatch_1 : [
    (let s : State := { regsSet [(PWR_SENT_CFG 31, 0x8002_0000), (PWR_SENT_THR 31, 5), (PWR_NW_LINKS, 0x2_8000)] State.reset with pwr := { State.reset.pwr with state := 2, hits := [(31, 1)] } }; decide (s.pin.resetLow = false ∧ s.cat.romBad = false ∧ s.pwr.state = 2 ∧ fbit s (PWR_SENT_CFG 31) PWR_SENT_CFG_enable = true ∧ bitOf (rd s PWR_NW_LINKS).toNat 15 = true ∧ bitOf (rd s PWR_NW_LINKS).toNat 17 = true ∧ Nat.max 1 (fget s (PWR_SENT_CFG 31) PWR_SENT_CFG_looks) ≤ smGet 0 s.pwr.hits 31 + 1 ∧ fget s (PWR_SENT_THR 31) PWR_SENT_THR_threshold ≤ 5)),
    (let s : State := { regsSet [(PWR_SENT_CFG 31, 0x8002_0000), (PWR_SENT_THR 31, 5), (PWR_NW_LINKS, 0x2_8000)] State.reset with pwr := { State.reset.pwr with state := 2, hits := [(31, 1)] } }; decide (s.pin.resetLow = false ∧ s.cat.romBad = false ∧ s.pwr.state = 2)),
    (let s : State := { regsSet [(PWR_NW_LINKS, 0x8000)] State.reset with pwr := { State.reset.pwr with state := 3 } }; decide (s.pwr.state ≠ 2 ∧ s.pin.resetLow = false)),
    (let s : State := { fldSet PWR_NW_CFG PWR_NW_CFG_detect_always 1 (regsSet [(PWR_NW_LINKS, 0x8000)] State.reset) with pwr := { State.reset.pwr with state := 2 } }; decide (s.pwr.state = 2 ∧ fbit s PWR_NW_CFG PWR_NW_CFG_detect_always = true ∧ bitOf (rd s PWR_NW_LINKS).toNat 15 = true)),
    (let s : State := { regsSet [(PWR_WAKE_GP, 0x8000_0000)] State.reset with pwr := { State.reset.pwr with state := 3 } }; decide (2 ≤ s.pwr.state ∧ bitOf (rd s PWR_WAKE_GP).toNat 31 = true)),
    (let s : State := { State.reset with pwr := { State.reset.pwr with state := 3 } }; decide (2 ≤ s.pwr.state))].all id = true := by decide +kernel
theorem wit_NightWatch_2 : [
    (let s : State := { State.reset with pwr := { State.reset.pwr with state := 3, wakes := [(5, 1), (2, 15), (2, 16)] } }; decide (2 ≤ s.pwr.state ∧ (2, 15) ∈ s.pwr.wakes ∧ (∀ w ∈ s.pwr.wakes, 2 < w.1 ∨ (2 = w.1 ∧ 15 ≤ w.2)))),
    (let s : State := { State.reset with pwr := { State.reset.pwr with state := 1, wakes := [(5, 1)] } }; decide (s.pwr.state < 2)),
    (let s : State := { fldSet (PRT_SIDE_STATUS 0) PRT_SIDE_STATUS_state 2 (regsSet [(PWR_SENT_CFG 31, 0x8000_0000), (PWR_SENT_THR 31, 0xFFFFFF)] State.reset) with pwr := { State.reset.pwr with sentN := [(31, 64)], sentPk := [(31, 0xFFFFFF)] } }; decide (Ready s ∧ fbit s (PWR_SENT_CFG 31) PWR_SENT_CFG_enable = true ∧ sideLocked s (sentSide s 31) = true ∧ 64 ≤ smGet 0 s.pwr.sentN 31 ∧ smGet 0 s.pwr.sentPk 31 < 2 ^ 24)),
    (let s : State := { fldSet (PRT_SIDE_STATUS 0) PRT_SIDE_STATUS_state 2 (regsSet [(PWR_SENT_CFG 31, 0x8000_0000)] State.reset) with pwr := { State.reset.pwr with sentN := [(31, 63)] } }; decide (Ready s ∧ sideLocked s (sentSide s 31) = true ∧ smGet 0 s.pwr.sentN 31 < 64))].all id = true := by decide +kernel
theorem wit_LedgerEvents_1 : [
    (let s : State := fldSet LDG_STATUS LDG_STATUS_frozen 1 State.reset; let e := entry 0x0701 []; decide (Ready s ∧ eByte e 0 2 = 0x0701 ∧ s.ctl.outst.length < 1024 ∧ s.ctl.waitq = [] ∧ catState s ≠ 6 ∧ eReserved e [] = none ∧ fbit s LDG_STATUS LDG_STATUS_frozen = true)),
    (let s : State := fldSet LDG_STATUS LDG_STATUS_thawed 1 State.reset; let e := entry 0x0701 []; decide (Ready s ∧ eReserved e [] = none ∧ fbit s LDG_STATUS LDG_STATUS_frozen = false ∧ s.ldg.queue = [])),
    (let s : State := { State.reset with ldg := { State.reset.ldg with queue := [⟨1, 2, [], 3⟩] } }; let e := entry 0x0701 []; decide (Ready s ∧ eReserved e [] = none ∧ fbit s LDG_STATUS LDG_STATUS_frozen = false ∧ s.ldg.queue ≠ [])),
    (let s : State := { fldSet LDG_STATUS LDG_STATUS_frozen 1 State.reset with ldg := { State.reset.ldg with freezing := true, freezeTickets := [4] } }; let e := entry 0x0702 []; decide (Ready s ∧ eByte e 0 2 = 0x0702 ∧ s.ctl.outst.length < 1024 ∧ s.ctl.waitq = [] ∧ catState s ≠ 6 ∧ eReserved e [] = none)),
    (let s : State := { State.reset with ldg := { State.reset.ldg with freezing := true, freezeTickets := [4] } }; decide (Ready s ∧ s.ldg.queue = [] ∧ s.ldg.freezing = true ∧ fbit s LDG_STATUS LDG_STATUS_frozen = false)),
    (let s : State := State.reset; decide (Ready s ∧ s.ldg.freezing = false))].all id = true := by decide +kernel
theorem wit_LedgerEvents_2 : [
    (let s : State := { regsSet [(LDG_CFG, 0x8000_0001)] State.reset with ldg := { State.reset.ldg with freezing := true } }; decide (Ready s ∧ s.ldg.freezing = true ∧ fget s LDG_CFG LDG_CFG_freeze_max_s ≠ 0)),
    (let s : State := { regsSet [(LDG_CFG, 0x8000_0001), (LDG_CODE_CFG 1023, 0x8000_0201)] State.reset with ldg := { State.reset.ldg with used := [(1023, 1)], queue := List.replicate 255 ⟨1, 2, [], 3⟩ } }; decide (Ready s ∧ fbit s LDG_CFG LDG_CFG_enable = true ∧ s.ldg.freezing = false ∧ fbit s (LDG_CODE_CFG 1023) LDG_CODE_CFG_enable = true ∧ smGet 0 s.ldg.used 1023 < codeDepth s 1023 ∧ s.ldg.queue.length < 256)),
    (let s : State := { regsSet [(LDG_CFG, 0x8000_0001), (LDG_CODE_CFG 1023, 0x8000_0201)] State.reset with ldg := { State.reset.ldg with used := [(1023, 2)], supp := [(1023, 0xFFFF_FFFF)] } }; decide (Ready s ∧ ¬smGet 0 s.ldg.used 1023 < codeDepth s 1023 ∧ fget s (LDG_CODE_CFG 1023) LDG_CODE_CFG_period_ms ≠ 0)),
    (let s : State := { State.reset with ldg := { State.reset.ldg with used := [(5, 1), (1023, 2)] } }; decide (Ready s)),
    (let s : State := { regsSet [(LDG_CODE_CFG 9, 0x8001_0201), (LDG_SET 1 0, 0x8000_0000)] State.reset with ldg := { State.reset.ldg with queue := [⟨9, 2, [7, 8], 3⟩, ⟨1, 2, [], 3⟩], next := 16383, supp := [(9, 4)] } }; decide (Ready s ∧ s.ldg.queue = [⟨9, 2, [7, 8], 3⟩, ⟨1, 2, [], 3⟩] ∧ degraded s = false)),
    (let s : State := { fldSet LDG_STATUS LDG_STATUS_degraded 1 State.reset with ldg := { State.reset.ldg with queue := [⟨9, 2, [7, 8], 3⟩], slotNext := 3 } }; decide (Ready s ∧ degraded s = true))].all id = true := by decide +kernel
theorem wit_LedgerEvents_3 : [
    (let s : State := { regsSet [(LDG_CFG, 0x8000_0000), (LDG_CODE_CFG 0x81, 0x8000_0000)] State.reset with ldg := { State.reset.ldg with queue := [⟨9, 2, [7, 8], 3⟩], ring := [(5, some ⟨3, 5, 0x40, 1, 0, []⟩)], next := 8 } }; decide (Ready s ∧ degraded s = false)),
    (let s : State := { State.reset with ldg := { State.reset.ldg with used := [(5, 1)] } }; decide (Ready s ∧ regOn s LDG_CFG = true ∧ fbit s LDG_CFG LDG_CFG_enable = false ∧ wbit 0x8000_0000 LDG_CFG_enable = true ∧ s.ldg.later = [])),
    (let s : State := { State.reset with ldg := { State.reset.ldg with used := [(5, 1)] } }; decide (Ready s ∧ wbit 5 LDG_CFG_enable = false)),
    (let s : State := { State.reset with ldg := { State.reset.ldg with used := [(1023, 1)] } }; decide (Ready s ∧ regOn s (LDG_CODE_CFG 1023) = true)),
    (let s : State := regsSet [(LDG_CFG, 0x8000_0001), (LDG_CODE_CFG 0x3FF, 0x8000_0000)] State.reset; decide (Ready s ∧ regOn s LDG_SW_EVENT = true ∧ wbit 0x801F_FFFF LDG_SW_EVENT_go = true ∧ wget 0x801F_FFFF LDG_SW_EVENT_n = 31 ∧ fget s (LDG_CODE_CFG 0x3FF) LDG_CODE_CFG_period_ms = 0 ∧ fbit s (LDG_CODE_CFG 0x3FF) LDG_CODE_CFG_enable = true ∧ fbit s LDG_CFG LDG_CFG_enable = true)),
    (let s : State := State.reset; decide (Ready s ∧ fbit s LDG_CFG LDG_CFG_enable = false))].all id = true := by decide +kernel
theorem wit_LedgerEvents_4 : [
    (let s : State := State.reset; decide (Ready s ∧ wbit 0x001F_FFFF LDG_SW_EVENT_go = false))].all id = true := by decide +kernel
theorem wit_PinsAndTestPort_1 : [
    (let s : State := fldSet CTL_CAT_STATUS CTL_CAT_STATUS_state 5 State.reset; decide (s.pin.resetLow = false ∧ s.pwr.state < 2 ∧ s.pin.ir ∉ [JtagIr.highz, .extest, .clamp] ∧ s.twn.withdrawn = false)),
    (let s : State := fldSet CTL_CAT_STATUS CTL_CAT_STATUS_state 5 { State.reset with twn := { State.reset.twn with withdrawn := true } }; decide (s.pin.resetLow = false ∧ s.pwr.state < 2 ∧ s.twn.withdrawn = true)),
    (let s : State := memSet 9 [5] State.reset; decide (s.pin.perstLow = false)),
    (let s : State := { State.reset with pin := { State.reset.pin with absent := [.vddhSds], perstLow := true } }; decide (s.pin.perstLow = true)),
    (let s : State := { State.reset with pin := { State.reset.pin with perstLow := true } }; decide (s.pin.perstLow = true)),
    (let s : State := memSet 9 [5] (runs .A { State.reset with perm := { State.reset.perm with fuses := 5 }, pin := { State.reset.pin with absent := [.vddio0], ir := .clamp } }); decide (s.pin.resetLow = false))].all id = true := by decide +kernel
theorem wit_PinsAndTestPort_2 : [
    (let s : State := memSet 9 [5] (runs .A { fldSet CTL_CAT_STATUS CTL_CAT_STATUS_state 5 State.reset with perm := { State.reset.perm with fuses := 5 }, pin := { State.reset.pin with absent := [.vddio0], ir := .clamp } }); decide (s.pin.resetLow = false)),
    (let s : State := fldSet CTL_CAT_STATUS CTL_CAT_STATUS_state 5 State.reset; decide ((pinSupplies .ownOut ++ pinSupplies .serdesTx ++ pinSupplies .dram ++ pinSupplies .alive).all (fun v => !s.pin.absent.contains v) = true ∧ s.pin.ir ∉ [JtagIr.highz, .extest, .clamp])),
    (let s : State := { State.reset with pin := { State.reset.pin with resetLow := true } }; decide (s.pin.resetLow = true)),
    (let s : State := { State.reset with pin := { State.reset.pin with absent := [.vddio0] } }; decide (s.pin.absent.contains .vddio0 = true)),
    (let s : State := fldSet (NET_PORT_STATUS 7) NET_PORT_STATUS_up 1 State.reset; decide (s.pin.absent.contains .vddSds = false ∧ portUp s 7 = true)),
    (let s : State := regsSet [(PRT_SIDE_STATUS 126, 2)] { runs .A State.reset with prt := { State.reset.prt with sides := [(126, some (sideFresh (BitVec.ofNat 32 (2 ^ PRT_SIDE_CFG_enable.lo + 2 ^ PRT_SIDE_CFG_domain.lo)) 0))] } }; let d := sideFresh (BitVec.ofNat 32 (2 ^ PRT_SIDE_CFG_enable.lo + 2 ^ PRT_SIDE_CFG_domain.lo)) 0; decide (sideSupply 126 = .vddio2 ∧ s.prt.sides.map (·.1) = [126] ∧ side s 126 = some d ∧ d.cause = 0 ∧ sideMaster 126 d = false ∧ sideWorks s 126 d = true ∧ s.pin.absent.contains .vddio2 = false))].all id = true := by decide +kernel
theorem wit_PinsAndTestPort_3 : [
    (let s : State := { State.reset with pin := { State.reset.pin with absent := [.vppFuse, .vddSds] } }; decide (s.pin.absent.contains .vddSds = true)),
    (let s : State := { State.reset with pin := { State.reset.pin with bypassBit := true, preload := 9 } }; decide (s.pin.absent.contains .vddio5 = false)),
    (let s : State := State.reset; decide (s.pin.absent.contains .vddio5 = false)),
    (let s : State := State.reset; decide (s.pin.absent.contains .vddio5 = false ∧ pinSingle .alive = true)),
    (let s : State := { State.reset with pin := { State.reset.pin with resetLow := true, absent := [] }, perm := { State.reset.perm with fuses := 4 } }; decide (s.pin.absent.contains .vddio5 = false ∧ s.pin.absent.contains .vppFuse = false ∧ s.pin.resetLow = true)),
    (let s : State := { State.reset with pin := { State.reset.pin with absent := [] }, perm := { State.reset.perm with fuses := 4 } }; decide (s.pin.absent.contains .vddio5 = false ∧ s.pin.resetLow = false))].all id = true := by decide +kernel
theorem wit_PinsAndTestPort_4 : [
    (let s : State := { State.reset with perm := { State.reset.perm with fuses := 4 } }; decide (s.pin.absent.contains .vddio5 = false)),
    (let s : State := { State.reset with pin := { State.reset.pin with absent := [.vddio5], resetLow := true } }; decide (s.pin.absent.contains .vddio5 = true))].all id = true := by decide +kernel

/-! ### A valid catalogue image, in the flash and in memory -/

/-- A value passed on once it is a numeral. -/
def strict {α : Type} (n : Nat) (f : Nat → α) : α := match n with | 0 => f 0 | m + 1 => f (m + 1)
theorem strict_eq {α : Type} (n : Nat) (f : Nat → α) : strict n f = f n := by cases n <;> rfl
/-- One bit, and one byte, of CRC-32C on numbers. -/
def crcBitN (c : Nat) : Nat := if c % 2 = 1 then (c / 2) ^^^ 0x82F63B78 else c / 2
def crcBits : List Nat → Nat → Nat
  | [], c => c
  | _ :: t, c => strict (crcBitN c) (crcBits t)
def crcN : List Byte → Nat → Nat
  | [], c => c
  | b :: t, c => strict (c ^^^ b.toNat) (fun d => strict (crcBits [0, 1, 2, 3, 4, 5, 6, 7] d) (crcN t))

theorem crcBit_toNat (c : BitVec 32) :
    (if c.getLsbD 0 then (c >>> 1) ^^^ 0x82F63B78#32 else c >>> 1).toNat = crcBitN c.toNat := by
  unfold crcBitN
  have h : c.getLsbD 0 = decide (c.toNat % 2 = 1) := by simp [BitVec.getLsbD]
  rw [h]
  by_cases g : c.toNat % 2 = 1 <;> simp [g, Nat.shiftRight_eq_div_pow]
theorem crcBits_toNat (l : List Nat) (c : BitVec 32) :
    (l.foldl (fun c _ => if c.getLsbD 0 then (c >>> 1) ^^^ 0x82F63B78#32 else c >>> 1) c).toNat = crcBits l c.toNat := by
  induction l generalizing c with
  | nil => rfl
  | cons x t ih => rw [List.foldl_cons, ih, crcBit_toNat, crcBits, strict_eq]
theorem crcByte_toNat (c : BitVec 32) (b : Byte) :
    (crcByte 0x82F63B78#32 c b).toNat = crcBits [0, 1, 2, 3, 4, 5, 6, 7] (c.toNat ^^^ b.toNat) := by
  unfold crcByte
  rw [crcBits_toNat, BitVec.toNat_xor, BitVec.toNat_setWidth, Nat.mod_eq_of_lt (Nat.lt_trans b.isLt (by decide))]
  rfl
theorem crcFold_toNat (l : List Byte) (c : BitVec 32) : (l.foldl (crcByte 0x82F63B78#32) c).toNat = crcN l c.toNat := by
  induction l generalizing c with
  | nil => rfl
  | cons b t ih => rw [List.foldl_cons, ih, crcByte_toNat, crcN, strict_eq, strict_eq]
/-- CRC-32C in a form that the kernel evaluates byte by byte. -/
theorem crc32c_toNat (l : List Byte) : (crc32c l).toNat = 2 ^ 32 - 1 - crcN l 0xFFFF_FFFF := by
  unfold crc32c
  rw [BitVec.toNat_not, crcFold_toNat]
  rfl

/-- A map searched past a part that does not list the key, and with a tail that does not. -/
theorem smGet_skip {α : Type} (d : α) (l m : SMap α) (k : Nat) (h : ∀ e ∈ l, e.1 ≠ k) : smGet d (l ++ m) k = smGet d m k := by
  induction l with
  | nil => rfl
  | cons e t ih => rw [List.cons_append, smGet, if_neg (h e (List.mem_cons_self ..)), ih (fun x hx => h x (List.mem_cons_of_mem _ hx))]
theorem smGet_none {α : Type} (d : α) (l : SMap α) (k : Nat) (h : ∀ e ∈ l, e.1 ≠ k) : smGet d l k = d := by
  have := smGet_skip d l [] k h
  rwa [List.append_nil] at this
theorem smGet_front {α : Type} (d : α) (l m : SMap α) (k : Nat) (h : ∀ e ∈ m, e.1 ≠ k) : smGet d (l ++ m) k = smGet d l k := by
  induction l with
  | nil => exact smGet_none d m k h
  | cons e t ih => rw [List.cons_append, smGet, smGet, ih]

/-- An image of sequence number 7 or 8 with one PHASE1 section of two bytes: what its header, its table and its body list. -/
def imageHead (seq : Nat) : SMap Byte :=
  [(0, 0x54), (1, 0x43), (2, 0x57), (3, 0x53), (4, 1), (7, 0x98), (8, BitVec.ofNat 8 seq), (16, 0x42), (17, 0x50), (20, 1)]
def imageTable (crc : Nat) : SMap Byte :=
  [(4092, BitVec.ofNat 8 crc), (4093, BitVec.ofNat 8 (crc / 2 ^ 8)), (4094, BitVec.ofNat 8 (crc / 2 ^ 16)), (4095, BitVec.ofNat 8 (crc / 2 ^ 24)),
   (0x1000, 1), (0x1005, 0x50), (0x1008, 2), (0x100C, 0x91), (0x100D, 0x69), (0x100E, 0xE8), (0x100F, 0x8A),
   (0x1012, 0x10), (0x1013, 0x40), (0x101A, 0x10), (0x101B, 0x40)]
def imageBody : SMap Byte := [(0x5000, 5), (0x5001, 6)]
/-- The byte of an image at an offset. -/
def imageF (seq crc : Nat) (o : Nat) : Byte :=
  if o < 24 then smGet 0 (imageHead seq) o else if o < 4092 then 0 else if o < 0x1040 then smGet 0 (imageTable crc) o else smGet 0 imageBody o
theorem imageF_eq (seq crc o : Nat) : smGet 0 (imageHead seq ++ (imageTable crc ++ imageBody)) o = imageF seq crc o := by
  have h1 : ∀ e ∈ imageHead seq, e.1 < 24 := by simp [imageHead]
  have h2 : ∀ e ∈ imageTable crc, 4092 ≤ e.1 ∧ e.1 < 0x1040 := by simp [imageTable]
  have h3 : ∀ e ∈ imageBody, 0x5000 ≤ e.1 := by simp [imageBody]
  unfold imageF
  split
  · refine smGet_front _ _ _ _ (fun e he => ?_)
    rcases List.mem_append.mp he with h | h
    · have := h2 e h; omega
    · have := h3 e h; omega
  · rw [smGet_skip _ _ _ _ (fun e he => by have := h1 e he; omega)]
    split
    · refine smGet_none _ _ _ (fun e he => ?_)
      rcases List.mem_append.mp he with h | h
      · have := h2 e h; omega
      · have := h3 e h; omega
    · split
      · exact smGet_front _ _ _ _ (fun e he => by have := h3 e he; omega)
      · exact smGet_skip _ _ _ _ (fun e he => by have := h2 e he; omega)

/-- `n` bytes of an image from address `b`, listed before `rest`. -/
def imagePut (b : Nat) (f : Nat → Byte) : Nat → SMap Byte → SMap Byte
  | 0, rest => rest
  | n + 1, rest => imagePut b f n ((b + n, f n) :: rest)
theorem imagePut_get (b : Nat) (f : Nat → Byte) (n : Nat) (rest : SMap Byte) (k : Nat) :
    smGet 0xFF (imagePut b f n rest) k = if b ≤ k ∧ k < b + n then f (k - b) else smGet 0xFF rest k := by
  induction n generalizing rest with
  | zero => rw [imagePut, if_neg (by omega)]
  | succ n ih =>
    rw [imagePut, ih, smGet]
    by_cases h : b + n = k
    · subst h
      rw [if_neg (by omega), if_pos rfl, if_pos (by omega)]
      congr 1; omega
    · by_cases g : b ≤ k ∧ k < b + n
      · rw [if_pos g, if_pos (by omega)]
      · rw [if_neg g, if_neg h, if_neg (by omega)]

/-- Slot 0 holds sequence number 7 and slot 1 number 8. -/
@[irreducible] def twoImages : SMap Byte := imagePut 0 (imageF 7 0xCD516290) 0x5042 (imagePut 0x0800_0000 (imageF 8 0x72E90410) 0x5042 [])
def bothSlots : State := { State.reset with perm := { State.reset.perm with flash := twoImages } }
theorem twoImages_byte (o : Nat) : smGet 0xFF twoImages o =
    if o < 0x5042 then imageF 7 0xCD516290 o else if 0x0800_0000 ≤ o ∧ o < 0x0800_5042 then imageF 8 0x72E90410 (o - 0x0800_0000) else 0xFF := by
  unfold twoImages
  rw [imagePut_get, imagePut_get]
  simp only [Nat.zero_le, true_and, Nat.zero_add, Nat.sub_zero, smGet, Nat.reduceAdd]
theorem slots_valid : imgValid bothSlots (.slot 0) = true ∧ imgValid bothSlots (.slot 1) = true := by
  unfold imgValid imgShape imgSignature imgSigned imgSections imgSection imgSeq imgCount imgLen imgNat imgBytes flashByte
  simp only [crc32c_toNat, show bothSlots.perm.flash = twoImages from rfl, twoImages_byte, slotBase]
  decide +kernel
/-- Both slots hold a valid image; with a slot that does not answer, the other alone. -/
theorem wit_Startup_slots : Ready bothSlots ∧ catState bothSlots = 0 ∧ (∀ k < 2, rejected bothSlots k = false) ∧
    slotValid bothSlots 0 0 = true ∧ slotValid bothSlots 0 1 = true ∧ slotValid bothSlots 2 0 = true ∧ slotValid bothSlots 1 1 = true ∧
    slotValid bothSlots 2 1 = false ∧ slotValid bothSlots 1 0 = false := by
  refine ⟨by decide, by decide, by decide, ?_⟩
  unfold slotValid
  rw [slots_valid.1, slots_valid.2]
  decide

/-- An image of sequence number 8 in the Storeroom. -/
def imageCells : List Host.Cell := (imageHead 8 ++ (imageTable 0x72E90410 ++ imageBody)).map (fun e => (0x4040_0000 + e.1, e.2))
theorem shifted_get (b : Nat) (l : SMap Byte) (o : Nat) : memByte (l.map (fun e => (b + e.1, e.2))) (b + o) = smGet 0 l o := by
  unfold memByte
  induction l with
  | nil => rfl
  | cons e t ih =>
    rw [List.map_cons, smGet, smGet, ih]
    by_cases h : e.1 = o
    · rw [if_pos h, if_pos (by rw [h])]
    · rw [if_neg h, if_neg (by omega)]
theorem image_view {s : State} (h1 : s.ecc.merge = []) (h2 : s.drc.wq = []) (h3 : s.ecc.bad = []) (h4 : s.mem = imageCells) (o : Nat) :
    memView s false (0x4040_0000 + o) = imageF 8 0x72E90410 o := by
  unfold memView mergeByte wqByte
  rw [h1, h2, h3, h4, imageCells, shifted_get, imageF_eq]
  rfl
theorem image_loads {s : State} (h : ∀ o, memView s false (0x4040_0000 + o) = imageF 8 0x72E90410 o) (hf : s.perm.fuses = 0)
    (hs : fget s SYS_STEPPING SYS_STEPPING_major = 1) : loadCheck s (.mem 0x4040_0000) = none := by
  unfold loadCheck imgShape imgSignature bodyCrc bodyDigest fused imgSigned imgSections imgSection imgSeq imgCount imgLen imgNat imgBytes viewBytes
  simp only [crc32c_toNat, hf, hs, Nat.add_assoc, h]
  decide +kernel
/-- The image in the Storeroom, with an erased flash whose slot 0, or the two images whose slot 0, is in use. -/
def imageOlder : State := { State.reset with mem := imageCells }
def imageNewer : State := { bothSlots with mem := imageCells }
def imageEntry : BitVec 512 := entry 0x0801 [(16, 0x4040_0000), (24, 0x5042), (28, 1)]
theorem wit_CopiesAndLoads_image : [imageOlder, imageNewer].all (fun s => acceptsB s 0x0801 imageEntry [(16, 13)] && s.cat.load.isNone &&
    decide (imgLen s (.mem 0x4040_0000) ≤ 0x5042)) = true ∧ eByte imageEntry 28 1 = 1 ∧ inStore 0x4040_0000 0x5042 = true ∧
    loadCheck imageOlder (.mem 0x4040_0000) = none ∧ imgSeq imageOlder (.mem 0x4040_0000) ≤ imgSeq imageOlder (imgInUse imageOlder) ∧
    loadCheck imageNewer (.mem 0x4040_0000) = none ∧ imgSeq imageNewer (imgInUse imageNewer) < imgSeq imageNewer (.mem 0x4040_0000) := by
  have h : imgSeq imageNewer (imgInUse imageNewer) = 7 := by
    rw [show imgInUse imageNewer = .slot 0 by decide]
    unfold imgSeq imgNat imgBytes flashByte
    simp only [show imageNewer.perm.flash = twoImages from rfl, twoImages_byte, slotBase]
    decide +kernel
  refine ⟨by decide +kernel, by decide +kernel, by decide, image_loads (image_view rfl rfl rfl rfl) (by decide) (by decide), by decide +kernel,
    image_loads (image_view rfl rfl rfl rfl) (by decide) (by decide), ?_⟩
  rw [h]
  decide +kernel
/-- A bridge coefficient from 48 kHz to 48 kHz has at least one phase and one tap. -/
theorem wit_ReadingRoom_coefficient : domOn State.reset 13 = true ∧ 0 < 2 * (brLo 1 * (rateHz 1 / 48000) / (rateHz 1 / 48000) - 2) ∧
    0 < rateHz 1 / Nat.gcd (rateHz 1) (rateHz 1) := by decide +kernel

end Sys2Proof.Tests
end

section
/-! PROOF. 00 R3 and log 1: every step keeps the byte memories in their canonical form (O58). Each function of the model that
answers a state either keeps the memory (`<function>_mem`) or keeps it canonical (`<function>_wf`); the functions stand in the
model's own order. The forms that commands take and the dispatch of `exec` follow from them, and the step from `exec`. -/

namespace Sys2Proof.Machine

/-! ### What keeps a memory canonical -/

/-- A state whose memory is in canonical form: what an effect that may write memory is given. -/
abbrev Canonical := { s : State // memWf s.mem = true }

@[simp] theorem Canonical.wf (t : Canonical) : memWf t.1.mem = true := t.2

/-- What keeps the memory keeps it canonical. -/
theorem wf_of_mem {s t : State} (e : t.mem = s.mem) (h : memWf s.mem = true) : memWf t.mem = true := (congrArg memWf e).trans h

/-- The memory of a state that is written out field by field. -/
theorem mk_mem (pending : List Instr) (regs : SMap W32) (mem : List Host.Cell) (gal : GalSt) (scn : ScnSt) (str : StrSt) (cores : SMap Core)
    (atlFill : List Nat) (xmap : SMap W32) (atlOut : SMap S64) (prt : PrtSt) (net : NetSt) (dax : DaxSt) (line : LineSt) (tim : TimSt)
    (twn : TwnSt) (ecc : MemSt) (drc : DrcSt) (ctl : CtlSt) (cat : CatSt) (pwr : PwrSt) (ldg : LdgSt) (pin : PinSt) (perm : Perm)
    (due : List Due) (out : List Emit) (free : Nat) :
    (State.mk pending regs mem gal scn str cores atlFill xmap atlOut prt net dax line tim twn ecc drc ctl cat pwr ldg pin perm due out free).mem =
      mem := rfl

@[simp] theorem memWf_ite (c : Prop) [Decidable c] (a b : List Host.Cell) : memWf (if c then a else b) = if c then memWf a else memWf b :=
  apply_ite memWf c a b

/-- A choice keeps the memory that both its sides keep. -/
theorem ite_mem_of {c : Prop} [Decidable c] {a b : State} {m : List Host.Cell} (ha : a.mem = m) (hb : b.mem = m) :
    (if c then a else b).mem = m := by
  rw [ite_mem, ha, hb, ite_self]

/-- A choice between states whose memory is canonical. -/
theorem ite_wf {c : Prop} [Decidable c] {a b : State} (ha : memWf a.mem = true) (hb : memWf b.mem = true) :
    memWf (if c then a else b).mem = true := by
  rw [ite_mem, memWf_ite, ha, hb, ite_self]

/-- As `ite_mem_of`, where the state comes with a value beside it. -/
theorem ite_fst_mem_of {α : Type} {c : Prop} [Decidable c] {a b : State × α} {m : List Host.Cell} (ha : a.1.mem = m) (hb : b.1.mem = m) :
    (if c then a else b).1.mem = m := by
  rw [apply_ite Prod.fst, ite_mem_of ha hb]

/-- As `ite_wf`, where the state comes with a value beside it. -/
theorem ite_fst_wf {α : Type} {c : Prop} [Decidable c] {a b : State × α} (ha : memWf a.1.mem = true) (hb : memWf b.1.mem = true) :
    memWf (if c then a else b).1.mem = true := by
  rw [apply_ite Prod.fst]
  exact ite_wf ha hb

/-- The memory of the state that an equation takes out of a pair. -/
theorem fst_mem_of_eq {α : Type} {p : State × α} {t : State} {a : α} {m : List Host.Cell} (e : p = (t, a)) (h : p.1.mem = m) : t.mem = m := by
  rw [← h, e]

theorem snd_mem_of_eq {α : Type} {p : α × State} {t : State} {a : α} {m : List Host.Cell} (e : p = (a, t)) (h : p.2.mem = m) : t.mem = m := by
  rw [← h, e]

theorem fst_wf_of_eq {α : Type} {p : State × α} {t : State} {a : α} (e : p = (t, a)) (h : memWf p.1.mem = true) : memWf t.mem = true :=
  wf_of_mem (fst_mem_of_eq e rfl) h

@[simp] theorem foldl_mem {α : Type} (g : State → α → State) (h : ∀ s a, (g s a).mem = s.mem) (l : List α) (s : State) :
    (l.foldl g s).mem = s.mem := foldl_frame State.mem g h l s

@[simp] theorem foldl_pair_mem {α γ : Type} (g : State × γ → α → State × γ) (h : ∀ s a, (g s a).1.mem = s.1.mem) (l : List α)
    (s : State × γ) : (l.foldl g s).1.mem = s.1.mem := foldl_frame1 State.mem g h l s

/-- A loop keeps the memory canonical when its body does, on canonical states. -/
@[simp] theorem foldl_wf {α : Type} (g : State → α → State) (hg : ∀ (t : Canonical) a, memWf (g t.1 a).mem = true) :
    ∀ (l : List α) (s : State), memWf s.mem = true → memWf (l.foldl g s).mem = true
  | [], _, h => h
  | a :: l, s, h => foldl_wf g hg l (g s a) (hg ⟨s, h⟩ a)

/-- As `foldl_wf`, for a loop that carries a value beside the state. -/
@[simp] theorem foldl_pair_wf {α γ : Type} (g : State × γ → α → State × γ) (hg : ∀ (t : Canonical) c a, memWf (g (t.1, c) a).1.mem = true) :
    ∀ (l : List α) (s : State × γ), memWf s.1.mem = true → memWf (l.foldl g s).1.mem = true
  | [], _, h => h
  | a :: l, s, h => foldl_pair_wf g hg l (g s a) (hg ⟨s.1, h⟩ s.2 a)

/-- Entries may be dropped from a map in canonical form. -/
theorem smOk_filter {α : Type} [DecidableEq α] (d : α) (p : Nat × α → Bool) (m : SMap α) (h : smOk d m = true) :
    smOk d (m.filter p) = true := by
  induction m with
  | nil => rfl
  | cons e t ih =>
    simp only [smOk, Bool.and_eq_true] at h
    obtain ⟨⟨hne, hlt⟩, hok⟩ := h
    rw [List.filter_cons]
    split
    · simp only [smOk, Bool.and_eq_true]
      refine ⟨⟨hne, ?_⟩, ih hok⟩
      rw [List.all_eq_true] at hlt ⊢
      exact fun e he => hlt e (List.mem_filter.mp he).1
    · exact ih hok

@[simp] theorem filter_wf (p : Host.Cell → Bool) (m : List Host.Cell) (h : memWf m = true) : memWf (m.filter p) = true := by
  rw [memWf_eq] at h ⊢
  exact smOk_filter memDefault p m h

/-! ### The shared operations: `Machine/Ops.lean` -/

@[simp] theorem setKey_mem (s : State) (slot d : Nat) (v : Bool) : (setKey s slot d v).mem = s.mem := by simp [setKey]
@[simp] theorem msixSend_mem (s : State) (v : Nat) : (msixSend s v).mem = s.mem := by simp [msixSend]
@[simp] theorem freeDraw_mem (s : State) : (freeDraw s).2.mem = s.mem := by simp [freeDraw]

@[simp] theorem memStore_wf (s : State) (a n v : Nat) (h : memWf s.mem = true) : memWf (memStore s a n v).mem = true := memStoreBytes_wf _ _ _ h

@[simp] theorem timeTo_mem (s : State) (t : Nat) : (timeTo s t).mem = s.mem := by simp [timeTo]

@[simp] theorem capture_mem (s : State) (cause master addr : Nat) (write : Bool) (strobes : Nat) :
    (capture s cause master addr write strobes).mem = s.mem := by simp [capture]

@[simp] theorem fieldsWrite_mem (s : State) (k : Nat) (v : W32) : (fieldsWrite s k v).mem = s.mem := by
  unfold fieldsWrite
  split <;> simp

@[simp] theorem swWrite_mem (s : State) (master k : Nat) (v : W32) : (swWrite s master k v).mem = s.mem := by simp [swWrite]
@[simp] theorem ldgSuppress_mem (s : State) (c : Nat) : (ldgSuppress s c).mem = s.mem := by simp [ldgSuppress]
@[simp] theorem occur_mem (s : State) (code src : Nat) (det : List W32) : (occur s code src det).mem = s.mem := by simp [occur]
@[simp] theorem daxQueue_mem (s : State) (l : Nat) (m : DaxMsg) : (daxQueue s l m).mem = s.mem := by simp [daxQueue]
@[simp] theorem daxOwn_mem (s : State) (l : Nat) (m : DaxMsg) : (daxOwn s l m).mem = s.mem := by simp [daxOwn]
@[simp] theorem twinSend_mem (s : State) : (twinSend s).mem = s.mem := by simp [twinSend]
@[simp] theorem twinOn_mem (s t : State) : (twinOn s t).mem = t.mem := by simp [twinOn]
@[simp] theorem accuse.accused_mem (s : State) (cause : Nat) : (accuse.accused s cause).mem = s.mem := by simp [accuse.accused]
@[simp] theorem accuse_mem (s : State) (cause : Nat) : (accuse s cause).mem = s.mem := by simp [accuse]
@[simp] theorem outstUpdate_mem (s : State) (l : List Tkt) : (outstUpdate s l).mem = s.mem := by simp [outstUpdate]

@[simp] theorem newTicket_mem (s : State) (iss code : Nat) (record : Bool) (signal : Option Nat) :
    (newTicket s iss code record signal).2.mem = s.mem := by simp [newTicket]

@[simp] theorem docPush_mem (s : State) (t : Nat) : (docPush s t).mem = s.mem := by simp [docPush]

@[simp] theorem ticketDone_mem (s : State) (ticket : Nat) (signal : Option Nat) : (ticketDone s ticket signal).mem = s.mem := by
  unfold ticketDone
  split <;> simp

@[simp] theorem recordWrite_wf (s : State) (r : Held) (h : memWf s.mem = true) : memWf (recordWrite s r).mem = true := by
  unfold recordWrite
  extract_lets tail ph0 w0 a s1 nt flip s2 _ s3
  have h1 : memWf s1.mem = true := memStore_wf _ _ _ _ (memStore_wf _ _ _ _ (memStore_wf _ _ _ _ (memStore_wf _ _ _ _ h)))
  have h2 : s2.mem = s1.mem := by simp only [s2]; split <;> simp
  have h3 : s3.mem = s2.mem := by simp only [s3]; split <;> simp
  simp [h3, h2, h1]

@[simp] theorem recordQueue_wf (s : State) (r : Held) (h : memWf s.mem = true) : memWf (recordQueue s r).mem = true := by simp [recordQueue, h]

@[simp] theorem complete_wf (s : State) (ticket oc dom result : Nat) (h : memWf s.mem = true) :
    memWf (complete s ticket oc dom result).mem = true := by
  unfold complete
  split <;> simp [h]

@[simp] theorem refuse_wf (s : State) (ticket oc at_ : Nat) (h : memWf s.mem = true) : memWf (refuse s ticket oc at_).mem = true := by simp [refuse, h]
@[simp] theorem refuseAll_wf (s : State) (ticket oc : Nat) (h : memWf s.mem = true) : memWf (refuseAll s ticket oc).mem = true := by simp [refuseAll, h]

/-! ### The time reference (11): `Machine/TimeRef.lean` -/

@[simp] theorem setDpll_mem (s : State) (aux : Bool) (v : Nat) : (setDpll s aux v).mem = s.mem := by simp -implicitDefEqProofs [setDpll]
@[simp] theorem setFreq_mem (s : State) (aux : Bool) (f : Int) : (setFreq s aux f).mem = s.mem := by simp [setFreq]
@[simp] theorem ptpPhase_mem (s : State) : (ptpPhase s).mem = s.mem := by simp [ptpPhase]
@[simp] theorem setAdj_mem (s : State) (adj max : Int) : (setAdj s adj max).mem = s.mem := by simp [setAdj]
@[simp] theorem servoApply_mem (s : State) : (servoApply s).mem = s.mem := by simp -implicitDefEqProofs [servoApply]
@[simp] theorem masterChange_mem (s : State) : (masterChange s).mem = s.mem := by simp [masterChange]
@[simp] theorem servoCtrl_mem (w : W32) (s : State) : (servoCtrl w s).mem = s.mem := by simp [servoCtrl]
@[simp] theorem setQual_mem (s : State) (i : Nat) (v : Bool) : (setQual s i v).mem = s.mem := by simp [setQual]
@[simp] theorem setPresent_mem (s : State) (i t : Nat) : (setPresent s i t).mem = s.mem := by simp [setPresent]
@[simp] theorem toHoldover_mem (s : State) (aux : Bool) : (toHoldover s aux).mem = s.mem := by simp [toHoldover]
@[simp] theorem setBw_mem (s : State) (aux : Bool) (v : Nat) : (setBw s aux v).mem = s.mem := by simp [setBw]
@[simp] theorem followInput_mem (s : State) (aux : Bool) (i : Nat) : (followInput s aux i).mem = s.mem := by simp [followInput]
@[simp] theorem selectedTo_mem (i : Nat) (s : State) : (selectedTo i s).mem = s.mem := by simp [selectedTo]

@[simp] theorem selectionTake_mem (r : Option Nat) (conflict : Bool) (s : State) : (selectionTake r conflict s).mem = s.mem := by
  unfold selectionTake
  split <;> simp

@[simp] theorem selection_mem (s : State) : (selection s).mem = s.mem := by simp [selection]

@[simp] theorem auxFollow_mem (s : State) : (auxFollow s).mem = s.mem := by
  unfold auxFollow
  split
  · rfl
  · split
    · simp
    · split
      · simp
      · split
        · simp
        · dsimp only; split <;> simp

@[simp] theorem disqualify_mem (s : State) (i : Nat) : (disqualify s i).mem = s.mem := by simp [disqualify]
@[simp] theorem doRefQualify_mem (i : Fin 9) (freq : BitVec 32) (s : State) : (doRefQualify i freq s).mem = s.mem := by simp [doRefQualify]
@[simp] theorem doFedTimerExpire_mem (s : State) : (doFedTimerExpire s).mem = s.mem := by simp [doFedTimerExpire]
@[simp] theorem doRefMissingPeriod_mem (p : MissedPeriod) (s : State) : (doRefMissingPeriod p s).mem = s.mem := by simp [doRefMissingPeriod]
@[simp] theorem doRefDisqualify_mem (i : Fin 9) (freq : BitVec 32) (s : State) : (doRefDisqualify i freq s).mem = s.mem := by simp [doRefDisqualify]
@[simp] theorem doHoldOffExpire_mem (s : State) : (doHoldOffExpire s).mem = s.mem := by simp [doHoldOffExpire]

@[simp] theorem doWtrExpire_mem (i : Fin 9) (s : State) : (doWtrExpire i s).mem = s.mem := by
  unfold doWtrExpire
  split <;> simp

@[simp] theorem doRankConflictRetry_mem (s : State) : (doRankConflictRetry s).mem = s.mem := by simp [doRankConflictRetry]
@[simp] theorem priorityWrite_mem (m k : Nat) (w : W32) (s : State) : (priorityWrite m k w s).mem = s.mem := by simp [priorityWrite]
@[simp] theorem doDpllLock_mem (aux : Bool) (freq phase : BitVec 32) (s : State) : (doDpllLock aux freq phase s).mem = s.mem := by simp [doDpllLock]
@[simp] theorem doBandwidthHalve_mem (aux : Bool) (s : State) : (doBandwidthHalve aux s).mem = s.mem := by simp [doBandwidthHalve]
@[simp] theorem doHoldoverSample_mem (aux : Bool) (m : DpllSecond) (s : State) : (doHoldoverSample aux m s).mem = s.mem := by simp [doHoldoverSample]
@[simp] theorem doHoldoverExpire_mem (aux : Bool) (s : State) : (doHoldoverExpire aux s).mem = s.mem := by simp [doHoldoverExpire]
@[simp] theorem toLost_mem (s : State) (aux : Bool) : (toLost s aux).mem = s.mem := by simp [toLost]
@[simp] theorem doSysrefLoss_mem (s : State) : (doSysrefLoss s).mem = s.mem := by simp [doSysrefLoss]

@[simp] theorem doSysrefReturn_mem (s : State) : (doSysrefReturn s).mem = s.mem := by
  fun_cases doSysrefReturn s
  · rfl
  · next s2 s3 r conflict _ s4 s5 =>
    have h2 : s2.mem = s.mem := (setFreq_mem ..).trans ((setDpll_mem ..).trans ((setFreq_mem ..).trans ((setDpll_mem ..).trans
      ((setPresent_mem ..).trans ((setQual_mem ..).trans (fset_mem ..))))))
    have h4 : s4.mem = s.mem := (selectionTake_mem ..).trans ((mk_mem ..).trans h2)
    have h5 : s5.mem = s.mem := ite_mem_of ((followInput_mem ..).trans h4) h4
    exact (auxFollow_mem ..).trans h5

@[simp] theorem stepApply_wf (at_ : Option (Dom × Nat)) (s : State) (h : memWf s.mem = true) : memWf (stepApply at_ s).mem = true := by
  unfold stepApply
  split <;> simp [h]

@[simp] theorem stepAtTick_wf (x : Dom) (n : Nat) (s : State) (h : memWf s.mem = true) : memWf (stepAtTick x n s).mem = true := by simp [stepAtTick, h]

@[simp] theorem doStepApply_wf (s : State) (h : memWf s.mem = true) : memWf (doStepApply s).mem = true := by
  unfold doStepApply
  split <;> simp [h]

@[simp] theorem timeStepCmd_wf (t : Nat) (e : BitVec 512) (s : State) (h : memWf s.mem = true) : memWf (timeStepCmd t e s).mem = true := by
  unfold timeStepCmd
  split <;> simp [h]

@[simp] theorem doPpsOutPulse_mem (s : State) : (doPpsOutPulse s).mem = s.mem := by
  generalize ht : doPpsOutPulse s = t
  unfold doPpsOutPulse at ht
  extract_lets n s0 _ s1 w ok at ht
  have h0 : s0.mem = s.mem := timeTo_mem ..
  have h1 : s1.mem = s0.mem := mk_mem ..
  split at ht
  · rw [← ht, emit_mem, mk_mem, h1, h0]
  · rw [← ht, h1, h0]

@[simp] theorem doPpsOutPulseEnd_mem (s : State) : (doPpsOutPulseEnd s).mem = s.mem := by simp [doPpsOutPulseEnd]
@[simp] theorem doPpsInEdge_mem (t : Nat) (s : State) : (doPpsInEdge t s).mem = s.mem := by simp [doPpsInEdge]

/-! ### The twins and conservation (12): `Machine/Twins.lean` -/

@[simp] theorem setRole_mem (s : State) (kind u role logical : Nat) : (setRole s kind u role logical).mem = s.mem := by simp [setRole]

@[simp] theorem setPhys_mem (s : State) (kind j u : Nat) : (setPhys s kind j u).mem = s.mem := by
  unfold setPhys
  split <;> simp

@[simp] theorem setClk_mem (s : State) (kind u : Nat) : (setClk s kind u).mem = s.mem := by
  unfold setClk
  split <;> simp -implicitDefEqProofs

@[simp] theorem islandsPlace_mem (d : Nat) (s : State) : (islandsPlace d s).mem = s.mem := by simp [islandsPlace]
@[simp] theorem islandsResume_mem (s : State) : (islandsResume s).mem = s.mem := by simp [islandsResume]
@[simp] theorem doTwinMessageSend_mem (s : State) : (doTwinMessageSend s).mem = s.mem := by simp [doTwinMessageSend]
@[simp] theorem releaseNow_mem (s : State) : (releaseNow s).mem = s.mem := by simp [releaseNow]
@[simp] theorem returnDue_mem (s : State) : (returnDue s).mem = s.mem := by simp [returnDue]
@[simp] theorem withdrawNow_mem (s : State) : (withdrawNow s).mem = s.mem := by simp [withdrawNow]
@[simp] theorem doWithdraw_mem (s : State) : (doWithdraw s).mem = s.mem := by simp [doWithdraw]

@[simp] theorem airNow_mem (s : State) : (airNow s).mem = s.mem := by
  unfold airNow
  split <;> simp

@[simp] theorem clearDiverge_mem (s : State) : (clearDiverge s).mem = s.mem := by simp [clearDiverge]
@[simp] theorem setPeer_mem (s : State) (v : Nat) : (setPeer s v).mem = s.mem := by simp [setPeer]

@[simp] theorem twinMsgIn_mem (l : Nat) (body : List (BitVec 64)) (s : State) : (twinMsgIn l body s).mem = s.mem := by
  unfold twinMsgIn
  split <;> simp

@[simp] theorem doPeerLost_mem (s : State) : (doPeerLost s).mem = s.mem := by simp [doPeerLost]
@[simp] theorem rejoin_mem (s : State) : (rejoin s).mem = s.mem := by simp [rejoin]
@[simp] theorem twnCtrl_mem (w : W32) (s : State) : (twnCtrl w s).mem = s.mem := by simp [twnCtrl]
@[simp] theorem twinTick_mem (x : Dom) (s : State) : (twinTick x s).mem = s.mem := by simp [twinTick]
@[simp] theorem twinCfg_mem (s t : State) : (twinCfg s t).mem = t.mem := by simp [twinCfg]
@[simp] theorem doOwnershipSample_mem (high : Bool) (s : State) : (doOwnershipSample high s).mem = s.mem := by simp [doOwnershipSample]

@[simp] theorem provTake_mem (x : Dom) (d n : Nat) (v : S64) (s : State) : (provTake x d n v s).mem = s.mem := by
  unfold provTake
  split
  · rfl
  · extract_lets put
    split
    · split
      · rfl
      · split <;> rfl
    · split <;> rfl

@[simp] theorem arbiterShow_mem (s : State) : (arbiterShow s).mem = s.mem := by simp [arbiterShow]
@[simp] theorem doProvenanceBlock_mem (x : Dom) (s : State) : (doProvenanceBlock x s).mem = s.mem := by simp [doProvenanceBlock]
@[simp] theorem verdict_mem (p : ProvWord) (s : State) : (verdict p s).mem = s.mem := by simp [verdict]
@[simp] theorem provCompare_mem (l : Nat) (p : ProvWord) (s : State) : (provCompare l p s).mem = s.mem := by simp [provCompare]
@[simp] theorem provMsgIn_mem (l : Nat) (body : List (BitVec 64)) (s : State) : (provMsgIn l body s).mem = s.mem := by simp [provMsgIn]

@[simp] theorem doProvenanceMissing_mem (x : Dom) (d : Fin 4096) (j : Nat) (s : State) : (doProvenanceMissing x d j s).mem = s.mem := by
  simp [doProvenanceMissing]

@[simp] theorem setRotStatus_mem (s : State) (kind spare logical phase : Nat) : (setRotStatus s kind spare logical phase).mem = s.mem := by
  simp -implicitDefEqProofs [setRotStatus]

@[simp] theorem setRot_mem (s : State) (r : Option Rotation) : (setRot s r).mem = s.mem := by simp [setRot]

@[simp] theorem conserveCmd_wf (t : Nat) (e : BitVec 512) (s : State) (h : memWf s.mem = true) : memWf (conserveCmd t e s).mem = true := by
  unfold conserveCmd
  split <;> simp [h]

@[simp] theorem consReport_wf (c : Conserve) (seq : Nat) (items : List ConsItem) (s : State) (h : memWf s.mem = true) :
    memWf (consReport c seq items s).mem = true := by
  unfold consReport
  extract_lets l bad t s1 s2
  have h2 : memWf s2.mem = true := by simp [s2, s1, memStoreBytes_wf, h]
  simp [h2]

@[simp] theorem consStop_mem (s0 : State) : (consStop s0).mem = s0.mem := by
  unfold consStop
  split <;> simp

@[simp] theorem doConservePassEnd_wf (all : List ConsItem) (s : State) (h : memWf s.mem = true) : memWf (doConservePassEnd all s).mem = true := by
  unfold doConservePassEnd
  split <;> simp [h]

/-! ### The DRAM channels (14): `Machine/Dram.lean` -/

@[simp] theorem setChState_mem (s : State) (ch v : Nat) : (setChState s ch v).mem = s.mem := by simp [setChState]
@[simp] theorem partConflict_mem (s : State) : (partConflict s).mem = s.mem := by simp [partConflict]
@[simp] theorem setTokens_mem (s : State) (m v : Nat) : (setTokens s m v).mem = s.mem := by simp [setTokens]

@[simp] theorem tokenFill_mem (s : State) (m : Nat) : (tokenFill s m).mem = s.mem := by
  unfold tokenFill
  split <;> simp

theorem tokenTake_mem (s t : State) (m beats : Nat) (ht : tokenTake s m beats = some t) : t.mem = s.mem := by
  unfold tokenTake at ht
  split at ht
  · cases ht; rfl
  · split at ht
    · cases ht; rfl
    · dsimp only at ht
      split at ht
      · cases ht
      · cases ht; simp

@[simp] theorem wqPut_mem (s : State) (m a : Nat) (l : List Byte) : (wqPut s m a l).mem = s.mem := by simp [wqPut]

@[simp] theorem wqAdmit_mem (s : State) (sub : Nat) : (wqAdmit s sub).mem = s.mem := by
  unfold wqAdmit
  split <;> simp

@[simp] theorem rqPut_mem (s : State) (m a dl : Nat) : (rqPut s m a dl).mem = s.mem := by simp [rqPut]

@[simp] theorem activate_mem (s : State) (sub burst m : Nat) : (activate s sub burst m).mem = s.mem := by
  unfold activate
  dsimp only
  split
  · rfl
  · split
    · rfl
    · split
      · split <;> simp -implicitDefEqProofs
      · simp -implicitDefEqProofs

@[simp] theorem doThrottleEnd_mem (m : Fin 21) (s : State) : (doThrottleEnd m s).mem = s.mem := by simp -implicitDefEqProofs [doThrottleEnd]
@[simp] theorem doRowWindowEnd_mem (sub : Fin 8) (s : State) : (doRowWindowEnd sub s).mem = s.mem := by simp [doRowWindowEnd]
@[simp] theorem retryPut_mem (s : State) (ch : Nat) : (retryPut s ch).mem = s.mem := by simp [retryPut]
@[simp] theorem doRefreshDue_mem (sub : Fin 8) (s : State) : (doRefreshDue sub s).mem = s.mem := by simp [doRefreshDue]
@[simp] theorem doTemperaturePoll_mem (ch : Fin 4) (hot : Bool) (s : State) : (doTemperaturePoll ch hot s).mem = s.mem := by simp [doTemperaturePoll]
@[simp] theorem doPeriodicRetrain_mem (sub : Fin 8) (s : State) : (doPeriodicRetrain sub s).mem = s.mem := by simp [doPeriodicRetrain]

@[simp] theorem doWriteDrainStart_mem (sub : Fin 8) (aged : Bool) (s : State) : (doWriteDrainStart sub aged s).mem = s.mem := by
  unfold doWriteDrainStart
  dsimp only
  split <;> simp

@[simp] theorem doWriteDrainEnd_mem (sub : Fin 8) (s : State) : (doWriteDrainEnd sub s).mem = s.mem := by simp [doWriteDrainEnd]

@[simp] theorem doBackgroundPromote_mem (sub : Fin 8) (s : State) : (doBackgroundPromote sub s).mem = s.mem := by
  unfold doBackgroundPromote
  split <;> simp

@[simp] theorem doCommandParityAlert_mem (ch : Fin 4) (sameWindow : Bool) (s : State) : (doCommandParityAlert ch sameWindow s).mem = s.mem := by
  simp [doCommandParityAlert]

@[simp] theorem dramInit_mem (w : W32) (s : State) : (dramInit w s).mem = s.mem := by simp [dramInit]

@[simp] theorem startDone_mem (ok : BitVec 4) (s : State) : (startDone ok s).mem = s.mem := by
  generalize ht : startDone ok s = t
  unfold startDone at ht
  split at ht
  · rw [ht]
  · extract_lets geomOf good tr one s1 up subs s2 at ht
    have hone : ∀ t ch, (one t ch).mem = t.mem := by intro t ch; simp only [one]; split <;> simp
    have h1 : s1.mem = s.mem := by simp [s1, hone]
    clear_value up
    split at ht
    · rw [← ht, h1]
    · rw [← ht, mk_mem, fset_mem, fset_mem, h1]

@[simp] theorem retireCmd_wf (t : Nat) (e : BitVec 512) (s : State) (h : memWf s.mem = true) : memWf (retireCmd t e s).mem = true := by
  unfold retireCmd
  split <;> simp [h]

@[simp] theorem readmitCmd_wf (t : Nat) (e : BitVec 512) (s : State) (h : memWf s.mem = true) : memWf (readmitCmd t e s).mem = true := by
  unfold readmitCmd
  split <;> simp [h]

@[simp] theorem reroute_mem (s : State) : (reroute s).mem = s.mem := by simp [reroute]
@[simp] theorem wordsLost_wf (s : State) (gone : Nat → Bool) (h : memWf s.mem = true) : memWf (wordsLost s gone).mem = true := by simp [wordsLost, h]

@[simp] theorem copyChunk_wf (s : State) (h : memWf s.mem = true) : memWf (copyChunk s).mem = true := by
  unfold copyChunk
  split <;> simp [h]

@[simp] theorem readmitFails_wf (m : Migration) (s : State) (h : memWf s.mem = true) : memWf (readmitFails m s).mem = true := by simp [readmitFails, h]

@[simp] theorem doTrainingDone_wf (ok : BitVec 4) (s : State) (h : memWf s.mem = true) : memWf (doTrainingDone ok s).mem = true := by
  unfold doTrainingDone
  split <;> simp [h]

@[simp] theorem doMigrationDone_wf (trained : Bool) (s : State) (h : memWf s.mem = true) : memWf (doMigrationDone trained s).mem = true := by
  unfold doMigrationDone
  split <;> simp [h]

/-! ### The control cores (16): `Machine/Harts.lean` -/

@[simp] theorem setHart_mem (s : State) (c : Nat) (h2 : Hart) : (setHart s c h2).mem = s.mem := by simp [setHart]
@[simp] theorem hartStart_mem (c pc : Nat) (s : State) : (hartStart c pc s).mem = s.mem := by simp [hartStart]
@[simp] theorem hartJump_mem (c pc : Nat) (s : State) : (hartJump c pc s).mem = s.mem := by simp [hartJump]
@[simp] theorem setHartReg_mem (c r : Nat) (v : BitVec 64) (s : State) : (setHartReg c r v s).mem = s.mem := by simp [setHartReg]
@[simp] theorem hartTrap_mem (c cause : Nat) (s : State) : (hartTrap c cause s).mem = s.mem := by simp [hartTrap]

@[simp] theorem throughPmp_wf (m a n : Nat) (store : Bool) (f : State → State) (s : State) (hf : ∀ t : Canonical, memWf (f t.1).mem = true)
    (h : memWf s.mem = true) : memWf (throughPmp m a n store f s).mem = true := by
  unfold throughPmp
  split
  · simp [h]
  · exact hf ⟨s, h⟩

/-! ### The memory with its code, queues and fills (13): `Machine/EccMemory.lean` -/

@[simp] theorem bucketRaise_mem (s : State) (r : Nat) : (bucketRaise s r).mem = s.mem := by simp [bucketRaise]

@[simp] theorem noteCorrection_mem (s : State) (region : Nat) (two : Bool) (array : BitVec 16) (column : BitVec 10) (addr word : Nat) :
    (noteCorrection s region two array column addr word).mem = s.mem := by simp -implicitDefEqProofs [noteCorrection]

@[simp] theorem noteUe_mem (s : State) (region : Nat) (array : BitVec 16) (addr : Nat) : (noteUe s region array addr).mem = s.mem := by simp [noteUe]
@[simp] theorem badAdd_mem (s : State) (w : Nat) : (badAdd s w).mem = s.mem := by simp [badAdd]

@[simp] theorem wordHolds_wf (s : State) (w : Nat) (d : BitVec 64) (c : BitVec 80) (h : memWf s.mem = true) :
    memWf (wordHolds s w d c).mem = true := by simp [wordHolds, memPutBytes_wf, h]

@[simp] theorem findingNote_wf (s : State) (f : Finding) (h : memWf s.mem = true) : memWf (findingNote s f).mem = true := by
  unfold findingNote
  split <;> simp [h]

@[simp] theorem readNote_wf (s : State) (ws : List Nat) (found : List Finding) (h : memWf s.mem = true) :
    memWf (readNote s ws found).mem = true := by simp [readNote, h]

@[simp] theorem respondAs_mem (cause : Nat) (s : State) (m : Nat) (wr_ ok : Bool) (v : Nat) : (respondAs cause s m wr_ ok v).mem = s.mem := by
  simp [respondAs]

@[simp] theorem respond_mem (s : State) (m : Nat) (wr_ ok : Bool) (v : Nat) : (respond s m wr_ ok v).mem = s.mem := by simp [respond]

@[simp] theorem accessError_mem (s : State) (cause m a : Nat) (wr_ : Bool) (strb : Nat) : (accessError s cause m a wr_ strb).mem = s.mem := by
  simp [accessError]

@[simp] theorem dramError_mem (s : State) (m o cause : Nat) (wr_ : Bool) (n : Nat) : (dramError s m o cause wr_ n).mem = s.mem := by simp [dramError]
@[simp] theorem dmaError_mem (s : State) (m a n cause : Nat) (wr_ : Bool) : (dmaError s m a n cause wr_).mem = s.mem := by simp [dmaError]

@[simp] theorem wqDrain_wf (s : State) (e : WqEnt) (h : memWf s.mem = true) : memWf (wqDrain s e).mem = true := by
  unfold wqDrain
  extract_lets put others s0 mem
  have h0 : s0.mem = s.mem := by simp [s0]
  have hm : ∀ (l : List Nat) (m : List Host.Cell), memWf m = true → memWf (l.foldl (fun m i =>
      if bitOf e.mask.toNat (i / 8) then memPut m (64 * e.burst + i) (BitVec.ofNat 8 (bitsOf e.data.toNat (8 * i) 8)) else m) m) = true := by
    intro l
    induction l with
    | nil => exact fun m hm => hm
    | cons i l ih => intro m hm; exact ih _ (by dsimp only; split <;> simp [memPut_wf, hm])
  have hmem : memWf mem = true := hm _ _ (by rw [h0]; exact h)
  simp [hmem]

@[simp] theorem burstEmit_mem (sub kind burst : Nat) (s : State) : (burstEmit sub kind burst s).mem = s.mem := by simp [burstEmit]

@[simp] theorem doDramCommandIssue_wf (sub : Fin 8) (skip : Nat) (s : State) (h : memWf s.mem = true) :
    memWf (doDramCommandIssue sub skip s).mem = true := by
  unfold doDramCommandIssue
  split <;> simp [h]

@[simp] theorem wordWrite_wf (s : State) (m w : Nat) (v : BitVec 64) (h : memWf s.mem = true) : memWf (wordWrite s m w v).mem = true := by
  simp [wordWrite, memPutBytes_wf, h]

@[simp] theorem mergeDone_wf (s : State) (e : MergeEnt) (found : List Finding) (h : memWf s.mem = true) :
    memWf (mergeDone s e found).mem = true := by simp [mergeDone, h]

@[simp] theorem wordPut_wf (s : State) (m port a : Nat) (l : List Byte) (found : List Finding) (h : memWf s.mem = true) :
    memWf (wordPut s m port a l found).mem = true := by
  unfold wordPut
  extract_lets w mine _ strb put s1
  have h1 : memWf s1.mem = true := by
    simp only [s1]
    split
    · split <;> simp [h]
    · exact h
  split
  · simp [h]
  · split
    · dsimp only; split <;> simp [h]
    · exact h1

@[simp] theorem mergeFirst_wf (s : State) (port w : Nat) (found : List Finding) (h : memWf s.mem = true) :
    memWf (mergeFirst s port w found).mem = true := by
  unfold mergeFirst
  split <;> simp [h]

@[simp] theorem memMergeComplete_wf (port : Nat) (found : List Finding) (s : State) (h : memWf s.mem = true) :
    memWf (memMergeComplete port found s).mem = true := by
  unfold memMergeComplete
  split <;> simp [h]

@[simp] theorem readPiece_wf (m : Nat) (found : List Finding) (s : State) (p : Nat × Nat) (h : memWf s.mem = true) :
    memWf (readPiece m found s p).mem = true := by simp [readPiece, h]

@[simp] theorem memReadAcc_wf (m a n : Nat) (found : List Finding) (s : State) (h : memWf s.mem = true) :
    memWf (memReadAcc m a n found s).mem = true := by
  unfold memReadAcc
  split
  · exact h
  · split
    · dsimp only
      split
      · simp [h]
      · split
        · exact h
        · next s1 hs =>
          have h1 : memWf s1.mem = true := by rw [tokenTake_mem _ _ _ _ hs]; exact h
          simp [h1]
    · simp [h]

@[simp] theorem memWriteAcc_wf (m a : Nat) (l : List Byte) (found : List Finding) (s : State) (h : memWf s.mem = true) :
    memWf (memWriteAcc m a l found s).mem = true := by
  unfold memWriteAcc
  extract_lets n host _ go o
  have hgo : ∀ t : Canonical, memWf (go t.1).mem = true := by intro t; simp [go]
  split
  · exact h
  · split
    · split
      · simp [h]
      · split
        · simp [h]
        · split
          · exact h
          · next s1 hs =>
            have h1 : memWf s1.mem = true := by rw [tokenTake_mem _ _ _ _ hs]; exact h
            simp [hgo ⟨s1, h1⟩]
    · simp [hgo ⟨s, h⟩]

@[simp] theorem aliasOp_wf (set : Bool) (m a : Nat) (data : BitVec 64) (strb : BitVec 8) (found : List Finding) (s : State)
    (h : memWf s.mem = true) :
    memWf (aliasOp set m a data strb found s).mem = true := by
  unfold aliasOp
  extract_lets w port s1 mask old
  have h1 : memWf s1.mem = true := by simp [s1, h]
  split <;> simp [h1]

@[simp] theorem aliasWrite_wf (set : Bool) (m addr : Nat) (data : BitVec 64) (strb : BitVec 8) (found : List Finding) (s : State)
    (h : memWf s.mem = true) :
    memWf (aliasWrite set m addr data strb found s).mem = true := by simp [aliasWrite, h]

@[simp] theorem doSetAliasWrite_wf (m : Fin 21) (addr : Nat) (data : BitVec 64) (strb : BitVec 8) (found : List Finding) (s : State)
    (h : memWf s.mem = true) :
    memWf (doSetAliasWrite m addr data strb found s).mem = true := by simp [doSetAliasWrite, h]

@[simp] theorem doClrAliasWrite_wf (m : Fin 21) (addr : Nat) (data : BitVec 64) (strb : BitVec 8) (found : List Finding) (s : State)
    (h : memWf s.mem = true) :
    memWf (doClrAliasWrite m addr data strb found s).mem = true := by simp [doClrAliasWrite, h]

@[simp] theorem doStoreroomAmo_wf (c : Fin 8) (op : AmoOp) (dbl : Bool) (addr : Nat) (data : BitVec 64) (found : List Finding) (s : State)
    (h : memWf s.mem = true) :
    memWf (doStoreroomAmo c op dbl addr data found s).mem = true := by
  unfold doStoreroomAmo
  extract_lets n _ w bank s1 word sh old put mine drop
  have h1 : memWf s1.mem = true := by simp [s1, h]
  have hdrop : ∀ t, (drop t).mem = t.mem := fun _ => rfl
  split
  · split
    · simp [h]
    · split
      · exact h
      · split
        · simp [h1]
        · split
          · simp [h1]
          · split <;> simp [hdrop, h1]
          · simp [h1]
  · simp [h]

@[simp] theorem doCorrectedWriteback_mem (s : State) : (doCorrectedWriteback s).mem = s.mem := by simp [doCorrectedWriteback]
@[simp] theorem doBucketLeak_mem (r : Fin 32) (s : State) : (doBucketLeak r s).mem = s.mem := by simp [doBucketLeak]
@[simp] theorem bucketConfig_mem (m r : Nat) (w : W32) (s : State) : (bucketConfig m r w s).mem = s.mem := by simp [bucketConfig]
@[simp] theorem patrolBad_mem (s : State) (region word : Nat) : (patrolBad s region word).mem = s.mem := by simp [patrolBad]
@[simp] theorem arrError_mem (r w : Nat) (s : State) : (arrError r w s).mem = s.mem := by simp [arrError]
@[simp] theorem cacheTrap_mem (m w : Nat) (s : State) : (cacheTrap m w s).mem = s.mem := by simp [cacheTrap]
@[simp] theorem cacheTake_mem (m a : Nat) (s : State) : (cacheTake m a s).mem = s.mem := by simp [cacheTake]

@[simp] theorem scrubCmd_wf (t : Nat) (e : BitVec 512) (s : State) (h : memWf s.mem = true) : memWf (scrubCmd t e s).mem = true := by
  unfold scrubCmd
  split <;> simp [h]

@[simp] theorem scrubReport_wf (j : ScrubJob) (oc : Nat) (s : State) (h : memWf s.mem = true) : memWf (scrubReport j oc s).mem = true := by
  unfold scrubReport
  extract_lets pad body s1 _ s2
  have h1 : memWf s1.mem = true := by simp [s1, memStoreBytes_wf, h]
  have h2 : memWf s2.mem = true := by simp [s2, h1]
  simp [h2]

@[simp] theorem doScrubDone_wf (found : List Finding) (s : State) (h : memWf s.mem = true) : memWf (doScrubDone found s).mem = true := by
  unfold doScrubDone
  split <;> simp [h]

@[simp] theorem scrubStop_wf (s : State) (h : memWf s.mem = true) : memWf (scrubStop s).mem = true := by
  unfold scrubStop
  split <;> simp [h]

@[simp] theorem fillStart_wf (b : Nat) (s : State) (h : memWf s.mem = true) : memWf (fillStart b s).mem = true := by simp [fillStart, h]
@[simp] theorem setUnsealed_mem (s : State) (b : Nat) (v : Bool) : (setUnsealed s b v).mem = s.mem := by simp [setUnsealed]
@[simp] theorem setBankPower_mem (s : State) (b v : Nat) : (setBankPower s b v).mem = s.mem := by simp [setBankPower]
@[simp] theorem bankDown_mem (b v : Nat) (s : State) : (bankDown b v s).mem = s.mem := by simp -implicitDefEqProofs [bankDown]
@[simp] theorem bankUp_wf (b : Nat) (s : State) (h : memWf s.mem = true) : memWf (bankUp b s).mem = true := by simp [bankUp, h]

@[simp] theorem doBankFillDone_wf (b : Fin 65) (s : State) (h : memWf s.mem = true) : memWf (doBankFillDone b s).mem = true := by
  unfold doBankFillDone
  extract_lets busy _ s1 more s2 wait
  have h1 : s1.mem = s.mem := by simp only [s1]; split <;> simp
  have h2 : memWf s2.mem = true := by simp only [s2]; split <;> simp [h1, h]
  split
  · exact h
  · refine foldl_wf _ (fun t x => ?_) _ _ h2
    split
    · split <;> simp
    · simp
    · split <;> simp

@[simp] theorem repairUse_mem (s : State) : (repairUse s).mem = s.mem := by simp [repairUse]

@[simp] theorem repairCmd_wf (t : Nat) (e : BitVec 512) (s : State) (h : memWf s.mem = true) : memWf (repairCmd t e s).mem = true := by
  unfold repairCmd
  split <;> simp [h]

@[simp] theorem doRepairDone_wf (ok : Bool) (s : State) (h : memWf s.mem = true) : memWf (doRepairDone ok s).mem = true := by
  unfold doRepairDone
  split <;> simp [h]

/-! ### The Ledger (19): `Machine/Ledger.lean` -/

@[simp] theorem snapErrors_mem (code n : Nat) (s : State) : (snapErrors code n s).mem = s.mem := by
  unfold snapErrors
  refine foldl_mem _ (fun s k => ?_) _ _
  dsimp only
  split
  · split <;> simp
  · rfl

@[simp] theorem ldgWrite_mem (o : Occ) (slot0 : Bool) (s : State) : (ldgWrite o slot0 s).mem = s.mem := by simp [ldgWrite]

@[simp] theorem ldgDegrade_mem (idx : Nat) (array : BitVec 16) (s : State) : (ldgDegrade idx array s).mem = s.mem := by
  simp -implicitDefEqProofs [ldgDegrade]

@[simp] theorem freezeDone_wf (s : State) (h : memWf s.mem = true) : memWf (freezeDone s).mem = true := by simp -implicitDefEqProofs [freezeDone, h]
@[simp] theorem doFreezeComplete_wf (s : State) (h : memWf s.mem = true) : memWf (doFreezeComplete s).mem = true := by simp [doFreezeComplete, h]

@[simp] theorem doLedgerEntryWrite_mem (bad : Option (BitVec 32)) (s : State) : (doLedgerEntryWrite bad s).mem = s.mem := by
  unfold doLedgerEntryWrite
  split
  · rfl
  · extract_lets _ s1 s2
    have h1 : s1.mem = s.mem := by simp -implicitDefEqProofs [s1]
    have h2 : s2.mem = s1.mem := by simp only [s2]; split <;> simp
    simp [h2, h1]

@[simp] theorem doLedgerOccurrence_mem (code : Fin 1024) (src : BitVec 16) (det : List W32) (s : State) :
    (doLedgerOccurrence code src det s).mem = s.mem := by simp [doLedgerOccurrence]

@[simp] theorem doLedgerTokenAdd_mem (code : Fin 1024) (s : State) : (doLedgerTokenAdd code s).mem = s.mem := by simp [doLedgerTokenAdd]
@[simp] theorem ldgCfg_mem (m : Nat) (w : W32) (s : State) : (ldgCfg m w s).mem = s.mem := by simp [ldgCfg]
@[simp] theorem codeConfig_mem (m c : Nat) (w : W32) (s : State) : (codeConfig m c w s).mem = s.mem := by simp [codeConfig]
@[simp] theorem swEvent_mem (m : Nat) (w : W32) (s : State) : (swEvent m w s).mem = s.mem := by simp [swEvent]

@[simp] theorem freezeCmd_wf (t : Nat) (e : BitVec 512) (s : State) (h : memWf s.mem = true) : memWf (freezeCmd t e s).mem = true := by
  unfold freezeCmd
  split <;> simp -implicitDefEqProofs [h]

@[simp] theorem thaw_wf (s : State) (h : memWf s.mem = true) : memWf (thaw s).mem = true := by simp -implicitDefEqProofs [thaw, h]

@[simp] theorem unfreezeCmd_wf (t : Nat) (e : BitVec 512) (s : State) (h : memWf s.mem = true) : memWf (unfreezeCmd t e s).mem = true := by
  unfold unfreezeCmd
  split <;> simp [h]

@[simp] theorem doFreezeTimeout_wf (s : State) (h : memWf s.mem = true) : memWf (doFreezeTimeout s).mem = true := by
  simp -implicitDefEqProofs [doFreezeTimeout, h]

@[simp] theorem doPatrol_mem (f : Finding) (s : State) : (doPatrol f s).mem = s.mem := by
  unfold doPatrol
  split <;> simp

/-! ### The Gallery (03): `Machine/Gallery.lean` -/

@[simp] theorem setNode_mem (s : State) (k : Nat) (w : BitVec 64) : (setNode s k w).mem = s.mem := by simp [setNode]
@[simp] theorem galCommit_mem (x : Dom) (g c : Nat) (s : State) : (galCommit x g c s).mem = s.mem := by simp [galCommit]
@[simp] theorem setSlot_mem (s : State) (t k : Nat) (v : RampSlot) : (setSlot s t k v).mem = s.mem := by simp [setSlot]
@[simp] theorem splitLatch_mem (x : Dom) (s : State) : (splitLatch x s).mem = s.mem := by simp [splitLatch]
@[simp] theorem slotDrop_mem (s : State) (x : Dom) (t n k : Nat) (staged : Bool) : (slotDrop s x t n k staged).mem = s.mem := by simp [slotDrop]
@[simp] theorem slotGiveUp_mem (s : State) (t k : Nat) (staged : Bool) : (slotGiveUp s t k staged).mem = s.mem := by simp [slotGiveUp]
@[simp] theorem tileUse_mem (t : Nat) (s : State) : (tileUse t s).mem = s.mem := by simp [tileUse]
@[simp] theorem unlink_mem (s : State) (t : Nat) (w : BitVec 64) : (unlink s t w).mem = s.mem := by simp [unlink]
@[simp] theorem landNow_mem (k : Nat) (g : G24) (s : State) : (landNow k g s).mem = s.mem := by simp [landNow]
@[simp] theorem stageAt_mem (k slot gen : Nat) (g : G24) (s : State) : (stageAt k slot gen g s).mem = s.mem := by simp [stageAt]

@[simp] theorem stageNode_mem (w : StgWrite) (s : State) : (stageNode w s).1.mem = s.mem := by
  unfold stageNode
  split
  · rfl
  · dsimp only
    split
    · rfl
    · split
      · rfl
      · split
        · simp
        · split
          · rfl
          · split
            · split
              · rfl
              · split
                · rfl
                · simp
            · split
              · split <;> simp
              · simp

@[simp] theorem stgFinish_mem (w : StgWrite) (s : State) : (stgFinish w s).mem = s.mem := by
  unfold stgFinish
  have hn := stageNode_mem w s
  split
  · next s1 c he => simp [he] at hn; simp [hn]
  · next s1 he => simp [he] at hn; simp [hn]

@[simp] theorem stgCmd_mem (w : W32) (s : State) : (stgCmd w s).mem = s.mem := by
  unfold stgCmd
  split
  · rfl
  · extract_lets r s1
    have h1 : s1.mem = s.mem := stgFinish_mem ..
    split
    · split <;> simp [h1]
    · exact h1

@[simp] theorem doStagingStallRelease_mem (s : State) : (doStagingStallRelease s).mem = s.mem := by
  unfold doStagingStallRelease
  split <;> simp

@[simp] theorem landDeferred_mem (x : Dom) (t k n : Nat) (s : State) : (landDeferred x t k n s).mem = s.mem := by
  unfold landDeferred
  split
  · rfl
  · extract_lets _ s1
    have h1 : s1.mem = s.mem := rfl
    clear_value s1
    split
    · simp [h1]
    · split <;> simp [h1]

@[simp] theorem settleNode_mem (x : Dom) (t k n : Nat) (s : State) : (settleNode x t k n s).mem = s.mem := by simp [settleNode]

@[simp] theorem rampStep_mem (x : Dom) (t k n : Nat) (s : State) : (rampStep x t k n s).2.1.mem = s.mem := by
  unfold rampStep
  dsimp only
  split <;> simp

@[simp] theorem readNode_mem (x : Dom) (t d i n : Nat) (s : State) : (readNode x t d i n s).1.mem = s.mem := by
  unfold readNode
  dsimp only
  split
  · simp
  · split
    · split
      · simp
      · split
        · split <;> simp
        · simp
    · split <;> simp

@[simp] theorem nodeUe_mem (x : Option Dom) (t d i n : Nat) (s : State) : (nodeUe x t d i n s).mem = s.mem := by
  unfold nodeUe
  split <;> simp

@[simp] theorem jobReads_mem (t : Nat) (j : ColJob) (x : Dom) (hi : Nat) (ue : List Nat) (s : State) : (jobReads t j x hi ue s).1.mem = s.mem := by
  unfold jobReads
  refine foldl_pair_mem _ (fun acc i => ?_) _ _
  dsimp only
  split <;> simp

@[simp] theorem resolveNode_mem (t d i : Nat) (s : State) : (resolveNode t d i s).mem = s.mem := by
  unfold resolveNode
  dsimp only
  split <;> simp

@[simp] theorem resolveColumn_mem (t : Nat) (j : ColJob) (ue : List Nat) (s : State) : (resolveColumn t j ue s).mem = s.mem := by simp [resolveColumn]
@[simp] theorem setDaxLink_mem (s : State) (l : Nat) (v : DaxLink) : (setDaxLink s l v).mem = s.mem := by simp [setDaxLink]
@[simp] theorem psLatch_mem (x : Dom) (l : Nat) (s : State) : (psLatch x l s).mem = s.mem := by simp [psLatch]

@[simp] theorem psOut_mem (d : Nat) (v : Int) (s : State) : (psOut d v s).mem = s.mem := by
  unfold psOut
  refine foldl_mem _ (fun s l => ?_) _ _
  dsimp only
  split <;> simp

@[simp] theorem setDval_mem (d : Nat) (v : S64) (s : State) : (setDval d v s).mem = s.mem := by simp [setDval]
@[simp] theorem jobDrop_mem (j : ColJob) (s : State) : (jobDrop j s).mem = s.mem := by simp [jobDrop]
@[simp] theorem lateClear_mem (t : Nat) (s : State) : (lateClear t s).mem = s.mem := by simp [lateClear]

@[simp] theorem columnJob_mem (d : Nat) (ue : List Nat) (s : State) : (columnJob d ue s).mem = s.mem := by
  unfold columnJob
  split
  · split
    · rfl
    · split
      · simp
      · split
        · simp
        · dsimp only; split <;> simp
  · rfl

@[simp] theorem doColumnJob_mem (d : Fin 4096) (ue : List (Fin 4096)) (s : State) : (doColumnJob d ue s).mem = s.mem := by simp [doColumnJob]

@[simp] theorem readUpTo_mem (d i : Nat) (want : NodeEv → Bool) (s : State) : (readUpTo d i want s).mem = s.mem := by
  unfold readUpTo
  split
  · split
    · split
      · rfl
      · dsimp only; split <;> simp
    · rfl
  · rfl

@[simp] theorem doZcTimeoutFallback_mem (d i : Fin 4096) (s : State) : (doZcTimeoutFallback d i s).mem = s.mem := by simp [doZcTimeoutFallback]
@[simp] theorem doRampEnd_mem (d i : Fin 4096) (s : State) : (doRampEnd d i s).mem = s.mem := by simp [doRampEnd]

@[simp] theorem jobAbandon_mem (j : ColJob) (s : State) : (jobAbandon j s).mem = s.mem := by
  unfold jobAbandon
  split <;> simp

@[simp] theorem doColumnJobAbandon_mem (d : Fin 4096) (s : State) : (doColumnJobAbandon d s).mem = s.mem := by
  unfold doColumnJobAbandon
  split <;> simp

@[simp] theorem galTick_mem (x : Dom) (n : Nat) (vals : List (Nat × S64 × Bool)) (s : State) : (galTick x n vals s).mem = s.mem := by simp [galTick]
@[simp] theorem galUnbind_mem (d n : Nat) (x : Option Dom) (s : State) : (galUnbind d n x s).mem = s.mem := by simp [galUnbind]

/-! ### Strips and the audio path (02, 05): `Machine/Strips.lean` -/

@[simp] theorem setParam_mem (strip idx : Nat) (v : BitVec 64) (s : State) : (setParam strip idx v s).mem = s.mem := by simp [setParam]
@[simp] theorem setRun_mem (strip : Nat) (r : StripRun) (s : State) : (setRun strip r s).mem = s.mem := by simp [setRun]
@[simp] theorem landSwitch_mem (strip lo len key v : Nat) (s : State) : (landSwitch strip lo len key v s).mem = s.mem := by simp [landSwitch]
@[simp] theorem landDelay_mem (strip : Nat) (v : BitVec 64) (s : State) : (landDelay strip v s).mem = s.mem := by simp [landDelay]
@[simp] theorem landEnable_mem (strip base : Nat) (v : BitVec 64) (s : State) : (landEnable strip base v s).mem = s.mem := by simp [landEnable]

@[simp] theorem landCoefs_mem (strip base : Nat) (l : List (Nat × BitVec 64)) (s : State) : (landCoefs strip base l s).mem = s.mem := by
  simp [landCoefs]

@[simp] theorem landGain_mem (strip idx : Nat) (v : BitVec 64) (s : State) : (landGain strip idx v s).mem = s.mem := by simp [landGain]
@[simp] theorem landControl_mem (strip : Nat) (v : BitVec 64) (s : State) : (landControl strip v s).mem = s.mem := by simp [landControl]

@[simp] theorem stripLand_mem (strip : Nat) (l : List (Nat × BitVec 64)) (s : State) : (stripLand strip l s).mem = s.mem := by
  unfold stripLand
  extract_lets s1 bases
  have h1 : s1.mem = s.mem := by
    refine foldl_mem _ (fun s e => ?_) _ _
    dsimp only
    split
    · simp
    · split
      · simp
      · split
        · simp
        · split
          · split <;> simp
          · simp
  simp [h1]

@[simp] theorem stripLandNow_mem (strip idx : Nat) (v : BitVec 64) (s : State) : (stripLandNow strip idx v s).mem = s.mem := by simp [stripLandNow]

@[simp] theorem landHeld_mem (strip key : Nat) (plain : Bool) (s : State) : (landHeld strip key plain s).mem = s.mem := by
  unfold landHeld
  dsimp only
  split <;> simp

@[simp] theorem fadeEnd_mem (strip key : Nat) (s : State) : (fadeEnd strip key s).mem = s.mem := by simp [fadeEnd]

@[simp] theorem interpEnd_mem (strip key : Nat) (s : State) : (interpEnd strip key s).mem = s.mem := by
  unfold interpEnd
  split <;> simp

@[simp] theorem gainEnd_mem (strip : Nat) (s : State) : (gainEnd strip s).mem = s.mem := by simp [gainEnd]

@[simp] theorem dipHalf_mem (strip : Nat) (s : State) : (dipHalf strip s).mem = s.mem := by
  unfold dipHalf
  dsimp only
  split <;> simp

@[simp] theorem dipEnd_mem (strip : Nat) (s : State) : (dipEnd strip s).mem = s.mem := by simp [dipEnd]
@[simp] theorem gateClose_mem (strip : Nat) (s : State) : (gateClose strip s).mem = s.mem := by simp [gateClose]
@[simp] theorem stripBind_mem (strip c : Nat) (s : State) : (stripBind strip c s).mem = s.mem := by simp [stripBind]
@[simp] theorem stripUnbind_mem (strip : Nat) (s : State) : (stripUnbind strip s).mem = s.mem := by simp [stripUnbind]

@[simp] theorem dlyStore_wf (s : State) (strip n : Nat) (v : S64) (h : memWf s.mem = true) : memWf (dlyStore s strip n v).mem = true := by
  generalize ht : dlyStore s strip n v = t
  unfold dlyStore at ht
  extract_lets a at ht
  split at ht
  · rw [← ht]; exact h
  · split at ht
    · rw [← ht, dmaError_mem]; exact h
    · rw [← ht]; exact memStore_wf _ _ _ _ h

@[simp] theorem setPipe_mem (stage slot : Nat) (v : S64) (s : State) : (setPipe stage slot v s).mem = s.mem := by simp [setPipe]
@[simp] theorem dlyErrors_mem (l : List DmaErr) (s : State) : (dlyErrors l s).mem = s.mem := by simp [dlyErrors]
@[simp] theorem stripCount_mem (strip sats ues : Nat) (s : State) : (stripCount strip sats ues s).mem = s.mem := by simp [stripCount]
@[simp] theorem stateErrs_mem (strip : Nat) (s : State) : (stateErrs strip s).mem = s.mem := by simp [stateErrs]

@[simp] theorem inputTick_wf (x : Dom) (n i : Nat) (s0 : State) (h : memWf s0.mem = true) : memWf (inputTick x n i s0).1.mem = true := by
  simp [inputTick, h]

@[simp] theorem outputTick_wf (x : Dom) (n d : Nat) (s0 : State) (h : memWf s0.mem = true) : memWf (outputTick x n d s0).mem = true := by
  simp [outputTick, h]

@[simp] theorem inputPass_mem (i : Nat) (s : State) : (inputPass i s).mem = s.mem := by simp [inputPass]
@[simp] theorem outputPass_mem (d : Nat) (s : State) : (outputPass d s).mem = s.mem := by simp [outputPass]

@[simp] theorem doStripStageLate_mem (out : Bool) (strip : Fin 4096) (stage : Fin 4) (s : State) :
    (doStripStageLate out strip stage s).mem = s.mem := by
  unfold doStripStageLate
  dsimp only
  split <;> simp

@[simp] theorem doDelayReadLate_mem (strip : Fin 8192) (s : State) : (doDelayReadLate strip s).mem = s.mem := by simp [doDelayReadLate]
@[simp] theorem unitsShow_mem (s : State) : (unitsShow s).mem = s.mem := by simp [unitsShow]

@[simp] theorem stripsClear_mem (s : State) : (stripsClear s).mem = s.mem := by
  unfold stripsClear
  extract_lets bound one s1
  have hone : ∀ t p, (one t p).mem = t.mem := by intro t p; simp only [one]; split <;> simp
  exact foldl_mem one hone bound s

@[simp] theorem stripsRestart_mem (s : State) : (stripsRestart s).mem = s.mem := by simp [stripsRestart]

/-! ### Frames of the Atelier cores (06): `Machine/Frames.lean` -/

@[simp] theorem setCore_mem (c : Nat) (k : Core) (s : State) : (setCore c k s).mem = s.mem := by simp [setCore]

@[simp] theorem coreFault_mem (c code : Nat) (det : List W32) (cause : Nat) (s : State) : (coreFault c code det cause s).mem = s.mem := by
  simp [coreFault]

@[simp] theorem coreUe_mem (c space word : Nat) (s : State) : (coreUe c space word s).mem = s.mem := by simp [coreUe]
@[simp] theorem lmRefuse_mem (c : Nat) (s : State) : (lmRefuse c s).mem = s.mem := by simp [lmRefuse]

@[simp] theorem lmRequest_wf (c cyc len off : Nat) (wr_ : Option S64) (s : State) (h : memWf s.mem = true) :
    memWf (lmRequest c cyc len off wr_ s).mem = true := by
  have hz (k : Core) (t : State) (ht : memWf t.mem = true) : memWf (setCore c k t).mem = true := wf_of_mem (setCore_mem ..) ht
  have he (t : State) (a cause) (w : Bool) (ht : memWf t.mem = true) : memWf (cnt (dmaError t 13 a 8 cause w) (ATL_CORE_UE c)).mem = true :=
    wf_of_mem ((cnt_mem ..).trans (dmaError_mem ..)) ht
  have hr (t : State) (ht : memWf t.mem = true) : memWf (lmRefuse c t).mem = true := wf_of_mem (lmRefuse_mem ..) ht
  fun_cases lmRequest c cyc len off wr_ s
  · exact hr _ (hz _ _ h)
  · exact hz _ _ (hr _ (hz _ _ h))
  · exact hz _ _ h
  · exact he _ _ _ _ (hz _ _ h)
  · exact memStore_wf _ _ _ _ (hz _ _ h)
  · exact hz _ _ (he _ _ _ _ (hz _ _ h))
  · exact hz _ _ (hz _ _ h)

@[simp] theorem frameShow_mem (c last : Nat) (s : State) : (frameShow c last s).mem = s.mem := by simp [frameShow]

@[simp] theorem rotGap_mem (c : Nat) (s : State) : (rotGap c s).mem = s.mem := by
  unfold rotGap
  split <;> simp

@[simp] theorem coreEvent_wf (c cyc pc : Nat) (s : State) (e : CoreEv) (h : memWf s.mem = true) : memWf (coreEvent c cyc pc s e).mem = true := by
  unfold coreEvent
  split <;> simp [h]

@[simp] theorem fieldShow_mem (k : Nat) (f : Fld) (v : Nat) (s : State) : (fieldShow k f v s).mem = s.mem := by simp [fieldShow]

@[simp] theorem coreStep_wf (c cyc pc : Nat) (k : Core) (evs : List CoreEv) (s : State) (h : memWf s.mem = true) :
    memWf (coreStep c cyc pc k evs s).mem = true := by simp [coreStep, h]

@[simp] theorem issue_wf (c : Nat) (w : BitVec 64) (cls : OpClass) (eff : Core → IssueEff) (s : State) (h : memWf s.mem = true) :
    memWf (issue c w cls eff s).mem = true := by simp [issue, h]

@[simp] theorem doIllegalInstruction_wf (c : Fin 68) (s : State) (h : memWf s.mem = true) : memWf (doIllegalInstruction c s).mem = true := by
  unfold doIllegalInstruction
  dsimp only
  split <;> simp [h]

@[simp] theorem doInterruptTake_wf (c : Fin 68) (s : State) (h : memWf s.mem = true) : memWf (doInterruptTake c s).mem = true := by
  simp [doInterruptTake, h]

@[simp] theorem doCompareInterrupt_mem (c : Fin 68) (s : State) : (doCompareInterrupt c s).mem = s.mem := by simp [doCompareInterrupt]
@[simp] theorem doWaitEnd_wf (c : Fin 68) (s : State) (h : memWf s.mem = true) : memWf (doWaitEnd c s).mem = true := by simp [doWaitEnd, h]
@[simp] theorem doLoopExit_mem (c : Fin 68) (s : State) : (doLoopExit c s).mem = s.mem := by simp [doLoopExit]
@[simp] theorem pqDrain_wf (c : Nat) (s : State) (h : memWf s.mem = true) : memWf (pqDrain c s).mem = true := by simp [pqDrain, h]

@[simp] theorem doPQueueDrain_wf (c : Fin 68) (s : State) (h : memWf s.mem = true) : memWf (doPQueueDrain c s).mem = true := by
  unfold doPQueueDrain
  dsimp only
  split <;> simp [h]

@[simp] theorem coreStart_mem (c : Nat) (s : State) : (coreStart c s).mem = s.mem := by simp [coreStart]
@[simp] theorem coreBind_mem (j : Nat) (x : Dom) (s : State) : (coreBind j x s).mem = s.mem := by simp [coreBind]
@[simp] theorem coreStop_wf (c : Nat) (s : State) (h : memWf s.mem = true) : memWf (coreStop c s).mem = true := by simp [coreStop, h]
@[simp] theorem coreUnbind_wf (j : Nat) (s : State) (h : memWf s.mem = true) : memWf (coreUnbind j s).mem = true := by simp [coreUnbind, h]

@[simp] theorem corePost_wf (c mem w : Nat) (v : BitVec 64) (s : State) (h : memWf s.mem = true) : memWf (corePost c mem w v s).1.mem = true := by
  unfold corePost
  dsimp only
  split
  · split <;> simp [h]
  · simp [h]

@[simp] theorem windowPut_wf (s : State) (c mem w : Nat) (v : BitVec 64) (h : memWf s.mem = true) :
    memWf (windowPut s c mem w v).1.mem = true := by
  unfold windowPut
  have hc := corePost_wf c mem w v s h
  dsimp only
  split
  · split <;> simp [hc]
  · exact hc

@[simp] theorem windowMergeDone_wf (c : Nat) (s : State) (h : memWf s.mem = true) : memWf (windowMergeDone c s).mem = true := by
  unfold windowMergeDone
  split
  · exact h
  · extract_lets _ s1
    have h1 : memWf s1.mem = true := h
    clear_value s1
    split
    · exact h1
    · dsimp only
      split
      · simp [h1]
      · split <;> simp [h1]

@[simp] theorem windowPiece_wf (m c o n : Nat) (write : Option Nat) (s : State) (h : memWf s.mem = true) :
    memWf (windowPiece m c o n write s).mem = true := by
  unfold windowPiece
  dsimp only
  split
  · simp [h]
  · exact h
  · split
    · split <;> simp [h]
    · split
      · split <;> simp [h]
      · split
        · split <;> simp [h]
        · split <;> simp [h]

@[simp] theorem windowAccess_wf (m c o n : Nat) (write : Option Nat) (s : State) (h : memWf s.mem = true) :
    memWf (windowAccess m c o n write s).mem = true := by simp [windowAccess, h]

@[simp] theorem doAtelierWindowAccess_wf (m : Fin 21) (addr : Nat) (size : Fin 4) (wr_ : Option (BitVec 64)) (s : State) (h : memWf s.mem = true) :
    memWf (doAtelierWindowAccess m addr size wr_ s).mem = true := by
  unfold doAtelierWindowAccess
  split <;> simp [h]

@[simp] theorem doMergeEntryComplete_wf (port : Fin 256) (found : List Finding) (s : State) (h : memWf s.mem = true) :
    memWf (doMergeEntryComplete port found s).mem = true := by simp [doMergeEntryComplete, h]

@[simp] theorem fillEnd_wf (c : Nat) (s : State) (h : memWf s.mem = true) : memWf (fillEnd c s).mem = true := by simp [fillEnd, h]

@[simp] theorem doAtelierMemoryFill_wf (c : Fin 68) (s : State) (h : memWf s.mem = true) : memWf (doAtelierMemoryFill c s).mem = true := by
  simp [doAtelierMemoryFill, h]

@[simp] theorem coreWord_wf (j mem a : Nat) (v : BitVec 64) (s : State) (h : memWf s.mem = true) : memWf (coreWord j mem a v s).mem = true := by
  simp [coreWord, h]

@[simp] theorem overrun_wf (c : Nat) (s : State) (h : memWf s.mem = true) : memWf (overrun c s).mem = true := by simp [overrun, h]

@[simp] theorem doFrameOverrun_wf (c : Fin 68) (s : State) (h : memWf s.mem = true) : memWf (doFrameOverrun c s).mem = true := by
  simp [doFrameOverrun, h]

@[simp] theorem lmLate_mem (c : Nat) (r : LmRead) (s : State) : (lmLate c r s).mem = s.mem := by simp [lmLate]

@[simp] theorem doLmAnswerLate_mem (c : Fin 68) (s : State) : (doLmAnswerLate c s).mem = s.mem := by
  unfold doLmAnswerLate
  split <;> simp

@[simp] theorem doLmAnswer_wf (c : Fin 68) (read : List Finding) (s : State) (h : memWf s.mem = true) :
    memWf (doLmAnswer c read s).mem = true := by
  unfold doLmAnswer
  extract_lets k
  split
  · exact h
  · extract_lets s1 lost vals base put _ s2 s3
    have h1 : memWf s1.mem = true := by simp [s1, h]
    have h2 : s2.mem = s1.mem := by simp [s2]
    have h3 : s3.mem = s2.mem := by simp only [s3]; split <;> simp
    split <;> simp [h3, h2, h1]

@[simp] theorem frameEntry_wf (c n : Nat) (x : Dom) (land : List StagedRec) (ins : List (Nat × S64)) (s : State) (h : memWf s.mem = true) :
    memWf (frameEntry c n x land ins s).mem = true := by simp [frameEntry, h]

@[simp] theorem outputsTake_mem (j c : Nat) (s : State) : (outputsTake j c s).mem = s.mem := by simp [outputsTake]

@[simp] theorem answersEnd_mem (cs : List Nat) (s : State) : (answersEnd cs s).mem = s.mem := by
  unfold answersEnd
  dsimp only
  split <;> simp

@[simp] theorem rotFrame_mem (cs : List Nat) (s : State) : (rotFrame cs s).mem = s.mem := by
  unfold rotFrame
  split <;> simp

@[simp] theorem coreTick_wf (x : Dom) (n j : Nat) (s : State) (h : memWf s.mem = true) : memWf (coreTick x n j s).mem = true := by
  unfold coreTick
  split
  · exact h
  · extract_lets sF cs s0 s1 s2 land
    have hF : memWf sF.mem = true := by simp only [sF]; split <;> simp [h]
    have h0 : memWf s0.mem = true := by simp [s0, hF]
    have h1 : memWf s1.mem = true := by simp [s1, h0]
    have h2 : memWf s2.mem = true := by simp only [s2]; split <;> simp [h1]
    clear_value s2
    dsimp only
    refine foldl_wf _ (fun t c => ?_) _ _ h2
    split <;> simp

@[simp] theorem xmapWrite_mem (m j w : Nat) (v : W32) (s : State) : (xmapWrite m j w v s).mem = s.mem := by simp [xmapWrite]
@[simp] theorem xmapApply_mem (j : Nat) (s : State) : (xmapApply j s).mem = s.mem := by simp [xmapApply]
@[simp] theorem doXmapApply_mem (l : Fin 64) (s : State) : (doXmapApply l s).mem = s.mem := by simp [doXmapApply]
@[simp] theorem coresClear_mem (a : Nat) (s : State) : (coresClear a s).mem = s.mem := by simp [coresClear]
@[simp] theorem coresRestart_mem (a : Nat) (s : State) : (coresRestart a s).mem = s.mem := by simp [coresRestart]

/-! ### The instructions of the Atelier (07): `Machine/Atelier.lean` -/

@[simp] theorem doNop_wf (c : Fin 68) (s : State) (h : memWf s.mem = true) : memWf (doNop c s).mem = true := by simp [doNop, h]
@[simp] theorem doFend_wf (c : Fin 68) (s : State) (h : memWf s.mem = true) : memWf (doFend c s).mem = true := by simp [doFend, h]
@[simp] theorem doRti_wf (c : Fin 68) (s : State) (h : memWf s.mem = true) : memWf (doRti c s).mem = true := by simp [doRti, h]
@[simp] theorem doWait_wf (c : Fin 68) (cyc : Fin 65536) (s : State) (h : memWf s.mem = true) : memWf (doWait c cyc s).mem = true := by simp [doWait, h]

@[simp] theorem doBr_wf (c : Fin 68) (cc : Fin 16) (t : Fin 16384) (s : State) (h : memWf s.mem = true) : memWf (doBr c cc t s).mem = true := by
  simp [doBr, h]

@[simp] theorem doBrl_wf (c : Fin 68) (pk : Fin 8) (t : Fin 16384) (s : State) (h : memWf s.mem = true) : memWf (doBrl c pk t s).mem = true := by
  simp [doBrl, h]

@[simp] theorem doBrr_wf (c : Fin 68) (cc : Fin 16) (pk : Fin 8) (s : State) (h : memWf s.mem = true) : memWf (doBrr c cc pk s).mem = true := by
  simp [doBrr, h]

@[simp] theorem doLoop_wf (c : Fin 68) (n : Fin 65536) (e : Fin 16384) (s : State) (h : memWf s.mem = true) :
    memWf (doLoop c n e s).mem = true := by simp [doLoop, h]

@[simp] theorem doLoopr_wf (c : Fin 68) (ra : Fin 16) (e : Fin 16384) (s : State) (h : memWf s.mem = true) :
    memWf (doLoopr c ra e s).mem = true := by simp [doLoopr, h]

@[simp] theorem doMov_wf (c : Fin 68) (rd ra : Fin 16) (s : State) (h : memWf s.mem = true) : memWf (doMov c rd ra s).mem = true := by simp [doMov, h]

@[simp] theorem doAdd_wf (c : Fin 68) (rd ra rb : Fin 16) (s : State) (h : memWf s.mem = true) : memWf (doAdd c rd ra rb s).mem = true := by
  simp [doAdd, h]

@[simp] theorem doAdds_wf (c : Fin 68) (rd ra rb : Fin 16) (s : State) (h : memWf s.mem = true) : memWf (doAdds c rd ra rb s).mem = true := by
  simp [doAdds, h]

@[simp] theorem doSub_wf (c : Fin 68) (rd ra rb : Fin 16) (s : State) (h : memWf s.mem = true) : memWf (doSub c rd ra rb s).mem = true := by
  simp [doSub, h]

@[simp] theorem doSubs_wf (c : Fin 68) (rd ra rb : Fin 16) (s : State) (h : memWf s.mem = true) : memWf (doSubs c rd ra rb s).mem = true := by
  simp [doSubs, h]

@[simp] theorem doNeg_wf (c : Fin 68) (rd ra : Fin 16) (s : State) (h : memWf s.mem = true) : memWf (doNeg c rd ra s).mem = true := by simp [doNeg, h]
@[simp] theorem doAbs_wf (c : Fin 68) (rd ra : Fin 16) (s : State) (h : memWf s.mem = true) : memWf (doAbs c rd ra s).mem = true := by simp [doAbs, h]

@[simp] theorem doMin_wf (c : Fin 68) (rd ra rb : Fin 16) (s : State) (h : memWf s.mem = true) : memWf (doMin c rd ra rb s).mem = true := by
  simp [doMin, h]

@[simp] theorem doMax_wf (c : Fin 68) (rd ra rb : Fin 16) (s : State) (h : memWf s.mem = true) : memWf (doMax c rd ra rb s).mem = true := by
  simp [doMax, h]

@[simp] theorem doAnd_wf (c : Fin 68) (rd ra rb : Fin 16) (s : State) (h : memWf s.mem = true) : memWf (doAnd c rd ra rb s).mem = true := by
  simp [doAnd, h]

@[simp] theorem doOr_wf (c : Fin 68) (rd ra rb : Fin 16) (s : State) (h : memWf s.mem = true) : memWf (doOr c rd ra rb s).mem = true := by
  simp [doOr, h]

@[simp] theorem doXor_wf (c : Fin 68) (rd ra rb : Fin 16) (s : State) (h : memWf s.mem = true) : memWf (doXor c rd ra rb s).mem = true := by
  simp [doXor, h]

@[simp] theorem doShl_wf (c : Fin 68) (rd ra : Fin 16) (sh : Fin 64) (s : State) (h : memWf s.mem = true) :
    memWf (doShl c rd ra sh s).mem = true := by simp [doShl, h]

@[simp] theorem doShls_wf (c : Fin 68) (rd ra : Fin 16) (sh : Fin 64) (s : State) (h : memWf s.mem = true) :
    memWf (doShls c rd ra sh s).mem = true := by simp [doShls, h]

@[simp] theorem doShr_wf (c : Fin 68) (rd ra : Fin 16) (sh : Fin 64) (s : State) (h : memWf s.mem = true) :
    memWf (doShr c rd ra sh s).mem = true := by simp [doShr, h]

@[simp] theorem doShrl_wf (c : Fin 68) (rd ra : Fin 16) (sh : Fin 64) (s : State) (h : memWf s.mem = true) :
    memWf (doShrl c rd ra sh s).mem = true := by simp [doShrl, h]

@[simp] theorem doCmp_wf (c : Fin 68) (ra rb : Fin 16) (s : State) (h : memWf s.mem = true) : memWf (doCmp c ra rb s).mem = true := by simp [doCmp, h]

@[simp] theorem doMovi_wf (c : Fin 68) (rd : Fin 16) (imm : BitVec 32) (s : State) (h : memWf s.mem = true) :
    memWf (doMovi c rd imm s).mem = true := by simp [doMovi, h]

@[simp] theorem doMovih_wf (c : Fin 68) (rd : Fin 16) (imm : BitVec 32) (s : State) (h : memWf s.mem = true) :
    memWf (doMovih c rd imm s).mem = true := by simp [doMovih, h]

@[simp] theorem doAddi_wf (c : Fin 68) (rd ra : Fin 16) (imm : BitVec 32) (s : State) (h : memWf s.mem = true) :
    memWf (doAddi c rd ra imm s).mem = true := by simp [doAddi, h]

@[simp] theorem doMovk_wf (c : Fin 68) (rd : Fin 8) (ra : Fin 16) (s : State) (h : memWf s.mem = true) : memWf (doMovk c rd ra s).mem = true := by
  simp [doMovk, h]

@[simp] theorem doMovdk_wf (c : Fin 68) (rd : Fin 16) (ra : Fin 8) (s : State) (h : memWf s.mem = true) :
    memWf (doMovdk c rd ra s).mem = true := by simp [doMovdk, h]

@[simp] theorem doMovr_wf (c : Fin 68) (file : Fin 4) (rd : Fin 8) (ra : Fin 16) (s : State) (h : memWf s.mem = true) :
    memWf (doMovr c file rd ra s).mem = true := by simp [doMovr, h]

@[simp] theorem doMovd_wf (c : Fin 68) (file : Fin 4) (rd : Fin 16) (ra : Fin 8) (s : State) (h : memWf s.mem = true) :
    memWf (doMovd c file rd ra s).mem = true := by simp [doMovd, h]

@[simp] theorem doMovsw_wf (c : Fin 68) (rd : Fin 16) (s : State) (h : memWf s.mem = true) : memWf (doMovsw c rd s).mem = true := by simp [doMovsw, h]

@[simp] theorem doClrsw_wf (c : Fin 68) (bits : Fin 8) (s : State) (h : memWf s.mem = true) : memWf (doClrsw c bits s).mem = true := by
  simp [doClrsw, h]

@[simp] theorem doSetr_wf (c : Fin 68) (file : Fin 4) (rd : Fin 8) (imm : BitVec 16) (s : State) (h : memWf s.mem = true) :
    memWf (doSetr c file rd imm s).mem = true := by simp [doSetr, h]

@[simp] theorem doLd_wf (c : Fin 68) (rd : Fin 16) (sp : Fin 3) (nm : Bool) (px mx : Fin 8) (s : State) (h : memWf s.mem = true) :
    memWf (doLd c rd sp nm px mx s).mem = true := by simp [doLd, h]

@[simp] theorem doLdk_wf (c : Fin 68) (rd : Fin 8) (sp : Fin 3) (nm : Bool) (px mx : Fin 8) (s : State) (h : memWf s.mem = true) :
    memWf (doLdk c rd sp nm px mx s).mem = true := by simp [doLdk, h]

@[simp] theorem doSt_wf (c : Fin 68) (ra : Fin 16) (sp : Fin 3) (nm : Bool) (px mx : Fin 8) (s : State) (h : memWf s.mem = true) :
    memWf (doSt c ra sp nm px mx s).mem = true := by simp [doSt, h]

@[simp] theorem doStk_wf (c : Fin 68) (ra : Fin 8) (sp : Fin 3) (nm : Bool) (px mx : Fin 8) (s : State) (h : memWf s.mem = true) :
    memWf (doStk c ra sp nm px mx s).mem = true := by simp [doStk, h]

@[simp] theorem doXch_wf (c : Fin 68) (rd : Fin 16) (e nm : Bool) (px mx : Fin 8) (s : State) (h : memWf s.mem = true) :
    memWf (doXch c rd e nm px mx s).mem = true := by simp [doXch, h]

@[simp] theorem doMac_wf (c : Fin 68) (rd : Fin 4) (ra : Fin 16) (rb : Fin 8) (s : State) (h : memWf s.mem = true) :
    memWf (doMac c rd ra rb s).mem = true := by simp [doMac, h]

@[simp] theorem doMsu_wf (c : Fin 68) (rd : Fin 4) (ra : Fin 16) (rb : Fin 8) (s : State) (h : memWf s.mem = true) :
    memWf (doMsu c rd ra rb s).mem = true := by simp [doMsu, h]

@[simp] theorem doMpy_wf (c : Fin 68) (rd : Fin 4) (ra : Fin 16) (rb : Fin 8) (s : State) (h : memWf s.mem = true) :
    memWf (doMpy c rd ra rb s).mem = true := by simp [doMpy, h]

@[simp] theorem doMacg_wf (c : Fin 68) (rd : Fin 4) (ra rb : Fin 16) (s : State) (h : memWf s.mem = true) :
    memWf (doMacg c rd ra rb s).mem = true := by simp [doMacg, h]

@[simp] theorem doMpyg_wf (c : Fin 68) (rd : Fin 4) (ra rb : Fin 16) (s : State) (h : memWf s.mem = true) :
    memWf (doMpyg c rd ra rb s).mem = true := by simp [doMpyg, h]

@[simp] theorem doMacy_wf (c : Fin 68) (rd : Fin 4) (ra : Fin 16) (nm : Bool) (py my : Fin 8) (s : State) (h : memWf s.mem = true) :
    memWf (doMacy c rd ra nm py my s).mem = true := by simp [doMacy, h]

@[simp] theorem doMsuy_wf (c : Fin 68) (rd : Fin 4) (ra : Fin 16) (nm : Bool) (py my : Fin 8) (s : State) (h : memWf s.mem = true) :
    memWf (doMsuy c rd ra nm py my s).mem = true := by simp [doMsuy, h]

@[simp] theorem doMpyy_wf (c : Fin 68) (rd : Fin 4) (ra : Fin 16) (nm : Bool) (py my : Fin 8) (s : State) (h : memWf s.mem = true) :
    memWf (doMpyy c rd ra nm py my s).mem = true := by simp [doMpyy, h]

@[simp] theorem doTap_wf (c : Fin 68) (rd : Fin 4) (ra : Fin 16) (nmx : Bool) (px mx : Fin 8) (nmy : Bool) (py my : Fin 8) (s : State)
    (h : memWf s.mem = true) :
    memWf (doTap c rd ra nmx px mx nmy py my s).mem = true := by simp [doTap, h]

@[simp] theorem doTapw_wf (c : Fin 68) (rd : Fin 4) (ra : Fin 16) (nmx : Bool) (px mx : Fin 8) (nmy : Bool) (py my : Fin 8) (s : State)
    (h : memWf s.mem = true) :
    memWf (doTapw c rd ra nmx px mx nmy py my s).mem = true := by simp [doTapw, h]

@[simp] theorem doTap2_wf (c : Fin 68) (pair : Bool) (h2 : Fin 8) (nmx : Bool) (px mx : Fin 8) (nmy : Bool) (py my : Fin 8) (s : State)
    (h : memWf s.mem = true) :
    memWf (doTap2 c pair h2 nmx px mx nmy py my s).mem = true := by simp [doTap2, h]

@[simp] theorem doClra_wf (c : Fin 68) (rd : Fin 4) (s : State) (h : memWf s.mem = true) : memWf (doClra c rd s).mem = true := by simp [doClra, h]

@[simp] theorem doLda_wf (c : Fin 68) (rd : Fin 4) (ra : Fin 16) (s : State) (h : memWf s.mem = true) : memWf (doLda c rd ra s).mem = true := by
  simp [doLda, h]

@[simp] theorem doMova_wf (c : Fin 68) (rd ra : Fin 4) (s : State) (h : memWf s.mem = true) : memWf (doMova c rd ra s).mem = true := by simp [doMova, h]
@[simp] theorem doNega_wf (c : Fin 68) (rd ra : Fin 4) (s : State) (h : memWf s.mem = true) : memWf (doNega c rd ra s).mem = true := by simp [doNega, h]

@[simp] theorem doAdda_wf (c : Fin 68) (rd ra rb : Fin 4) (s : State) (h : memWf s.mem = true) : memWf (doAdda c rd ra rb s).mem = true := by
  simp [doAdda, h]

@[simp] theorem doSuba_wf (c : Fin 68) (rd ra rb : Fin 4) (s : State) (h : memWf s.mem = true) : memWf (doSuba c rd ra rb s).mem = true := by
  simp [doSuba, h]

@[simp] theorem doSha_wf (c : Fin 68) (rd ra : Fin 4) (sh : BitVec 8) (s : State) (h : memWf s.mem = true) :
    memWf (doSha c rd ra sh s).mem = true := by simp [doSha, h]

@[simp] theorem doSta_wf (c : Fin 68) (rd : Fin 16) (ra : Fin 4) (s : State) (h : memWf s.mem = true) : memWf (doSta c rd ra s).mem = true := by
  simp [doSta, h]

@[simp] theorem doLmr_wf (c : Fin 68) (ra : Fin 16) (len : Fin 9) (imm : BitVec 32) (s : State) (h : memWf s.mem = true) :
    memWf (doLmr c ra len imm s).mem = true := by simp [doLmr, h]

@[simp] theorem doLmw_wf (c : Fin 68) (ra rb : Fin 16) (imm : BitVec 32) (s : State) (h : memWf s.mem = true) :
    memWf (doLmw c ra rb imm s).mem = true := by simp [doLmw, h]

/-! ### Rings and the Docent (16): `Machine/Control.lean` -/

@[simp] theorem ringDrain_wf (fw : Bool) (n : Nat) (s : State) (h : memWf s.mem = true) : memWf (ringDrain fw n s).mem = true := by
  induction n generalizing s with
  | zero => exact h
  | succ n ih =>
    unfold ringDrain
    split
    · split <;> simp [h]
    · split
      · exact h
      · exact ih _ (recordWrite_wf _ _ h)

@[simp] theorem ringRoom_wf (m : Nat) (fw : Bool) (w : W32) (s : State) (h : memWf s.mem = true) : memWf (ringRoom m fw w s).mem = true := by
  simp [ringRoom, h]

@[simp] theorem doCompletionRecordWrite_wf (s : State) (h : memWf s.mem = true) : memWf (doCompletionRecordWrite s).mem = true := by
  unfold doCompletionRecordWrite
  split <;> simp [h]

@[simp] theorem docSetState_mem (s : State) (t v : Nat) : (docSetState s t v).mem = s.mem := by simp -implicitDefEqProofs [docSetState]
@[simp] theorem docSetList_mem (s : State) (c : Nat) (l : List Nat) : (docSetList s c l).mem = s.mem := by simp [docSetList]
@[simp] theorem docReady_mem (s : State) (t : Nat) : (docReady s t).mem = s.mem := by simp [docReady]
@[simp] theorem docRemove_mem (s : State) (t : Nat) : (docRemove s t).mem = s.mem := by simp [docRemove]
@[simp] theorem docConfig_mem (t : Nat) (w : W32) (s : State) : (docConfig t w s).mem = s.mem := by simp -implicitDefEqProofs [docConfig]
@[simp] theorem docApply_mem (s : State) (t : Nat) : (docApply s t).mem = s.mem := by simp -implicitDefEqProofs [docApply]
@[simp] theorem docSource_mem (s : State) (src : Nat) : (docSource s src).mem = s.mem := by simp [docSource]
@[simp] theorem docIrqNow_mem (src : Nat) (s : State) : (docIrqNow src s).mem = s.mem := by simp [docIrqNow]
@[simp] theorem docTickNow_mem (x : Dom) (s : State) : (docTickNow x s).mem = s.mem := by simp [docTickNow]

@[simp] theorem docRefill_mem (s : State) : (docRefill s).mem = s.mem := by
  unfold docRefill
  split
  · rfl
  · split
    · simp
    · split <;> simp

@[simp] theorem doDocentCompletion_mem (s : State) : (doDocentCompletion s).mem = s.mem := by
  unfold doDocentCompletion
  split <;> simp

@[simp] theorem docSignal_mem (w : W32) (s : State) : (docSignal w s).mem = s.mem := by simp [docSignal]
@[simp] theorem docTickCount_mem (x : Dom) (s : State) : (docTickCount x s).mem = s.mem := by simp [docTickCount]

@[simp] theorem docTake_mem (c : Nat) (w : W32) (s : State) : (docTake c w s).mem = s.mem := by
  generalize ht : docTake c w s = t
  unfold docTake at ht
  split at ht
  · rw [ht]
  · extract_lets s0 at ht
    have h0 : s0.mem = s.mem := fset_mem ..
    split at ht
    · rw [← ht, wr_mem, h0]
    · extract_lets s1 stolen s2 at ht
      have h1 : s1.mem = s0.mem := (docSetState_mem ..).trans (docSetList_mem ..)
      have h2 : s2.mem = s1.mem := ite_mem_of (fset_mem ..) rfl
      rw [← ht, wr_mem, h2, h1, h0]

@[simp] theorem docDone_mem (w : W32) (s : State) : (docDone w s).mem = s.mem := by simp -implicitDefEqProofs [docDone]
@[simp] theorem coreRun_mem (m : Nat) (w : W32) (s : State) : (coreRun m w s).mem = s.mem := by simp [coreRun]
@[simp] theorem mtipHold_mem (l : List Nat) (s : State) : (mtipHold l s).mem = s.mem := by simp [mtipHold]
@[simp] theorem timerPend_mem (s : State) : (timerPend s).mem = s.mem := by simp [timerPend]
@[simp] theorem doMachineTimerInterrupt_mem (c : Fin 8) (s : State) : (doMachineTimerInterrupt c s).mem = s.mem := by simp [doMachineTimerInterrupt]

@[simp] theorem copyCmd_wf (t : Nat) (e : BitVec 512) (s : State) (h : memWf s.mem = true) : memWf (copyCmd t e s).mem = true := by
  unfold copyCmd
  dsimp only
  split
  · simp [h]
  · split
    · simp [h]
    · split
      · simp [h]
      · split
        · simp [h]
        · split
          · exact h
          · split
            · simp [h]
            · exact h

@[simp] theorem doCopyStart_mem (eng : Fin 4) (s : State) : (doCopyStart eng s).mem = s.mem := by
  unfold doCopyStart
  split
  · rfl
  · split <;> rfl

@[simp] theorem copyStop_wf (g : Nat) (s : State) (h : memWf s.mem = true) : memWf (copyStop g s).mem = true := by
  unfold copyStop
  exact foldl_wf _ (fun t j => complete_wf _ _ _ _ _ t.2) _ _ h

/-! ### The rotation of cores (12): `Machine/Rotation.lean` -/

@[simp] theorem rotEnd_wf (s : State) (r : Rotation) (oc : Nat) (h : memWf s.mem = true) : memWf (rotEnd s r oc).mem = true := by simp [rotEnd, h]
@[simp] theorem rotFail_wf (s : State) (r : Rotation) (oc : Nat) (h : memWf s.mem = true) : memWf (rotFail s r oc).mem = true := by simp [rotFail, h]

@[simp] theorem rotateCmd_wf (t : Nat) (e : BitVec 512) (s : State) (h : memWf s.mem = true) : memWf (rotateCmd t e s).mem = true := by
  unfold rotateCmd
  extract_lets kind j sp fate pick
  clear_value pick
  split
  · simp [h]
  · repeat' split
    all_goals simp [h]

@[simp] theorem tileCopy_mem (s : State) (a b : Nat) : (tileCopy s a b).mem = s.mem := by simp [tileCopy]
@[simp] theorem coreCopy_mem (s : State) (a b : Nat) : (coreCopy s a b).mem = s.mem := by simp [coreCopy]

@[simp] theorem unitCopy_mem (s : State) (kind a b : Nat) : (unitCopy s kind a b).mem = s.mem := by
  unfold unitCopy
  split <;> simp

@[simp] theorem rotShadow_mem (s : State) (r : Rotation) : (rotShadow s r).mem = s.mem := by simp [rotShadow]

@[simp] theorem copyErrors_mem (s : State) (r : Rotation) : (copyErrors s r).mem = s.mem := by
  unfold copyErrors
  split <;> simp

@[simp] theorem doRotationCopyDone_mem (s : State) : (doRotationCopyDone s).mem = s.mem := by
  unfold doRotationCopyDone
  split <;> simp

@[simp] theorem doCoreStateCopy_mem (s : State) : (doCoreStateCopy s).mem = s.mem := by
  unfold doCoreStateCopy
  split <;> simp

@[simp] theorem doRotationNoGap_wf (s : State) (h : memWf s.mem = true) : memWf (doRotationNoGap s).mem = true := by
  unfold doRotationNoGap
  split <;> simp [h]

@[simp] theorem doShadowBlockCompare_wf (x : Dom) (same : Bool) (s : State) (h : memWf s.mem = true) :
    memWf (doShadowBlockCompare x same s).mem = true := by
  unfold doShadowBlockCompare
  split <;> simp [h]

@[simp] theorem coreHandOver_wf (a b : Nat) (s : State) (h : memWf s.mem = true) : memWf (coreHandOver a b s).mem = true := by simp [coreHandOver, h]

@[simp] theorem doRotationSwitch_wf (s : State) (h : memWf s.mem = true) : memWf (doRotationSwitch s).mem = true := by
  unfold doRotationSwitch
  split <;> simp [h]

@[simp] theorem doRotationRelease_wf (pass : Bool) (s : State) (h : memWf s.mem = true) : memWf (doRotationRelease pass s).mem = true := by
  unfold doRotationRelease
  split <;> simp [h]

@[simp] theorem rotDisable_wf (s : State) (h : memWf s.mem = true) : memWf (rotDisable s).mem = true := by
  unfold rotDisable
  split <;> simp [h]

/-! ### Scenes and staging (04): `Machine/Staging.lean` -/

@[simp] theorem claim_mem (x : Dom) (t : Nat) (s : State) : (claim x t s).mem = s.mem := by simp [claim]

@[simp] theorem genClaim_mem (m : Nat) (w : W32) (s : State) : (genClaim m w s).mem = s.mem := by
  unfold genClaim
  extract_lets s1
  have h1 : s1.mem = s.mem := by simp [s1]
  split
  · exact h1
  · split
    · simp [h1]
    · split <;> simp [h1]

@[simp] theorem setPatch_mem (e : Nat) (v : PatchEntry) (s : State) : (setPatch e v s).mem = s.mem := by simp [setPatch]
@[simp] theorem slotClear_mem (i : Nat) (s : State) : (slotClear i s).mem = s.mem := by simp [slotClear]
@[simp] theorem colClear_mem (d : Nat) (s : State) : (colClear d s).mem = s.mem := by simp [colClear]

@[simp] theorem stripRecsLand.landStore_mem (strip : Nat) (r : StagedRec) (s : State) : (stripRecsLand.landStore strip r s).mem = s.mem := by
  unfold stripRecsLand.landStore
  split <;> simp

@[simp] theorem stripRecsLand_mem (strip : Nat) (s : State) : (stripRecsLand strip s).mem = s.mem := by simp [stripRecsLand]
@[simp] theorem setSDom_mem (i : Nat) (x : Option Dom) (s : State) : (setSDom i x s).mem = s.mem := by simp [setSDom]
@[simp] theorem setDDom_mem (d : Nat) (x : Option Dom) (s : State) : (setDDom d x s).mem = s.mem := by simp [setDDom]

@[simp] theorem slotBind_mem (isD : Bool) (i c : Nat) (new : Option Dom) (s : State) : (slotBind isD i c new s).mem = s.mem := by
  unfold slotBind
  extract_lets cur strip s1
  clear_value cur
  split
  · rfl
  · split
    · split <;> simp [s1]
    · dsimp only; split <;> simp
    · rfl

@[simp] theorem mapLand_mem (flow e ch c : Nat) (s : State) : (mapLand flow e ch c s).mem = s.mem := by simp [mapLand]

@[simp] theorem recLand_wf (x : Dom) (c : Nat) (s : State) (r : StagedRec) (h : memWf s.mem = true) : memWf (recLand x c s r).mem = true := by
  unfold recLand
  split
  · exact h
  · split
    · split <;> simp [h]
    · split
      · simp [h]
      · exact h
  · simp [h]
  · simp [h]
  · exact h

@[simp] theorem recDrop_mem (w0 : BitVec 64) (s : State) : (recDrop w0 s).mem = s.mem := by simp [recDrop]

@[simp] theorem recLandNow_wf (w0 w1 : BitVec 64) (s0 : State) (h : memWf s0.mem = true) : memWf (recLandNow w0 w1 s0).mem = true := by
  unfold recLandNow
  extract_lets s
  have hs : memWf s.mem = true := by simp [s, h]
  split
  · exact hs
  · simp [hs]
  · split <;> simp [hs]
  · split <;> simp [hs]
  · exact hs

@[simp] theorem deferShow_mem (s : State) : (deferShow s).mem = s.mem := by simp [deferShow]

@[simp] theorem patchStage_mem (e : Nat) (v : PatchVal) (len gen : Nat) (x : Dom) (s : State) : (patchStage e v len gen x s).1.mem = s.mem := by
  unfold patchStage
  dsimp only
  split
  · split
    · rfl
    · split <;> simp
  · simp

@[simp] theorem patchEnd_mem (e : Nat) (s : State) : (patchEnd e s).mem = s.mem := by
  unfold patchEnd
  split <;> simp

@[simp] theorem recPut_mem (w0 w1 : BitVec 64) (gen : Nat) (x : Dom) (s : State) : (recPut w0 w1 gen x s).mem = s.mem := by simp [recPut]

@[simp] theorem stageRec_wf (who : Stager) (w0 w1 : BitVec 64) (gen : Nat) (s : State) (h : memWf s.mem = true) :
    memWf (stageRec who w0 w1 gen s).1.mem = true := by
  unfold stageRec
  split
  · exact h
  · split
    · exact h
    · extract_lets dom shut
      clear_value shut dom
      repeat' split
      all_goals simp [h]

@[simp] theorem portRecord_wf (w0 w1 : BitVec 64) (gen : Nat) (first : Bool) (s : State) (h : memWf s.mem = true) :
    memWf (portRecord w0 w1 gen first s).mem = true := by
  unfold portRecord
  have hr := stageRec_wf .software w0 w1 gen s h
  split
  · next s1 c he =>
    rw [he] at hr
    dsimp only at hr ⊢
    split <;> simp [hr]
  · next s1 he =>
    rw [he] at hr
    dsimp only at hr ⊢
    split
    · simp [hr]
    · split
      · simp [hr]
      · split <;> simp [hr]

@[simp] theorem recCmd_wf (m : Nat) (w : W32) (s : State) (h : memWf s.mem = true) : memWf (recCmd m w s).mem = true := by simp [recCmd, h]

@[simp] theorem doPatchStallRelease_wf (s : State) (h : memWf s.mem = true) : memWf (doPatchStallRelease s).mem = true := by
  unfold doPatchStallRelease
  split <;> simp [h]

@[simp] theorem cmtQueue_mem (r : CmtReq) (x : Dom) (ticket : Nat) (s : State) : (cmtQueue r x ticket s).mem = s.mem := by simp [cmtQueue]

@[simp] theorem commitCmd_wf (t : Nat) (e : BitVec 512) (s : State) (h : memWf s.mem = true) : memWf (commitCmd t e s).mem = true := by
  unfold commitCmd
  dsimp only
  repeat' split
  all_goals simp [h]

@[simp] theorem portCommit_mem (iss : Nat) (r : CmtReq) (s : State) : (portCommit iss r s).mem = s.mem := by
  unfold portCommit
  split <;> simp

@[simp] theorem landRecs_wf (x : Dom) (c : Nat) (s : State) (h : memWf s.mem = true) : memWf (landRecs x c s).mem = true := by
  unfold landRecs
  extract_lets mine l word _ s1 s2 par strips s3
  have h1 : memWf s1.mem = true := h
  have h2 : memWf s2.mem = true := foldl_wf _ (fun t r => recLand_wf _ _ _ _ t.2) _ _ h1
  have h3 : memWf s3.mem = true := by
    refine foldl_wf _ (fun t p => ?_) _ _ h2
    dsimp only
    split <;> simp
  clear_value s3
  simp only [unitsShow_mem]
  exact foldl_wf _ (fun t r => coreWord_wf _ _ _ _ _ t.2) _ _ h3

@[simp] theorem loaderShow_mem (s : State) : (loaderShow s).mem = s.mem := by simp [loaderShow]
@[simp] theorem setRecall_mem (r : Recall) (s : State) : (setRecall r s).mem = s.mem := by simp [setRecall]

@[simp] theorem recallNext_mem (s : State) : (recallNext s).mem = s.mem := by
  unfold recallNext
  split
  · rfl
  · split <;> simp

@[simp] theorem dropRecall_mem (r : Recall) (s : State) : (dropRecall r s).mem = s.mem := by simp [dropRecall]
@[simp] theorem recallLeave_mem (r : Recall) (s : State) : (recallLeave r s).mem = s.mem := by simp [recallLeave]

@[simp] theorem recallDone_wf (r : Recall) (oc : Nat) (s : State) (h : memWf s.mem = true) : memWf (recallDone r oc s).mem = true := by
  simp [recallDone, h]

@[simp] theorem cmtDone_wf (n : Nat) (s0 : State) (c : Commit) (h : memWf s0.mem = true) : memWf (cmtDone n s0 c).mem = true := by
  unfold cmtDone
  dsimp only
  split <;> split <;> simp [h]

@[simp] theorem cmtExpire_wf (s : State) (c : Commit) (h : memWf s.mem = true) : memWf (cmtExpire s c).mem = true := by simp [cmtExpire, h]

@[simp] theorem commitTick_wf (x : Dom) (n : Nat) (last : Option Nat) (s : State) (h : memWf s.mem = true) :
    memWf (commitTick x n last s).mem = true := by
  unfold commitTick
  split
  · exact h
  · extract_lets _ s0 gone s1 l held s2 k s3
    have h1 : memWf s1.mem = true := foldl_wf _ (fun t c => cmtExpire_wf _ _ t.2) _ _ h
    have h2 : memWf s2.mem = true := foldl_wf _ (fun t c => cmtExpire_wf _ _ t.2) _ _ h1
    clear_value s2 l
    have h3 : memWf s3.mem = true := by simp [s3, h2]
    split
    · exact h3
    · exact foldl_wf _ (fun t c => cmtDone_wf _ _ _ t.2) _ _ (landRecs_wf _ _ _ (by simp [h3]))

@[simp] theorem doCommitApply_wf (x : Dom) (s : State) (h : memWf s.mem = true) : memWf (doCommitApply x s).mem = true := by simp [doCommitApply, h]

@[simp] theorem recallCmd_wf (t : Nat) (e : BitVec 512) (s : State) (h : memWf s.mem = true) : memWf (recallCmd t e s).mem = true := by
  have hrefuse : ∀ oc at_, memWf (refuse s t oc at_).mem = true := fun oc at_ => refuse_wf _ _ _ _ h
  have hall : ∀ oc, memWf (refuseAll s t oc).mem = true := fun oc => refuseAll_wf _ _ _ h
  unfold recallCmd
  split
  · exact hrefuse ..
  · refine ite_wf (hrefuse ..) (ite_wf (hrefuse ..) (ite_wf (hrefuse ..) (ite_wf (hrefuse ..) (ite_wf (hall ..) ?_))))
    split
    · exact hall ..
    · refine ite_wf (hall ..) (ite_wf (hall ..) (wf_of_mem ((loaderShow_mem ..).trans ((mk_mem ..).trans ?_)) h))
      refine foldl_mem _ (fun s x => ?_) _ _
      split
      · exact (mk_mem ..).trans (claim_mem ..)
      · rfl

@[simp] theorem doRecallLoadStart_mem (s : State) : (doRecallLoadStart s).mem = s.mem := by simp [doRecallLoadStart]

@[simp] theorem recallLoad_wf (n : Nat) (r : Recall) (s : State) (h : memWf s.mem = true) : memWf (recallLoad n r s).2.mem = true := by
  induction n generalizing r s with
  | zero => exact h
  | succ n ih =>
    unfold recallLoad
    extract_lets i a w0 w1 gen
    have hr := stageRec_wf (.recall r.id) w0 w1 gen s h
    split
    · exact h
    · split
      · next s1 he =>
        rw [he] at hr
        dsimp only at hr ⊢
        split
        · exact hr
        · split
          · simp [hr]
          · split <;> simp [hr]
      · next s1 c he =>
        rw [he] at hr
        dsimp only at hr ⊢
        split
        · exact ih _ _ hr
        · exact ih _ _ (by simp [hr])

@[simp] theorem doRecallStaged_wf (read : List Finding) (s0 : State) (h : memWf s0.mem = true) : memWf (doRecallStaged read s0).mem = true := by
  unfold doRecallStaged
  dsimp only
  split <;> simp [h]

@[simp] theorem recallsAbort_wf (p : Recall → Bool) (s : State) (h : memWf s.mem = true) : memWf (recallsAbort p s).mem = true := by
  simp [recallsAbort, h]

/-! ### Meters, archive and playback (05): `Machine/Meters.lean` -/

@[simp] theorem tpTake_mem (d : Nat) (s : State) : (tpTake d s).mem = s.mem := by simp [tpTake]
@[simp] theorem metersBegin_mem (s : State) : (metersBegin s).mem = s.mem := by simp [metersBegin]
@[simp] theorem metersTick_mem (x : Dom) (s0 : State) : (metersTick x s0).mem = s0.mem := by simp [metersTick]
@[simp] theorem setGroup_mem (g : Nat) (v : LoudGroup) (s : State) : (setGroup g v s).mem = s.mem := by simp [setGroup]

@[simp] theorem loudOf_mem (g : LoudGroup) (k len : Nat) (s : State) : (loudOf g k len s).2.mem = s.mem := by
  unfold loudOf
  dsimp only
  split
  · rfl
  · split <;> simp

@[simp] theorem blockEnd_mem (g len : Nat) (s : State) : (blockEnd g len s).mem = s.mem := by simp [blockEnd]

@[simp] theorem loudnessBlock_mem (g : Nat) (s : State) : (loudnessBlock g s).mem = s.mem := by
  unfold loudnessBlock
  split <;> simp

@[simp] theorem doLoudnessBlock_mem (g : Fin 512) (s : State) : (doLoudnessBlock g s).mem = s.mem := by simp [doLoudnessBlock]
@[simp] theorem groupTick_mem (x : Dom) (s0 : State) (g : Nat) : (groupTick x s0 g).mem = s0.mem := by simp [groupTick]
@[simp] theorem loudnessTick_mem (x : Dom) (s : State) : (loudnessTick x s).mem = s.mem := by simp [loudnessTick]
@[simp] theorem lgReset_mem (m : Nat) (w : W32) (s : State) : (lgReset m w s).mem = s.mem := by simp [lgReset]
@[simp] theorem memZero_wf (s : State) (a n : Nat) (h : memWf s.mem = true) : memWf (memZero s a n).mem = true := by simp [memZero, h]

@[simp] theorem doMeterFrameClose_wf (s : State) (h : memWf s.mem = true) : memWf (doMeterFrameClose s).mem = true := by
  generalize ht : doMeterFrameClose s = t
  unfold doMeterFrameClose at ht
  split at ht
  · rw [← ht]; exact h
  · extract_lets t s1 depth seq a done s2 s3 s4 s5 at ht
    have hdone : ∀ t, (done t).mem = t.mem := fun t => mk_mem ..
    have h1 : memWf s1.mem = true := wf_of_mem (timeTo_mem ..) h
    have h2 : memWf s2.mem = true := memStoreBytes_wf _ _ _ (memZero_wf _ _ _ h1)
    have h3 : memWf s3.mem = true := foldl_wf _ (fun t e => memStore_wf _ _ _ _ t.2) _ _ h2
    have h4 : memWf s4.mem = true := foldl_wf _ (fun t e => memStore_wf _ _ _ _ t.2) _ _ h3
    have h5 : memWf s5.mem = true := foldl_wf _ (fun t e => memStore_wf _ _ _ _ t.2) _ _ h4
    split at ht
    · rw [← ht, hdone, capture_mem]; exact h1
    · rw [← ht, cnt_mem, hdone]; exact memStore_wf _ _ _ _ h5

@[simp] theorem blockDrop_mem (i first : Nat) (s : State) : (blockDrop i first s).mem = s.mem := by
  unfold blockDrop
  dsimp only
  split <;> simp

@[simp] theorem doArchiveBlockDrop_mem (slot : Fin 4096) (s : State) : (doArchiveBlockDrop slot s).mem = s.mem := by
  unfold doArchiveBlockDrop
  split <;> simp

@[simp] theorem arcWrite_wf (x : Dom) (s : State) (h : memWf s.mem = true) : memWf (arcWrite x s).mem = true := by
  unfold arcWrite
  refine ite_wf h (foldl_wf _ (fun t e => ?_) _ _ h)
  obtain ⟨i, d, first, words⟩ := e
  refine ite_wf ((congrArg memWf (blockDrop_mem ..)).trans t.2) ?_
  split
  · exact (congrArg memWf ((blockDrop_mem ..).trans (dmaError_mem ..))).trans t.2
  · exact memStoreBytes_wf _ _ _ t.2

@[simp] theorem arcCapture_mem (x : Dom) (i n : Nat) (v : S64) (s : State) : (arcCapture x i n v s).mem = s.mem := by simp [arcCapture]
@[simp] theorem arcFull_mem (x : Dom) (n i : Nat) (s : State) : (arcFull x n i s).mem = s.mem := by simp [arcFull]
@[simp] theorem setPb_mem (ch : Nat) (v : Option Playback) (s : State) : (setPb ch v s).mem = s.mem := by simp [setPb]
@[simp] theorem setPbState_mem (ch v : Nat) (s : State) : (setPbState ch v s).mem = s.mem := by simp [setPbState]

@[simp] theorem pbCtrl_mem (m ch : Nat) (w : W32) (s : State) : (pbCtrl m ch w s).mem = s.mem := by
  unfold pbCtrl
  extract_lets s0 s1 code s2 start
  have h0 : s0.mem = s.mem := by simp [s0]
  have h1 : s1.mem = s.mem := by
    simp only [s1]
    split
    · split <;> simp [h0]
    · exact h0
  have h2 : s2.mem = s.mem := (fset_mem ..).trans h1
  clear_value s1
  split
  · exact h1
  · split
    · exact h2
    · split
      · exact h2
      · simp [h2]

@[simp] theorem pbStart_mem (ch n : Nat) (s : State) : (pbStart ch n s).mem = s.mem := by
  unfold pbStart
  split <;> simp

@[simp] theorem pbEnd_mem (ch n : Nat) (s : State) : (pbEnd ch n s).mem = s.mem := by
  unfold pbEnd
  split <;> simp

@[simp] theorem doPlaybackStart_mem (ch : Fin 64) (s : State) : (doPlaybackStart ch s).mem = s.mem := by
  unfold doPlaybackStart
  split <;> simp

@[simp] theorem doPlaybackEnd_mem (ch : Fin 64) (s : State) : (doPlaybackEnd ch s).mem = s.mem := by
  unfold doPlaybackEnd
  split <;> simp

@[simp] theorem doPlaybackReadLate_mem (ch : Fin 64) (s : State) : (doPlaybackReadLate ch s).mem = s.mem := by
  unfold doPlaybackReadLate
  split <;> simp

@[simp] theorem pbRead_mem (p : Playback) (idx : Nat) (s : State) : (pbRead p idx s).2.mem = s.mem := by
  generalize ht : pbRead p idx s = t
  unfold pbRead at ht
  split at ht
  · rw [← ht]
  · split at ht
    · rw [← ht]
    · extract_lets a at ht
      split at ht
      · rw [← ht]; exact dmaError_mem ..
      · split at ht <;> rw [← ht]

@[simp] theorem pbYield_mem (ch n : Nat) (s : State) : (pbYield ch n s).mem = s.mem := by
  unfold pbYield
  split <;> simp

@[simp] theorem playbackTick_mem (x : Dom) (n : Nat) (s : State) : (playbackTick x n s).mem = s.mem := by simp [playbackTick]

/-! ### The serial ports (08): `Machine/Ports.lean` -/

@[simp] theorem setSide_mem (i : Nat) (v : Option Side) (s : State) : (setSide i v s).mem = s.mem := by simp [setSide]
@[simp] theorem setSideState_mem (i v : Nat) (s : State) : (setSideState i v s).mem = s.mem := by simp [setSideState]
@[simp] theorem setGood_mem (i v : Nat) (s : State) : (setGood i v s).mem = s.mem := by simp [setGood]
@[simp] theorem sideStart_mem (i : Nat) (cfg : W32) (s : State) : (sideStart i cfg s).mem = s.mem := by simp [sideStart]
@[simp] theorem sideOff_mem (i : Nat) (s : State) : (sideOff i s).mem = s.mem := by simp [sideOff]

@[simp] theorem sideCfg_mem (m i : Nat) (w : W32) (s : State) : (sideCfg m i w s).mem = s.mem := by
  unfold sideCfg
  extract_lets s1
  have h1 : s1.mem = s.mem := swWrite_mem ..
  split
  · exact ite_mem_of ((sideStart_mem ..).trans h1) h1
  · refine ite_mem_of (ite_mem_of ((setSide_mem ..).trans h1) h1) ?_
    split
    · exact ite_mem_of ((setSide_mem ..).trans h1) ((sideOff_mem ..).trans h1)
    · exact (sideOff_mem ..).trans h1

@[simp] theorem sideCause_mem (i c : Nat) (s : State) : (sideCause i c s).mem = s.mem := by
  unfold sideCause
  split <;> simp

@[simp] theorem sideFrame_mem (i : Nat) (good : Bool) (frac : Nat) (s : State) : (sideFrame i good frac s).mem = s.mem := by
  have h1 (d : Side) : (if good then setSide i (some d) s else cnt (setSide i (some d) s) (PRT_SIDE_GLITCH i)).mem = s.mem :=
    ite_mem_of (setSide_mem ..) ((cnt_mem ..).trans (setSide_mem ..))
  unfold sideFrame
  split
  · rfl
  · extract_lets x t times run rate bad
    clear_value rate bad run times
    split
    refine ite_mem_of ((sideCause_mem ..).trans ?_) ((setGood_mem ..).trans ?_)
    all_goals
      split
      · exact (wr_mem ..).trans (h1 _)
      · exact h1 _

@[simp] theorem sideMissing_mem (i : Nat) (s : State) : (sideMissing i s).mem = s.mem := by
  unfold sideMissing
  split <;> simp

@[simp] theorem doMissingFrame_mem (i : Fin 160) (s : State) : (doMissingFrame i s).mem = s.mem := by
  unfold doMissingFrame
  split <;> simp

@[simp] theorem doClockAbsent_mem (i : Fin 160) (s : State) : (doClockAbsent i s).mem = s.mem := by
  unfold doClockAbsent
  split <;> simp

@[simp] theorem sideLock_mem (i : Nat) (s : State) : (sideLock i s).mem = s.mem := by
  unfold sideLock
  split <;> simp

@[simp] theorem sideStep_mem (i : Nat) (s : State) : (sideStep i s).mem = s.mem := by
  unfold sideStep
  split <;> simp

@[simp] theorem sideFadeEnd_mem (i : Nat) (s : State) : (sideFadeEnd i s).mem = s.mem := by
  unfold sideFadeEnd
  split <;> simp

@[simp] theorem sidesFade_mem (out : Bool) (s : State) : (sidesFade out s).mem = s.mem := by simp [sidesFade]
@[simp] theorem sentFeed_mem (i : Nat) (l r : S64) (s : State) : (sentFeed i l r s).mem = s.mem := by simp [sentFeed]

@[simp] theorem doPortFrameReceived_mem (i : Fin 160) (f : RxFrame) (s : State) : (doPortFrameReceived i f s).mem = s.mem := by
  unfold doPortFrameReceived
  split
  · rfl
  · extract_lets began master good s1 ph near whole
    have h1 : s1.mem = s.mem := ite_mem_of rfl (sideFrame_mem ..)
    clear_value began s1 ph near whole
    refine ite_mem_of rfl ?_
    split
    extract_lets s2 s3
    have h2 : s2.mem = s.mem := (cntN_mem ..).trans h1
    have h3 : s3.mem = s.mem := ite_mem_of h2 ((fset_mem ..).trans ((fset_mem ..).trans h2))
    clear_value s2 s3
    split
    · exact h3
    · extract_lets code
      split
      extract_lets l r s4
      have h4 : s4.mem = s.mem := (setSide_mem ..).trans h3
      exact ite_mem_of ((sentFeed_mem ..).trans h4) h4

@[simp] theorem sideDeliver_mem (i : Nat) (s : State) : (sideDeliver i s).mem = s.mem := by
  unfold sideDeliver
  split <;> simp

@[simp] theorem sideSend_mem (i n : Nat) (good : Bool) (s : State) : (sideSend i n good s).mem = s.mem := by
  unfold sideSend
  split <;> simp

@[simp] theorem doPortFrameTransmit_mem (i : Fin 160) (good : Bool) (at_ : BitVec 32) (s : State) :
    (doPortFrameTransmit i good at_ s).mem = s.mem := by
  unfold doPortFrameTransmit
  split
  · rfl
  · split
    · rfl
    · refine ite_mem_of rfl (ite_mem_of ?_ ?_)
      · split <;> simp
      · extract_lets s1 s2
        have h1 : s1.mem = s.mem := by simp only [s1]; split <;> simp
        have h2 : s2.mem = s.mem := (sideFrame_mem ..).trans h1
        split
        · exact (setSide_mem ..).trans h2
        · exact h2

@[simp] theorem sideEnd_mem (i : Nat) (d : Side) (s : State) : (sideEnd i d s).mem = s.mem := by
  unfold sideEnd
  split <;> simp

@[simp] theorem sideClose_mem (x : Dom) (n i : Nat) (s : State) : (sideClose x n i s).mem = s.mem := by
  unfold sideClose
  split
  · rfl
  · refine ite_mem_of (ite_mem_of (sideEnd_mem ..) (setSide_mem ..)) ?_
    extract_lets master works s1 s2 s' s3
    have h1 : s1.mem = s.mem := ite_mem_of rfl (ite_mem_of
      ((wr_mem ..).trans (ite_mem_of (setGood_mem ..) rfl)) (ite_mem_of (sideMissing_mem ..) rfl))
    have h2 : s2.mem = s.mem := (sideStep_mem ..).trans h1
    have h' : s'.mem = s.mem := by
      refine ite_mem_of ?_ h2
      split
      · exact (setSide_mem ..).trans h2
      · exact h2
    have h3 : s3.mem = s.mem := by
      refine ite_mem_of ((sideDeliver_mem ..).trans h') ?_
      split
      · exact (sideSend_mem ..).trans h2
      · exact h2
    exact ite_mem_of ((sideEnd_mem ..).trans h3) h3

@[simp] theorem sideOpen_mem (m i : Nat) (disc : Bool) (s : State) : (sideOpen m i disc s).mem = s.mem := by
  unfold sideOpen
  split <;> simp

@[simp] theorem sidesEnd_mem (x : Dom) (n : Option Nat) (s : State) : (sidesEnd x n s).mem = s.mem := by
  unfold sidesEnd
  split <;> simp

@[simp] theorem sidesBegin_mem (x : Dom) (m : Nat) (disc : Bool) (s : State) : (sidesBegin x m disc s).mem = s.mem := by simp [sidesBegin]

@[simp] theorem doMaskApply_mem (i : Fin 160) (s : State) : (doMaskApply i s).mem = s.mem := by
  unfold doMaskApply
  split <;> simp

@[simp] theorem sidesClockLost_mem (v : Supply) (s : State) : (sidesClockLost v s).mem = s.mem := by
  unfold sidesClockLost
  refine foldl_mem _ (fun s i => ?_) _ _
  split
  · exact ite_mem_of (sideCause_mem ..) rfl
  · rfl

@[simp] theorem sidesRestart_mem (s : State) : (sidesRestart s).mem = s.mem := by
  unfold sidesRestart
  refine foldl_mem _ (fun t i => ?_) _ _
  split
  · exact sideStart_mem ..
  · rfl

@[simp] theorem doGpInputChange_mem (g : Fin 32) (v : Bool) (s : State) : (doGpInputChange g v s).mem = s.mem := by simp [doGpInputChange]
@[simp] theorem gpUpdate_mem (fs : List Nat) (s : State) : (gpUpdate fs s).mem = s.mem := by simp [gpUpdate]
@[simp] theorem gpWrite_mem (m k : Nat) (w : W32) (s : State) : (gpWrite m k w s).mem = s.mem := by simp [gpWrite]
@[simp] theorem sentClear_mem (w : W32) (s : State) : (sentClear w s).mem = s.mem := by simp [sentClear]

/-! ### Clock domains and bridges (08): `Machine/Domains.lean` -/

@[simp] theorem setGen_mem (x : Dom) (g : Gen) (s : State) : (setGen x g s).mem = s.mem := by simp [setGen]
@[simp] theorem genRefuse_mem (x : Dom) (code : Nat) (s : State) : (genRefuse x code s).mem = s.mem := by simp [genRefuse]
@[simp] theorem genStart_mem (x : Dom) (s : State) : (genStart x s).mem = s.mem := by simp [genStart]
@[simp] theorem genStop_mem (x : Dom) (s : State) : (genStop x s).mem = s.mem := by simp [genStop]
@[simp] theorem domCtrl_mem (x : Dom) (w : W32) (s : State) : (domCtrl x w s).mem = s.mem := by simp [domCtrl]
@[simp] theorem setBridge_mem (b : Nat) (v : Option Bridge) (s : State) : (setBridge b v s).mem = s.mem := by simp [setBridge]
@[simp] theorem setBrState_mem (b v : Nat) (s : State) : (setBrState b v s).mem = s.mem := by simp [setBrState]

@[simp] theorem brStartAt_mem (b first : Nat) (s : State) : (brStartAt b first s).mem = s.mem := by
  unfold brStartAt
  split <;> simp

@[simp] theorem brCtrl_mem (b : Nat) (w : W32) (s : State) : (brCtrl b w s).mem = s.mem := by
  unfold brCtrl
  dsimp only
  split <;> simp

@[simp] theorem brOutputStart_mem (b m : Nat) (s : State) : (brOutputStart b m s).mem = s.mem := by
  unfold brOutputStart
  split <;> simp

@[simp] theorem doBridgeOutputStart_mem (b : Fin 256) (s : State) : (doBridgeOutputStart b s).mem = s.mem := by
  unfold doBridgeOutputStart
  split <;> simp

@[simp] theorem brSettled_mem (b : Nat) (s : State) : (brSettled b s).mem = s.mem := by
  unfold brSettled
  split <;> simp

@[simp] theorem doBridgeRunning_mem (b : Fin 256) (s : State) : (doBridgeRunning b s).mem = s.mem := by simp [doBridgeRunning]
@[simp] theorem brStopped_mem (b : Nat) (s : State) : (brStopped b s).mem = s.mem := by simp [brStopped]

@[simp] theorem brBlock_mem (b j : Nat) (s : State) : (brBlock b j s).mem = s.mem := by
  unfold brBlock
  split <;> simp

@[simp] theorem doBridgeBlock_mem (b : Fin 256) (s : State) : (doBridgeBlock b s).mem = s.mem := by
  unfold doBridgeBlock
  split <;> simp

@[simp] theorem ratioWord_mem (w : BitVec 64) (s : State) : (ratioWord w s).mem = s.mem := by
  unfold ratioWord
  dsimp only
  split <;> simp

@[simp] theorem ratioMsg_mem (l : Nat) (body : List (BitVec 64)) (s : State) : (ratioMsg l body s).mem = s.mem := by simp [ratioMsg]

@[simp] theorem brInTick_mem (n b : Nat) (s : State) : (brInTick n b s).mem = s.mem := by
  unfold brInTick
  split <;> simp

@[simp] theorem brOutTick_mem (m b : Nat) (s : State) : (brOutTick m b s).mem = s.mem := by
  unfold brOutTick
  extract_lets s0 s1
  have h0 : s0.mem = s.mem := (brSettled_mem ..).trans (brOutputStart_mem ..)
  have h1 : s1.mem = s.mem := by
    simp only [s1]
    split
    · exact ite_mem_of ((brBlock_mem ..).trans h0) h0
    · exact h0
  split
  · exact h1
  · have h2 : ∀ v, (setBridge b v s1).mem = s.mem := fun v => (setBridge_mem ..).trans h1
    refine ite_mem_of ((addDue_mem ..).trans ?_) ?_
    · exact ite_mem_of ((cnt_mem ..).trans (h2 _)) (h2 _)
    · exact ite_mem_of ((cnt_mem ..).trans (h2 _)) (h2 _)

@[simp] theorem bridgesIn_mem (x : Dom) (n : Nat) (s : State) : (bridgesIn x n s).mem = s.mem := by simp [bridgesIn]
@[simp] theorem bridgesOut_mem (x : Dom) (n : Nat) (s : State) : (bridgesOut x n s).mem = s.mem := by simp [bridgesOut]

@[simp] theorem bridgesRestart.brRestart_mem (b : Nat) (v : Bridge) (s : State) : (bridgesRestart.brRestart b v s).mem = s.mem := by
  simp [bridgesRestart.brRestart]

@[simp] theorem bridgesRestart_mem (s : State) : (bridgesRestart s).mem = s.mem := by
  unfold bridgesRestart
  refine foldl_mem _ (fun s b => ite_mem_of (brStopped_mem ..) ?_) _ _
  split
  · exact ite_mem_of (bridgesRestart.brRestart_mem ..) (brStopped_mem ..)
  · rfl

/-! ### The network (09): `Machine/Network.lean` -/

@[simp] theorem fecShow_mem (p : Nat) (s : State) : (fecShow p s).mem = s.mem := by simp [fecShow]
@[simp] theorem portDown_mem (p : Nat) (s : State) : (portDown p s).mem = s.mem := by simp [portDown]
@[simp] theorem grpCfg_mem (m g : Nat) (w : W32) (s : State) : (grpCfg m g w s).mem = s.mem := by simp [grpCfg]
@[simp] theorem doPortUp_mem (p : Fin 8) (s : State) : (doPortUp p s).mem = s.mem := by simp [doPortUp]
@[simp] theorem doPortDown_mem (p : Fin 8) (s : State) : (doPortDown p s).mem = s.mem := by simp [doPortDown]
@[simp] theorem netSignalLost_mem (s : State) : (netSignalLost s).mem = s.mem := by simp [netSignalLost]

@[simp] theorem netCount_mem (kind num : Nat) (leg : Option Nat) (sent : Bool) (bytes : Nat) (s : State) :
    (netCount kind num leg sent bytes s).mem = s.mem := by simp [netCount]

@[simp] theorem portBusy_mem (p n : Nat) (s : State) : (portBusy p n s).mem = s.mem := by
  rw [portBusy]

@[simp] theorem netSend_mem (p : Nat) (l : List Byte) (s : State) : (netSend p l s).1.mem = s.mem := by
  unfold netSend
  split <;> simp

@[simp] theorem ctlPut_mem (src : Nat) (data : List Nat) (time addr : Option Nat) (s : State) : (ctlPut src data time addr s).mem = s.mem := by
  simp [ctlPut]

@[simp] theorem setRx_mem (f : Nat) (r : Option RxFlow) (s : State) : (setRx f r s).mem = s.mem := by simp [setRx]
@[simp] theorem setTx_mem (f : Nat) (r : Option TxFlow) (s : State) : (setTx f r s).mem = s.mem := by simp [setTx]
@[simp] theorem memUpdate_mem (s : State) : (memUpdate s).mem = s.mem := by simp [memUpdate]
@[simp] theorem setMember_mem (v : Member) (s : State) : (setMember v s).mem = s.mem := by simp [setMember]

@[simp] theorem memReport_mem (p g left_ : Nat) (s : State) : (memReport p g left_ s).mem = s.mem := by
  unfold memReport
  split
  · rfl
  · split
    · rfl
    · extract_lets gone mute s1 rest
      have h1 : s1.mem = s.mem := ite_mem_of rfl (netSend_mem ..)
      exact ite_mem_of ((mk_mem ..).trans h1) ((setMember_mem ..).trans h1)

@[simp] theorem doMembershipReport_mem (p : Fin 8) (grp : BitVec 128) (v6 : Bool) (s : State) : (doMembershipReport p grp v6 s).mem = s.mem := by
  simp [doMembershipReport]

@[simp] theorem doStateChangeReportRepeat_mem (p : Fin 8) (grp : BitVec 128) (v6 : Bool) (s : State) :
    (doStateChangeReportRepeat p grp v6 s).mem = s.mem := by simp [doStateChangeReportRepeat]

@[simp] theorem memQuery_mem (p g : Nat) (v6 : Bool) (ver resp : Nat) (s : State) : (memQuery p g v6 ver resp s).mem = s.mem := by simp [memQuery]

@[simp] theorem doMembershipQuery_mem (p : Fin 8) (grp : BitVec 128) (v6 : Bool) (ver : Fin 4) (s : State) :
    (doMembershipQuery p grp v6 ver s).mem = s.mem := by simp [doMembershipQuery]

@[simp] theorem doQueryResponse_mem (p : Fin 8) (grp : BitVec 128) (v6 : Bool) (s : State) : (doQueryResponse p grp v6 s).mem = s.mem := by
  simp [doQueryResponse]

@[simp] theorem conflictShow_mem (s : State) : (conflictShow s).mem = s.mem := by simp [conflictShow]

@[simp] theorem rxfCtrl_mem (f : Nat) (w : W32) (s : State) : (rxfCtrl f w s).mem = s.mem := by
  unfold rxfCtrl
  dsimp only
  split <;> split <;> simp

@[simp] theorem mapLandAll_mem (flow : Nat) (s : State) : (mapLandAll flow s).mem = s.mem := by simp -implicitDefEqProofs [mapLandAll]
@[simp] theorem mapPacket_mem (flow m : Nat) (s : State) : (mapPacket flow m s).mem = s.mem := by simp -implicitDefEqProofs [mapPacket]

@[simp] theorem rxStopNow_mem (f : Nat) (s : State) : (rxStopNow f s).mem = s.mem := by
  unfold rxStopNow
  split <;> simp

@[simp] theorem txfCtrl_mem (f : Nat) (w : W32) (s : State) : (txfCtrl f w s).mem = s.mem := by
  have hstop (t : State) (ht : t.mem = s.mem) :
      (fset (mapLandAll (f + 1024) (setTx f none t)) (NET_TXF_STATUS f) NET_TXF_STATUS_state 0).mem = s.mem :=
    (fset_mem ..).trans ((mapLandAll_mem ..).trans ((setTx_mem ..).trans ht))
  unfold txfCtrl
  extract_lets k stopped cfg pkt _ legs code s' s1
  have h1 : s1.mem = s.mem := by
    unfold s1
    split
    · split
      · exact (fset_mem ..).trans ((setTx_mem ..).trans (fset_mem ..))
      · exact fset_mem ..
    · rfl
  split
  · split
    · exact ite_mem_of ((setTx_mem ..).trans h1) (hstop _ h1)
    · exact hstop _ h1
  · exact h1

@[simp] theorem rxWrite_mem (f : Nat) (r : RxFlow) (m : Nat) (body : List Byte) (s : State) : (rxWrite f r m body s).mem = s.mem := by simp [rxWrite]

@[simp] theorem rtpPacket_mem (f leg : Nat) (l : List Byte) (s : State) : (rtpPacket f leg l s).mem = s.mem := by
  unfold rtpPacket
  split
  · rfl
  · split
    · rfl
    · refine ite_mem_of rfl ?_
      have h0 : (netCount 1 f (some leg) false l.length (netCount 1 f none false l.length s)).mem = s.mem :=
        (netCount_mem ..).trans (netCount_mem ..)
      split
      · exact (cnt_mem ..).trans h0
      · refine ite_mem_of ((cnt_mem ..).trans h0) ?_
        have h1 : ∀ r k fl, (setRx f r (fset (netCount 1 f (some leg) false l.length (netCount 1 f none false l.length s)) k fl 1)).mem = s.mem :=
          fun r k fl => (setRx_mem ..).trans ((fset_mem ..).trans h0)
        refine ite_mem_of ((cnt_mem ..).trans (h1 ..)) (ite_mem_of ((cnt_mem ..).trans (h1 ..)) (ite_mem_of ((cnt_mem ..).trans (h1 ..)) ?_))
        exact (rxWrite_mem ..).trans ((fset_mem ..).trans ((fset_mem ..).trans ((setRx_mem ..).trans ((mapPacket_mem ..).trans (h1 ..)))))

@[simp] theorem doRtpPacketReceived_mem (f : Fin 1024) (leg : Fin 2) (rtp : List Byte) (s : State) :
    (doRtpPacketReceived f leg rtp s).mem = s.mem := by simp [doRtpPacketReceived]

@[simp] theorem rxTimeout_mem (f n : Nat) (s : State) : (rxTimeout f n s).mem = s.mem := by
  unfold rxTimeout
  split
  · split
    · exact ite_mem_of ((fset_mem ..).trans (setRx_mem ..)) rfl
    · rfl
  · rfl

@[simp] theorem legTimeout_mem (f leg n : Nat) (s : State) : (legTimeout f leg n s).mem = s.mem := by
  unfold legTimeout
  split
  · split
    · exact ite_mem_of ((fset_mem ..).trans (setRx_mem ..)) rfl
    · rfl
  · rfl

@[simp] theorem doReceivingTimeout_mem (f : Fin 1024) (s : State) : (doReceivingTimeout f s).mem = s.mem := by simp [doReceivingTimeout]
@[simp] theorem doLegTimeout_mem (f : Fin 1024) (leg : Fin 2) (s : State) : (doLegTimeout f leg s).mem = s.mem := by simp [doLegTimeout]

@[simp] theorem rxDeliver_mem (n : Nat) (s : State) (f : Nat) : (rxDeliver n s f).mem = s.mem := by
  unfold rxDeliver
  split
  · rfl
  · refine ite_mem_of (rxStopNow_mem ..) ?_
    refine ite_mem_of ((cnt_mem ..).trans (foldl_pair_mem _ (fun t k => ?_) _ _)) (foldl_pair_mem _ (fun t k => ?_) _ _)
    all_goals
      obtain ⟨t, e⟩ := t
      dsimp only
      split
      · rfl
      · exact (mk_mem ..).trans (ite_mem_of (arrError_mem ..) rfl)

@[simp] theorem netRxTick_mem (x : Dom) (n : Nat) (s : State) : (netRxTick x n s).mem = s.mem := by simp [netRxTick]

@[simp] theorem ptpSent_mem (p : Nat) (l : List Byte) (s : State) : (ptpSent p l s).mem = s.mem := by
  unfold ptpSent
  split <;> simp

@[simp] theorem txPacket_mem (f : Nat) (s : State) : (txPacket f s).mem = s.mem := by
  have hdone (r : TxFlow) (t : State) (v : TxFlow) (ht : t.mem = s.mem) : (if r.stopReq then
      fset (mapLandAll (f + 1024) (setTx f none t)) (NET_TXF_STATUS f) NET_TXF_STATUS_state 0
      else setTx f (some v) t).mem = s.mem :=
    ite_mem_of ((fset_mem ..).trans ((mapLandAll_mem ..).trans ((setTx_mem ..).trans ht))) ((setTx_mem ..).trans ht)
  have h0 (n : Nat) : (mapPacket (f + 1024) n s).mem = s.mem := mapPacket_mem ..
  have hsend {p l b} {t t' : State} (e : netSend p l t = (t', b)) : t'.mem = t.mem := by rw [← netSend_mem p l t, e]
  unfold txPacket
  split
  · rfl
  · split
    · rfl
    · refine ite_mem_of rfl (ite_mem_of (hdone _ _ _ (h0 _)) (hdone _ _ _ ?_))
      refine (foldl_mem _ (fun t e => ?_) _ _).trans ((fset_mem ..).trans ((cntN_mem ..).trans (h0 _)))
      obtain ⟨l, d⟩ := e
      refine ite_mem_of ((cnt_mem ..).trans (arrError_mem ..)) (ite_mem_of (cnt_mem ..) ?_)
      split
      · next e => exact (ptpSent_mem ..).trans ((netCount_mem ..).trans ((netCount_mem ..).trans (hsend e)))
      · next e => exact (cnt_mem ..).trans (hsend e)

@[simp] theorem netTxTick_mem (x : Dom) (n : Nat) (s : State) : (netTxTick x n s).mem = s.mem := by simp [netTxTick]
@[simp] theorem dropFrame_mem (p : Nat) (s : State) : (dropFrame p s).mem = s.mem := by simp [dropFrame]
@[simp] theorem toFirmwareQueue_mem (f : NetPkt) (s : State) : (toFirmwareQueue f s).mem = s.mem := by simp [toFirmwareQueue]

@[simp] theorem udpIn_wf (mgmt : Nat → Nat → Nat → List Byte → State → State) (f : NetPkt) (src dst : Nat) (l : List Byte) (s : State)
    (hm : ∀ p src udp l (t : Canonical), memWf (mgmt p src udp l t.1).mem = true) (h : memWf s.mem = true) :
    memWf (udpIn mgmt f src dst l s).mem = true := by
  unfold udpIn
  cases udpKind s f src dst (oct l 2 2) with
  | ptp ev => simp [h]
  | flow n leg => simp [h]
  | management => exact ite_wf (hm _ _ _ _ ⟨s, h⟩) (by simp [h])
  | other => simp [h]

@[simp] theorem answer_mem (f : NetPkt) (dst etype : Nat) (l : List Byte) (s : State) : (answer f dst etype l s).mem = s.mem := by simp [answer]
@[simp] theorem arpIn_mem (f : NetPkt) (l : List Byte) (s : State) : (arpIn f l s).mem = s.mem := by simp [arpIn]

@[simp] theorem ipv4In_wf (mgmt : Nat → Nat → Nat → List Byte → State → State) (f : NetPkt) (l : List Byte) (s : State)
    (hm : ∀ p src udp l (t : Canonical), memWf (mgmt p src udp l t.1).mem = true) (h : memWf s.mem = true) :
    memWf (ipv4In mgmt f l s).mem = true := by
  unfold ipv4In
  refine ite_wf (by simp [h]) (ite_wf (by simp [h]) ?_)
  split
  · exact ite_wf (by simp [h]) (udpIn_wf _ _ _ _ _ _ hm h)
  · simp [h]
  · simp [h]

@[simp] theorem icmp6In_mem (f : NetPkt) (src : Nat) (l : List Byte) (s : State) : (icmp6In f src l s).mem = s.mem := by simp [icmp6In]

@[simp] theorem ipv6In_wf (mgmt : Nat → Nat → Nat → List Byte → State → State) (f : NetPkt) (l : List Byte) (s : State)
    (hm : ∀ p src udp l (t : Canonical), memWf (mgmt p src udp l t.1).mem = true) (h : memWf s.mem = true) :
    memWf (ipv6In mgmt f l s).mem = true := by
  unfold ipv6In
  refine ite_wf (by simp [h]) ?_
  split
  · exact ite_wf (by simp [h]) (udpIn_wf _ _ _ _ _ _ hm h)
  · simp [h]
  · simp [h]
  · simp [h]

@[simp] theorem netFrame_wf (mgmt : Nat → Nat → Nat → List Byte → State → State) (p : Nat) (bytes : List Byte) (fcsOk : Bool) (t : Nat) (s : State)
    (hm : ∀ p src udp l (t : Canonical), memWf (mgmt p src udp l t.1).mem = true) (h : memWf s.mem = true) :
    memWf (netFrame mgmt p bytes fcsOk t s).mem = true := by
  have h1 (len : Nat) : memWf (netCount 0 p none false len s).mem = true := wf_of_mem (netCount_mem ..) h
  unfold netFrame
  refine ite_wf h (ite_wf (by simp [h]) (ite_wf (by simp [h]) (ite_wf h ?_)))
  split
  all_goals
    dsimp only
    split
    · exact (congrArg memWf (arpIn_mem ..)).trans (h1 _)
    · exact ipv4In_wf _ _ _ _ hm (h1 _)
    · exact ipv6In_wf _ _ _ _ hm (h1 _)
    · exact (congrArg memWf (toFirmwareQueue_mem ..)).trans (h1 _)

@[simp] theorem mgmtSend_mem (p dst udp : Nat) (l : List Byte) (s : State) : (mgmtSend p dst udp l s).mem = s.mem := by simp [mgmtSend]

/-! ### The coding of the links (10): `Machine/LinkCoding.lean` -/

@[simp] theorem setLinkLine_mem (s : State) (l : Nat) (v : LinkLine) : (setLinkLine s l v).mem = s.mem := by simp [setLinkLine]
@[simp] theorem lineSend_mem (l : Nat) (blocks : List Block66) (s : State) : (lineSend l blocks s).mem = s.mem := by simp [lineSend]
@[simp] theorem lineTake_mem (l : Nat) (rx : List Block66) (s : State) : (lineTake l rx s).mem = s.mem := by simp [lineTake]
@[simp] theorem lineAlign_mem (l : Nat) (m : List MarkerSeen) (s : State) : (lineAlign l m s).mem = s.mem := by simp [lineAlign]

/-! ### The links (10): `Machine/Daxesh.lean` -/

@[simp] theorem linkTo_mem (l v : Nat) (s : State) : (linkTo l v s).mem = s.mem := by simp [linkTo]
@[simp] theorem linkCfg_mem (m l : Nat) (w : W32) (s : State) : (linkCfg m l w s).mem = s.mem := by simp [linkCfg]
@[simp] theorem linkAdvance_mem (l src dst : Nat) (s : State) : (linkAdvance l src dst s).mem = s.mem := by simp [linkAdvance]
@[simp] theorem doLaneSignalLock_mem (l : Fin 2) (s : State) : (doLaneSignalLock l s).mem = s.mem := by simp [doLaneSignalLock]
@[simp] theorem doBlockLock_mem (l : Fin 2) (s : State) : (doBlockLock l s).mem = s.mem := by simp [doBlockLock]
@[simp] theorem doLaneAlign_mem (m : LinkMarkers) (s : State) : (doLaneAlign m s).mem = s.mem := by simp [doLaneAlign]
@[simp] theorem linkDrop_mem (l : Nat) (s : State) : (linkDrop l s).mem = s.mem := by simp [linkDrop]
@[simp] theorem doLinkLoss_mem (l : Fin 2) (bad : BitVec 16) (s : State) : (doLinkLoss l bad s).mem = s.mem := by simp [doLinkLoss]
@[simp] theorem linkSignalLost_mem (s : State) : (linkSignalLost s).mem = s.mem := by simp [linkSignalLost]
@[simp] theorem linksRestart_mem (s : State) : (linksRestart s).mem = s.mem := by simp [linksRestart]
@[simp] theorem wakeCtrl_mem (m l : Nat) (w : W32) (s : State) : (wakeCtrl m l w s).mem = s.mem := by simp [wakeCtrl]
@[simp] theorem doWakePatternEnd_mem (l : Fin 2) (s : State) : (doWakePatternEnd l s).mem = s.mem := by simp [doWakePatternEnd]
@[simp] theorem msgDrop_mem (l : Nat) (s : State) : (msgDrop l s).mem = s.mem := by simp [msgDrop]

@[simp] theorem msgIn_mem (l want : Nat) (rx : List Block66) (eff : DaxMsg → State → State) (s0 : State) (he : ∀ m t, (eff m t).mem = t.mem) :
    (msgIn l want rx eff s0).mem = s0.mem := by
  have ht : (lineTake l rx s0).mem = s0.mem := lineTake_mem ..
  have hd : (msgDrop l (lineTake l rx s0)).mem = s0.mem := (msgDrop_mem ..).trans ht
  unfold msgIn
  refine ite_mem_of rfl ?_
  split
  · exact ht
  · exact ite_mem_of ht (ite_mem_of hd (ite_mem_of ht (ite_mem_of hd ((he _ _).trans ht))))

@[simp] theorem firmwareMsg_mem (l : Nat) (m : DaxMsg) (s : State) : (firmwareMsg l m s).mem = s.mem := by simp [firmwareMsg]

@[simp] theorem doFirmwareMessage_mem (l : Fin 2) (rx : List Block66) (s : State) : (doFirmwareMessage l rx s).mem = s.mem := by
  simp [doFirmwareMessage]

@[simp] theorem doProvenanceMessage_mem (l : Fin 2) (rx : List Block66) (s : State) : (doProvenanceMessage l rx s).mem = s.mem := by
  simp [doProvenanceMessage]

@[simp] theorem doRatioMessage_mem (l : Fin 2) (rx : List Block66) (s : State) : (doRatioMessage l rx s).mem = s.mem := by simp [doRatioMessage]
@[simp] theorem doTwinMessage_mem (l : Fin 2) (rx : List Block66) (s : State) : (doTwinMessage l rx s).mem = s.mem := by simp [doTwinMessage]
@[simp] theorem msgSend_mem (l : Nat) (m : DaxMsg) (s : State) : (msgSend l m s).mem = s.mem := by simp [msgSend]
@[simp] theorem framesFlush_mem (l : Nat) (s : State) : (framesFlush l s).mem = s.mem := by simp [framesFlush]

@[simp] theorem doMessageSend_mem (l : Fin 2) (s0 : State) : (doMessageSend l s0).mem = s0.mem := by
  have hf : (framesFlush l s0).mem = s0.mem := framesFlush_mem ..
  fun_cases doMessageSend l s0
  · exact hf
  · exact hf
  · exact hf
  · exact (msgSend_mem ..).trans ((setDaxLink_mem ..).trans hf)

@[simp] theorem doIdentSend_mem (l : Fin 2) (s : State) : (doIdentSend l s).mem = s.mem := by simp [doIdentSend]

@[simp] theorem identDelay_mem (l : Nat) (w2 w3 : BitVec 64) (s : State) : (identDelay l w2 w3 s).mem = s.mem := by
  unfold identDelay
  dsimp only
  split <;> simp

@[simp] theorem identMsg_mem (l : Nat) (m : DaxMsg) (s : State) : (identMsg l m s).mem = s.mem := by
  unfold identMsg
  split <;> simp

@[simp] theorem doIdentMessage_mem (l : Fin 2) (rx : List Block66) (s : State) : (doIdentMessage l rx s).mem = s.mem := by simp [doIdentMessage]

@[simp] theorem frameIn_mem (l : Nat) (f : LinkUnit) (s : State) : (frameIn l f s).mem = s.mem := by
  unfold frameIn
  split <;> split <;> simp

@[simp] theorem doTickFrameReceived_mem (l : Fin 2) (rx : List Block66) (s0 : State) : (doTickFrameReceived l rx s0).mem = s0.mem := by
  have ht : (lineTake l rx s0).mem = s0.mem := lineTake_mem ..
  fun_cases doTickFrameReceived l rx s0
  · rfl
  · exact (frameIn_mem ..).trans ht
  · exact ht
  · exact ht

@[simp] theorem framesForget_mem (x : Dom) (n : Nat) (s : State) : (framesForget x n s).mem = s.mem := by simp [framesForget]
@[simp] theorem txmapApply_mem (l : Nat) (s : State) : (txmapApply l s).mem = s.mem := by simp [txmapApply]
@[simp] theorem doTxmapApply_mem (l : Fin 2) (s : State) : (doTxmapApply l s).mem = s.mem := by simp [doTxmapApply]
@[simp] theorem linkFrame_mem (x : Dom) (k l : Nat) (s : State) : (linkFrame x k l s).mem = s.mem := by simp [linkFrame]

@[simp] theorem linkTick_mem (x : Dom) (last : Option Nat) (l : Nat) (s : State) : (linkTick x last l s).mem = s.mem := by
  unfold linkTick
  split <;> simp

@[simp] theorem framesTick_mem (x : Dom) (last : Option Nat) (s : State) : (framesTick x last s).mem = s.mem := by simp [framesTick]
@[simp] theorem tblRefuse_mem (l c : Nat) (s : State) : (tblRefuse l c s).mem = s.mem := by simp [tblRefuse]
@[simp] theorem txmapCtrl_mem (m l j : Nat) (w : W32) (s : State) : (txmapCtrl m l j w s).mem = s.mem := by simp [txmapCtrl]
@[simp] theorem psCtrl_mem (m l j : Nat) (w : W32) (s : State) : (psCtrl m l j w s).mem = s.mem := by simp [psCtrl]

/-! ### Power (18): `Machine/Power.lean` -/

@[simp] theorem setPhase_mem (s : State) (v : Nat) : (setPhase s v).mem = s.mem := by simp [setPhase]

@[simp] theorem startDrop_mem (doms : Nat) (setState : Option (Nat × Nat)) (withdrawn : List (Nat × Nat)) (s : State) :
    (startDrop doms setState withdrawn s).mem = s.mem := by simp [startDrop]

@[simp] theorem nextDrop_mem (s : State) : (nextDrop s).mem = s.mem := by simp [nextDrop]

@[simp] theorem dropRefuse_wf (u : Nat) (s : State) (h : memWf s.mem = true) : memWf (dropRefuse u s).mem = true := by
  have hkeys (m slot : Nat) (t : State) : ((List.range 15).foldl (fun s d => if bitOf m d then setKey s slot d true else s) t).mem = t.mem :=
    foldl_mem _ (fun t d => ite_mem_of (setKey_mem ..) rfl) _ _
  fun_cases dropRefuse u s
  · exact h
  · next s1 s2 s3 _ t _ s4 =>
    have h2 : s2.mem = s.mem := (occur_mem ..).trans ((cnt_mem ..).trans ((fset_mem ..).trans (setPhase_mem ..)))
    have h3 : s3.mem = s.mem := ite_mem_of ((sidesFade_mem ..).trans h2) h2
    have h4 : s4.mem = s.mem := by
      refine (foldl_mem _ (fun t e => ?_) _ _).trans h3
      exact ite_mem_of ((wr_mem ..).trans (hkeys ..)) (hkeys ..)
    exact wf_of_mem (nextDrop_mem ..) (complete_wf _ _ _ _ _ (wf_of_mem h4 h))
  · next s1 s2 s3 _ =>
    have h2 : s2.mem = s.mem := (occur_mem ..).trans ((cnt_mem ..).trans ((fset_mem ..).trans (setPhase_mem ..)))
    have h3 : s3.mem = s.mem := ite_mem_of ((sidesFade_mem ..).trans h2) h2
    exact wf_of_mem ((nextDrop_mem ..).trans (ite_mem_of (mk_mem ..) rfl)) (wf_of_mem h3 h)

@[simp] theorem doDropRefuse_wf (s : State) (h : memWf s.mem = true) : memWf (doDropRefuse s).mem = true := by
  fun_cases doDropRefuse s
  · exact dropRefuse_wf _ _ h
  · exact h
  · exact h

@[simp] theorem doQuiesceTimeout_wf (unit : BitVec 16) (s : State) (h : memWf s.mem = true) : memWf (doQuiesceTimeout unit s).mem = true := by
  unfold doQuiesceTimeout
  split <;> simp [h]

@[simp] theorem doDropRetry_mem (s : State) : (doDropRetry s).mem = s.mem := by simp [doDropRetry]
@[simp] theorem regsLost_mem (d : Nat) (s : State) : (regsLost d s).mem = s.mem := by simp [regsLost]
@[simp] theorem domLost_wf (d : Nat) (s : State) (h : memWf s.mem = true) : memWf (domLost d s).mem = true := by simp [domLost, h]
@[simp] theorem banksDown_wf (v : Nat) (s : State) (h : memWf s.mem = true) : memWf (banksDown v s).mem = true := by simp [banksDown, h]
@[simp] theorem domLow_wf (d v : Nat) (s : State) (h : memWf s.mem = true) : memWf (domLow d v s).mem = true := by simp [domLow, h]

@[simp] theorem pausedAbort_wf (d : Drop) (s : State) (h : memWf s.mem = true) : memWf (pausedAbort d s).mem = true := by
  unfold pausedAbort
  extract_lets a s1 mine _ s2 s3 s4
  have h1 : memWf s1.mem = true := by
    refine ite_wf ?_ h
    split
    · exact complete_wf _ _ _ _ _ (wf_of_mem (consStop_mem ..) h)
    · exact h
  have h2 : memWf s2.mem = true := ite_wf (foldl_wf _ (fun t j => complete_wf t.1 _ _ _ _ t.2) _ _ h1) h1
  have h3 : memWf s3.mem = true := ite_wf (scrubStop_wf _ h2) h2
  have h4 : memWf s4.mem = true := ite_wf (recallsAbort_wf _ _ h3) h3
  exact ite_wf (rotDisable_wf _ h4) h4

@[simp] theorem doDropCommit_wf (s : State) (h : memWf s.mem = true) : memWf (doDropCommit s).mem = true := by
  have hkeys (k : Nat) (t : State) : ((List.range 8).foldl (fun s i => setKey s (8 + i) k false) t).mem = t.mem :=
    foldl_mem _ (fun t i => setKey_mem ..) _ _
  unfold doDropCommit
  split
  · exact h
  · refine ite_wf h ?_
    extract_lets target _ s1 l s2 s3 s4 s5 s6
    have h1 : memWf s1.mem = true := pausedAbort_wf _ _ h
    have h2 : memWf s2.mem = true := wf_of_mem (foldl_mem _ (fun t k => hkeys k t) _ _) h1
    have h3 : memWf s3.mem = true := foldl_wf _ (fun t k => domLow_wf _ _ _ t.2) _ _ h2
    have h4 : memWf s4.mem = true := by
      unfold s4
      split
      · exact ite_wf (wf_of_mem (ite_mem_of (fset_mem ..) rfl) h3) (complete_wf _ _ _ _ _ (wf_of_mem (ite_mem_of (fset_mem ..) rfl) h3))
      · exact h3
    have h5 : memWf s5.mem = true := ite_wf (domLow_wf _ _ _ h4) h4
    have h6 : memWf s6.mem = true := wf_of_mem (setPhase_mem ..) h5
    exact ite_wf (wf_of_mem (wr_mem ..) h6) (wf_of_mem (nextDrop_mem ..) h6)

@[simp] theorem raiseStart_mem (mask : Nat) (s : State) : (raiseStart mask s).mem = s.mem := by simp [raiseStart]
@[simp] theorem domRestart_mem (d : Nat) (off : Bool) (s0 : State) : (domRestart d off s0).mem = s0.mem := by simp [domRestart]
@[simp] theorem doRaise_mem (s : State) : (doRaise s).mem = s.mem := by simp [doRaise]

@[simp] theorem doRaiseComplete_wf (s : State) (h : memWf s.mem = true) : memWf (doRaiseComplete s).mem = true := by
  fun_cases doRaiseComplete s
  · exact h
  · exact complete_wf _ _ _ _ _ (wf_of_mem (setPhase_mem ..) h)
  · exact wf_of_mem (setPhase_mem ..) h

@[simp] theorem setStateCmd_wf (t : Nat) (e : BitVec 512) (s : State) (h : memWf s.mem = true) : memWf (setStateCmd t e s).mem = true := by
  unfold setStateCmd
  split <;> simp [h]

@[simp] theorem fwKeyWrite_wf (m k : Nat) (w : W32) (s : State) (h : memWf s.mem = true) : memWf (fwKeyWrite m k w s).mem = true := by
  unfold fwKeyWrite
  extract_lets old s1 new ds taken gone s2 _ s3 s4 s5 _ s6
  have h1 : s1.mem = s.mem := swWrite_mem ..
  have h2 : s2.mem = s.mem := (foldl_mem _ (fun t d => ite_mem_of (setKey_mem ..) rfl) _ _).trans h1
  have h4 : memWf s4.mem = true := by
    unfold s4
    split
    · exact ite_wf (dropRefuse_wf _ _ (wf_of_mem h2 h)) (wf_of_mem h2 h)
    · exact wf_of_mem h2 h
  have h5 : memWf s5.mem = true := wf_of_mem (raiseStart_mem ..) h4
  refine ite_wf h5 (ite_wf h5 (wf_of_mem ((startDrop_mem ..).trans (foldl_mem _ (fun t d => ite_mem_of (setKey_mem ..) rfl) _ _)) h5))

@[simp] theorem raiseKeyed_mem (s : State) : (raiseKeyed s).mem = s.mem := by simp [raiseKeyed]
@[simp] theorem wakeAdd_mem (c i : Nat) (s : State) : (wakeAdd c i s).mem = s.mem := by simp [wakeAdd]

@[simp] theorem doLook_mem (peaks : List (Fin 32 × BitVec 24)) (lanes : BitVec 16) (links : BitVec 2) (s : State) :
    (doLook peaks lanes links s).mem = s.mem := by
  unfold doLook
  refine ite_mem_of rfl ?_
  extract_lets s1 one s2 set s3
  have hone (t : State) (n : Nat) : (one t n).mem = t.mem := by
    refine ite_mem_of rfl (ite_mem_of ((wakeAdd_mem ..).trans ((mk_mem ..).trans (fset_mem ..))) ((mk_mem ..).trans (fset_mem ..)))
  have h2 : s2.mem = s.mem := (foldl_mem _ hone _ _).trans (wr_mem ..)
  have h3 : s3.mem = s.mem := by
    unfold s3
    split
    · exact (wakeAdd_mem ..).trans h2
    · exact h2
  split
  · exact (wakeAdd_mem ..).trans h3
  · exact h3

@[simp] theorem doLinkSignalDetect_mem (lane : Fin 16) (s : State) : (doLinkSignalDetect lane s).mem = s.mem := by simp [doLinkSignalDetect]
@[simp] theorem wakePattern_mem (l : Nat) (s : State) : (wakePattern l s).mem = s.mem := by simp [wakePattern]
@[simp] theorem doWakePatternDetect_mem (l : Fin 2) (s : State) : (doWakePatternDetect l s).mem = s.mem := by simp [doWakePatternDetect]

@[simp] theorem doWakePin_mem (pin : Option (Fin 32)) (s : State) : (doWakePin pin s).mem = s.mem := by
  fun_cases doWakePin pin s
  · rfl
  · exact wakeAdd_mem ..
  · exact wakeAdd_mem ..
  · rfl

@[simp] theorem doSentinelPeakUpdate_mem (n : Fin 32) (s : State) : (doSentinelPeakUpdate n s).mem = s.mem := by simp [doSentinelPeakUpdate]

@[simp] theorem resetAll_wf (cause : Nat) (s : State) : memWf (resetAll cause s).mem = true :=
  wf_of_mem ((repairUse_mem ..).trans ((wr_mem ..).trans (mk_mem ..))) rfl

@[simp] theorem resetHeld_wf (cause : Nat) (s : State) : memWf (resetHeld cause s).mem = true := by simp -implicitDefEqProofs [resetHeld]
@[simp] theorem swReset_wf (s : State) : memWf (swReset s).mem = true := by simp [swReset]

@[simp] theorem swResetWrite_wf (m : Nat) (w : W32) (s : State) (h : memWf s.mem = true) : memWf (swResetWrite m w s).mem = true := by
  simp [swResetWrite, h]

@[simp] theorem doPowerOnReset_wf (s : State) : memWf (doPowerOnReset s).mem = true := by simp [doPowerOnReset]
@[simp] theorem doResetPin_wf (level : Bool) (s : State) (h : memWf s.mem = true) : memWf (doResetPin level s).mem = true := by simp [doResetPin, h]

@[simp] theorem doWake_wf (s : State) (h : memWf s.mem = true) : memWf (doWake s).mem = true := by
  generalize ht : doWake s = t
  unfold doWake at ht
  split at ht
  · exact ht ▸ h
  · split at ht
    · exact ht ▸ h
    · split at ht
      extract_lets dorm ctlLow drmKept s0 s1 run s2 kept _ _ s3 s4 s5 lo hi _ s6 s7 res bank ok s8 at ht
      have h3 : memWf s3.mem = true := (congrArg memWf (mk_mem ..)).trans (filter_wf _ _ h)
      have h4 : memWf s4.mem = true := by
        refine foldl_wf _ (fun t b => ?_) _ _ h3
        exact bankUp_wf _ _ (wf_of_mem (setBankPower_mem ..) t.2)
      have h5 : memWf s5.mem = true := wf_of_mem (fset_mem ..) (fillStart_wf _ _ h4)
      have h6 : memWf s6.mem = true := wf_of_mem (mk_mem ..) h5
      have h7 : memWf s7.mem = true := complete_wf _ _ _ _ _ (wf_of_mem (newTicket_mem s6 _ _ _ _) h6)
      have h8 : memWf s8.mem = true := wf_of_mem (fset_mem ..) h7
      clear_value s7 s8 ok res
      split at ht
      · rw [← ht]
        exact wf_of_mem ((setHartReg_mem ..).trans (hartJump_mem ..)) h8
      · rw [← ht]
        exact h7

/-! ### Pins, resets and the test port (20): `Machine/Pins.lean` -/

@[simp] theorem doOptionalSupplyLoss_mem (v : Supply) (s : State) : (doOptionalSupplyLoss v s).mem = s.mem := by
  fun_cases doOptionalSupplyLoss v s
  · rfl
  · exact (linkSignalLost_mem ..).trans (netSignalLost_mem ..)
  · exact (linkSignalLost_mem ..).trans (netSignalLost_mem ..)
  · exact sidesClockLost_mem ..
  · exact sidesClockLost_mem ..
  · exact sidesClockLost_mem ..
  · rfl
  · rfl

@[simp] theorem doOptionalSupplyReturn_mem (v : Supply) (s : State) : (doOptionalSupplyReturn v s).mem = s.mem := by
  unfold doOptionalSupplyReturn
  split <;> simp

@[simp] theorem doPcieReset_mem (s : State) : (doPcieReset s).mem = s.mem := by simp [doPcieReset]
@[simp] theorem doPciePerstRise_mem (s : State) : (doPciePerstRise s).mem = s.mem := by simp [doPciePerstRise]
@[simp] theorem setIr_mem (ir : JtagIr) (s : State) : (setIr ir s).mem = s.mem := by simp [setIr]
@[simp] theorem doBypass_mem (tdi : Bool) (s : State) : (doBypass tdi s).mem = s.mem := by simp [doBypass]
@[simp] theorem doIdcode_mem (s : State) : (doIdcode s).mem = s.mem := by simp [doIdcode]
@[simp] theorem doSamplePreload_mem (cells preload : Nat) (s : State) : (doSamplePreload cells preload s).mem = s.mem := by simp [doSamplePreload]
@[simp] theorem doExtest_mem (s : State) : (doExtest s).mem = s.mem := by simp [doExtest]
@[simp] theorem doClamp_mem (s : State) : (doClamp s).mem = s.mem := by simp [doClamp]
@[simp] theorem doHighz_mem (s : State) : (doHighz s).mem = s.mem := by simp [doHighz]
@[simp] theorem doFuseKey_mem (bits : BitVec 256) (s : State) : (doFuseKey bits s).mem = s.mem := by simp [doFuseKey]
@[simp] theorem doFuseRead_mem (s : State) : (doFuseRead s).mem = s.mem := by simp [doFuseRead]

/-! ### The catalogue (17): `Machine/Catalogue.lean` -/

@[simp] theorem setCatState_mem (s : State) (v : Nat) : (setCatState s v).mem = s.mem := by simp [setCatState]
@[simp] theorem setRejected_mem (s : State) (k : Nat) : (setRejected s k).mem = s.mem := by simp -implicitDefEqProofs [setRejected]
@[simp] theorem useImage_wf (s : State) (i : Img) (h : memWf s.mem = true) : memWf (useImage s i).mem = true := by simp [useImage, memStoreBytes_wf, h]
@[simp] theorem haltNet_mem (s : State) : (haltNet s).mem = s.mem := by simp -implicitDefEqProofs [haltNet]
@[simp] theorem configHalt_mem (s0 : State) : (configHalt s0).mem = s0.mem := by simp -implicitDefEqProofs [configHalt]
@[simp] theorem selectSlot_wf (unread : Nat) (s : State) (h : memWf s.mem = true) : memWf (selectSlot unread s).mem = true := by simp [selectSlot, h]

@[simp] theorem doSelecting_wf (romOk : Bool) (unread : BitVec 2) (s : State) (h : memWf s.mem = true) :
    memWf (doSelecting romOk unread s).mem = true := by simp [doSelecting, h]

@[simp] theorem loadFailure_mem (s : State) (i : Img) (sec : Nat) : (loadFailure s i sec).mem = s.mem := by
  unfold loadFailure
  split <;> simp

@[simp] theorem phase1Load_wf (i : Img) (l : List Section) (s : State) (h : memWf s.mem = true) : memWf (phase1Load i l s).1.mem = true := by
  induction l generalizing s with
  | nil => exact h
  | cons x t ih =>
    unfold phase1Load
    split
    · split
      · exact ih _ (memStoreBytes_wf _ _ _ h)
      · exact h
    · exact ih _ h

@[simp] theorem phase1_wf (s : State) (h : memWf s.mem = true) : memWf (phase1 s).mem = true := by
  have hload (l : List Section) : memWf (phase1Load (imgInUse s) l s).1.mem = true := phase1Load_wf _ _ _ h
  fun_cases phase1 s
  · next e _ => exact wf_of_mem ((setCatState_mem ..).trans ((setHartReg_mem ..).trans (hartJump_mem ..))) (fst_wf_of_eq e (hload _))
  · next e => exact selectSlot_wf _ _ (wf_of_mem (loadFailure_mem ..) (fst_wf_of_eq e (hload _)))

@[simp] theorem doPhase1_wf (s : State) (h : memWf s.mem = true) : memWf (doPhase1 s).mem = true := by simp [doPhase1, h]
@[simp] theorem applySeals_mem (v : Nat) (s : State) : (applySeals v s).mem = s.mem := by simp [applySeals]
@[simp] theorem openNow_mem (s : State) : (openNow s).mem = s.mem := by simp -implicitDefEqProofs [openNow]

@[simp] theorem catCtrl_mem (w : W32) (s : State) : (catCtrl w s).mem = s.mem := by
  have h1 : (if wbit w CTL_CAT_CTRL_continue ∧ catState s = 2 then setCatState s 3 else s).mem = s.mem := ite_mem_of (setCatState_mem ..) rfl
  fun_cases catCtrl w s
  · exact h1
  · exact (fset_mem ..).trans h1
  · exact (fset_mem ..).trans h1
  · exact (fset_mem ..).trans h1
  · exact (fset_mem ..).trans h1
  · exact (mk_mem ..).trans ((fset_mem ..).trans h1)
  · exact (openNow_mem ..).trans ((fset_mem ..).trans h1)

@[simp] theorem doOutputsOpened_mem (s : State) : (doOutputsOpened s).mem = s.mem := by simp [doOutputsOpened]

@[simp] theorem loadFail_wf (t cause : Nat) (s : State) (h : memWf s.mem = true) : memWf (loadFail t cause s).mem = true := by
  simp -implicitDefEqProofs [loadFail, h]

@[simp] theorem loadUse_wf (a t : Nat) (s : State) (h : memWf s.mem = true) : memWf (loadUse a t s).mem = true := by
  exact complete_wf _ _ _ _ _ (phase1_wf _ (wf_of_mem (setCatState_mem ..) (useImage_wf _ _ (wf_of_mem (fset_mem ..) h))))

@[simp] theorem loadCmd_wf (t : Nat) (e : BitVec 512) (s : State) (h : memWf s.mem = true) : memWf (loadCmd t e s).mem = true := by
  unfold loadCmd
  extract_lets a n prog halt
  split
  · exact refuse_wf _ _ _ _ h
  · refine ite_wf (refuse_wf _ _ _ _ h) (ite_wf (refuse_wf _ _ _ _ h) (ite_wf (refuseAll_wf _ _ _ h)
      (ite_wf (loadFail_wf _ _ _ h) (ite_wf (loadFail_wf _ _ _ h) ?_))))
    split
    · exact loadFail_wf _ _ _ h
    · exact ite_wf (loadFail_wf _ _ _ h) (ite_wf h (loadUse_wf _ _ _ h))

@[simp] theorem doLoadCatalogueDone_wf (ok : Bool) (s : State) (h : memWf s.mem = true) : memWf (doLoadCatalogueDone ok s).mem = true := by
  unfold doLoadCatalogueDone
  split <;> simp [h]

/-! ### Commands (16): `Machine/Commands.lean` -/

theorem abortRest_wf (n : Nat) (s t : State) (h : memWf s.mem = true) (e : abortWork.abortRest n s = some t) : memWf t.mem = true := by
  unfold abortWork.abortRest at e
  split at e
  · cases e
    exact complete_wf _ _ _ _ _ (wf_of_mem (consStop_mem ..) h)
  · split at e
    · split at e
      · cases e
        exact rotDisable_wf _ h
      · cases e
    · split at e
      · cases e
        exact complete_wf _ _ _ _ _ h
      · cases e

theorem abortWork_wf (n : Nat) (s t : State) (h : memWf s.mem = true) (e : abortWork n s = some t) : memWf t.mem = true := by
  unfold abortWork at e
  split at e
  · cases e
  · split at e
    · cases e
      exact recallsAbort_wf _ _ h
    · split at e
      · split at e
        · cases e
          exact scrubStop_wf _ h
        · exact abortRest_wf n s t h e
      · exact abortRest_wf n s t h e

@[simp] theorem abortCmd_wf (t : Nat) (e : BitVec 512) (s : State) (h : memWf s.mem = true) : memWf (abortCmd t e s).mem = true := by
  fun_cases abortCmd t e s
  · exact refuse_wf _ _ _ _ h
  · next hw => exact complete_wf _ _ _ _ _ (abortWork_wf _ _ _ h hw)
  · exact refuse_wf _ _ _ _ h

@[simp] theorem dispatchCode_wf (t : Nat) (e : BitVec 512) (s : State) (h : memWf s.mem = true) : memWf (dispatchCode t e s).mem = true := by
  unfold dispatchCode
  refine ite_wf (loadCmd_wf _ _ _ h) (ite_wf (refuseAll_wf _ _ _ h) ?_)
  split <;> simp [h]

@[simp] theorem dispatch_wf (t : Nat) (e : BitVec 512) (s : State) (h : memWf s.mem = true) : memWf (dispatch t e s).mem = true := by simp [dispatch, h]
@[simp] theorem allot_mem (iss : Nat) (e : BitVec 512) (s : State) : (allot iss e s).2.mem = s.mem := by simp [allot]
@[simp] theorem accept_wf (iss : Nat) (e : BitVec 512) (s : State) (h : memWf s.mem = true) : memWf (accept iss e s).mem = true := by simp [accept, h]

@[simp] theorem acceptCommand_wf (iss : Nat) (e : BitVec 512) (s : State) (h : memWf s.mem = true) : memWf (acceptCommand iss e s).mem = true := by
  simp [acceptCommand, h]

@[simp] theorem acceptCode_wf (code iss : Nat) (e : BitVec 512) (s : State) (h : memWf s.mem = true) :
    memWf (acceptCode code iss e s).mem = true := by simp [acceptCode, h]

@[simp] theorem doUnknownCommand_wf (iss : Fin 256) (e : BitVec 512) (s : State) (h : memWf s.mem = true) :
    memWf (doUnknownCommand iss e s).mem = true := by simp [doUnknownCommand, h]

@[simp] theorem ringAccept_wf (fuel : Nat) (s : State) (h : memWf s.mem = true) : memWf (ringAccept fuel s).mem = true := by
  induction fuel generalizing s with
  | zero => exact h
  | succ fuel ih =>
    unfold ringAccept
    exact ite_wf h (ih _ (dispatch_wf _ _ _ (wf_of_mem (fset_mem ..) (memStore_wf _ _ _ _ (wf_of_mem (allot_mem ..) h)))))

@[simp] theorem ringTail_wf (m : Nat) (w : W32) (s : State) (h : memWf s.mem = true) : memWf (ringTail m w s).mem = true := by simp [ringTail, h]

@[simp] theorem fcmdTry_wf (iss c : Nat) (s : State) (h : memWf s.mem = true) : memWf (fcmdTry iss c s).mem = true := by
  simp -implicitDefEqProofs [fcmdTry, h]

@[simp] theorem fcmdCtrl_wf (iss c : Nat) (w : W32) (s : State) (h : memWf s.mem = true) : memWf (fcmdCtrl iss c w s).mem = true := by
  simp [fcmdCtrl, h]

@[simp] theorem cmtCtrl_mem (m iss : Nat) (w : W32) (s : State) : (cmtCtrl m iss w s).mem = s.mem := by simp [cmtCtrl]

@[simp] theorem doCommit_wf (iss : Fin 256) (src : CmtSrc) (s : State) (h : memWf s.mem = true) : memWf (doCommit iss src s).mem = true := by
  unfold doCommit
  split <;> simp [h]

@[simp] theorem mgmtAck_mem (p src udp seq t : Nat) (s : State) : (mgmtAck p src udp seq t s).mem = s.mem := by simp [mgmtAck]

@[simp] theorem mgmtCommand.mgmtRun_wf (p src udp seq : Nat) (e : BitVec 512) (s : State) (h : memWf s.mem = true) :
    memWf (mgmtCommand.mgmtRun p src udp seq e s).mem = true := by simp [mgmtCommand.mgmtRun, h]

@[simp] theorem mgmtCommand_wf (p src udp : Nat) (msg : List Byte) (s : State) (h : memWf s.mem = true) :
    memWf (mgmtCommand p src udp msg s).mem = true := by
  unfold mgmtCommand
  dsimp only
  split <;> simp [h]

@[simp] theorem mgmtIn_wf (p src udp : Nat) (msg : List Byte) (s : State) (h : memWf s.mem = true) :
    memWf (mgmtIn p src udp msg s).mem = true := by
  fun_cases mgmtIn p src udp msg s
  · simp [h]
  · exact mgmtCommand_wf _ _ _ _ _ h
  · simp [h]

@[simp] theorem doManagementMessage_wf (p : Fin 8) (src : BitVec 128) (udp : BitVec 16) (msg : List Byte) (s : State) (h : memWf s.mem = true) :
    memWf (doManagementMessage p src udp msg s).mem = true := by simp [doManagementMessage, h]

@[simp] theorem doNetFrameReceived_wf (p : Fin 8) (bytes : List Byte) (fcsOk : Bool) (t : Nat) (s : State) (h : memWf s.mem = true) :
    memWf (doNetFrameReceived p bytes fcsOk t s).mem = true := by simp [doNetFrameReceived, h]

@[simp] theorem doGpSceneTrigger_wf (g : Fin 32) (s : State) (h : memWf s.mem = true) : memWf (doGpSceneTrigger g s).mem = true := by
  simp [doGpSceneTrigger, h]

@[simp] theorem doScheduledRotation_wf (s : State) (h : memWf s.mem = true) : memWf (doScheduledRotation s).mem = true := by
  fun_cases doScheduledRotation s
  · exact h
  · exact h
  · exact acceptCommand_wf _ _ _ h

@[simp] theorem waitAccept_wf (fuel : Nat) (s : State) (h : memWf s.mem = true) : memWf (waitAccept fuel s).mem = true := by
  induction fuel generalizing s with
  | zero => exact h
  | succ fuel ih =>
    unfold waitAccept
    refine ite_wf h ?_
    split
    · exact h
    · refine ite_wf ?_ (ih _ (accept_wf _ _ _ h))
      split
      · exact ih _ (mgmtCommand_wf _ _ _ _ _ h)
      · exact ih _ (accept_wf _ _ _ h)

@[simp] theorem doTicketStallRelease_wf (s : State) (h : memWf s.mem = true) : memWf (doTicketStallRelease s).mem = true := by
  unfold doTicketStallRelease
  extract_lets s1 s2 s3
  have h1 : memWf s1.mem = true := by
    unfold s1
    split
    · exact wf_of_mem (portCommit_mem ..) h
    · exact h
  have h2 : memWf s2.mem = true := waitAccept_wf _ _ h1
  have h3 : memWf s3.mem = true := by
    refine foldl_wf _ (fun t c => ?_) _ _ h2
    exact ite_wf (fcmdTry_wf _ _ _ t.2) t.2
  exact ite_wf h (ringAccept_wf _ _ h3)

/-! ### Registers and the buses (15, 16): `Machine/Registers.lean` -/

@[simp] theorem rrAnswer_mem (mb : Nat) (a : RrAns) (s : State) : (rrAnswer mb a s).mem = s.mem := by simp [rrAnswer]

@[simp] theorem rrRun_mem (mb t arg : Nat) (s : State) : (rrRun mb t arg s).mem = s.mem := by
  unfold rrRun
  split <;> simp

@[simp] theorem rrReq_mem (m mb : Nat) (w : W32) (s : State) : (rrReq m mb w s).mem = s.mem := by simp [rrReq]
@[simp] theorem rearm_mem (w : W32) (s : State) : (rearm w s).mem = s.mem := by simp [rearm]
@[simp] theorem errRearm_mem (w : W32) (s : State) : (errRearm w s).mem = s.mem := by simp -implicitDefEqProofs [errRearm]

@[simp] theorem bgWrite_wf (m : Nat) (w : W32) (s : State) (h : memWf s.mem = true) : memWf (bgWrite m w s).mem = true := by
  unfold bgWrite
  extract_lets old s1 new off s2 s3 s4 s5
  have h1 : memWf s1.mem = true := wf_of_mem (swWrite_mem ..) h
  have h2 : memWf s2.mem = true := ite_wf (recallsAbort_wf _ _ h1) h1
  have h3 : memWf s3.mem = true := ite_wf (scrubStop_wf _ h2) h2
  have h4 : memWf s4.mem = true := ite_wf (rotDisable_wf _ h3) h3
  have h5 : memWf s5.mem = true := by
    refine foldl_wf _ (fun t g => ?_) _ _ h4
    exact ite_wf (copyStop_wf _ _ t.2) t.2
  refine ite_wf ?_ h5
  split
  · exact complete_wf _ _ _ _ _ (wf_of_mem (consStop_mem ..) h5)
  · exact h5

@[simp] theorem msixWrite_mem (m j : Nat) (w : W32) (s : State) : (msixWrite m j w s).mem = s.mem := by simp [msixWrite]

@[simp] theorem onInst_wf (k base stride n : Nat) (f : Nat → State → State) (other : State → State) (s : State)
    (hf : ∀ i (t : Canonical), memWf (f i t.1).mem = true) (ho : ∀ t : Canonical, memWf (other t.1).mem = true) (h : memWf s.mem = true) :
    memWf (onInst k base stride n f other s).mem = true := by
  unfold onInst
  cases inst k base stride n with
  | some i => exact hf i ⟨s, h⟩
  | none => exact ho ⟨s, h⟩

@[simp] theorem regWriteCtl_wf (m iss k : Nat) (v : W32) (plain : State → State) (s : State)
    (hp : ∀ t : Canonical, memWf (plain t.1).mem = true) (h : memWf s.mem = true) : memWf (regWriteCtl m iss k v plain s).mem = true := by
  have hs : memWf (plain s).mem = true := hp ⟨s, h⟩
  unfold regWriteCtl
  split
  · exact ite_wf (by simp [h]) (ite_wf (by simp [h]) (onInst_wf _ _ _ _ _ _ _ (fun _ t => by simp) hp h))
  · exact ite_wf (by simp [h]) (onInst_wf _ _ _ _ _ _ _ (fun i t => hp ⟨tokenFill t.1 i, by simp⟩) hp h)
  · exact onInst_wf _ _ _ _ _ _ _ (fun _ t => by simp) hp h
  · exact ite_wf (by simp [hs]) (by simp [hs])
  · exact onInst_wf _ _ _ _ _ _ _ (fun i t => ite_wf (by simp) (hp t)) hp h
  · refine ite_wf (by simp [h]) (ite_wf (by simp [h]) (ite_wf (by simp [h]) (ite_wf (by simp [h]) (ite_wf (by simp [h])
      (ite_wf (by simp [h]) (ite_wf (by simp [h]) (ite_wf (by simp [h]) (ite_wf (by simp [h]) ?_))))))))
    exact onInst_wf _ _ _ _ _ _ _ (fun _ t => by simp) (fun t => onInst_wf _ _ _ _ _ _ _ (fun _ t => by simp) (fun t =>
      onInst_wf _ _ _ _ _ _ _ (fun _ t => by simp) hp t.2) t.2) h

@[simp] theorem regWriteLink_wf (m k : Nat) (v : W32) (plain : State → State) (s : State)
    (hp : ∀ t : Canonical, memWf (plain t.1).mem = true) (h : memWf s.mem = true) : memWf (regWriteLink m k v plain s).mem = true := by
  have hs : memWf (plain s).mem = true := hp ⟨s, h⟩
  unfold regWriteLink
  split
  · exact ite_wf (by simp [h]) (ite_wf (by simp [h]) (ite_wf (ite_wf hs (by simp [hs]))
      (ite_wf (by simp [h]) (ite_wf (by simp [h]) (ite_wf (by simp [h]) hs)))))
  · exact ite_wf (by simp [h]) (ite_wf (by simp [hs]) hs)
  · refine ite_wf (by simp [h]) (ite_wf (by simp [h]) (onInst_wf _ _ _ _ _ _ _ (fun _ t => by simp) (fun t => ?_) h))
    refine onInst_wf _ _ _ _ _ _ _ (fun b t => by simp) (fun t => ?_) t.2
    split
    · simp
    · exact hp t
  · exact onInst_wf _ _ _ _ _ _ _ (fun _ t => by simp) (fun t => onInst_wf _ _ _ _ _ _ _ (fun _ t => by simp) (fun t =>
      onInst_wf _ _ _ _ _ _ _ (fun _ t => by simp) hp t.2) t.2) h
  · refine onInst_wf _ _ _ _ _ _ _ (fun _ t => by simp) (fun t => ?_) h
    refine onInst_wf _ _ _ _ _ _ _ (fun _ t => by simp) (fun t => ?_) t.2
    refine onInst_wf _ _ _ _ _ _ _ (fun _ t => by simp) (fun t => ?_) t.2
    refine onInst_wf _ _ _ _ _ _ _ (fun _ t => by simp) (fun t => ?_) t.2
    refine onInst_wf _ _ _ _ _ _ _ (fun _ t => by simp) (fun t => ?_) t.2
    exact onInst_wf _ _ _ _ _ _ _ (fun _ t => by simp) hp t.2

@[simp] theorem regWriteAudio_wf (m iss k : Nat) (v : W32) (plain : State → State) (s : State)
    (hp : ∀ t : Canonical, memWf (plain t.1).mem = true) (h : memWf s.mem = true) : memWf (regWriteAudio m iss k v plain s).mem = true := by
  have hs : memWf (plain s).mem = true := hp ⟨s, h⟩
  unfold regWriteAudio
  split
  · exact ite_wf (by simp [hs]) (ite_wf (by simp [h]) (onInst_wf _ _ _ _ _ _ _ (fun c t => by simp) hp h))
  · exact ite_wf (by simp [h]) (ite_wf (by simp [h]) (ite_wf (by simp [h]) hs))
  · exact ite_wf (by simp [h]) hs
  · exact ite_wf (by simp [h]) hs
  · exact ite_wf (by simp [h]) (ite_wf (by simp [h]) (ite_wf (by simp [h]) hs))
  · exact hs

@[simp] theorem regWrite_wf (m iss k : Nat) (v : W32) (s : State) (h : memWf s.mem = true) : memWf (regWrite m iss k v s).mem = true := by
  simp [regWrite, h]

@[simp] theorem softWrite_wf (m k : Nat) (v : W32) (s : State) (h : memWf s.mem = true) : memWf (softWrite m k v s).mem = true := by simp [softWrite, h]

@[simp] theorem regWord_wf (m iss o : Nat) (v : W32) (s : State) (h : memWf s.mem = true) : memWf (regWord m iss o v s).1.mem = true := by
  unfold regWord
  split
  · simp [h]
  · split <;> simp [h]
  · split <;> simp [h]

@[simp] theorem regAccWrite_wf (m iss o n v : Nat) (s : State) (h : memWf s.mem = true) : memWf (regAccWrite m iss o n v s).1.mem = true := by
  have hc (c n : Nat) : memWf (capture s c m (0x1000_0000 + o) true (regStrobes o n)).mem = true := wf_of_mem (capture_mem ..) h
  unfold regAccWrite
  refine ite_fst_wf (ite_fst_wf (hc _ _) (hc _ _)) (ite_fst_wf (hc _ _) (foldl_pair_wf _ (fun t ok i => ?_) _ (s, true) h))
  exact regWord_wf _ _ _ _ _ t.2

@[simp] theorem regAccRead_mem (m o n : Nat) (s : State) : (regAccRead m o n s).1.mem = s.mem := by
  unfold regAccRead
  refine ite_fst_mem_of (capture_mem ..) (ite_fst_mem_of ?_ (foldl_pair_mem _ (fun t i => ?_) _ (s, 0, true)))
  · split
    · rfl
    · exact capture_mem ..
  · obtain ⟨t, v, ok⟩ := t
    dsimp only
    split
    · rfl
    · exact capture_mem ..

@[simp] theorem rrTimeout_mem (m mb : Nat) (w : W32) (s : State) : (rrTimeout m mb w s).mem = s.mem := by simp [rrTimeout]

@[simp] theorem islandTimeout_wf (m o : Nat) (wr_ : Option W32) (s : State) (h : memWf s.mem = true) :
    memWf (islandTimeout m o wr_ s).mem = true := by
  have ho (c : Bool) : memWf (occur s 0x040 (Config.islandNo o).toNat [BitVec.ofNat 32 (b2n c), BitVec.ofNat 32 o]).mem = true :=
    wf_of_mem (occur_mem ..) h
  fun_cases islandTimeout m o wr_ s
  · exact wf_of_mem (accessError_mem ..) (ho _)
  · next w f s2 s3 s1 e =>
    have h2 : memWf s2.mem = true := wf_of_mem (snd_mem_of_eq e (freeDraw_mem ..)) (ho _)
    have h3 : memWf s3.mem = true := by
      refine ite_wf ?_ h2
      split
      · exact regWrite_wf _ _ _ _ _ h2
      · exact h2
    exact wf_of_mem (accessError_mem ..) h3

@[simp] theorem doIslandTimeout_wf (m : Fin 21) (off : BitVec 24) (wr_ : Option W32) (s : State) (h : memWf s.mem = true) :
    memWf (doIslandTimeout m off wr_ s).mem = true := by
  unfold doIslandTimeout
  split <;> simp [h]

@[simp] theorem atriumRead_wf (m a n : Nat) (found : List Finding) (s : State) (h : memWf s.mem = true) :
    memWf (atriumRead m a n found s).mem = true := by
  unfold atriumRead
  split <;> simp [h]

@[simp] theorem atriumWrite.aliasWords_wf (set : Bool) (m a : Nat) (l : List Byte) (found : List Finding) (s : State) (h : memWf s.mem = true) :
    memWf (atriumWrite.aliasWords set m a l found s).mem = true := by simp [atriumWrite.aliasWords, h]

@[simp] theorem atriumWrite_wf (m a : Nat) (l : List Byte) (found : List Finding) (s : State) (h : memWf s.mem = true) :
    memWf (atriumWrite m a l found s).mem = true := by
  unfold atriumWrite
  dsimp only
  split <;> simp [h]

@[simp] theorem doAtriumRead_wf (m : Fin 21) (addr size : Nat) (found : List Finding) (s : State) (h : memWf s.mem = true) :
    memWf (doAtriumRead m addr size found s).mem = true := by
  unfold doAtriumRead
  split <;> simp [h]

@[simp] theorem doAtriumWrite_wf (m : Fin 21) (addr : Nat) (bytes : List Byte) (found : List Finding) (s : State) (h : memWf s.mem = true) :
    memWf (doAtriumWrite m addr bytes found s).mem = true := by simp [doAtriumWrite, h]

@[simp] theorem doRegisterWrite_wf (m : Fin 21) (off : BitVec 24) (size : Fin 4) (data : BitVec 64) (s : State) (h : memWf s.mem = true) :
    memWf (doRegisterWrite m off size data s).mem = true := by simp [doRegisterWrite, h]

@[simp] theorem quiet_wf (f : State → State) (s : State) (hf : ∀ t : Canonical, memWf (f t.1).mem = true) (h : memWf s.mem = true) :
    memWf (quiet f s).1.mem = true := hf ⟨{ s with out := [] }, h⟩

@[simp] theorem dmaMem_wf (m a : Nat) (found : List Finding) (s : State) (h : memWf s.mem = true) :
    memWf (dmaLoad.dmaMem m a found s).1.mem = true := by
  unfold dmaLoad.dmaMem
  split
  next e =>
    refine fst_wf_of_eq e (quiet_wf _ _ (fun t => ?_) h)
    exact foldl_wf _ (fun t p => readPiece_wf _ _ _ _ t.2) _ _ t.2

@[simp] theorem dmaLoad_wf (m a : Nat) (found : List Finding) (s : State) (h : memWf s.mem = true) : memWf (dmaLoad m a found s).1.mem = true := by
  have hm (a : Nat) : memWf (dmaLoad.dmaMem m a found s).1.mem = true := dmaMem_wf _ _ _ _ h
  unfold dmaLoad
  split
  · exact hm _
  · exact hm _
  · split
    · dsimp only
      refine quiet_wf _ _ (fun t => ?_) h
      exact wf_of_mem (dramError_mem ..) t.2
    · exact hm _
  · exact hm _
  · exact hm _
  · split
    next e => exact fst_wf_of_eq e (quiet_wf _ _ (fun t => atriumRead_wf _ _ _ _ _ t.2) h)

@[simp] theorem dmaStore_wf (m a : Nat) (l : List Byte) (found : List Finding) (s : State) (h : memWf s.mem = true) :
    memWf (dmaStore m a l found s).1.mem = true := by
  have hgo : memWf ((writeWords a l).foldl (fun s (x, b) => wordPut s m (portOf s false x) x b found) s).mem = true :=
    foldl_wf _ (fun t e => wordPut_wf t.1 _ _ _ _ _ t.2) _ _ h
  fun_cases dmaStore m a l found s
  · exact hgo
  · exact hgo
  · dsimp only
    refine quiet_wf _ _ (fun t => ?_) h
    exact wf_of_mem (dramError_mem ..) t.2
  · dsimp only
    refine quiet_wf _ _ (fun t => ?_) h
    exact wf_of_mem (accessError_mem ..) t.2
  · exact hgo
  · next e _ _ _ => exact fst_wf_of_eq e (quiet_wf _ _ (fun t => atriumWrite_wf _ _ _ _ _ t.2) h)

@[simp] theorem copyRun_wf (j : CopyJob) (found : List Finding) (n o : Nat) (s : State) (h : memWf s.mem = true) :
    memWf (copyRun j found n o s).1.mem = true := by
  induction n generalizing o s with
  | zero => exact h
  | succ n ih =>
    unfold copyRun
    split
    · next e => exact fst_wf_of_eq e (dmaLoad_wf _ _ _ _ h)
    · next e =>
      have h1 := fst_wf_of_eq e (dmaLoad_wf _ _ _ _ h)
      split
      · next e2 => exact fst_wf_of_eq e2 (dmaStore_wf _ _ _ _ _ h1)
      · next e2 => exact ih _ _ (fst_wf_of_eq e2 (dmaStore_wf _ _ _ _ _ h1))

@[simp] theorem doCopyDone_wf (eng : Fin 4) (found : List Finding) (s : State) (h : memWf s.mem = true) :
    memWf (doCopyDone eng found s).mem = true := by
  have hrun (j : CopyJob) (n o : Nat) (t : State) (ht : memWf t.mem = true) : memWf (copyRun j found n o t).1.mem = true := copyRun_wf _ _ _ _ _ ht
  fun_cases doCopyDone eng found s
  · exact h
  · next e => exact complete_wf _ _ _ _ _ (fst_wf_of_eq e (copyRun_wf _ _ _ _ _ h))
  · next e => exact complete_wf _ _ _ _ _ (fst_wf_of_eq e (copyRun_wf _ _ _ _ _ h))

/-! ### The second phase of start-up (17): `Machine/Startup.lean` -/

@[simp] theorem catSkip_mem (s : State) : (catSkip s).mem = s.mem := by simp [catSkip]

@[simp] theorem listEntry_wf (type : Nat) (l : List Byte) (s : State) (h : memWf s.mem = true) : memWf (listEntry type l s).mem = true := by
  simp [listEntry, h]

@[simp] theorem regList_wf (s : State) (i : Img) (x : Section) (h : memWf s.mem = true) : memWf (regList s i x).mem = true := by simp [regList, h]
@[simp] theorem statusBlock_mem (s : State) (i : Img) (x : Section) : (statusBlock s i x).mem = s.mem := by simp [statusBlock]

@[simp] theorem atelierProgram_wf (s : State) (i : Img) (x : Section) (h : memWf s.mem = true) : memWf (atelierProgram s i x).mem = true := by
  simp [atelierProgram, h]

@[simp] theorem vaultImage_wf (s : State) (i : Img) (x : Section) (h : memWf s.mem = true) : memWf (vaultImage s i x).mem = true := by
  simp [vaultImage, memStoreBytes_wf, h]

theorem loadRecord_wf (type : Nat) (s t : State) (w0 w1 : BitVec 64) (h : memWf s.mem = true) (e : loadRecord type s w0 w1 = some t) :
    memWf t.mem = true := by
  have hc : memWf (cnt s SCN_REFUSED).mem = true := wf_of_mem (cnt_mem ..) h
  revert e
  fun_cases loadRecord type s w0 w1
  · rintro ⟨⟩; exact hc
  · rintro ⟨⟩
  · next mine s1 gen e0 s2 e1 =>
    rintro ⟨⟩
    refine fst_wf_of_eq e1 (stageRec_wf _ _ _ _ _ (wf_of_mem (fst_mem_of_eq e0 ?_) h))
    split
    · rfl
    · split
      · rfl
      · split
        · exact (mk_mem ..).trans (claim_mem ..)
        · rfl
  · rintro ⟨⟩; exact hc

theorem loadRecords_wf (type : Nat) (i : Img) (off n k : Nat) (s t : State) (h : memWf s.mem = true) (e : loadRecords type i off n k s = some t) :
    memWf t.mem = true := by
  induction n generalizing k s with
  | zero =>
    cases e
    exact h
  | succ n ih =>
    unfold loadRecords at e
    split at e
    · cases e
    · next e1 => exact ih _ _ (loadRecord_wf _ _ _ _ _ h e1) e

@[simp] theorem takeSection.lists_wf (i : Img) (x : Section) (s : State) (h : memWf s.mem = true) :
    memWf (takeSection.lists i x s).mem = true := by simp [takeSection.lists, h]

theorem takeSection_wf (i : Img) (x : Section) (s t : State) (h : memWf s.mem = true) (e : takeSection i x s = some t) : memWf t.mem = true := by
  have hl : memWf (takeSection.lists i x s).mem = true := takeSection.lists_wf _ _ _ h
  have hs : memWf (catSkip s).mem = true := wf_of_mem (catSkip_mem ..) h
  have hb : memWf (statusBlock s i x).mem = true := wf_of_mem (statusBlock_mem ..) h
  revert e
  fun_cases takeSection i x s
  · rintro ⟨⟩; exact hl
  · rintro ⟨⟩; exact hb
  · rintro ⟨⟩; exact hs
  · rintro ⟨⟩; exact hl
  · rintro ⟨⟩; exact hl
  · rintro ⟨⟩; exact hl
  · rintro ⟨⟩; exact hl
  · rintro ⟨⟩; exact hl
  · rintro ⟨⟩; exact atelierProgram_wf _ _ _ h
  · rintro ⟨⟩; exact vaultImage_wf _ _ _ h
  · exact loadRecords_wf _ _ _ _ _ _ _ h
  · exact loadRecords_wf _ _ _ _ _ _ _ h
  · rintro ⟨⟩; exact h
  · rintro ⟨⟩; exact hs

@[simp] theorem initialCommits_mem (s : State) : (initialCommits s).mem = s.mem := by simp [initialCommits]

theorem phase2Run_done_wf (i : Img) (l : List Section) (s t : State) (h : memWf s.mem = true) (e : phase2Run i l s = .done t) :
    memWf t.mem = true := by
  induction l generalizing s with
  | nil =>
    cases e
    exact h
  | cons x l ih =>
    unfold phase2Run at e
    split at e
    · cases e
    · split at e
      · cases e
      · next e1 => exact ih _ (takeSection_wf _ _ _ _ h e1) e

@[simp] theorem bootConserve_wf (i : Img) (s : State) (h : memWf s.mem = true) : memWf (bootConserve i s).mem = true := by
  have ha (e : BitVec 512) : memWf (allot 0x22 e s).2.mem = true := wf_of_mem (allot_mem ..) h
  have hd (t : Nat) (e : BitVec 512) (s : State) : memWf s.mem = true → memWf (dispatch t e s).mem = true := dispatch_wf _ _ _
  unfold bootConserve
  generalize dispatch = D, allot = A at hd ha ⊢
  -- From here on for any `D` and `A`: the kernel then has nothing to evaluate them with.
  as_aux_lemma =>
    refine ite_wf ?_ h
    split
    next t s1 e =>
      extract_lets s2
      have h2 : memWf s2.mem = true := hd _ _ _ (by simpa only [e] using ha (loaderConserve (imgNat s i 24 1)))
      split
      · exact ite_wf (wf_of_mem (mk_mem ..) h2) h2
      · exact h2

@[simp] theorem doPhase2Done_wf (s : State) (h : memWf s.mem = true) : memWf (doPhase2Done s).mem = true := by
  fun_cases doPhase2Done s
  · exact h
  · exact h
  · exact swReset_wf _
  · next e => exact bootConserve_wf _ _ (wf_of_mem ((setCatState_mem ..).trans (initialCommits_mem ..)) (phase2Run_done_wf _ _ _ _ h e))

/-! ### A tick (01, 02): `Machine/Tick.lean` -/

@[simp] theorem netWordsDrop_mem (x : Dom) (m : Nat) (s : State) : (netWordsDrop x m s).mem = s.mem := by simp [netWordsDrop]
@[simp] theorem buffersClear_mem (x : Dom) (from_ n : Nat) (s : State) : (buffersClear x from_ n s).mem = s.mem := by simp [buffersClear]
@[simp] theorem patchCommit_mem (x : Dom) (s : State) : (patchCommit x s).mem = s.mem := by simp [patchCommit]
@[simp] theorem patchAdvance_mem (x : Dom) (s : State) : (patchAdvance x s).mem = s.mem := by simp -implicitDefEqProofs [patchAdvance]
@[simp] theorem patchNet_mem (x : Dom) (n : Nat) (s : State) : (patchNet x n s).mem = s.mem := by simp [patchNet]
@[simp] theorem patchSides_mem (x : Dom) (s : State) : (patchSides x s).mem = s.mem := by simp [patchSides]
@[simp] theorem patchFree_mem (x : Dom) (s : State) : (patchFree x s).mem = s.mem := by simp [patchFree]
@[simp] theorem patchTick_mem (x : Dom) (n : Nat) (s : State) : (patchTick x n s).mem = s.mem := by simp [patchTick]
@[simp] theorem ringTake_mem (x : Dom) (s : State) : (ringTake x s).1.mem = s.mem := by simp [ringTake]
@[simp] theorem ringMove_mem (x : Dom) (n : Nat) (s : State) : (ringMove x n s).mem = s.mem := by simp [ringMove]

@[simp] theorem inputsRun_wf (x : Dom) (n : Nat) (s : State) (h : memWf s.mem = true) : memWf (inputsRun x n s).mem = true := by
  unfold inputsRun
  refine (congrArg memWf (mk_mem ..)).trans (foldl_pair_wf _ (fun t l i => ?_) _ (s, []) h)
  refine ite_fst_wf t.2 (ite_fst_wf (wf_of_mem (inputPass_mem ..) t.2) ?_)
  exact inputTick_wf _ _ _ _ t.2

@[simp] theorem sourceTick_mem (x : Dom) (n : Nat) (s : State) : (sourceTick x n s).mem = s.mem := by simp [sourceTick]
@[simp] theorem arcSlot_mem (x : Dom) (n i : Nat) (s : State) : (arcSlot x n i s).mem = s.mem := by simp [arcSlot]
@[simp] theorem arcTick_wf (x : Dom) (n : Nat) (s : State) (h : memWf s.mem = true) : memWf (arcTick x n s).mem = true := by simp [arcTick, h]
@[simp] theorem clockOutputs_mem (x : Dom) (s : State) : (clockOutputs x s).mem = s.mem := by simp -implicitDefEqProofs [clockOutputs]
@[simp] theorem lateShow_mem (s : State) : (lateShow s).mem = s.mem := by simp [lateShow]
@[simp] theorem bufferLate_mem (k n : Nat) (s : State) : (bufferLate k n s).mem = s.mem := by simp [bufferLate]
@[simp] theorem columnLate_mem (j : ColJob) (s : State) : (columnLate j s).mem = s.mem := by simp [columnLate]

@[simp] theorem tickControl_wf (x : Dom) (n : Nat) (last : Option Nat) (disc : Bool) (next : Nat) (s : State) (h : memWf s.mem = true) :
    memWf (tickControl x n last disc next s).mem = true := by
  unfold tickControl
  extract_lets s1 s2 s3 s4 s5 s6
  have h2 : s2.mem = s.mem := (sidesEnd_mem ..).trans ((twinTick_mem ..).trans (ite_mem_of (openNow_mem ..) rfl))
  have h3 : memWf s3.mem = true := foldl_wf _ (fun t j => wf_of_mem (columnLate_mem j t.1) t.2) _ _ (wf_of_mem h2 h)
  have h4 : s4.mem = s3.mem := (framesForget_mem ..).trans (framesTick_mem ..)
  have h5 : s5.mem = s4.mem := ite_mem_of (buffersClear_mem ..) rfl
  have h6 : memWf s6.mem = true := stepAtTick_wf _ _ _ (commitTick_wf _ _ _ _ (wf_of_mem ((sidesBegin_mem ..).trans (h5.trans h4)) h3))
  exact wf_of_mem ((psLatch_mem ..).trans ((psLatch_mem ..).trans (splitLatch_mem ..))) h6

@[simp] theorem tickSamples_wf (x : Dom) (n : Nat) (s : State) (h : memWf s.mem = true) : memWf (tickSamples x n s).mem = true := by
  unfold tickSamples
  extract_lets s0 s1 s2 s3 s4
  have h0 : s0.mem = s.mem := foldl_mem _ (fun t j => xmapApply_mem j t) _ _
  have h1 : memWf s1.mem = true :=
    foldl_wf _ (fun t j => coreTick_wf _ _ _ _ t.2) _ _ (wf_of_mem ((txmapApply_mem ..).trans ((txmapApply_mem ..).trans h0)) h)
  have h2 : s2.mem = s1.mem := patchTick_mem ..
  have h3 : s3.mem = s1.mem := (foldl_mem _ (fun t d => provTake_mem _ _ _ _ t) _ _).trans h2
  have h4 : memWf s4.mem = true := by
    refine foldl_wf _ (fun t d => ?_) _ _ (wf_of_mem h3 h1)
    exact ite_wf (outputTick_wf _ _ _ _ t.2) (wf_of_mem (outputPass_mem ..) t.2)
  have h5 : memWf (ringTake x s4).1.mem = true := wf_of_mem (ringTake_mem ..) h4
  split
  next s5 vals e =>
    extract_lets s6 s7 s8 s9
    have h6 : memWf s6.mem = true := wf_of_mem ((ringMove_mem ..).trans (galTick_mem ..)) (fst_wf_of_eq e h5)
    have h7 : memWf s7.mem = true := inputsRun_wf _ _ _ (wf_of_mem (bridgesIn_mem ..) h6)
    have h8 : memWf s8.mem = true := wf_of_mem ((bridgesOut_mem ..).trans ((playbackTick_mem ..).trans (netRxTick_mem ..))) h7
    have h9 : memWf s9.mem = true := arcTick_wf _ _ _ (wf_of_mem (sourceTick_mem ..) h8)
    exact wf_of_mem ((lateShow_mem ..).trans ((loudnessTick_mem ..).trans (metersTick_mem ..))) h9

@[simp] theorem tickEvent_wf (x : Dom) (n : Nat) (disc : Bool) (s : State) (h : memWf s.mem = true) : memWf (tickEvent x n disc s).mem = true := by
  simp [tickEvent, h]

@[simp] theorem doTickEvent_wf (x : Dom) (skip : Nat) (s : State) (h : memWf s.mem = true) : memWf (doTickEvent x skip s).mem = true := by
  simp [doTickEvent, h]

@[simp] theorem coreLate_wf (c : Nat) (s : State) (h : memWf s.mem = true) : memWf (coreLate c s).mem = true := by simp [coreLate, h]
@[simp] theorem linkLate_mem (x : Dom) (l : Nat) (s : State) : (linkLate x l s).mem = s.mem := by simp [linkLate]

@[simp] theorem doTickBufferLate_wf (kind : LateKind) (x : Dom) (entry : Fin 4096) (stage : Fin 3) (s : State) (h : memWf s.mem = true) :
    memWf (doTickBufferLate kind x entry stage s).mem = true := by
  unfold doTickBufferLate
  dsimp only
  split <;> split <;> simp [h]

/-! ### What is due (logs 11, 14): `Machine/Run.lean` -/

@[simp] theorem dueDo_mem (d : Due) (s : State) : (dueDo d s).mem = s.mem := by
  unfold dueDo
  split <;> simp

@[simp] theorem flushDue_mem (s : State) : (flushDue s).mem = s.mem := by simp [flushDue]
@[simp] theorem oneDue_mem (d : Due) (s : State) : (oneDue d s).mem = s.mem := by simp [oneDue]

@[simp] theorem unlessPaused_wf (u : Nat) (f : State → State) (s : State) (hf : ∀ t : Canonical, memWf (f t.1).mem = true)
    (h : memWf s.mem = true) : memWf (unlessPaused u f s).mem = true := ite_wf h (hf ⟨s, h⟩)

/-! ### The Reading Room (15): `Machine/Rooms.lean` -/

@[simp] theorem rrRow_wf (mb : Fin 16) (t : Nat) (arg : BitVec 24) (s : State) (h : memWf s.mem = true) : memWf (rrRow mb t arg s).mem = true := by
  simp [rrRow, h]

@[simp] theorem rrBad_mem (arg : BitVec 24) (idx : BitVec 32) (s : State) : (rrBad arg idx s).mem = s.mem := by simp [rrBad]

@[simp] theorem rrUnknown_wf (mb : Fin 16) (target : BitVec 7) (arg : BitVec 24) (s : State) (h : memWf s.mem = true) :
    memWf (rrUnknown mb target arg s).mem = true := by simp [rrUnknown, h]

/-! ### From the effects of commands to the step -/

/-- Every state that an outcome goes on with has its memory in canonical form. -/
def GoesOnCanonical (o : Host.Outcome State Fault Refusal) : Prop := ∀ t, o = .next t → memWf t.mem = true

theorem goesOnCanonical_next {t : State} (h : memWf t.mem = true) : GoesOnCanonical (.next t) := by
  rintro _ ⟨⟩
  exact h

/-- The form that all but a few commands take: an effect between the transitions that are due and what follows every effect. -/
theorem goesOnCanonical_run {f : State → State} {s : State} (hf : ∀ t : Canonical, memWf (f t.1).mem = true) (h : memWf s.mem = true) :
    GoesOnCanonical (run f s) := by
  refine goesOnCanonical_next (wf_of_mem (keep_mem ..) (ite_wf (wf_of_mem (settle_mem ..) ?_) h))
  exact hf ⟨flushDue (quietOut s), wf_of_mem (flushDue_mem ..) h⟩

theorem goesOnCanonical_runDue (d : Due) {s : State} (h : memWf s.mem = true) : GoesOnCanonical (runDue d s) :=
  goesOnCanonical_next (wf_of_mem (keep_mem ..) (ite_wf (wf_of_mem ((settle_mem ..).trans (oneDue_mem ..)) h) h))

theorem goesOnCanonical_runOtp {f : State → State} {s : State} (hf : ∀ t : Canonical, memWf (f t.1).mem = true) (h : memWf s.mem = true) :
    GoesOnCanonical (runOtp f s) := by
  refine goesOnCanonical_next (ite_wf (c := awake s = true) (wf_of_mem (settle_mem ..) ?_) h)
  exact hf ⟨flushDue (quietOut s), wf_of_mem (flushDue_mem ..) h⟩

theorem goesOnCanonical_runFlash {f : State → State} {s : State} (hf : ∀ t : Canonical, memWf (f t.1).mem = true) (h : memWf s.mem = true) :
    GoesOnCanonical (runFlash f s) := by
  refine goesOnCanonical_next (ite_wf (c := awake s = true) (wf_of_mem (settle_mem ..) ?_) h)
  exact hf ⟨flushDue (quietOut s), wf_of_mem (flushDue_mem ..) h⟩

theorem goesOnCanonical_runAlways {f : State → State} {s : State} (hf : ∀ t : Canonical, memWf (f t.1).mem = true) (h : memWf s.mem = true) :
    GoesOnCanonical (runAlways f s) :=
  goesOnCanonical_next (wf_of_mem (keep_mem ..) (ite_wf (wf_of_mem (settle_mem ..) (hf ⟨quietOut s, h⟩)) h))

theorem goesOnCanonical_runPins {f : State → State} {s : State} (hf : ∀ t : Canonical, memWf (f t.1).mem = true) (h : memWf s.mem = true) :
    GoesOnCanonical (runPins f s) :=
  goesOnCanonical_next (wf_of_mem ((keep_mem ..).trans (settle_mem ..)) (hf ⟨quietOut s, h⟩))

theorem goesOnCanonical_runJtag {f : State → State} {s : State} (hf : ∀ t : Canonical, memWf (f t.1).mem = true) (h : memWf s.mem = true) :
    GoesOnCanonical (runJtag f s) :=
  goesOnCanonical_next (wf_of_mem (keep_mem ..) (ite_wf h (hf ⟨quietOut s, h⟩)))

theorem goesOnCanonical_runJtagPerm {f : State → State} {s : State} (hf : ∀ t : Canonical, memWf (f t.1).mem = true) (h : memWf s.mem = true) :
    GoesOnCanonical (runJtagPerm f s) :=
  goesOnCanonical_next (ite_wf (c := isAbsent s .vddio5 = true) h (hf ⟨quietOut s, h⟩))

/-- The commands by the form they take; what is left of each is that its effect keeps the memory canonical, which the lemmas above say. -/
theorem exec_canonical (i : Instr) (s : State) (h : memWf s.mem = true) : GoesOnCanonical (exec i s) := by
  cases i <;> dsimp only [exec]
  case patchXfadeEnd | coefficientInterpEnd | enableXfadeEnd | gainRampEnd | switchFadeEnd | insertLatencyChange | insertDipEnd | gateHoldExpire |
      delayXfadeEnd | bridgeStopped | sideLocked | sideFadeEnd | txPacketSend | docentTickSource | docentIrqSource =>
    exact goesOnCanonical_runDue _ h
  case wakePatternDetect | look | linkSignalDetect | wakePin | wake =>
    exact goesOnCanonical_runAlways (fun t => by simp) h
  case pcieReset | powerOnReset | resetPin | optionalSupplyLoss | pciePerstRise | optionalSupplyReturn =>
    exact goesOnCanonical_runPins (fun t => by simp) h
  case bypass | idcode | samplePreload | extest | clamp | highz | fuseRead =>
    exact goesOnCanonical_runJtag (fun t => by simp) h
  case fuseKey =>
    exact goesOnCanonical_runJtagPerm (fun t => by simp) h
  case loadCatalogueDone =>
    exact goesOnCanonical_runFlash (fun t => by simp) h
  case repairDone =>
    exact goesOnCanonical_runOtp (fun t => by simp) h
  case ledgerEntry bad =>
    refine goesOnCanonical_run (fun t => ?_) h
    cases bad <;> simp
  all_goals exact goesOnCanonical_run (fun t => by simp) h

/-- Settles O58: no command's effect takes the memory out of canonical form, and the step is the front command's. -/
theorem memoryStaysCanonical : Obligations.MemoryStaysCanonical := by
  intro s t h e
  unfold step at e
  split at e
  · cases e
    exact h
  · exact exec_canonical _ _ (wf_of_mem (mk_mem ..) h) t e

end Sys2Proof.Machine
end

section
/-! PROOF. What a tick does to time and the pins: nothing, but for time itself and the generator that ticks (01 R13, R14). Each
function that a tick event calls keeps the clock (`<function>_clock`); they stand in the model's own order. -/

namespace Sys2Proof.Machine

/-! ### The clock of a state -/

/-- Time, the generators and the servos (11), and the state of the pins (20). -/
def State.clock (s : State) : TimSt × PinSt := (s.tim, s.pin)
@[simp] theorem clock_eta (s : State) : (s.tim, s.pin) = s.clock := rfl

@[simp] theorem ite_clock_eta (c : Prop) [Decidable c] (a b : TimSt) (a' b' : PinSt) :
    (if c then a else b, if c then a' else b') = if c then (a, a') else (b, b') := by split <;> rfl

/-- The clock of a state that is written out field by field. -/
@[simp] theorem mk_clock (pending : List Instr) (regs : SMap W32) (mem : List Host.Cell) (gal : GalSt) (scn : ScnSt) (str : StrSt) (cores : SMap Core)
    (atlFill : List Nat) (xmap : SMap W32) (atlOut : SMap S64) (prt : PrtSt) (net : NetSt) (dax : DaxSt) (line : LineSt) (tim : TimSt)
    (twn : TwnSt) (ecc : MemSt) (drc : DrcSt) (ctl : CtlSt) (cat : CatSt) (pwr : PwrSt) (ldg : LdgSt) (pin : PinSt) (perm : Perm)
    (due : List Due) (out : List Emit) (free : Nat) :
    (State.mk pending regs mem gal scn str cores atlFill xmap atlOut prt net dax line tim twn ecc drc ctl cat pwr ldg pin perm due out free).clock =
      (tim, pin) := Prod.ext rfl rfl

@[simp] theorem ite_clock (c : Prop) [Decidable c] (a b : State) : (if c then a else b).clock = if c then a.clock else b.clock :=
  apply_ite State.clock c a b

/-- A choice keeps the clock that both its sides keep. -/
theorem ite_clock_of {c : Prop} [Decidable c] {a b : State} {m : TimSt × PinSt} (ha : a.clock = m) (hb : b.clock = m) :
    (if c then a else b).clock = m := by
  rw [ite_clock, ha, hb, ite_self]

@[simp] theorem foldl_clock {α : Type} (g : State → α → State) (h : ∀ s a, (g s a).clock = s.clock) (l : List α) (s : State) :
    (l.foldl g s).clock = s.clock := foldl_frame State.clock g h l s

@[simp] theorem foldl_pair_clock {α γ : Type} (g : State × γ → α → State × γ) (h : ∀ s a, (g s a).1.clock = s.1.clock) (l : List α)
    (s : State × γ) : (l.foldl g s).1.clock = s.1.clock := foldl_frame1 State.clock g h l s

@[simp] theorem wr_clock (s : State) (k : Nat) (v : W32) : (wr s k v).clock = s.clock := Prod.ext rfl rfl
@[simp] theorem fset_clock (s : State) (k : Nat) (f : Fld) (v : Nat) : (fset s k f v).clock = s.clock := Prod.ext rfl rfl
@[simp] theorem emit_clock (s : State) (e : Emit) : (emit s e).clock = s.clock := Prod.ext rfl rfl
@[simp] theorem addDue_clock (s : State) (e : Due) : (addDue s e).clock = s.clock := Prod.ext rfl rfl
@[simp] theorem cntN_clock (s : State) (k n : Nat) : (cntN s k n).clock = s.clock := by unfold cntN; split <;> rfl
@[simp] theorem cnt_clock (s : State) (k : Nat) : (cnt s k).clock = s.clock := cntN_clock s k 1
@[simp] theorem memStoreBytes_clock (s : State) (a : Nat) (l : List Byte) : (memStoreBytes s a l).clock = s.clock := Prod.ext rfl rfl

/-! ### The shared operations: `Machine/Ops.lean` -/

@[simp] theorem setKey_clock (s : State) (slot d : Nat) (v : Bool) : (setKey s slot d v).clock = s.clock := by simp [setKey]
@[simp] theorem freeDraw_clock (s : State) : (freeDraw s).2.clock = s.clock := by simp [freeDraw]
@[simp] theorem memStore_clock (s : State) (a n v : Nat) : (memStore s a n v).clock = s.clock := by simp [memStore]

@[simp] theorem capture_clock (s : State) (cause master addr : Nat) (write : Bool) (strobes : Nat) :
    (capture s cause master addr write strobes).clock = s.clock := by simp [capture]

@[simp] theorem ldgSuppress_clock (s : State) (c : Nat) : (ldgSuppress s c).clock = s.clock := by simp [ldgSuppress]

@[simp] theorem occur_clock (s : State) (code src : Nat) (det : List W32) : (occur s code src det).clock = s.clock := by
  unfold occur
  exact ite_clock_of (ldgSuppress_clock ..) ((mk_clock ..).trans (fset_clock ..))

@[simp] theorem daxQueue_clock (s : State) (l : Nat) (m : DaxMsg) : (daxQueue s l m).clock = s.clock := by simp [daxQueue]
@[simp] theorem daxOwn_clock (s : State) (l : Nat) (m : DaxMsg) : (daxOwn s l m).clock = s.clock := by simp [daxOwn]
@[simp] theorem twinSend_clock (s : State) : (twinSend s).clock = s.clock := by simp [twinSend]
@[simp] theorem twinOn_clock (s t : State) : (twinOn s t).clock = t.clock := by simp [twinOn]
@[simp] theorem accuse.accused_clock (s : State) (cause : Nat) : (accuse.accused s cause).clock = s.clock := by simp [accuse.accused]
@[simp] theorem accuse_clock (s : State) (cause : Nat) : (accuse s cause).clock = s.clock := by simp [accuse]
@[simp] theorem outstUpdate_clock (s : State) (l : List Tkt) : (outstUpdate s l).clock = s.clock := by simp [outstUpdate]
@[simp] theorem docPush_clock (s : State) (t : Nat) : (docPush s t).clock = s.clock := by simp [docPush]

@[simp] theorem ticketDone_clock (s : State) (ticket : Nat) (signal : Option Nat) : (ticketDone s ticket signal).clock = s.clock := by
  unfold ticketDone
  split <;> simp

@[simp] theorem recordWrite_clock (s : State) (r : Held) : (recordWrite s r).clock = s.clock := by simp [recordWrite]
@[simp] theorem recordQueue_clock (s : State) (r : Held) : (recordQueue s r).clock = s.clock := by simp [recordQueue]

@[simp] theorem complete_clock (s : State) (ticket oc dom result : Nat) : (complete s ticket oc dom result).clock = s.clock := by
  unfold complete
  split <;> simp

/-! ### The time reference (11): `Machine/TimeRef.lean` -/

@[simp] theorem stepAtTick_clock (x : Dom) (n : Nat) (s : State) (h : s.tim.stepWait = none) :
    (stepAtTick x n s).clock = s.clock := by simp [stepAtTick, h]

/-! ### The twins and conservation (12): `Machine/Twins.lean` -/

@[simp] theorem releaseNow_clock (s : State) : (releaseNow s).clock = s.clock := by simp [releaseNow]
@[simp] theorem returnDue_clock (s : State) : (returnDue s).clock = s.clock := by simp [returnDue]
@[simp] theorem withdrawNow_clock (s : State) : (withdrawNow s).clock = s.clock := by simp [withdrawNow]

@[simp] theorem airNow_clock (s : State) : (airNow s).clock = s.clock := by
  unfold airNow
  split <;> simp

@[simp] theorem twinTick_clock (x : Dom) (s : State) : (twinTick x s).clock = s.clock := by simp [twinTick]

@[simp] theorem provTake_clock (x : Dom) (d n : Nat) (v : S64) (s : State) : (provTake x d n v s).clock = s.clock := by
  unfold provTake
  split
  · rfl
  · extract_lets put
    split
    · split
      · rfl
      · split <;> rfl
    · split <;> rfl

@[simp] theorem setRot_clock (s : State) (r : Option Rotation) : (setRot s r).clock = s.clock := by simp [setRot]

/-! ### The control cores (16): `Machine/Harts.lean` -/

@[simp] theorem setHart_clock (s : State) (c : Nat) (h2 : Hart) : (setHart s c h2).clock = s.clock := by simp [setHart]
@[simp] theorem hartTrap_clock (c cause : Nat) (s : State) : (hartTrap c cause s).clock = s.clock := by simp [hartTrap]

/-! ### The memory with its code, queues and fills (13): `Machine/EccMemory.lean` -/

@[simp] theorem noteUe_clock (s : State) (region : Nat) (array : BitVec 16) (addr : Nat) : (noteUe s region array addr).clock = s.clock := by
  simp [noteUe]

@[simp] theorem respondAs_clock (cause : Nat) (s : State) (m : Nat) (wr_ ok : Bool) (v : Nat) : (respondAs cause s m wr_ ok v).clock = s.clock := by
  simp [respondAs]

@[simp] theorem respond_clock (s : State) (m : Nat) (wr_ ok : Bool) (v : Nat) : (respond s m wr_ ok v).clock = s.clock := by simp [respond]

@[simp] theorem accessError_clock (s : State) (cause m a : Nat) (wr_ : Bool) (strb : Nat) : (accessError s cause m a wr_ strb).clock = s.clock := by
  simp [accessError]

@[simp] theorem dmaError_clock (s : State) (m a n cause : Nat) (wr_ : Bool) : (dmaError s m a n cause wr_).clock = s.clock := by simp [dmaError]
@[simp] theorem arrError_clock (r w : Nat) (s : State) : (arrError r w s).clock = s.clock := by simp [arrError]

/-! ### The Gallery (03): `Machine/Gallery.lean` -/

@[simp] theorem galCommit_clock (x : Dom) (g c : Nat) (s : State) : (galCommit x g c s).clock = s.clock := by simp [galCommit]
@[simp] theorem splitLatch_clock (x : Dom) (s : State) : (splitLatch x s).clock = s.clock := by simp [splitLatch]
@[simp] theorem setDaxLink_clock (s : State) (l : Nat) (v : DaxLink) : (setDaxLink s l v).clock = s.clock := by simp [setDaxLink]
@[simp] theorem psLatch_clock (x : Dom) (l : Nat) (s : State) : (psLatch x l s).clock = s.clock := by simp [psLatch]

@[simp] theorem psOut_clock (d : Nat) (v : Int) (s : State) : (psOut d v s).clock = s.clock := by
  unfold psOut
  refine foldl_clock _ (fun s l => ?_) _ _
  dsimp only
  split <;> simp

@[simp] theorem setDval_clock (d : Nat) (v : S64) (s : State) : (setDval d v s).clock = s.clock := by simp [setDval]
@[simp] theorem jobDrop_clock (j : ColJob) (s : State) : (jobDrop j s).clock = s.clock := by simp [jobDrop]

@[simp] theorem jobAbandon_clock (j : ColJob) (s : State) : (jobAbandon j s).clock = s.clock := by
  unfold jobAbandon
  split <;> simp

@[simp] theorem galTick_clock (x : Dom) (n : Nat) (vals : List (Nat × S64 × Bool)) (s : State) : (galTick x n vals s).clock = s.clock := by
  simp [galTick]

@[simp] theorem galUnbind_clock (d n : Nat) (x : Option Dom) (s : State) : (galUnbind d n x s).clock = s.clock := by simp [galUnbind]

/-! ### Strips and the audio path (02, 05): `Machine/Strips.lean` -/

@[simp] theorem setParam_clock (strip idx : Nat) (v : BitVec 64) (s : State) : (setParam strip idx v s).clock = s.clock := by simp [setParam]
@[simp] theorem setRun_clock (strip : Nat) (r : StripRun) (s : State) : (setRun strip r s).clock = s.clock := by simp [setRun]
@[simp] theorem landSwitch_clock (strip lo len key v : Nat) (s : State) : (landSwitch strip lo len key v s).clock = s.clock := by simp [landSwitch]
@[simp] theorem landDelay_clock (strip : Nat) (v : BitVec 64) (s : State) : (landDelay strip v s).clock = s.clock := by simp [landDelay]

@[simp] theorem landEnable_clock (strip base : Nat) (v : BitVec 64) (s : State) : (landEnable strip base v s).clock = s.clock := by
  simp [landEnable]

@[simp] theorem landCoefs_clock (strip base : Nat) (l : List (Nat × BitVec 64)) (s : State) : (landCoefs strip base l s).clock = s.clock := by
  simp [landCoefs]

@[simp] theorem landGain_clock (strip idx : Nat) (v : BitVec 64) (s : State) : (landGain strip idx v s).clock = s.clock := by simp [landGain]
@[simp] theorem landControl_clock (strip : Nat) (v : BitVec 64) (s : State) : (landControl strip v s).clock = s.clock := by simp [landControl]

@[simp] theorem stripLand_clock (strip : Nat) (l : List (Nat × BitVec 64)) (s : State) : (stripLand strip l s).clock = s.clock := by
  unfold stripLand
  extract_lets s1 bases
  have h1 : s1.clock = s.clock := by
    refine foldl_clock _ (fun s e => ?_) _ _
    dsimp only
    split
    · simp
    · split
      · simp
      · split
        · simp
        · split
          · split <;> simp
          · simp
  simp [h1]

@[simp] theorem stripLandNow_clock (strip idx : Nat) (v : BitVec 64) (s : State) : (stripLandNow strip idx v s).clock = s.clock := by
  simp [stripLandNow]

@[simp] theorem landHeld_clock (strip key : Nat) (plain : Bool) (s : State) : (landHeld strip key plain s).clock = s.clock := by
  unfold landHeld
  dsimp only
  split <;> simp

@[simp] theorem stripBind_clock (strip c : Nat) (s : State) : (stripBind strip c s).clock = s.clock := by simp [stripBind]
@[simp] theorem stripUnbind_clock (strip : Nat) (s : State) : (stripUnbind strip s).clock = s.clock := by simp [stripUnbind]

@[simp] theorem dlyStore_clock (s : State) (strip n : Nat) (v : S64) : (dlyStore s strip n v).clock = s.clock := by
  unfold dlyStore
  dsimp only
  split
  · rfl
  · split <;> simp

@[simp] theorem setPipe_clock (stage slot : Nat) (v : S64) (s : State) : (setPipe stage slot v s).clock = s.clock := by simp [setPipe]
@[simp] theorem dlyErrors_clock (l : List DmaErr) (s : State) : (dlyErrors l s).clock = s.clock := by simp [dlyErrors]
@[simp] theorem stripCount_clock (strip sats ues : Nat) (s : State) : (stripCount strip sats ues s).clock = s.clock := by simp [stripCount]
@[simp] theorem stateErrs_clock (strip : Nat) (s : State) : (stateErrs strip s).clock = s.clock := by simp [stateErrs]
@[simp] theorem inputTick_clock (x : Dom) (n i : Nat) (s0 : State) : (inputTick x n i s0).1.clock = s0.clock := by simp [inputTick]
@[simp] theorem outputTick_clock (x : Dom) (n d : Nat) (s0 : State) : (outputTick x n d s0).clock = s0.clock := by simp [outputTick]
@[simp] theorem inputPass_clock (i : Nat) (s : State) : (inputPass i s).clock = s.clock := by simp [inputPass]
@[simp] theorem outputPass_clock (d : Nat) (s : State) : (outputPass d s).clock = s.clock := by simp [outputPass]
@[simp] theorem unitsShow_clock (s : State) : (unitsShow s).clock = s.clock := by simp [unitsShow]

/-! ### Frames of the Atelier cores (06): `Machine/Frames.lean` -/

@[simp] theorem setCore_clock (c : Nat) (k : Core) (s : State) : (setCore c k s).clock = s.clock := by simp [setCore]

@[simp] theorem coreFault_clock (c code : Nat) (det : List W32) (cause : Nat) (s : State) : (coreFault c code det cause s).clock = s.clock := by
  simp [coreFault]

@[simp] theorem coreUe_clock (c space word : Nat) (s : State) : (coreUe c space word s).clock = s.clock := by simp [coreUe]
@[simp] theorem lmRefuse_clock (c : Nat) (s : State) : (lmRefuse c s).clock = s.clock := by simp [lmRefuse]

@[simp] theorem lmRequest_clock (c cyc len off : Nat) (wr_ : Option S64) (s : State) : (lmRequest c cyc len off wr_ s).clock = s.clock := by
  fun_cases lmRequest c cyc len off wr_ s
  · exact (lmRefuse_clock ..).trans (setCore_clock ..)
  · exact (setCore_clock ..).trans ((lmRefuse_clock ..).trans (setCore_clock ..))
  · exact setCore_clock ..
  · exact (cnt_clock ..).trans ((dmaError_clock ..).trans (setCore_clock ..))
  · exact (memStore_clock ..).trans (setCore_clock ..)
  · exact (setCore_clock ..).trans ((cnt_clock ..).trans ((dmaError_clock ..).trans (setCore_clock ..)))
  · exact (setCore_clock ..).trans (setCore_clock ..)

@[simp] theorem frameShow_clock (c last : Nat) (s : State) : (frameShow c last s).clock = s.clock := by simp [frameShow]

@[simp] theorem rotGap_clock (c : Nat) (s : State) : (rotGap c s).clock = s.clock := by
  unfold rotGap
  split <;> simp

@[simp] theorem coreEvent_clock (c cyc pc : Nat) (s : State) (e : CoreEv) : (coreEvent c cyc pc s e).clock = s.clock := by
  unfold coreEvent
  split <;> simp

@[simp] theorem fieldShow_clock (k : Nat) (f : Fld) (v : Nat) (s : State) : (fieldShow k f v s).clock = s.clock := by simp [fieldShow]

@[simp] theorem coreStep_clock (c cyc pc : Nat) (k : Core) (evs : List CoreEv) (s : State) :
    (coreStep c cyc pc k evs s).clock = s.clock := by simp [coreStep]

@[simp] theorem pqDrain_clock (c : Nat) (s : State) : (pqDrain c s).clock = s.clock := by simp [pqDrain]
@[simp] theorem coreStart_clock (c : Nat) (s : State) : (coreStart c s).clock = s.clock := by simp [coreStart]
@[simp] theorem coreBind_clock (j : Nat) (x : Dom) (s : State) : (coreBind j x s).clock = s.clock := by simp [coreBind]
@[simp] theorem coreStop_clock (c : Nat) (s : State) : (coreStop c s).clock = s.clock := by simp [coreStop]
@[simp] theorem coreUnbind_clock (j : Nat) (s : State) : (coreUnbind j s).clock = s.clock := by simp [coreUnbind]

@[simp] theorem corePost_clock (c mem w : Nat) (v : BitVec 64) (s : State) : (corePost c mem w v s).1.clock = s.clock := by
  unfold corePost
  dsimp only
  split
  · split <;> simp
  · simp

@[simp] theorem windowPut_clock (s : State) (c mem w : Nat) (v : BitVec 64) : (windowPut s c mem w v).1.clock = s.clock := by
  unfold windowPut
  dsimp only
  split
  · split <;> simp
  · simp

@[simp] theorem windowMergeDone_clock (c : Nat) (s : State) : (windowMergeDone c s).clock = s.clock := by
  unfold windowMergeDone
  split
  · rfl
  · split
    · rfl
    · dsimp only
      split
      · simp
      · split <;> simp

@[simp] theorem windowPiece_clock (m c o n : Nat) (write : Option Nat) (s : State) : (windowPiece m c o n write s).clock = s.clock := by
  unfold windowPiece
  dsimp only
  split
  · simp
  · rfl
  · split
    · split <;> simp
    · split
      · split <;> simp
      · split
        · split <;> simp
        · split <;> simp

@[simp] theorem fillEnd_clock (c : Nat) (s : State) : (fillEnd c s).clock = s.clock := by simp [fillEnd]
@[simp] theorem coreWord_clock (j mem a : Nat) (v : BitVec 64) (s : State) : (coreWord j mem a v s).clock = s.clock := by simp [coreWord]
@[simp] theorem overrun_clock (c : Nat) (s : State) : (overrun c s).clock = s.clock := by simp [overrun]
@[simp] theorem lmLate_clock (c : Nat) (r : LmRead) (s : State) : (lmLate c r s).clock = s.clock := by simp [lmLate]

@[simp] theorem frameEntry_clock (c n : Nat) (x : Dom) (land : List StagedRec) (ins : List (Nat × S64)) (s : State) :
    (frameEntry c n x land ins s).clock = s.clock := by simp [frameEntry]

@[simp] theorem outputsTake_clock (j c : Nat) (s : State) : (outputsTake j c s).clock = s.clock := by simp [outputsTake]

@[simp] theorem answersEnd_clock (cs : List Nat) (s : State) : (answersEnd cs s).clock = s.clock := by
  unfold answersEnd
  dsimp only
  split <;> simp

@[simp] theorem rotFrame_clock (cs : List Nat) (s : State) : (rotFrame cs s).clock = s.clock := by
  unfold rotFrame
  split <;> simp

@[simp] theorem coreTick_clock (x : Dom) (n j : Nat) (s : State) : (coreTick x n j s).clock = s.clock := by
  unfold coreTick
  split
  · rfl
  · extract_lets sF cs s0 s1 s2 land
    have hF : sF.clock = s.clock := by simp only [sF]; split <;> simp
    have h1 : s1.clock = s.clock := by simp [s1, s0, hF]
    have h2 : s2.clock = s.clock := by simp only [s2]; split <;> simp [h1]
    clear_value s2
    dsimp only
    refine (foldl_clock _ (fun t c => ?_) _ _).trans h2
    split <;> simp

@[simp] theorem xmapApply_clock (j : Nat) (s : State) : (xmapApply j s).clock = s.clock := by simp [xmapApply]

/-! ### Rings and the Docent (16): `Machine/Control.lean` -/

@[simp] theorem docTickCount_clock (x : Dom) (s : State) : (docTickCount x s).clock = s.clock := by simp [docTickCount]

/-! ### Scenes and staging (04): `Machine/Staging.lean` -/

@[simp] theorem slotClear_clock (i : Nat) (s : State) : (slotClear i s).clock = s.clock := by simp [slotClear]
@[simp] theorem colClear_clock (d : Nat) (s : State) : (colClear d s).clock = s.clock := by simp [colClear]

@[simp] theorem stripRecsLand.landStore_clock (strip : Nat) (r : StagedRec) (s : State) : (stripRecsLand.landStore strip r s).clock = s.clock := by
  unfold stripRecsLand.landStore
  split <;> simp

@[simp] theorem stripRecsLand_clock (strip : Nat) (s : State) : (stripRecsLand strip s).clock = s.clock := by simp [stripRecsLand]
@[simp] theorem setSDom_clock (i : Nat) (x : Option Dom) (s : State) : (setSDom i x s).clock = s.clock := by simp [setSDom]
@[simp] theorem setDDom_clock (d : Nat) (x : Option Dom) (s : State) : (setDDom d x s).clock = s.clock := by simp [setDDom]

@[simp] theorem slotBind_clock (isD : Bool) (i c : Nat) (new : Option Dom) (s : State) : (slotBind isD i c new s).clock = s.clock := by
  unfold slotBind
  extract_lets cur strip s1
  clear_value cur
  split
  · rfl
  · split
    · split <;> simp [s1]
    · dsimp only; split <;> simp
    · rfl

@[simp] theorem mapLand_clock (flow e ch c : Nat) (s : State) : (mapLand flow e ch c s).clock = s.clock := by simp [mapLand]

@[simp] theorem recLand_clock (x : Dom) (c : Nat) (s : State) (r : StagedRec) : (recLand x c s r).clock = s.clock := by
  unfold recLand
  split
  · rfl
  · split
    · split
      · exact coreUnbind_clock ..
      · exact coreBind_clock ..
      · rfl
    · exact ite_clock_of (coreWord_clock ..) rfl
  · exact mapLand_clock ..
  · exact slotBind_clock ..
  · rfl

@[simp] theorem landRecs_clock (x : Dom) (c : Nat) (s : State) : (landRecs x c s).clock = s.clock := by simp [landRecs]
@[simp] theorem loaderShow_clock (s : State) : (loaderShow s).clock = s.clock := by simp [loaderShow]
@[simp] theorem setRecall_clock (r : Recall) (s : State) : (setRecall r s).clock = s.clock := by simp [setRecall]

@[simp] theorem recallNext_clock (s : State) : (recallNext s).clock = s.clock := by
  unfold recallNext
  split
  · rfl
  · split <;> simp

@[simp] theorem dropRecall_clock (r : Recall) (s : State) : (dropRecall r s).clock = s.clock := by simp [dropRecall]
@[simp] theorem recallLeave_clock (r : Recall) (s : State) : (recallLeave r s).clock = s.clock := by simp [recallLeave]
@[simp] theorem recallDone_clock (r : Recall) (oc : Nat) (s : State) : (recallDone r oc s).clock = s.clock := by simp [recallDone]

@[simp] theorem cmtDone_clock (n : Nat) (s0 : State) (c : Commit) : (cmtDone n s0 c).clock = s0.clock := by
  unfold cmtDone
  dsimp only
  split <;> split <;> simp

@[simp] theorem cmtExpire_clock (s : State) (c : Commit) : (cmtExpire s c).clock = s.clock := by simp [cmtExpire]

@[simp] theorem commitTick_clock (x : Dom) (n : Nat) (last : Option Nat) (s : State) : (commitTick x n last s).clock = s.clock := by
  unfold commitTick
  split
  · rfl
  · extract_lets _ s0 gone s1 l held s2 k s3
    have h2 : s2.clock = s.clock := by simp [s2, s1, s0]
    have h3 : s3.clock = s.clock := (fset_clock ..).trans h2
    split
    · exact h3
    · extract_lets tags s4 bits s5 keeps s6
      have h6 : s6.clock = s3.clock := (mk_clock ..).trans ((fset_clock ..).trans ((fset_clock ..).trans (galCommit_clock ..)))
      exact (foldl_clock _ (cmtDone_clock n) _ _).trans ((landRecs_clock ..).trans (h6.trans h3))

/-! ### Meters, archive and playback (05): `Machine/Meters.lean` -/

@[simp] theorem tpTake_clock (d : Nat) (s : State) : (tpTake d s).clock = s.clock := by simp [tpTake]
@[simp] theorem metersBegin_clock (s : State) : (metersBegin s).clock = s.clock := by simp [metersBegin]
@[simp] theorem metersTick_clock (x : Dom) (s0 : State) : (metersTick x s0).clock = s0.clock := by simp [metersTick]
@[simp] theorem setGroup_clock (g : Nat) (v : LoudGroup) (s : State) : (setGroup g v s).clock = s.clock := by simp [setGroup]

@[simp] theorem loudOf_clock (g : LoudGroup) (k len : Nat) (s : State) : (loudOf g k len s).2.clock = s.clock := by
  unfold loudOf
  dsimp only
  split
  · rfl
  · split <;> simp

@[simp] theorem blockEnd_clock (g len : Nat) (s : State) : (blockEnd g len s).clock = s.clock := by simp [blockEnd]

@[simp] theorem loudnessBlock_clock (g : Nat) (s : State) : (loudnessBlock g s).clock = s.clock := by
  unfold loudnessBlock
  split <;> simp

@[simp] theorem groupTick_clock (x : Dom) (s0 : State) (g : Nat) : (groupTick x s0 g).clock = s0.clock := by simp [groupTick]
@[simp] theorem loudnessTick_clock (x : Dom) (s : State) : (loudnessTick x s).clock = s.clock := by simp [loudnessTick]

@[simp] theorem blockDrop_clock (i first : Nat) (s : State) : (blockDrop i first s).clock = s.clock := by
  unfold blockDrop
  dsimp only
  split <;> simp

@[simp] theorem arcWrite_clock (x : Dom) (s : State) : (arcWrite x s).clock = s.clock := by
  unfold arcWrite
  refine ite_clock_of rfl ((foldl_clock _ (fun t e => ?_) _ _).trans (mk_clock ..))
  obtain ⟨i, d, first, words⟩ := e
  refine ite_clock_of (blockDrop_clock ..) ?_
  split
  · exact (blockDrop_clock ..).trans (dmaError_clock ..)
  · exact memStoreBytes_clock ..

@[simp] theorem arcCapture_clock (x : Dom) (i n : Nat) (v : S64) (s : State) : (arcCapture x i n v s).clock = s.clock := by simp [arcCapture]
@[simp] theorem arcFull_clock (x : Dom) (n i : Nat) (s : State) : (arcFull x n i s).clock = s.clock := by simp [arcFull]
@[simp] theorem setPb_clock (ch : Nat) (v : Option Playback) (s : State) : (setPb ch v s).clock = s.clock := by simp [setPb]
@[simp] theorem setPbState_clock (ch v : Nat) (s : State) : (setPbState ch v s).clock = s.clock := by simp [setPbState]

@[simp] theorem pbStart_clock (ch n : Nat) (s : State) : (pbStart ch n s).clock = s.clock := by
  unfold pbStart
  split <;> simp

@[simp] theorem pbEnd_clock (ch n : Nat) (s : State) : (pbEnd ch n s).clock = s.clock := by
  unfold pbEnd
  split <;> simp

@[simp] theorem pbRead_clock (p : Playback) (idx : Nat) (s : State) : (pbRead p idx s).2.clock = s.clock := by
  generalize ht : pbRead p idx s = t
  unfold pbRead at ht
  split at ht
  · rw [← ht]
  · split at ht
    · rw [← ht]
    · extract_lets a at ht
      split at ht
      · rw [← ht]; exact dmaError_clock ..
      · split at ht <;> rw [← ht]

@[simp] theorem pbYield_clock (ch n : Nat) (s : State) : (pbYield ch n s).clock = s.clock := by
  unfold pbYield
  split <;> simp

@[simp] theorem playbackTick_clock (x : Dom) (n : Nat) (s : State) : (playbackTick x n s).clock = s.clock := by simp [playbackTick]

/-! ### The serial ports (08): `Machine/Ports.lean` -/

@[simp] theorem setSide_clock (i : Nat) (v : Option Side) (s : State) : (setSide i v s).clock = s.clock := by simp [setSide]
@[simp] theorem setSideState_clock (i v : Nat) (s : State) : (setSideState i v s).clock = s.clock := by simp [setSideState]
@[simp] theorem setGood_clock (i v : Nat) (s : State) : (setGood i v s).clock = s.clock := by simp [setGood]
@[simp] theorem sideStart_clock (i : Nat) (cfg : W32) (s : State) : (sideStart i cfg s).clock = s.clock := by simp [sideStart]
@[simp] theorem sideOff_clock (i : Nat) (s : State) : (sideOff i s).clock = s.clock := by simp [sideOff]

@[simp] theorem sideCause_clock (i c : Nat) (s : State) : (sideCause i c s).clock = s.clock := by
  unfold sideCause
  split <;> simp

@[simp] theorem sideMissing_clock (i : Nat) (s : State) : (sideMissing i s).clock = s.clock := by
  unfold sideMissing
  split <;> simp

@[simp] theorem sideStep_clock (i : Nat) (s : State) : (sideStep i s).clock = s.clock := by
  unfold sideStep
  split <;> simp

@[simp] theorem sideDeliver_clock (i : Nat) (s : State) : (sideDeliver i s).clock = s.clock := by
  unfold sideDeliver
  split <;> simp

@[simp] theorem sideSend_clock (i n : Nat) (good : Bool) (s : State) : (sideSend i n good s).clock = s.clock := by
  unfold sideSend
  split <;> simp

@[simp] theorem sideEnd_clock (i : Nat) (d : Side) (s : State) : (sideEnd i d s).clock = s.clock := by
  unfold sideEnd
  split <;> simp

@[simp] theorem sideClose_clock (x : Dom) (n i : Nat) (s : State) : (sideClose x n i s).clock = s.clock := by
  unfold sideClose
  split
  · rfl
  · refine ite_clock_of (ite_clock_of (sideEnd_clock ..) (setSide_clock ..)) ?_
    extract_lets master works s1 s2 s' s3
    have h1 : s1.clock = s.clock := ite_clock_of rfl (ite_clock_of
      ((wr_clock ..).trans (ite_clock_of (setGood_clock ..) rfl)) (ite_clock_of (sideMissing_clock ..) rfl))
    have h2 : s2.clock = s.clock := (sideStep_clock ..).trans h1
    have h' : s'.clock = s.clock := by
      refine ite_clock_of ?_ h2
      split
      · exact (setSide_clock ..).trans h2
      · exact h2
    have h3 : s3.clock = s.clock := by
      refine ite_clock_of ((sideDeliver_clock ..).trans h') ?_
      split
      · exact (sideSend_clock ..).trans h2
      · exact h2
    exact ite_clock_of ((sideEnd_clock ..).trans h3) h3

@[simp] theorem sideOpen_clock (m i : Nat) (disc : Bool) (s : State) : (sideOpen m i disc s).clock = s.clock := by
  unfold sideOpen
  split <;> simp

@[simp] theorem sidesEnd_clock (x : Dom) (n : Option Nat) (s : State) : (sidesEnd x n s).clock = s.clock := by
  unfold sidesEnd
  split <;> simp

@[simp] theorem sidesBegin_clock (x : Dom) (m : Nat) (disc : Bool) (s : State) : (sidesBegin x m disc s).clock = s.clock := by simp [sidesBegin]
@[simp] theorem gpUpdate_clock (fs : List Nat) (s : State) : (gpUpdate fs s).clock = s.clock := by simp [gpUpdate]

/-! ### Clock domains and bridges (08): `Machine/Domains.lean` -/

@[simp] theorem setBridge_clock (b : Nat) (v : Option Bridge) (s : State) : (setBridge b v s).clock = s.clock := by simp [setBridge]
@[simp] theorem setBrState_clock (b v : Nat) (s : State) : (setBrState b v s).clock = s.clock := by simp [setBrState]

@[simp] theorem brOutputStart_clock (b m : Nat) (s : State) : (brOutputStart b m s).clock = s.clock := by
  unfold brOutputStart
  split <;> simp

@[simp] theorem brSettled_clock (b : Nat) (s : State) : (brSettled b s).clock = s.clock := by
  unfold brSettled
  split <;> simp

@[simp] theorem brBlock_clock (b j : Nat) (s : State) : (brBlock b j s).clock = s.clock := by
  unfold brBlock
  split <;> simp

@[simp] theorem brInTick_clock (n b : Nat) (s : State) : (brInTick n b s).clock = s.clock := by
  unfold brInTick
  split <;> simp

@[simp] theorem brOutTick_clock (m b : Nat) (s : State) : (brOutTick m b s).clock = s.clock := by
  unfold brOutTick
  extract_lets s0 s1
  have h0 : s0.clock = s.clock := (brSettled_clock ..).trans (brOutputStart_clock ..)
  have h1 : s1.clock = s.clock := by
    simp only [s1]
    split
    · exact ite_clock_of ((brBlock_clock ..).trans h0) h0
    · exact h0
  split
  · exact h1
  · have h2 : ∀ v, (setBridge b v s1).clock = s.clock := fun v => (setBridge_clock ..).trans h1
    refine ite_clock_of ((addDue_clock ..).trans ?_) ?_
    · exact ite_clock_of ((cnt_clock ..).trans (h2 _)) (h2 _)
    · exact ite_clock_of ((cnt_clock ..).trans (h2 _)) (h2 _)

@[simp] theorem bridgesIn_clock (x : Dom) (n : Nat) (s : State) : (bridgesIn x n s).clock = s.clock := by simp [bridgesIn]
@[simp] theorem bridgesOut_clock (x : Dom) (n : Nat) (s : State) : (bridgesOut x n s).clock = s.clock := by simp [bridgesOut]

/-! ### The network (09): `Machine/Network.lean` -/

@[simp] theorem setRx_clock (f : Nat) (r : Option RxFlow) (s : State) : (setRx f r s).clock = s.clock := by simp [setRx]
@[simp] theorem setTx_clock (f : Nat) (r : Option TxFlow) (s : State) : (setTx f r s).clock = s.clock := by simp [setTx]
@[simp] theorem memUpdate_clock (s : State) : (memUpdate s).clock = s.clock := by simp [memUpdate]
@[simp] theorem conflictShow_clock (s : State) : (conflictShow s).clock = s.clock := by simp [conflictShow]
@[simp] theorem mapLandAll_clock (flow : Nat) (s : State) : (mapLandAll flow s).clock = s.clock := by simp [mapLandAll]

@[simp] theorem rxStopNow_clock (f : Nat) (s : State) : (rxStopNow f s).clock = s.clock := by
  unfold rxStopNow
  split <;> simp

@[simp] theorem rxTimeout_clock (f n : Nat) (s : State) : (rxTimeout f n s).clock = s.clock := by
  unfold rxTimeout
  split
  · split
    · exact ite_clock_of ((fset_clock ..).trans (setRx_clock ..)) rfl
    · rfl
  · rfl

@[simp] theorem legTimeout_clock (f leg n : Nat) (s : State) : (legTimeout f leg n s).clock = s.clock := by
  unfold legTimeout
  split
  · split
    · exact ite_clock_of ((fset_clock ..).trans (setRx_clock ..)) rfl
    · rfl
  · rfl

@[simp] theorem rxDeliver_clock (n : Nat) (s : State) (f : Nat) : (rxDeliver n s f).clock = s.clock := by
  unfold rxDeliver
  split
  · rfl
  · refine ite_clock_of (rxStopNow_clock ..) ?_
    refine ite_clock_of ((cnt_clock ..).trans (foldl_pair_clock _ (fun t k => ?_) _ _)) (foldl_pair_clock _ (fun t k => ?_) _ _)
    all_goals
      obtain ⟨t, e⟩ := t
      dsimp only
      split
      · rfl
      · exact (mk_clock ..).trans (ite_clock_of (arrError_clock ..) rfl)

@[simp] theorem netRxTick_clock (x : Dom) (n : Nat) (s : State) : (netRxTick x n s).clock = s.clock := by simp [netRxTick]
@[simp] theorem netTxTick_clock (x : Dom) (n : Nat) (s : State) : (netTxTick x n s).clock = s.clock := by simp [netTxTick]

/-! ### The coding of the links (10): `Machine/LinkCoding.lean` -/

@[simp] theorem setLinkLine_clock (s : State) (l : Nat) (v : LinkLine) : (setLinkLine s l v).clock = s.clock := by simp [setLinkLine]
@[simp] theorem lineSend_clock (l : Nat) (blocks : List Block66) (s : State) : (lineSend l blocks s).clock = s.clock := by simp [lineSend]

/-! ### The links (10): `Machine/Daxesh.lean` -/

@[simp] theorem framesFlush_clock (l : Nat) (s : State) : (framesFlush l s).clock = s.clock := by simp [framesFlush]
@[simp] theorem framesForget_clock (x : Dom) (n : Nat) (s : State) : (framesForget x n s).clock = s.clock := by simp [framesForget]
@[simp] theorem txmapApply_clock (l : Nat) (s : State) : (txmapApply l s).clock = s.clock := by simp [txmapApply]
@[simp] theorem linkFrame_clock (x : Dom) (k l : Nat) (s : State) : (linkFrame x k l s).clock = s.clock := by simp [linkFrame]

@[simp] theorem linkTick_clock (x : Dom) (last : Option Nat) (l : Nat) (s : State) : (linkTick x last l s).clock = s.clock := by
  unfold linkTick
  split <;> simp

@[simp] theorem framesTick_clock (x : Dom) (last : Option Nat) (s : State) : (framesTick x last s).clock = s.clock := by simp [framesTick]

/-! ### The catalogue (17): `Machine/Catalogue.lean` -/

@[simp] theorem setCatState_clock (s : State) (v : Nat) : (setCatState s v).clock = s.clock := by simp [setCatState]
@[simp] theorem applySeals_clock (v : Nat) (s : State) : (applySeals v s).clock = s.clock := by simp [applySeals]
@[simp] theorem openNow_clock (s : State) : (openNow s).clock = s.clock := by simp [openNow]

/-! ### A tick (01, 02): `Machine/Tick.lean` -/

@[simp] theorem netWordsDrop_clock (x : Dom) (m : Nat) (s : State) : (netWordsDrop x m s).clock = s.clock := by simp [netWordsDrop]
@[simp] theorem buffersClear_clock (x : Dom) (from_ n : Nat) (s : State) : (buffersClear x from_ n s).clock = s.clock := by simp [buffersClear]
@[simp] theorem patchCommit_clock (x : Dom) (s : State) : (patchCommit x s).clock = s.clock := by simp [patchCommit]
@[simp] theorem patchAdvance_clock (x : Dom) (s : State) : (patchAdvance x s).clock = s.clock := by simp [patchAdvance]
@[simp] theorem patchNet_clock (x : Dom) (n : Nat) (s : State) : (patchNet x n s).clock = s.clock := by simp [patchNet]
@[simp] theorem patchSides_clock (x : Dom) (s : State) : (patchSides x s).clock = s.clock := by simp [patchSides]
@[simp] theorem patchFree_clock (x : Dom) (s : State) : (patchFree x s).clock = s.clock := by simp [patchFree]
@[simp] theorem patchTick_clock (x : Dom) (n : Nat) (s : State) : (patchTick x n s).clock = s.clock := by simp [patchTick]
@[simp] theorem ringTake_clock (x : Dom) (s : State) : (ringTake x s).1.clock = s.clock := by simp [ringTake]
@[simp] theorem ringMove_clock (x : Dom) (n : Nat) (s : State) : (ringMove x n s).clock = s.clock := by simp [ringMove]

@[simp] theorem inputsRun_clock (x : Dom) (n : Nat) (s : State) : (inputsRun x n s).clock = s.clock := by
  unfold inputsRun
  refine (mk_clock ..).trans (foldl_pair_clock _ (fun t i => ?_) _ (s, []))
  dsimp only
  split
  · rfl
  · split <;> simp

@[simp] theorem sourceTick_clock (x : Dom) (n : Nat) (s : State) : (sourceTick x n s).clock = s.clock := by simp [sourceTick]
@[simp] theorem arcSlot_clock (x : Dom) (n i : Nat) (s : State) : (arcSlot x n i s).clock = s.clock := by simp [arcSlot]
@[simp] theorem arcTick_clock (x : Dom) (n : Nat) (s : State) : (arcTick x n s).clock = s.clock := by simp [arcTick]
@[simp] theorem clockOutputs_clock (x : Dom) (s : State) : (clockOutputs x s).clock = s.clock := by simp [clockOutputs]
@[simp] theorem lateShow_clock (s : State) : (lateShow s).clock = s.clock := by simp [lateShow]
@[simp] theorem bufferLate_clock (k n : Nat) (s : State) : (bufferLate k n s).clock = s.clock := by simp [bufferLate]
@[simp] theorem columnLate_clock (j : ColJob) (s : State) : (columnLate j s).clock = s.clock := by simp [columnLate]

@[simp] theorem tickControl_clock (x : Dom) (n : Nat) (last : Option Nat) (disc : Bool) (next : Nat) (s : State) (h : s.tim.stepWait = none) :
    (tickControl x n last disc next s).clock = s.clock := by
  unfold tickControl
  extract_lets s1 s2 s3 s4 s5 s6
  have h5 : (commitTick x n last (sidesBegin x n disc s5)).clock = s.clock := by
    simp [s1, s2, s3, s4, s5]
  have h6 : s6.clock = s.clock := (stepAtTick_clock _ _ _ ((congrArg (·.1.stepWait) h5).trans h)).trans h5
  simp [h6]

@[simp] theorem tickSamples_clock (x : Dom) (n : Nat) (s : State) : (tickSamples x n s).clock = s.clock := by simp [tickSamples]

end Sys2Proof.Machine
end

section
/-! PROOF. 01 R12 to R14, R17: the tick event moves time to the instant of its tick and its generator behind it (O13). -/

namespace Sys2Proof.Machine

/-! ### Generators and time -/

theorem pdGet_pdSet {α : Type} (p : PerDom α) (x y : Dom) (v : α) : pdGet (pdSet p x v) y = if y = x then v else pdGet p y := by
  cases x <;> cases y <;> rfl

theorem genOf_setGen (x y : Dom) (g : Gen) (s : State) : genOf (setGen x g s) y = if y = x then g else genOf s y := pdGet_pdSet ..

theorem genOf_congr {s t : State} (h : t.tim = s.tim) (x : Dom) : genOf t x = genOf s x := by unfold genOf; rw [h]

theorem tim_of_clock {s t : State} (h : t.clock = s.clock) : t.tim = s.tim := congrArg Prod.fst h
theorem pin_of_clock {s t : State} (h : t.clock = s.clock) : t.pin = s.pin := congrArg Prod.snd h

theorem setGen_clock {s t : State} {x : Dom} {g : Gen} (h : t.clock = s.clock) : (setGen x g t).clock = (setGen x g s).clock := by
  simp only [setGen, mk_clock, tim_of_clock h, pin_of_clock h]

/-- Both clocks move by the same amount (11 R335). -/
theorem timeTo_add_tim (s : State) (d : Nat) :
    (timeTo s (s.tim.freiz + d)).tim = { s.tim with freiz := s.tim.freiz + d, elapsed := s.tim.elapsed + d } := by
  unfold timeTo
  split
  · next h => rw [show d = 0 by omega, Nat.add_zero, Nat.add_zero]
  · rw [Nat.add_sub_cancel_left]

theorem timeTo_pin (s : State) (t : Nat) : (timeTo s t).pin = s.pin := by
  unfold timeTo
  split <;> rfl

/-- The generator of domain `x` behind tick `n` (01 R13, R14). -/
def genBehind (s : State) (x : Dom) (n : Nat) : Gen :=
  let g := genOf s x
  { g with next := n + 1, last := some n, due := if g.indep then g.due + (n + 1 - g.next) * auxPeriod s (domHz s x) else g.due }

/-- Of all that tick `n` does, only two things move the clocks: time goes to its instant, and the generator behind it. -/
theorem tickEvent_clock (x : Dom) (n : Nat) (disc : Bool) (s : State) (h : s.tim.stepWait = none) :
    (tickEvent x n disc s).clock = (setGen x (genBehind s x n) (timeTo s (s.tim.freiz + (tickIn s x n).toNat))).clock := by
  unfold tickEvent
  extract_lets g s1 due s2 s3
  have h2 : s2.clock = s1.clock := ite_clock_of (cnt_clock ..) rfl
  have hgen : (setGen x (genBehind s x n) s2).clock = (setGen x (genBehind s x n) s1).clock := setGen_clock h2
  have hwait : (setGen x (genBehind s x n) s2).tim.stepWait = none := by
    rw [tim_of_clock hgen]
    exact (congrArg TimSt.stepWait (timeTo_add_tim ..)).trans h
  have h3 : s3.clock = _ := tickControl_clock x n g.last disc g.next _ hwait
  simp only [docTickCount_clock, clockOutputs_clock, netTxTick_clock, gpUpdate_clock, tickSamples_clock]
  exact h3.trans hgen

/-- A running generator whose run has begun: the event is that of its next index, or of a later one. -/
theorem doTickEvent_begun (x : Dom) (skip m : Nat) (s : State) (hr : running s x = true) (hm : (genOf s x).last = some m) :
    doTickEvent x skip s = tickEvent x ((genOf s x).next + skip) (decide (skip ≠ 0)) s := by
  unfold running at hr
  simp [doTickEvent, hr, hm]

theorem doTickEvent_stopped (x : Dom) (skip : Nat) (s : State) (h : running s x = false) : doTickEvent x skip s = s := by
  unfold running at h
  simp [doTickEvent, h]

/-- What a tick event of a running domain leaves of time, the generators and the pins. -/
structure TickDone (s : State) (x : Dom) (n : Nat) (t : State) : Prop where
  gens : ∀ y, genOf t y = if y = x then genBehind s x n else genOf s y
  freiz : t.tim.freiz = s.tim.freiz + (tickIn s x n).toNat
  elapsed : t.tim.elapsed = s.tim.elapsed + (tickIn s x n).toNat
  pin : t.pin = s.pin

theorem tickEvent_done (x : Dom) (n : Nat) (disc : Bool) (s : State) (h : s.tim.stepWait = none) :
    TickDone s x n (tickEvent x n disc s) := by
  have hclock := tickEvent_clock x n disc s h
  have htim := tim_of_clock hclock
  have hnow := timeTo_add_tim s (tickIn s x n).toNat
  refine ⟨fun y => ?_, ?_, ?_, (pin_of_clock hclock).trans (timeTo_pin ..)⟩
  · rw [genOf_congr htim, genOf_setGen]
    refine if_congr Iff.rfl rfl ?_
    unfold genOf
    rw [hnow]
  · rw [htim]
    exact congrArg TimSt.freiz hnow
  · rw [htim]
    exact congrArg TimSt.elapsed hnow

/-- What follows every effect keeps time and the pins. -/
theorem TickDone.settled {s s' t : State} {x : Dom} {n : Nat} (h : TickDone s x n t) : TickDone s x n (keep s' (settle t)) := by
  have htim : (keep s' (settle t)).tim = t.tim := settle_tim t
  obtain ⟨hgens, hfreiz, helapsed, hpin⟩ := h
  exact ⟨fun y => (genOf_congr htim y).trans (hgens y), htim ▸ hfreiz, htim ▸ helapsed, (settle_pin t).trans hpin⟩

theorem TickDone.ofQuiet {s t : State} {x : Dom} {n : Nat} (h : TickDone (quietOut s) x n t) : TickDone s x n t :=
  ⟨h.gens, h.freiz, h.elapsed, h.pin⟩

theorem TickDone.gen {s t : State} {x : Dom} {n : Nat} (h : TickDone s x n t) : genOf t x = genBehind s x n := (h.gens x).trans (if_pos rfl)

/-- The later of two instants, as an advance from the first. -/
theorem add_until (now then_ : Nat) : now + ((then_ : Int) - now).toNat = Nat.max now then_ := by
  show _ = max _ _
  omega

/-- 01 R14: a locked domain's tick comes at the instant of its index. -/
theorem TickDone.locked {s t : State} {x : Dom} {n : Nat} (h : TickDone s x n t) (hi : (genOf s x).indep = false) :
    t.tim.freiz = Nat.max s.tim.freiz (tickTime s x (domHz s x) n) ∧ (genOf t x).due = (genOf s x).due := by
  have hin : tickIn s x n = (tickTime s x (domHz s x) n : Int) - s.tim.freiz := by simp [tickIn, hi]
  constructor
  · rw [h.freiz, hin, add_until]
  · simp [h.gen, genBehind, hi]

/-- 01 R14: an independent domain takes one period of the auxiliary DPLL a tick. -/
theorem TickDone.indep {s t : State} {x : Dom} {skip : Nat} (h : TickDone s x ((genOf s x).next + skip) t) (hr : running s x = true)
    (hi : (genOf s x).indep = true) :
    t.tim.elapsed = Nat.max s.tim.elapsed ((genOf s x).due + skip * auxPeriod s (domHz s x)) ∧
      (genOf t x).due = (genOf s x).due + (skip + 1) * auxPeriod s (domHz s x) := by
  have hin : tickIn s x ((genOf s x).next + skip) = (((genOf s x).due + skip * auxPeriod s (domHz s x) : Nat) : Int) - s.tim.elapsed := by
    unfold running at hr
    simp [tickIn, hi, hr]
  have hnext : (genOf s x).next + skip + 1 - (genOf s x).next = skip + 1 := by omega
  constructor
  · rw [h.elapsed, hin, add_until]
  · simp [h.gen, genBehind, hi, hnext]

/-- Freiz time and the time since reset move together. -/
theorem TickDone.together {s t : State} {x : Dom} {n : Nat} (h : TickDone s x n t) :
    t.tim.freiz + s.tim.elapsed = s.tim.freiz + t.tim.elapsed := by
  rw [h.freiz, h.elapsed]
  omega

/-- Settles O13: a tick moves nothing of time, generators and pins but time to its instant and its generator behind it. -/
theorem tickEvents : Obligations.TickEvents := by
  intro s x skip ready
  refine ⟨fun hr m hm hw => completes_run (doTickEvent x skip) rfl ready ?_, fun hr => completes_run (doTickEvent x skip) rfl ready ?_⟩
  · have hdone : TickDone s x ((genOf s x).next + skip) (keep s (settle (doTickEvent x skip (quietOut s)))) := by
      rw [doTickEvent_begun x skip m (quietOut s) hr hm]
      exact (tickEvent_done x _ _ (quietOut s) hw).settled.ofQuiet
    generalize keep s (settle (doTickEvent x skip (quietOut s))) = t at hdone ⊢
    have hgen := hdone.gen
    exact ⟨congrArg Gen.last hgen, congrArg Gen.next hgen, (congrArg Gen.running hgen).trans hr, (congrArg Gen.rate hgen).trans rfl,
      fun y hy => (hdone.gens y).trans (if_neg hy), hdone.locked, hdone.indep hr, hdone.together, hdone.pin⟩
  · rw [doTickEvent_stopped x skip (quietOut s) hr]
    exact ⟨settle_tim _, settle_gal _, settle_str _, settle_scn _⟩

end Sys2Proof.Machine
end

section
/-! PROOF. What a Ledger occurrence, a self-accusation and the settling after a command leave alone: the audio path and its
registers (19 R559, 12 R380). -/

namespace Sys2Proof.Machine

/-! ### What an occurrence and a self-accusation leave alone -/

/-- The registers that the Ledger's receipt of an occurrence (19 R559), a self-accusation (12 R380) and settling write. -/
def reportKey (k : Nat) : Prop := k = LDG_STATUS ∨ k = LDG_SUPPRESSED ∨ k = TWN_STATUS ∨ k = TWN_ACCUSE ∨ settleKey k

/-- From `s` to `t` the engine has reported something, and done nothing to its audio path. -/
structure Reported (s t : State) : Prop where
  gal : t.gal = s.gal
  str : t.str = s.str
  scn : t.scn = s.scn
  mem : t.mem = s.mem
  cores : t.cores = s.cores
  chanVal : t.net.chanVal = s.net.chanVal
  rd : ∀ k, ¬reportKey k → rd t k = rd s k

namespace Reported

theorem refl (s : State) : Reported s s := ⟨rfl, rfl, rfl, rfl, rfl, rfl, fun _ _ => rfl⟩

theorem trans {s t u : State} (h : Reported s t) (h' : Reported t u) : Reported s u :=
  ⟨h'.gal.trans h.gal, h'.str.trans h.str, h'.scn.trans h.scn, h'.mem.trans h.mem, h'.cores.trans h.cores, h'.chanVal.trans h.chanVal,
    fun k hk => (h'.rd k hk).trans (h.rd k hk)⟩

theorem ite {s a b : State} {c : Prop} [Decidable c] (ha : Reported s a) (hb : Reported s b) : Reported s (if c then a else b) := by
  split
  · exact ha
  · exact hb

theorem of_fset (s : State) {k : Nat} (hk : reportKey k) (f : Fld) (v : Nat) : Reported s (fset s k f v) :=
  ⟨rfl, rfl, rfl, rfl, rfl, rfl, fun _ h => rd_fset_ne _ _ _ _ _ fun e => h (e ▸ hk)⟩

theorem of_cnt (s : State) {k : Nat} (hk : reportKey k) : Reported s (cnt s k) :=
  ⟨cnt_gal .., cnt_str .., cnt_scn .., cnt_mem .., cnt_cores .., congrArg NetSt.chanVal (cnt_net ..),
    fun _ h => rd_cnt_ne _ _ _ fun e => h (e ▸ hk)⟩

/-- The Ledger's own state, the links and the twin state are no part of what it keeps. -/
theorem ldg {s t : State} (h : Reported s t) (l : LdgSt) : Reported s { t with ldg := l } :=
  ⟨h.gal, h.str, h.scn, h.mem, h.cores, h.chanVal, h.rd⟩
theorem dax {s t : State} (h : Reported s t) (d : DaxSt) : Reported s { t with dax := d } :=
  ⟨h.gal, h.str, h.scn, h.mem, h.cores, h.chanVal, h.rd⟩
theorem twn {s t : State} (h : Reported s t) (w : TwnSt) : Reported s { t with twn := w } :=
  ⟨h.gal, h.str, h.scn, h.mem, h.cores, h.chanVal, h.rd⟩

theorem fget_eq {s t : State} (h : Reported s t) {k : Nat} (hk : ¬reportKey k) (f : Fld) : fget t k f = fget s k f :=
  fget_congr _ _ _ _ (h.rd k hk)

end Reported

theorem occur_reported (s : State) (code src : Nat) (det : List W32) : Reported s (occur s code src det) := by
  unfold occur
  exact .ite ((Reported.of_cnt s (.inr (.inl rfl))).ldg _) ((Reported.of_fset s (.inl rfl) _ _).ldg _)

theorem twinSend_reported (s : State) : Reported s (twinSend s) := by
  unfold twinSend daxQueue
  exact .ite (.ite ((Reported.refl s).dax _) ((Reported.refl s).dax _)) (.refl s)

theorem twinOn_reported {s t : State} (h : Reported s t) : Reported s (twinOn s t) := by
  unfold twinOn
  exact .ite h (h.trans (twinSend_reported t))

theorem accused_reported (s : State) (cause : Nat) : Reported s (accuse.accused s cause) := by
  have hstatus : reportKey TWN_STATUS := .inr (.inr (.inl rfl))
  unfold accuse.accused
  extract_lets peer sole s1 s2 s3
  have h1 : Reported s s1 := .of_cnt s (.inr (.inr (.inr (.inl rfl))))
  have h2 : Reported s s2 := h1.trans ((Reported.of_fset _ hstatus _ _).trans (.of_fset _ hstatus _ _))
  have h3 : Reported s s3 := h2.trans (occur_reported ..)
  exact .ite (h3.trans (.of_fset _ hstatus _ _)) (.ite (h3.twn _) (h3.twn _))

theorem accuse_reported (s : State) (cause : Nat) : Reported s (accuse s cause) := by
  unfold accuse
  exact .ite (twinOn_reported (accused_reported s cause)) (.refl s)

theorem bufferLate_reported (k n : Nat) (s : State) : Reported s (bufferLate k n s) := occur_reported ..

/-! ### What settling leaves of the network's receive channels -/

theorem intEdges_net (s : State) : (intEdges s).net = s.net := by
  have hmsix (s : State) (v : Nat) : (msixSend s v).net = s.net := by
    unfold msixSend
    dsimp only
    split <;> rfl
  have hsrc (s : State) (i : Nat) : (if bitOf (rd s (CTL_DOC_IRQ i)).toNat 31 then addDue s (.docIrq i) else s).net = s.net := by
    split <;> rfl
  obtain ⟨a, b, c, d, h⟩ := intEdges_form s
  rw [h]
  exact (foldl_frame State.net _ hsrc c _).trans (foldl_frame State.net _ hmsix d s)

theorem syncKey_net (slot d : Nat) (v : Bool) (s : State) : (syncKey slot d v s).net = s.net := by
  unfold syncKey setKey
  split
  · rfl
  · split <;> rfl

theorem syncKeys_net (s : State) : (syncKeys s).net = s.net := by
  unfold syncKeys
  split
  · rfl
  · simp only [syncFour, syncKey_net]

theorem withTxFree_chanVal (n : NetSt) (m : SMap Nat) : ({ n with txFree := m } : NetSt).chanVal = n.chanVal := rfl
theorem withCounters_chanVal (n : NetSt) (m : SMap (BitVec 64)) : ({ n with counters := m } : NetSt).chanVal = n.chanVal := rfl

theorem portBusy_chanVal (p n : Nat) (s : State) : (portBusy p n s).net.chanVal = s.net.chanVal := by
  unfold portBusy
  exact withTxFree_chanVal _ _

theorem netCount_chanVal (k n : Nat) (leg : Option Nat) (tx : Bool) (b : Nat) (s : State) :
    (netCount k n leg tx b s).net.chanVal = s.net.chanVal := by
  unfold netCount
  exact withCounters_chanVal _ _

theorem netSend_chanVal (p : Nat) (l : List Byte) (s : State) : (netSend p l s).1.net.chanVal = s.net.chanVal := by
  unfold netSend
  split
  · dsimp only
    rw [emit_net, portBusy_chanVal, netCount_chanVal]
  · rfl

theorem mgmtFlush_chanVal (s : State) : (mgmtFlush s).net.chanVal = s.net.chanVal := by
  unfold mgmtFlush
  refine foldl_frame (fun t => t.net.chanVal) _ (fun t e => ?_) _ _
  dsimp only
  split
  · exact netSend_chanVal ..
  · rfl

theorem timerPend_net (s : State) : (timerPend s).net = s.net := by
  have hhold (l : List Nat) : (mtipHold l s).net = s.net := rfl
  exact hhold _

theorem settleAwake_chanVal (s : State) : (settleAwake s).net.chanVal = s.net.chanVal := by
  unfold settleAwake
  rw [mgmtFlush_chanVal, timerPend_net, syncKeys_net, intEdges_net]

theorem settle_chanVal (s : State) : (settle s).net.chanVal = s.net.chanVal := by
  unfold settle
  split
  · exact settleAwake_chanVal s
  · rfl

/-- What follows every effect is no more than a report. -/
theorem settled_reported (s t : State) : Reported t (keep s (settle t)) :=
  ⟨settle_gal t, settle_str t, settle_scn t, settle_mem t, settle_cores t, settle_chanVal t,
    fun k hk => rd_settle t k fun h => hk (.inr (.inr (.inr (.inr h))))⟩

/-! ### What a report leaves of the units -/

/-- The audio blocks' registers lie above those of the control, power and twin blocks. -/
theorem not_reportKey {k : Nat} (h : 0x200000 ≤ k ∧ k ≠ LDG_STATUS ∧ k ≠ LDG_SUPPRESSED) : ¬reportKey k := by
  unfold reportKey settleKey TWN_STATUS TWN_ACCUSE CTL_MSIX_PBA PWR_DOM_STATUS
  omega

theorem not_reportKey_rotMap {j : Nat} (h : j < 64) : ¬reportKey (TWN_ROT_MAP j) := by
  unfold reportKey settleKey LDG_STATUS LDG_SUPPRESSED TWN_STATUS TWN_ACCUSE CTL_MSIX_PBA PWR_DOM_STATUS TWN_ROT_MAP
  omega

/-- The tile that serves a column and the unit that runs a strip do not change with a report. -/
theorem Reported.tile {s t : State} (h : Reported s t) {j : Nat} (hj : j < 64) : physOf t 1 j = physOf s 1 j :=
  h.fget_eq (not_reportKey_rotMap hj) TWN_ROT_MAP_tile

theorem Reported.unit {s t : State} (h : Reported s t) (i : Nat) : stripUnit t i = stripUnit s i :=
  h.fget_eq (not_reportKey_rotMap (show i % 32 < 64 by omega)) TWN_ROT_MAP_strip

theorem Reported.dom {s t : State} (h : Reported s t) (i : Nat) : stripDom t i = stripDom s i := by
  unfold stripDom domD domS
  rw [h.scn]

end Sys2Proof.Machine
end

section
/-! PROOF. 03 R69 to R73, R98, R99 and 01 R10: a column job over STEADY nodes stores its sum; late entries of the tick buffers
(O14). -/

namespace Sys2Proof.Machine

/-! ### What a column job does beside its sum -/

/-- Partial sums to other engines go to the links alone. -/
theorem psOut_links (d : Nat) (v : Int) (s : State) : ∃ l, psOut d v s = { s with dax := l } := by
  unfold psOut
  refine List.foldlRecOn _ _ (motive := fun t : State => ∃ l, t = { s with dax := l }) ⟨s.dax, rfl⟩ ?_
  rintro _ ⟨l, rfl⟩ i -
  split
  · exact ⟨l, rfl⟩
  · exact ⟨_, rfl⟩

/-- What stands beside the registers stays when a field is written or a counter counts. -/
theorem fset_keeps {α : Type} (f : State → α) (hr : ∀ s r, f { s with regs := r } = f s) (s : State) (k : Nat) (g : Fld) (v : Nat) :
    f (fset s k g v) = f s := hr s _

theorem cnt_keeps {α : Type} (f : State → α) (hr : ∀ s r, f { s with regs := r } = f s) (s : State) (k : Nat) : f (cnt s k) = f s := hr s _

/-- A tile's use registers are all that following its slots and its deferral table writes. -/
theorem tileUse_keeps {α : Type} (f : State → α) (hr : ∀ s r, f { s with regs := r } = f s) (p : Nat) (s : State) :
    f (tileUse p s) = f s := by
  unfold tileUse
  extract_lets l ramps linked n s1 s2
  have h2 : f s2 = f s := (fset_keeps f hr ..).trans ((fset_keeps f hr ..).trans (fset_keeps f hr ..))
  split
  · exact (fset_keeps f hr ..).trans h2
  · exact h2

theorem rd_tileUse (p k : Nat) (s : State) (hu : k ≠ GAL_TILE_USE p) (hd : k ≠ GAL_TILE_DEFER p) : rd (tileUse p s) k = rd s k := by
  unfold tileUse
  extract_lets l ramps linked n s1 s2
  have h2 : rd s2 k = rd s k := (rd_fset_ne _ _ _ _ _ hd).trans ((rd_fset_ne _ _ _ _ _ hu).trans (rd_fset_ne _ _ _ _ _ hu))
  split
  · exact (rd_fset_ne _ _ _ _ _ hd).trans h2
  · exact h2

/-- 03 R73: the column's value, and the job's end. -/
def columnStored (j : ColJob) (d : Nat) (v : S64) (s : State) : State := setDval d v (jobDrop j s)

theorem dval_columnStored (j : ColJob) (d e : Nat) (v : S64) (s : State) :
    smGet 0 (columnStored j d v s).gal.dval e = if e = d then v else smGet 0 s.gal.dval e := smGet_smSet ..

/-- The jobs that are left when `j` has gone. -/
theorem jobs_columnStored (j : ColJob) (d : Nat) (v : S64) (s : State) :
    (columnStored j d v s).gal.jobs = s.gal.jobs.filter (fun q => !(q.d == j.d && q.n == j.n)) := rfl

/-! ### The nodes that a job reads -/

/-- A key that a map does not list holds the default. -/
theorem smGet_absent {α : Type} (d : α) (m : SMap α) (k : Nat) (h : ∀ e ∈ m, e.1 ≠ k) : smGet d m k = d := by
  induction m with
  | nil => rfl
  | cons e t ih =>
    rw [smGet, if_neg (h e (by simp))]
    exact ih fun e he => h e (by simp [he])

theorem nodup_eraseDups {α : Type} [BEq α] [LawfulBEq α] : ∀ l : List α, l.eraseDups.Nodup
  | [] => by simp
  | a :: l => by
    rw [List.eraseDups_cons, List.nodup_cons]
    exact ⟨by simp, nodup_eraseDups _⟩
termination_by l => l.length
decreasing_by exact Nat.lt_succ_of_le (List.length_filter_le ..)

theorem nodeKey_add (p d i : Nat) : nodeKey p d i = nodeKey p d 0 + i := rfl

theorem mem_liveNodes (s : State) (p d lo hi i : Nat) :
    i ∈ liveNodes s p d lo hi [] ↔ lo ≤ i ∧ i < hi ∧ (nodeKey p d i ∈ s.gal.nodes.map Prod.fst ∨ nodeKey p d i ∈ s.gal.badNodes) := by
  unfold liveNodes smRange
  simp only [List.mem_eraseDups, List.mem_mergeSort, List.filter_nil, List.append_nil, List.mem_append, List.mem_map, List.mem_filter,
    Bool.and_eq_true, decide_eq_true_eq, nodeKey_add p d i]
  constructor
  · rintro (⟨e, ⟨he, h1, h2⟩, rfl⟩ | ⟨k, ⟨hk, h1, h2⟩, rfl⟩)
    · exact ⟨by omega, by omega, .inl ⟨e, he, by omega⟩⟩
    · exact ⟨by omega, by omega, .inr (by rwa [Nat.add_sub_of_le (by omega)])⟩
  · rintro ⟨h1, h2, ⟨e, he, hi⟩ | hk⟩
    · exact .inl ⟨e, ⟨he, by omega, by omega⟩, by omega⟩
    · exact .inr ⟨_, ⟨hk, by omega, by omega⟩, by omega⟩

theorem nodup_liveNodes (s : State) (p d lo hi : Nat) (ue : List Nat) : (liveNodes s p d lo hi ue).Nodup := nodup_eraseDups _

/-- What node (d, i) adds to the column while it is STEADY (03 R69, 01 R23). -/
def steadyProd (s : State) (x : Dom) (p d i : Nat) : Int :=
  if domS s i = some x then prodG (smGet 0 s.gal.srcX i) (ndLive (node s (nodeKey p d i))) else 0

/-- 03 R79: the read of a STEADY node changes nothing. -/
theorem readNode_steady (x : Dom) (p d i n : Nat) (s : State) (h : ndState (node s (nodeKey p d i)) = nSTEADY) :
    readNode x p d i n s = (s, steadyProd s x p d i, .plain) := by
  have hprod (v : S64) (g : Int) : (if v = 0 ∨ g = 0 then 0 else prodG v g) = prodG v g := by
    split
    · next h0 => rcases h0 with rfl | rfl <;> simp [prodG]
    · rfl
  unfold readNode steadyProd
  simp only [h, nSTEADY, nSTAGED, nARMED, nRAMPING, hprod]
  by_cases hx : domS s i = some x <;> simp [hx, prodG]

/-- A node that the tile does not list is STEADY with gain zero. -/
theorem steadyProd_unlisted (s : State) (x : Dom) (p d i : Nat) (h : nodeKey p d i ∉ s.gal.nodes.map Prod.fst) : steadyProd s x p d i = 0 := by
  have hnode : node s (nodeKey p d i) = nodeReset :=
    smGet_absent _ _ _ fun e he hk => h (hk ▸ List.mem_map_of_mem he)
  have hlive : ndLive nodeReset = 0 := by decide
  simp [steadyProd, hnode, hlive, prodG]

/-- A column from S-slot `lo` on: the nodes that are left to read are STEADY and hold no error. -/
def SteadyFrom (s : State) (p d lo : Nat) : Prop :=
  ∀ i, i < 4096 → lo ≤ i → ndState (node s (nodeKey p d i)) = nSTEADY ∧ s.gal.badNodes.contains (nodeKey p d i) = false

theorem columnSum_eq (s : State) (x : Dom) (p d lo : Nat) :
    columnSum s x p d lo = ∑ i ∈ Finset.range 4096, if lo ≤ i then steadyProd s x p d i else 0 := by
  have hterm (i : Nat) : (if lo ≤ i ∧ domS s i = some x then prodG (smGet 0 s.gal.srcX i) (ndLive (node s (nodeKey p d i))) else 0) =
      if lo ≤ i then steadyProd s x p d i else 0 := ite_and ..
  unfold columnSum
  simp only [hterm]
  rw [← List.toFinset_range, List.sum_toFinset _ List.nodup_range, List.sum_eq_foldl, List.foldl_map]

/-- The nodes that a job reads make the column's whole sum: those it passes over add nothing. -/
theorem sum_liveNodes (s : State) (x : Dom) (p d lo : Nat) :
    ((liveNodes s p d lo 4096 []).map (steadyProd s x p d)).sum = columnSum s x p d lo := by
  rw [columnSum_eq, ← List.sum_toFinset _ (nodup_liveNodes ..), ← Finset.sum_filter]
  refine Finset.sum_subset (fun i hi => ?_) fun i hi hout => steadyProd_unlisted s x p d i fun hk => hout ?_
  · obtain ⟨hlo, hhi, -⟩ := (mem_liveNodes ..).mp (List.mem_toFinset.mp hi)
    simp [hlo, hhi]
  · obtain ⟨hhi, hlo⟩ := Finset.mem_filter.mp hi
    exact List.mem_toFinset.mpr ((mem_liveNodes ..).mpr ⟨hlo, Finset.mem_range.mp hhi, .inl hk⟩)

/-- The reads of STEADY nodes change nothing and add their products. -/
theorem readsSteady (s : State) (p : Nat) (j : ColJob) (x : Dom) (h : SteadyFrom s p j.d j.upTo) :
    jobReads p j x 4096 [] s = (s, j.sum + columnSum s x p j.d j.upTo, []) := by
  unfold jobReads
  rw [← sum_liveNodes s x p j.d j.upTo]
  have hl : ∀ i ∈ liveNodes s p j.d j.upTo 4096 [], i < 4096 ∧ j.upTo ≤ i := fun i hi =>
    let ⟨h1, h2, _⟩ := (mem_liveNodes ..).mp hi; ⟨h2, h1⟩
  generalize liveNodes s p j.d j.upTo 4096 [] = l at hl ⊢
  generalize j.sum = a
  induction l generalizing a with
  | nil => simp
  | cons i l ih =>
    obtain ⟨hlt, hle⟩ := hl i (by simp)
    obtain ⟨hst, hbad⟩ := h i hlt hle
    rw [List.foldl_cons]
    refine (congrArg (List.foldl _ · l) (?_ : _ = (s, a + steadyProd s x p j.d i, []))).trans
      ((ih (fun k hk => hl k (by simp [hk])) _).trans (by simp [add_assoc]))
    have hgood : nodeKey p j.d i ∉ s.gal.badNodes := by simpa using hbad
    simp [hgood, readNode_steady x p j.d i j.n s hst]

/-! ### A column job that completes (03 R69 to R73, R99) -/

/-- 03 R73, R99: the tile stores the sum of a job of column `d`, and shows that it was not late. -/
def columnFilled (p d : Nat) (j : ColJob) (total : Int) (s : State) : State :=
  let s2 := tileUse p (psOut d total (columnStored j d (storeVal total).1 s))
  lateClear p (if (storeVal total).2 then cnt s2 (GAL_TILE_SAT p) else s2)

theorem columnJob_steady {s : State} {d p : Nat} {j : ColJob} {x : Dom} (hjob : jobFor s d = some j) (htile : tileOf s d = some p)
    (hclk : clkOk s 1 p = true) (hres : j.resolving = false) (hdom : j.dom = some x) (h : SteadyFrom s p j.d j.upTo) :
    columnJob d [] s = columnFilled p d j (j.sum + columnSum s x p j.d j.upTo + psIn s x d j.n) s := by
  unfold columnJob
  simp only [hjob, htile, hclk, hres, hdom, readsSteady s p j x h]
  rfl

theorem columnFilled_keeps {α : Type} (f : State → α) (hr : ∀ s r, f { s with regs := r } = f s) (hd : ∀ s l, f { s with dax := l } = f s)
    (p d : Nat) (j : ColJob) (total : Int) (s : State) : f (columnFilled p d j total s) = f (columnStored j d (storeVal total).1 s) := by
  unfold columnFilled
  extract_lets s2
  have h2 : f s2 = f (columnStored j d (storeVal total).1 s) := by
    obtain ⟨l, hl⟩ := psOut_links d total (columnStored j d (storeVal total).1 s)
    exact (tileUse_keeps f hr p _).trans (hl ▸ hd _ l)
  refine (fset_keeps f hr ..).trans ?_
  split
  · exact (cnt_keeps f hr _ _).trans h2
  · exact h2

theorem rd_columnFilled (p d : Nat) (j : ColJob) (total : Int) (s : State) :
    rd (columnFilled p d j total s) (GAL_TILE_SAT p) = rd s (GAL_TILE_SAT p) + (if (storeVal total).2 then 1 else 0) := by
  have hstatus : GAL_TILE_SAT p ≠ GAL_TILE_STATUS p := by unfold GAL_TILE_SAT GAL_TILE_STATUS; omega
  have huse : GAL_TILE_SAT p ≠ GAL_TILE_USE p := by unfold GAL_TILE_SAT GAL_TILE_USE; omega
  have hdefer : GAL_TILE_SAT p ≠ GAL_TILE_DEFER p := by unfold GAL_TILE_SAT GAL_TILE_DEFER; omega
  unfold columnFilled
  extract_lets s2
  have h2 : rd s2 (GAL_TILE_SAT p) = rd s (GAL_TILE_SAT p) := by
    obtain ⟨l, hl⟩ := psOut_links d total (columnStored j d (storeVal total).1 s)
    refine (rd_tileUse _ _ _ huse hdefer).trans ?_
    rw [hl]
    rfl
  rw [lateClear, rd_fset_ne _ _ _ _ _ hstatus]
  split
  · rw [rd_cnt, h2]
  · simp [h2]

theorem late_columnFilled (p d : Nat) (j : ColJob) (total : Int) (s : State) :
    fget (columnFilled p d j total s) (GAL_TILE_STATUS p) GAL_TILE_STATUS_late = 0 := by
  unfold columnFilled lateClear
  exact fget_fset _ _ GAL_TILE_STATUS_late 0 (by decide)

/-! ### A column job that is abandoned (01 R10, 03 R98, R99) -/

/-- The column of job `j` reads zero and the job is gone; its tile has counted it and shows it; all else of the column's world
stays. -/
structure ColumnGone (j : ColJob) (s t : State) : Prop where
  zero : smGet 0 t.gal.dval j.d = 0
  others : ∀ e, e ≠ j.d → smGet 0 t.gal.dval e = smGet 0 s.gal.dval e
  jobs : t.gal.jobs = s.gal.jobs.filter (fun q => !(q.d == j.d && q.n == j.n))
  count : rd t (GAL_TILE_LATE (physOf s 1 (j.d / 64))) = rd s (GAL_TILE_LATE (physOf s 1 (j.d / 64))) + 1
  shown : fget t (GAL_TILE_STATUS (physOf s 1 (j.d / 64))) GAL_TILE_STATUS_late = 1
  nodes : t.gal.nodes = s.gal.nodes
  mem : t.mem = s.mem

theorem not_reportKey_tileLate (p : Nat) : ¬reportKey (GAL_TILE_LATE p) :=
  not_reportKey (by unfold GAL_TILE_LATE LDG_STATUS LDG_SUPPRESSED; omega)

theorem not_reportKey_tileStatus (p : Nat) : ¬reportKey (GAL_TILE_STATUS p) :=
  not_reportKey (by unfold GAL_TILE_STATUS LDG_STATUS LDG_SUPPRESSED; omega)

theorem tileLate_ne_tileStatus (p : Nat) : GAL_TILE_LATE p ≠ GAL_TILE_STATUS p := by
  unfold GAL_TILE_LATE GAL_TILE_STATUS
  omega

/-- A report after the column has gone changes nothing of it. -/
theorem ColumnGone.report {j : ColJob} {s t u : State} (h : ColumnGone j s t) (r : Reported t u) : ColumnGone j s u where
  zero := r.gal ▸ h.zero
  others := r.gal ▸ h.others
  jobs := r.gal ▸ h.jobs
  count := (r.rd _ (not_reportKey_tileLate _)).trans h.count
  shown := (r.fget_eq (not_reportKey_tileStatus _) _).trans h.shown
  nodes := r.gal ▸ h.nodes
  mem := r.mem.trans h.mem

/-- And so it is with a report before. -/
theorem ColumnGone.reported {j : ColJob} {s t u : State} (hj : j.d < 4096) (r : Reported s t) (h : ColumnGone j t u) : ColumnGone j s u where
  zero := h.zero
  others := r.gal ▸ h.others
  jobs := r.gal ▸ h.jobs
  count := by
    rw [← r.tile (show j.d / 64 < 64 by omega), h.count, r.rd _ (not_reportKey_tileLate _)]
  shown := by
    rw [← r.tile (show j.d / 64 < 64 by omega)]
    exact h.shown
  nodes := h.nodes.trans (congrArg GalSt.nodes r.gal)
  mem := h.mem.trans r.mem

theorem ColumnGone.ite {j : ColJob} {s a b : State} {c : Prop} [Decidable c] (ha : ColumnGone j s a) (hb : ColumnGone j s b) :
    ColumnGone j s (if c then a else b) := by
  split
  · exact ha
  · exact hb

/-- A run of late jobs and a tile that has failed are shown beside it (03 R99). -/
theorem ColumnGone.lateRun {j : ColJob} {s t : State} (h : ColumnGone j s t) (m : SMap (Nat × Nat)) :
    ColumnGone j s { t with gal := { t.gal with lateRun := m } } :=
  ⟨h.zero, h.others, h.jobs, h.count, h.shown, h.nodes, h.mem⟩

theorem ColumnGone.failed {j : ColJob} {s t : State} (h : ColumnGone j s t) (v : Nat) :
    ColumnGone j s (fset t (GAL_TILE_STATUS (physOf s 1 (j.d / 64))) GAL_TILE_STATUS_failed v) where
  zero := h.zero
  others := h.others
  jobs := h.jobs
  count := (rd_fset_ne _ _ _ _ _ (tileLate_ne_tileStatus _)).trans h.count
  shown := (fget_fset_other t _ GAL_TILE_STATUS_failed GAL_TILE_STATUS_late v (by decide) (by decide)).trans h.shown
  nodes := h.nodes
  mem := h.mem

/-- What abandoning a job does first: the column, the count and the bit. -/
theorem columnGone_counted (j : ColJob) (s : State) :
    ColumnGone j s (fset (cnt (psOut j.d 0 (columnStored j j.d 0 s)) (GAL_TILE_LATE (physOf s 1 (j.d / 64))))
      (GAL_TILE_STATUS (physOf s 1 (j.d / 64))) GAL_TILE_STATUS_late 1) := by
  obtain ⟨l, hl⟩ := psOut_links j.d 0 (columnStored j j.d 0 s)
  rw [hl]
  constructor
  case zero => rw [fset_gal, cnt_gal]; exact (dval_columnStored ..).trans (if_pos rfl)
  case others => exact fun e he => by rw [fset_gal, cnt_gal]; exact (dval_columnStored ..).trans (if_neg he)
  case jobs => rw [fset_gal, cnt_gal]; exact jobs_columnStored ..
  case count => rw [rd_fset_ne _ _ _ _ _ (tileLate_ne_tileStatus _), rd_cnt]; rfl
  case shown => exact fget_fset _ _ GAL_TILE_STATUS_late 1 (by decide)
  case nodes => rw [fset_gal, cnt_gal]; rfl
  case mem => rw [fset_mem, cnt_mem]; rfl

theorem jobAbandon_gone (j : ColJob) (s : State) : ColumnGone j s (jobAbandon j s) := by
  have h3 := (columnGone_counted j s).report
    (occur_reported _ 0x340 (physOf s 1 (j.d / 64)) (BitVec.ofNat 32 j.d :: det64 j.n))
  unfold jobAbandon
  extract_lets t s1 s2 s3 _ s4
  change ColumnGone j s s3 at h3
  clear_value s3
  refine ColumnGone.report (t := s4) ?_ (accuse_reported ..)
  unfold s4
  split
  · exact h3
  · exact .ite ((h3.lateRun _).failed 1) (h3.lateRun _)

theorem columnLate_gone {j : ColJob} (s : State) (hj : j.d < 4096) : ColumnGone j s (columnLate j s) :=
  (jobAbandon_gone j _).reported hj (bufferLate_reported ..)

/-! ### A late stage of a strip (05 R139) -/

/-- Stage `g` of strip `i` is marked late, and its unit has counted it. -/
structure StageLate (i g : Nat) (s t : State) : Prop where
  marked : stripRun t i = { stripRun s i with lateStages := (stripRun s i).lateStages ++ [g] }
  count : rd t (STR_UNIT_LATE (stripUnit s i)) = rd s (STR_UNIT_LATE (stripUnit s i)) + 1
  gal : t.gal = s.gal

theorem Reported.stripRun_eq {s t : State} (h : Reported s t) (i : Nat) : stripRun t i = stripRun s i := by
  unfold stripRun
  rw [h.str]

theorem not_reportKey_unitLate (u : Nat) : ¬reportKey (STR_UNIT_LATE u) :=
  not_reportKey (by unfold STR_UNIT_LATE LDG_STATUS LDG_SUPPRESSED; omega)

theorem StageLate.report {i g : Nat} {s t u : State} (h : StageLate i g s t) (r : Reported t u) : StageLate i g s u :=
  ⟨(r.stripRun_eq i).trans h.marked, (r.rd _ (not_reportKey_unitLate _)).trans h.count, r.gal.trans h.gal⟩

theorem StageLate.reported {i g : Nat} {s t u : State} (r : Reported s t) (h : StageLate i g t u) : StageLate i g s u where
  marked := by rw [h.marked, r.stripRun_eq]
  count := by rw [← r.unit, h.count, r.rd _ (not_reportKey_unitLate _)]
  gal := h.gal.trans r.gal

theorem doStripStageLate_marks (out : Bool) (p : Fin 4096) (g : Fin 3) (s : State) {x : Dom}
    (h : stripDom s (p.val + if out then 4096 else 0) = some x) :
    StageLate (p.val + if out then 4096 else 0) g s (doStripStageLate out p g.castSucc s) := by
  have hne (u : Nat) : STR_UNIT_LATE u ≠ STR_UNIT_STATUS u := by unfold STR_UNIT_LATE STR_UNIT_STATUS; omega
  unfold doStripStageLate
  extract_lets i
  simp only [show stripDom s i = some x from h]
  rw [if_neg (show ¬3 ≤ g.castSucc.val from Nat.not_le.mpr g.isLt)]
  refine StageLate.report (t := fset (cnt (setRun i _ s) _) _ _ 1) ⟨?_, ?_, ?_⟩ ((occur_reported ..).trans (accuse_reported ..))
  · unfold stripRun
    rw [fset_str, cnt_str]
    exact smGet_smSet_same ..
  · rw [rd_fset_ne _ _ _ _ _ (hne _), rd_cnt]
    rfl
  · rw [fset_gal, cnt_gal]
    rfl

/-! ### A core whose frame runs when its outputs are due (06 R190) -/

/-- The frame of core `c` has overrun, and is counted. -/
structure FrameOverrun (c : Nat) (s t : State) : Prop where
  idle : (coreOf t c).phase = .idle
  overran : (coreOf t c).overran = true
  count : rd t (ATL_CORE_OVERRUN c) = rd s (ATL_CORE_OVERRUN c) + 1
  gal : t.gal = s.gal

theorem not_reportKey_overrun (c : Nat) : ¬reportKey (ATL_CORE_OVERRUN c) :=
  not_reportKey (by unfold ATL_CORE_OVERRUN LDG_STATUS LDG_SUPPRESSED; omega)

theorem Reported.core {s t : State} (h : Reported s t) (c : Nat) : coreOf t c = coreOf s c := coreOf_congr s t c h.cores

theorem FrameOverrun.report {c : Nat} {s t u : State} (h : FrameOverrun c s t) (r : Reported t u) : FrameOverrun c s u :=
  ⟨r.core c ▸ h.idle, r.core c ▸ h.overran, (r.rd _ (not_reportKey_overrun c)).trans h.count, r.gal.trans h.gal⟩

theorem FrameOverrun.reported {c : Nat} {s t u : State} (r : Reported s t) (h : FrameOverrun c t u) : FrameOverrun c s u :=
  ⟨h.idle, h.overran, h.count.trans (congrArg (· + 1) (r.rd _ (not_reportKey_overrun c))), h.gal.trans r.gal⟩

theorem coreFault_reported (c code : Nat) (det : List W32) (cause : Nat) (s : State) : Reported s (coreFault c code det cause s) := by
  unfold coreFault
  exact .ite ((occur_reported ..).trans (accuse_reported ..)) (occur_reported ..)

theorem rd_frameShow (c last k : Nat) (s : State) (hf : k ≠ ATL_CORE_FEND c) (hl : k ≠ ATL_CORE_LM_USE c) :
    rd (frameShow c last s) k = rd s k := by
  unfold frameShow
  rw [rd_fset_ne _ _ _ _ _ hl, rd_fset_ne _ _ _ _ _ hl, rd_fset_ne _ _ _ _ _ hf]

theorem frameShow_keeps {α : Type} (f : State → α) (hr : ∀ s r, f { s with regs := r } = f s) (c last : Nat) (s : State) :
    f (frameShow c last s) = f s := by
  unfold frameShow
  rw [fset_keeps f hr, fset_keeps f hr, fset_keeps f hr]

theorem overrun_ends {c : Nat} {s : State} (h : (coreOf s c).phase = .run) : FrameOverrun c s (overrun c s) := by
  have hstatus : ATL_CORE_OVERRUN c ≠ ATL_CORE_STATUS c := by unfold ATL_CORE_OVERRUN ATL_CORE_STATUS; omega
  have hpq : ATL_CORE_OVERRUN c ≠ ATL_CORE_PQ c := by unfold ATL_CORE_OVERRUN ATL_CORE_PQ; omega
  have hfend : ATL_CORE_OVERRUN c ≠ ATL_CORE_FEND c := by unfold ATL_CORE_OVERRUN ATL_CORE_FEND; omega
  have huse : ATL_CORE_OVERRUN c ≠ ATL_CORE_LM_USE c := by unfold ATL_CORE_OVERRUN ATL_CORE_LM_USE; omega
  unfold overrun
  extract_lets k _ k1 s1 s2
  rw [if_pos (.inl h)]
  have hidle : k1.phase = .idle := rfl
  have hover : k1.overran = true := rfl
  clear_value k1
  have hkeep {α : Type} (f : State → α) (hr : ∀ s r, f { s with regs := r } = f s) : f s2 = f (setCore c k1 s) := by
    rw [fset_keeps f hr, cnt_keeps f hr, frameShow_keeps f hr, coreStep_quiet _ _ _ _ _ f hr]
  have hcore : coreOf s2 c = k1 := (coreOf_congr _ _ c (hkeep State.cores fun _ _ => rfl)).trans (coreOf_setCore c k1 s)
  refine FrameOverrun.report (t := s2) ⟨hcore ▸ hidle, hcore ▸ hover, ?_, hkeep State.gal fun _ _ => rfl⟩ (coreFault_reported ..)
  rw [rd_fset_ne _ _ _ _ _ hstatus, rd_cnt, rd_frameShow _ _ _ _ hfend huse, rd_coreStep_quiet _ _ _ _ _ _ hstatus hpq]

theorem coreLate_running {c : Nat} {s : State} (h : (coreOf s c).phase = .run) : coreLate c s = overrun c s := if_pos (.inl h)

/-! ### Late entries of the tick buffers (01 R10) -/

theorem not_reportKey_tileSat (p : Nat) : ¬reportKey (GAL_TILE_SAT p) :=
  not_reportKey (by unfold GAL_TILE_SAT LDG_STATUS LDG_SUPPRESSED; omega)

theorem doColumnJobAbandon_gone {s : State} {d : Fin 4096} {j : ColJob} (h : s.gal.jobs.find? (fun q => q.d == d.val) = some j) :
    ColumnGone j s (doColumnJobAbandon d s) := by
  unfold doColumnJobAbandon
  rw [h]
  exact jobAbandon_gone j s

theorem tickBufferLate_column {s : State} {d : Fin 4096} {x : Dom} {j : ColJob} (g : Fin 3)
    (h : s.gal.jobs.find? (fun q => q.d == d.val && q.dom == some x) = some j) :
    ColumnGone j s (doTickBufferLate .column x d g s) := by
  have hd : j.d = d.val := by
    have := List.find?_some h
    simp only [Bool.and_eq_true, beq_iff_eq] at this
    exact this.1
  unfold doTickBufferLate
  dsimp only
  rw [h]
  exact columnLate_gone s (hd ▸ d.isLt)

theorem doTickBufferLate_strip (s : State) (x : Dom) (out : Bool) (p : Fin 4096) (g : Fin 3) :
    doTickBufferLate (if out then .outStrip else .inStrip) x p g s =
      if stripDom s (p.val + if out then 4096 else 0) = some x then
        doStripStageLate out p g.castSucc
          (bufferLate (STR_UNIT_STATUS (stripUnit s (p.val + if out then 4096 else 0))) (genOf s x).next s)
      else s := by
  cases out <;> rfl

theorem tickBufferLate_strip {s : State} {x : Dom} (out : Bool) {p : Fin 4096} (g : Fin 3)
    (h : stripDom s (p.val + if out then 4096 else 0) = some x) :
    StageLate (p.val + if out then 4096 else 0) g s (doTickBufferLate (if out then .outStrip else .inStrip) x p g s) := by
  rw [doTickBufferLate_strip, if_pos h]
  have r := bufferLate_reported (STR_UNIT_STATUS (stripUnit s (p.val + if out then 4096 else 0))) (genOf s x).next s
  exact .reported r (doStripStageLate_marks out p g _ ((r.dom _).trans h))

theorem tickBufferLate_core {s : State} {x : Dom} {c : Fin 4096} (g : Fin 3) (hc : c.val < 68) (hx : coreRunDom s c = some x)
    (hrun : (coreOf s c).phase = .run) : FrameOverrun c s (doTickBufferLate .core x c g s) := by
  have r := bufferLate_reported (ATL_CORE_STATUS c) (genOf s x).next s
  have hrun' : (coreOf (bufferLate (ATL_CORE_STATUS c) (genOf s x).next s) c).phase = .run := (r.core c).symm ▸ hrun
  have heq : doTickBufferLate .core x c g s = overrun c (bufferLate (ATL_CORE_STATUS c) (genOf s x).next s) :=
    (if_pos ⟨hc, hx⟩).trans (coreLate_running hrun')
  exact heq ▸ .reported r (overrun_ends hrun')

/-- Network receive channel `ch` reads zero. -/
def chanZero (ch : Nat) (s : State) : State := { s with net := { s.net with chanVal := smSet 0 s.net.chanVal ch 0 } }

theorem smGet_chanZero (ch : Nat) (s : State) : smGet 0 (chanZero ch s).net.chanVal ch = 0 := smGet_smSet_same 0 s.net.chanVal ch 0

theorem tickBufferLate_net {s : State} {x : Dom} {ch : Fin 4096} (g : Fin 3) (h : netChanDom s ch = some x) :
    Reported (chanZero ch s) (doTickBufferLate .net x ch g s) := by
  have r := bufferLate_reported (NET_GRP_CFG 0) (genOf s x).next s
  have heq : doTickBufferLate .net x ch g s = _ := if_pos h
  rw [heq]
  exact ⟨r.gal, r.str, r.scn, r.mem, r.cores, rfl, r.rd⟩

/-- Settles O14: a job over STEADY nodes only adds their products and stores the sum; a late entry leaves its unit's mark and a
report, and a report touches nothing of the audio path. -/
theorem columnJobs : Obligations.ColumnJobs := by
  constructor
  · intro s d j p x ready hjob htile hclk hres hdom hsteady total
    refine completes_run (doColumnJob d []) rfl ready ?_
    have hrun : doColumnJob d [] (quietOut s) = columnFilled p d j total (quietOut s) :=
      columnJob_steady (s := quietOut s) hjob htile hclk hres hdom hsteady
    rw [hrun]
    have r := settled_reported s (columnFilled p d j total (quietOut s))
    have hgal : (keep s (settle (columnFilled p d j total (quietOut s)))).gal = (columnStored j d (storeVal total).1 (quietOut s)).gal :=
      r.gal.trans (columnFilled_keeps State.gal (fun _ _ => rfl) (fun _ _ => rfl) ..)
    refine ⟨?_, fun e he => ?_, ?_, ?_, ?_, ?_, ?_, ?_⟩
    · rw [hgal, dval_columnStored, if_pos rfl]
    · rw [hgal, dval_columnStored, if_neg he]
      rfl
    · exact (r.rd _ (not_reportKey_tileSat p)).trans (rd_columnFilled ..)
    · rw [hgal]
      rfl
    · rw [hgal, jobs_columnStored]
      rfl
    · exact r.mem.trans (columnFilled_keeps State.mem (fun _ _ => rfl) (fun _ _ => rfl) ..)
    · exact r.cores.trans (columnFilled_keeps State.cores (fun _ _ => rfl) (fun _ _ => rfl) ..)
    · exact (r.fget_eq (not_reportKey_tileStatus p) _).trans (late_columnFilled ..)
  · intro s d j ready p gone
    have hgone {t : State} (h : ColumnGone j (quietOut s) t) : gone (keep s (settle t)) := by
      obtain ⟨hzero, hothers, hjobs, hcount, hshown, hnodes, hmem⟩ := h.report (settled_reported s t)
      exact ⟨hzero, hothers, hjobs, hcount, hshown, hnodes, hmem⟩
    refine ⟨fun h => ?_, fun x h => ?_, fun x out p g => ?_, fun x c hc hx hrun => ?_, fun x ch h => ?_⟩
    · exact completes_run (doColumnJobAbandon d) rfl ready (hgone (doColumnJobAbandon_gone h))
    · exact completes_run (doTickBufferLate .column x d 0) rfl ready (hgone (tickBufferLate_column 0 h))
    · intro i h
      refine completes_run (doTickBufferLate (if out then .outStrip else .inStrip) x p g) rfl ready ?_
      obtain ⟨hmarked, hcount, hgal⟩ := (tickBufferLate_strip (s := quietOut s) out g h).report (settled_reported s _)
      exact ⟨hmarked, hcount, hgal⟩
    · refine completes_run (doTickBufferLate .core x c 0) rfl ready ?_
      obtain ⟨hidle, hover, hcount, hgal⟩ := (tickBufferLate_core (s := quietOut s) 0 hc hx hrun).report (settled_reported s _)
      exact ⟨hidle, hover, hcount, hgal⟩
    · refine completes_run (doTickBufferLate .net x ch 0) rfl ready ?_
      have r := (tickBufferLate_net (s := quietOut s) 0 h).trans (settled_reported s _)
      exact ⟨(congrArg (smGet 0 · ch.val) r.chanVal).trans (smGet_chanZero ..), r.gal, r.str, r.cores⟩

end Sys2Proof.Machine
end

section
/-! PROOF. 06 R193: the results that an instruction puts in flight for the third instruction after it, as the multiply-accumulate
and the accumulator instructions do, and the core in which they are visible. -/

namespace Sys2Proof.Machine

/-! ### The bank that issues -/

@[simp] theorem inHandler_setBank (k : Core) (b : Bank) : (setBank k b).inHandler = k.inHandler := by
  unfold setBank putBank
  split <;> rfl

@[simp] theorem setBank_setBank (k : Core) (b b' : Bank) : setBank (setBank k b) b' = setBank k b' := by
  unfold setBank putBank
  cases k.inHandler <;> simp

@[simp] theorem setBank_bankOf (k : Core) : setBank k (bankOf k) = k := by
  unfold setBank putBank bankOf
  split <;> rfl

@[simp] theorem inHandler_stepped (k : Core) (b : Bank) : (stepped k b).inHandler = k.inHandler := inHandler_setBank ..

@[simp] theorem bankOf_stepped (k : Core) (b : Bank) : bankOf (stepped k b) = { b with issued := b.issued + 1, tapLoad := [] } :=
  bankOf_setBank ..

/-- Over a core that has stepped, a bank that only differs in its registers is one that the core has stepped with. -/
theorem setBank_stepped (k : Core) (b b' : Bank) :
    setBank (stepped k b) { b' with issued := b'.issued + 1, tapLoad := [] } = stepped k b' := by
  unfold stepped setBank putBank
  cases k.inHandler <;> simp

/-! ### When results in flight become visible -/

theorem wbUpTo_eq (n : Nat) (k : Core) :
    wbUpTo k.inHandler n k = wbApplyAll k.inHandler (setBank k { bankOf k with wb := (bankOf k).wb.filter fun w => !decide (w.due ≤ n) })
      ((bankOf k).wb.filter fun w => decide (w.due ≤ n)) := rfl

/-- Results that are all due later stay in flight. -/
theorem wbUpTo_of_undue {n : Nat} {k : Core} (h : ∀ w ∈ (bankOf k).wb, n < w.due) : wbUpTo k.inHandler n k = (k, []) := by
  have hnow : (bankOf k).wb.filter (fun w => decide (w.due ≤ n)) = [] :=
    List.filter_eq_nil_iff.2 fun w hw => by simpa using h w hw
  have hlater : (bankOf k).wb.filter (fun w => !decide (w.due ≤ n)) = (bankOf k).wb :=
    List.filter_eq_self.2 fun w hw => by simpa using h w hw
  rw [wbUpTo_eq, hnow, hlater]
  exact congrArg (·, []) (setBank_bankOf k)

/-- Results that are all due leave flight together. -/
theorem wbUpTo_of_due {n : Nat} {k : Core} (h : ∀ w ∈ (bankOf k).wb, w.due ≤ n) :
    wbUpTo k.inHandler n k = wbApplyAll k.inHandler (setBank k { bankOf k with wb := [] }) (bankOf k).wb := by
  have hnow : (bankOf k).wb.filter (fun w => decide (w.due ≤ n)) = (bankOf k).wb :=
    List.filter_eq_self.2 fun w hw => by simpa using h w hw
  have hlater : (bankOf k).wb.filter (fun w => !decide (w.due ≤ n)) = [] :=
    List.filter_eq_nil_iff.2 fun w hw => by simpa using h w hw
  rw [wbUpTo_eq, hnow, hlater]

/-- The core in which results due at the last distance of 06 R193 are visible is the one they reach with nothing in flight. -/
theorem seen_of_due_last {k : Core} (h : ∀ w ∈ (bankOf k).wb, w.due = (bankOf k).issued + 2) :
    seen k = (wbApplyAll k.inHandler (setBank k { bankOf k with wb := [] }) (bankOf k).wb).1 := by
  have h0 : wbUpTo k.inHandler (bankOf k).issued k = (k, []) := wbUpTo_of_undue fun w hw => by have := h w hw; omega
  have h1 : wbUpTo k.inHandler ((bankOf k).issued + 1) k = (k, []) := wbUpTo_of_undue fun w hw => by have := h w hw; omega
  have h2 := wbUpTo_of_due (n := (bankOf k).issued + 2) fun w hw => (h w hw).le
  unfold bankOf at h0 h1 h2 ⊢
  simp only [seen, wbFlush, h0, h1, h2]

/-- The core that a list of results leaves is that of one result after the other. -/
theorem wbApplyAll_core (sh : Bool) (l : List Wb) (k : Core) :
    (wbApplyAll sh k l).1 = l.foldl (fun x w => (wbApply sh x w.act).1) k :=
  (List.foldl_hom Prod.fst fun _ _ => rfl).symm

/-! ### Results for the third instruction after -/

/-- The core with the results `acts` of the instruction that issues in flight for the third instruction after it (06 R193). -/
def afterThree (acts : List WbAct) (k : Core) : Core := acts.foldl (fun x a => coreLater 3 a x) k

theorem afterThree_eq (acts : List WbAct) (k : Core) :
    afterThree acts k = setBank k { bankOf k with wb := (bankOf k).wb ++ acts.map fun a => ⟨(bankOf k).issued + 3, a⟩ } := by
  induction acts generalizing k with
  | nil =>
    rw [List.map_nil, List.append_nil]
    exact (setBank_bankOf k).symm
  | cons a acts ih =>
    refine (ih (coreLater 3 a k)).trans ?_
    simp [coreLater_form, bankOf_setBank]

theorem afterThree_keeps {α : Type} (p : Core → α) (hp : ∀ a k, p (coreLater 3 a k) = p k) (acts : List WbAct) (k : Core) :
    p (afterThree acts k) = p k := by
  induction acts generalizing k with
  | nil => rfl
  | cons a acts ih => exact (ih _).trans (hp a k)

/-- What the core will have once it has issued the instruction and its results are visible. -/
def landed (acts : List WbAct) (k : Core) : Core :=
  acts.foldl (fun x a => (wbApply k.inHandler x a).1) (stepped k (bankOf k))

theorem seen_afterThree (acts : List WbAct) (k : Core) (h : (bankOf k).wb = []) :
    seen { coreCount [] (afterThree acts k) with pc := (k.pc + 1) % 16384 } = landed acts k := by
  have hform : ({ coreCount [] (afterThree acts k) with pc := (k.pc + 1) % 16384 } : Core) =
      stepped k { bankOf k with wb := acts.map fun a => ⟨(bankOf k).issued + 3, a⟩ } := by
    rw [afterThree_eq, h, List.nil_append]
    unfold coreCount stepped
    simp only [bankOf_setBank, setBank_setBank]
    unfold setBank putBank
    split <;> rfl
  rw [hform, seen_of_due_last (by simp)]
  simp only [bankOf_stepped, inHandler_stepped, wbApplyAll_core, List.foldl_map]
  refine congrArg (acts.foldl _) ?_
  rw [← h]
  exact setBank_stepped k _ (bankOf k)

/-- An instruction that only puts results in flight for the third instruction after it: they land, and nothing else changes. -/
theorem completes_afterThree {i : Instr} {c : Fin 68} {w : BitVec 64} {s : State} (eff : Core → IssueEff) (acts : List WbAct) {x : Core}
    (he : exec i s = run (issue c w .plain eff) s) (heff : eff (coreOf s c) = effPlain (afterThree acts (coreOf s c)))
    (hx : landed acts (coreOf s c) = x) (hl : atlLegal w (coreOf s c).pc = true) (h : AtWord c w s) :
    Completes i s (fun t => seen (coreOf t c) = x ∧ OnlyCore c s t) := by
  have hdelay : (afterThree acts (coreOf s c)).delay = none := (afterThree_keeps Core.delay (coreLater_delay 3) ..).trans h.noDelay
  have hloops : (bankOf (afterThree acts (coreOf s c))).loops = [] :=
    (afterThree_keeps (fun k => (bankOf k).loops) (coreLater_loops 3) ..).trans h.noLoop
  have hpc : (afterThree acts (coreOf s c)).pc = (coreOf s c).pc := afterThree_keeps Core.pc (coreLater_pc 3) ..
  have hdone := completes_plain c w eff s he h hl
  rw [heff] at hdone
  refine (hdone rfl rfl rfl hdelay hloops hpc).mono ?_
  rintro t ⟨hcore, honly⟩
  rw [hcore]
  exact ⟨(seen_afterThree acts _ h.noFlight).trans hx, honly⟩

end Sys2Proof.Machine
end

section
/-! PROOF. 07 R231, 02 R44 to R50: the multiply-accumulate instructions with K and gain coefficients (O5); 07 R234, R235, 02 R47
to R53: the accumulator instructions and STA (O7). -/

namespace Sys2Proof.Machine

/-! ### What lands in an accumulator -/

/-- The core once an accumulator has been given a value, with X where an excursion was lost (02 R48). -/
def accDone (k : Core) (rd : Nat) (x : Acc × Bool) : Core :=
  stepped k { bankOf k with a := smSet accZero (bankOf k).a rd x.1, sw := (bankOf k).sw ||| ifX x.2 }

theorem wbApply_stepped_accSet (k : Core) (b : Bank) (r : Nat) (x : Acc × Bool) :
    (wbApply k.inHandler (stepped k b) (.accSet r x.1 x.2)).1 =
      stepped k { b with a := smSet accZero b.a r x.1, sw := b.sw ||| ifX x.2 } := by
  unfold wbApply stepped setBank putBank ifX
  cases k.inHandler <;> cases x.2 <;> simp

/-- A sum reaches its accumulator as the value that `accAdd` gives it (02 R46). -/
theorem wbApply_stepped_accAdd (k : Core) (b : Bank) (r : Nat) (v : Int) :
    (wbApply k.inHandler (stepped k b) (.accAdd r v)).1 =
      stepped k { b with a := smSet accZero b.a r (accAdd (smGet accZero b.a r) v).1, sw := b.sw ||| ifX (accAdd (smGet accZero b.a r) v).2 } := by
  rw [← wbApply_stepped_accSet]
  unfold wbApply stepped setBank putBank
  cases k.inHandler <;> rfl

theorem wbApply_stepped_d (k : Core) (b : Bank) (r : Nat) (v : S64) :
    (wbApply k.inHandler (stepped k b) (.d r v)).1 = stepped k { b with d := smSet 0 b.d r v } := by
  unfold wbApply stepped setBank putBank
  cases k.inHandler <;> rfl

theorem wbApply_stepped_sticky (k : Core) (b : Bank) (j : Nat) :
    (wbApply k.inHandler (stepped k b) (.sticky j)).1 = stepped k { b with sw := b.sw ||| BitVec.ofNat 5 (2 ^ j) } := by
  unfold wbApply stepped setBank putBank
  cases k.inHandler <;> rfl

/-- Where no excursion is lost, the flags stay. -/
theorem accDone_of_kept (k : Core) (rd : Nat) (x : Acc) :
    accDone k rd (x, false) = stepped k { bankOf k with a := smSet accZero (bankOf k).a rd x } :=
  congrArg (fun sw => stepped k { bankOf k with a := smSet accZero (bankOf k).a rd x, sw := sw }) BitVec.or_zero

/-! ### Storing an accumulator -/

/-- What STA puts in flight: the word, and where it saturates the sticky bit S and a count (02 R54). -/
def staActs (rd : Nat) (x : S64 × Bool) : List WbAct := .d rd x.1 :: if x.2 then [.sticky 4, .satCount] else []

theorem effSta_eq (rd ra : Nat) (k : Core) : effSta rd ra k = effPlain (afterThree (staActs rd (storeS64 (coreA k ra))) k) := by
  unfold effSta staActs
  obtain ⟨w, sat⟩ := storeS64 (coreA k ra)
  cases sat <;> rfl

theorem landed_staActs (rd : Nat) (x : S64 × Bool) (k : Core) :
    landed (staActs rd x) k = stepped k { bankOf k with d := smSet 0 (bankOf k).d rd x.1, sw := (bankOf k).sw ||| ifS x.2 } := by
  obtain ⟨w, sat⟩ := x
  have hd := wbApply_stepped_d k (bankOf k) rd w
  cases sat with
  | false =>
    refine hd.trans (congrArg (fun sw => stepped k { bankOf k with d := smSet 0 (bankOf k).d rd w, sw := sw }) ?_)
    exact BitVec.or_zero.symm
  | true =>
    show (wbApply k.inHandler (wbApply k.inHandler _ (.d rd w)).1 (.sticky 4)).1 = _
    rw [hd]
    exact wbApply_stepped_sticky ..

/-! ### Legal words of format A (07 R219) -/

/-- MAC, MSU and MPY. -/
theorem atlLegal_productK {op : Nat} (hop : op = 0x50 ∨ op = 0x51 ∨ op = 0x52) (rd : Fin 4) (ra : Fin 16) (kb : Fin 8) (pc : Nat) :
    atlLegal (encA op rd ra kb 0 0) pc = true := by
  obtain rfl | rfl | rfl := hop <;>
    exact legalA _ rd ra kb 0 0 pc (by decide) (by omega) (by omega) (by omega) (by decide) (by decide) (by simp)

/-- MACG and MPYG. -/
theorem atlLegal_productG {op : Nat} (hop : op = 0x53 ∨ op = 0x54) (rd : Fin 4) (ra rb : Fin 16) (pc : Nat) :
    atlLegal (encA op rd ra rb 0 0) pc = true := by
  obtain rfl | rfl := hop <;>
    exact legalA _ rd ra rb 0 0 pc (by decide) (by omega) (by omega) (by omega) (by decide) (by decide) (by simp)

/-- MOVA and NEGA. -/
theorem atlLegal_accOne {op : Nat} (hop : op = 0x62 ∨ op = 0x63) (rd ra : Fin 4) (pc : Nat) :
    atlLegal (encA op rd ra 0 0 0) pc = true := by
  obtain rfl | rfl := hop <;>
    exact legalA _ rd ra 0 0 0 pc (by decide) (by omega) (by omega) (by decide) (by decide) (by decide) (by simp)

/-- ADDA and SUBA. -/
theorem atlLegal_accTwo {op : Nat} (hop : op = 0x64 ∨ op = 0x65) (rd ra rb : Fin 4) (pc : Nat) :
    atlLegal (encA op rd ra rb 0 0) pc = true := by
  obtain rfl | rfl := hop <;>
    exact legalA _ rd ra rb 0 0 pc (by decide) (by omega) (by omega) (by omega) (by decide) (by decide) (by simp)

theorem atlLegal_clra (rd : Fin 4) (pc : Nat) : atlLegal (encA 0x60 rd 0 0 0 0) pc = true :=
  legalA _ rd 0 0 0 0 pc (by decide) (by omega) (by decide) (by decide) (by decide) (by decide) (by simp)

theorem atlLegal_lda (rd : Fin 4) (ra : Fin 16) (pc : Nat) : atlLegal (encA 0x61 rd ra 0 0 0) pc = true :=
  legalA _ rd ra 0 0 0 pc (by decide) (by omega) (by omega) (by decide) (by decide) (by decide) (by simp)

theorem atlLegal_sha (rd ra : Fin 4) {sh : BitVec 8} (hsh : sh ≠ 0x80#8) (pc : Nat) : atlLegal (encA 0x66 rd ra 0 0 sh.toNat) pc = true := by
  have hne : sh.toNat ≠ 128 := fun e => hsh (BitVec.eq_of_toNat_eq e)
  exact legalA _ rd ra 0 0 sh.toNat pc (by decide) (by omega) (by omega) (by decide) (by decide) sh.isLt (by simp [hne])

theorem atlLegal_sta (rd : Fin 16) (ra : Fin 4) (pc : Nat) : atlLegal (encA 0x67 rd ra 0 0 0) pc = true :=
  legalA _ rd ra 0 0 0 pc (by decide) (by omega) (by omega) (by decide) (by decide) (by decide) (by simp)

/-! ### The instructions -/

section
variable {i : Instr} {c : Fin 68} {w : BitVec 64} {s : State} (eff : Core → IssueEff) (rd : Nat)

/-- An instruction that adds an exact value into an accumulator. -/
theorem completes_accAdd (v : Int) (he : exec i s = run (issue c w .plain eff) s)
    (heff : eff (coreOf s c) = effAcc rd v (coreOf s c)) (hl : atlLegal w (coreOf s c).pc = true) (h : AtWord c w s) :
    Completes i s (fun t => seen (coreOf t c) = accDone (coreOf s c) rd (accAdd (coreA (coreOf s c) rd) v) ∧ OnlyCore c s t) :=
  completes_afterThree eff [.accAdd rd v] he heff (wbApply_stepped_accAdd ..) hl h

/-- An instruction that gives an accumulator a new value. -/
theorem completes_accSet (x : Acc × Bool) (he : exec i s = run (issue c w .plain eff) s)
    (heff : eff (coreOf s c) = effAccSet rd x (coreOf s c)) (hl : atlLegal w (coreOf s c).pc = true) (h : AtWord c w s) :
    Completes i s (fun t => seen (coreOf t c) = accDone (coreOf s c) rd x ∧ OnlyCore c s t) :=
  completes_afterThree eff [.accSet rd x.1 x.2] he heff (wbApply_stepped_accSet ..) hl h

/-- An instruction that loads an accumulator: no flag changes (02 R49). -/
theorem completes_accLoad (v : Int) (he : exec i s = run (issue c w .plain eff) s)
    (heff : eff (coreOf s c) = effAccLoad rd v (coreOf s c)) (hl : atlLegal w (coreOf s c).pc = true) (h : AtWord c w s) :
    Completes i s (fun t => seen (coreOf t c) =
      stepped (coreOf s c) { bankOf (coreOf s c) with a := smSet accZero (bankOf (coreOf s c)).a rd (accLoad v) } ∧ OnlyCore c s t) :=
  accDone_of_kept (coreOf s c) rd (accLoad v) ▸ completes_accSet eff rd (accLoad v, false) he heff hl h

end

/-- Settles O5: each product lands in its accumulator, added to what it holds or in its place. -/
theorem multiplyAccumulate : Obligations.MultiplyAccumulate := by
  intro s c rd ra rb kb k b p g adds loads
  refine ⟨?_, ?_, ?_, ?_, ?_⟩
  · exact completes_accAdd _ rd p rfl rfl (atlLegal_productK (by decide) ..)
  · exact completes_accAdd _ rd (-p) rfl rfl (atlLegal_productK (by decide) ..)
  · exact completes_accLoad _ rd p rfl rfl (atlLegal_productK (by decide) ..)
  · exact completes_accAdd _ rd g rfl rfl (atlLegal_productG (by decide) ..)
  · exact completes_accLoad _ rd g rfl rfl (atlLegal_productG (by decide) ..)

/-- Settles O7: each instruction gives its accumulator the value that its operation answers; STA gives Dd the stored word. -/
theorem accumulatorOps : Obligations.AccumulatorOps := by
  intro s c rd ra rb r16 sh k b sets
  refine ⟨?_, ?_, ?_, ?_, ?_, ?_, ?_, ?_⟩
  · exact completes_accSet _ rd (accZero, false) rfl rfl (atlLegal_clra ..)
  · exact completes_accSet _ rd (accLoad ((coreD k r16).toInt * 2 ^ 36), false) rfl rfl (atlLegal_lda ..)
  · exact completes_accSet _ rd (coreA k ra, false) rfl rfl (atlLegal_accOne (by decide) ..)
  · exact completes_accSet _ rd (negAcc (coreA k ra)) rfl rfl (atlLegal_accOne (by decide) ..)
  · exact completes_accSet _ rd (addAcc (coreA k ra) (coreA k rb)) rfl rfl (atlLegal_accTwo (by decide) ..)
  · exact completes_accSet _ rd (subAcc (coreA k ra) (coreA k rb)) rfl rfl (atlLegal_accTwo (by decide) ..)
  · exact fun h hsh => completes_accSet _ rd (shaAcc (coreA k ra) sh.toInt) rfl rfl (atlLegal_sha rd ra hsh _) h
  · exact completes_afterThree _ (staActs r16 (storeS64 (coreA k ra))) rfl (effSta_eq ..) (landed_staActs ..) (atlLegal_sta ..)

end Sys2Proof.Machine
end

section
/-! PROOF. 03 R75 to R83: node words and ramp slots after a write; 03 R79, R80, R85, R87: the deadline of an armed node and the
end of a ramp (O15). -/

namespace Sys2Proof.Machine

/-! ### Node words and ramp slots -/

theorem node_setNode (s : State) (k k' : Nat) (w : BitVec 64) : node (setNode s k w) k' = if k' = k then w else node s k' := smGet_smSet ..

@[simp] theorem node_setNode_same (s : State) (k : Nat) (w : BitVec 64) : node (setNode s k w) k = w := smGet_smSet_same ..

@[simp] theorem rd_setNode (s : State) (k r : Nat) (w : BitVec 64) : rd (setNode s k w) r = rd s r := rfl

@[simp] theorem rd_setSlot (s : State) (p sl r : Nat) (v : RampSlot) : rd (setSlot s p sl v) r = rd s r := rfl

theorem node_congr {s t : State} (h : t.gal.nodes = s.gal.nodes) (k : Nat) : node t k = node s k := by unfold node; rw [h]

@[simp] theorem node_setSlot (s : State) (p sl k : Nat) (v : RampSlot) : node (setSlot s p sl v) k = node s k := rfl

@[simp] theorem slotOf_setSlot_same (s : State) (p sl : Nat) (v : RampSlot) : slotOf (setSlot s p sl v) p sl = v := smGet_smSet_same ..

@[simp] theorem slotOf_setNode (s : State) (k p sl : Nat) (w : BitVec 64) : slotOf (setNode s k w) p sl = slotOf s p sl := rfl

theorem slotOf_congr {s t : State} (h : t.gal.slots = s.gal.slots) (p sl : Nat) : slotOf t p sl = slotOf s p sl := by unfold slotOf; rw [h]

/-- 03 R75: a node names the ramp slot that it was given. -/
theorem ndSlot_ndSetState (w : BitVec 64) (st : Nat) {sl : Nat} (h : sl < 512) : ndSlot (ndSetState w st sl) = sl := by
  unfold ndSlot ndSetState ndPut
  rw [BitVec.toNat_ofNat, Nat.mod_eq_of_lt (putBits_lt _ _ _ _ _ (BitVec.isLt _) (by decide)), bitsOf_putBits]
  exact Nat.mod_eq_of_lt h

/-- 03 R82: every slot of a domain's range is one of the tile's 512. -/
theorem slotAlloc_lt {s : State} {x : Dom} {p n sl : Nat} {top : Bool} (h : slotAlloc s x p n top = some sl) : sl < 512 := by
  have hrange : (rampRange s x).2 ≤ 512 := by
    cases x
    · exact Nat.min_le_right ..
    · exact Nat.min_le_right ..
    · exact le_refl 512
  obtain ⟨q, hq, rfl⟩ := List.mem_map.mp (List.mem_of_find?_eq_some h)
  have hq : q < (rampRange s x).2 - (rampRange s x).1 := List.mem_range.mp hq
  show q + (rampRange s x).1 < 512
  omega

/-- 03 R83, R87: what is left of a slot when one of its users has settled on sample `n` of domain `x`. -/
theorem slotDrop_eq (s : State) (x : Dom) (p n sl : Nat) :
    slotDrop s x p n sl false = setSlot s p sl (if (slotOf s p sl).users ≤ 1 then ⟨none, 0, 0, 0, some x, n⟩
      else { slotOf s p sl with users := (slotOf s p sl).users - 1 }) := by
  unfold slotDrop
  exact (apply_ite (setSlot s p sl) ..).symm

@[simp] theorem deferAt_setNode (s : State) (k p q : Nat) (w : BitVec 64) : deferAt (setNode s k w) p q = deferAt s p q := rfl

@[simp] theorem deferAt_setSlot (s : State) (p sl p' q : Nat) (v : RampSlot) : deferAt (setSlot s p sl v) p' q = deferAt s p' q := rfl

/-- 03 R79: a node for which no write is deferred only settles. -/
theorem settleNode_undeferred (x : Dom) {p k : Nat} (n : Nat) {s : State} (h : deferAt s p k = none) :
    settleNode x p k n s = setNode s k (ndSettle (node s k)) := by
  unfold settleNode landDeferred
  simp only [deferAt_setNode, h]

/-! ### What the read of a node does (03 R79, R80, R85) -/

/-- 03 R79, R85: the fallback ramp of node `k` begins on sample `n` in slot `sl`, and is counted. -/
def fallbackBegun (x : Dom) (p k n sl : Nat) (s : State) : State :=
  cnt (setNode (setSlot s p sl ⟨some n, (genEntry s x (ndGen (node s k))).fallbackLen, 1, 0, none, 0⟩) k
    (ndSetState (node s k) nRAMPING sl)) (GAL_TILE_FALLBACK p)

/-- 03 R85: node `k` steps to its new gain, which is counted. -/
def hardStepped (p k : Nat) (s : State) : State := cnt (setNode s k (ndSettle (node s k))) (GAL_TILE_HARD_STEP p)

/-- 03 R79, R87: the ramp of node `k` has ended on sample `n`: the node gives up its slot and settles. -/
def rampEnded (x : Dom) (p k n : Nat) (s : State) : State :=
  setNode (slotDrop s x p n (ndSlot (node s k)) false) k (ndSettle (node s k))

/-- A ramp that is not at its last step goes on. -/
theorem rampStep_goesOn {x : Dom} {p k n a : Nat} {s : State} (ha : (slotOf s p (ndSlot (node s k))).start = some a)
    (hn : a ≤ n) (h : n + 1 < a + (slotOf s p (ndSlot (node s k))).len) : ∃ g, rampStep x p k n s = (g, s, false) := by
  unfold rampStep
  extract_lets w sl step g
  have hlast : ¬step = sl.len := by
    have hstep : step = min (n + 1 - a) sl.len := congrArg (fun b : Option Nat => min (n + 1 - b.getD n) sl.len) ha
    change n + 1 < a + sl.len at h
    omega
  exact ⟨g, if_neg hlast⟩

/-- 03 R79, R87: a ramp at its last step ends. -/
theorem rampStep_ends {x : Dom} {p k n a : Nat} {s : State} (ha : (slotOf s p (ndSlot (node s k))).start = some a)
    (h : a + (slotOf s p (ndSlot (node s k))).len ≤ n + 1) (hd : deferAt s p k = none) :
    ∃ g, rampStep x p k n s = (g, rampEnded x p k n s, true) := by
  unfold rampStep
  extract_lets w sl step g
  have hlast : step = sl.len := by
    have hstep : step = min (n + 1 - a) sl.len := congrArg (fun b : Option Nat => min (n + 1 - b.getD n) sl.len) ha
    change a + sl.len ≤ n + 1 at h
    omega
  have hsettle : settleNode x p k n (slotDrop s x p n (ndSlot w) false) = rampEnded x p k n s := by
    unfold rampEnded
    rw [slotDrop_eq]
    exact settleNode_undeferred x n ((deferAt_setSlot ..).trans hd)
  rw [if_pos hlast, hsettle]
  exact ⟨g, rfl⟩

/-- Node (d, i) is armed for sample `n`, its source does not cross zero, and its deadline has come. -/
structure AtDeadline (x : Dom) (p d i n : Nat) (s : State) : Prop where
  armed : ndState (node s (nodeKey p d i)) = nARMED
  bound : domS s i = some x
  noCross : smGet true s.gal.srcZc i = false
  deadline : (genEntry s x (ndGen (node s (nodeKey p d i)))).deadline ≤ n

theorem fallbackBegun_gal (x : Dom) (p k n sl : Nat) (s : State) : (fallbackBegun x p k n sl s).gal =
    (setNode (setSlot s p sl ⟨some n, (genEntry s x (ndGen (node s k))).fallbackLen, 1, 0, none, 0⟩) k (ndSetState (node s k) nRAMPING sl)).gal :=
  cnt_gal ..

theorem node_fallbackBegun (x : Dom) (p k n sl k' : Nat) (s : State) :
    node (fallbackBegun x p k n sl s) k' = if k' = k then ndSetState (node s k) nRAMPING sl else node s k' :=
  (node_congr (congrArg GalSt.nodes (fallbackBegun_gal ..)) k').trans (node_setNode ..)

theorem slotOf_fallbackBegun (x : Dom) (p k n sl : Nat) (s : State) :
    slotOf (fallbackBegun x p k n sl s) p sl = ⟨some n, (genEntry s x (ndGen (node s k))).fallbackLen, 1, 0, none, 0⟩ :=
  (slotOf_congr (congrArg GalSt.slots (fallbackBegun_gal ..)) p sl).trans ((slotOf_setNode ..).trans (slotOf_setSlot_same ..))

theorem readNode_fallback {x : Dom} {p d i n sl : Nat} {s : State} (h : AtDeadline x p d i n s)
    (hsl : slotAlloc s x p n true = some sl) (hlen : 2 ≤ (genEntry s x (ndGen (node s (nodeKey p d i)))).fallbackLen) :
    ∃ v, readNode x p d i n s = (fallbackBegun x p (nodeKey p d i) n sl s, v, .fallback) := by
  have hnames : ndSlot (node (fallbackBegun x p (nodeKey p d i) n sl s) (nodeKey p d i)) = sl := by
    rw [node_fallbackBegun, if_pos rfl, ndSlot_ndSetState _ _ (slotAlloc_lt hsl)]
  have hslot := slotOf_fallbackBegun x p (nodeKey p d i) n sl s
  obtain ⟨g, hstep⟩ := rampStep_goesOn (x := x) (p := p) (k := nodeKey p d i) (n := n) (a := n) (s := fallbackBegun x p (nodeKey p d i) n sl s)
    (by rw [hnames, hslot]) le_rfl (by rw [hnames, hslot]; exact Nat.add_lt_add_left hlen n)
  unfold fallbackBegun at hstep ⊢
  simp [readNode, h.armed, h.bound, h.noCross, h.deadline, hsl, hstep, nARMED, nSTAGED]

theorem readNode_hardStep {x : Dom} {p d i n : Nat} {s : State} (h : AtDeadline x p d i n s) (hsl : slotAlloc s x p n true = none)
    (hd : deferAt s p (nodeKey p d i) = none) :
    ∃ v, readNode x p d i n s = (hardStepped p (nodeKey p d i) s, v, .hardStep) := by
  simp [readNode, hardStepped, h.armed, h.bound, h.noCross, h.deadline, hsl, settleNode_undeferred x n hd, nARMED, nSTAGED]

theorem readNode_rampEnd {x : Dom} {p d i n a : Nat} {s : State} (hst : ndState (node s (nodeKey p d i)) = nRAMPING)
    (ha : (slotOf s p (ndSlot (node s (nodeKey p d i)))).start = some a)
    (h : a + (slotOf s p (ndSlot (node s (nodeKey p d i)))).len ≤ n + 1) (hd : deferAt s p (nodeKey p d i) = none) :
    ∃ v, readNode x p d i n s = (rampEnded x p (nodeKey p d i) n s, v, .rampEnd) := by
  obtain ⟨g, hstep⟩ := rampStep_ends (x := x) ha h hd
  simp [readNode, hst, hstep, nARMED, nSTAGED, nRAMPING]

/-! ### The next read of a job -/

/-- The job of column `d` runs on tile `p` for domain `x`; the next node that it reads is (d, i), and no node holds an error. -/
structure NextRead (s : State) (d i p : Nat) (j : ColJob) (x : Dom) : Prop where
  job : jobFor s d = some j
  tile : tileOf s d = some p
  clk : clkOk s 1 p = true
  notResolving : j.resolving = false
  dom : j.dom = some x
  upTo : j.upTo = i
  noBad : s.gal.badNodes = []

/-- Of a job's next node alone, the tile reads it when it is not in the reset state. -/
theorem liveNodes_next {s : State} {p d i : Nat} (h : ndState (node s (nodeKey p d i)) ≠ nSTEADY) : liveNodes s p d i (i + 1) [] = [i] := by
  have hlisted : nodeKey p d i ∈ s.gal.nodes.map Prod.fst := by
    by_contra hout
    have hreset : node s (nodeKey p d i) = nodeReset := smGet_absent _ _ _ fun e he hk => hout (hk ▸ List.mem_map_of_mem he)
    exact h (hreset ▸ by decide)
  have hmem : ∀ a, a ∈ liveNodes s p d i (i + 1) [] ↔ a ∈ [i] := by
    intro a
    rw [mem_liveNodes, List.mem_singleton]
    constructor
    · rintro ⟨hlo, hhi, -⟩
      omega
    · rintro rfl
      exact ⟨le_refl _, Nat.lt_succ_self _, .inl hlisted⟩
  exact List.perm_singleton.mp ((List.perm_ext_iff_of_nodup (nodup_liveNodes ..) (List.nodup_singleton i)).mpr hmem)

theorem jobReads_next {s s1 : State} {d i p : Nat} {j : ColJob} {x : Dom} {v : Int} {e : NodeEv} (h : NextRead s d i p j x)
    (hst : ndState (node s (nodeKey p j.d i)) ≠ nSTEADY) (hread : readNode x p j.d i j.n s = (s1, v, e)) (he : e ≠ .plain) :
    jobReads p j x (i + 1) [] s = (s1, j.sum + v, [(i, e)]) := by
  unfold jobReads
  rw [h.upTo, liveNodes_next hst]
  simp [h.noBad, hread, he]

/-- The transition that a row names is performed when the next read is that transition; the job then goes on behind the node. -/
theorem readUpTo_next {s s1 : State} {d i p : Nat} {j : ColJob} {x : Dom} {v : Int} {e : NodeEv} {want : NodeEv → Bool}
    (h : NextRead s d i p j x) (hst : ndState (node s (nodeKey p j.d i)) ≠ nSTEADY) (hread : readNode x p j.d i j.n s = (s1, v, e))
    (he : e ≠ .plain) (hwant : want e = true) :
    ∃ jobs, readUpTo d i want s = tileUse p { s1 with gal := { s1.gal with jobs := jobs } } := by
  refine ⟨s1.gal.jobs.map fun q => if q.d == j.d && q.n == j.n then { q with sum := j.sum + v, upTo := i + 1 } else q, ?_⟩
  simp [readUpTo, h.job, h.tile, h.clk, h.notResolving, h.dom, h.upTo, jobReads_next h hst hread he, hwant]

/-- Nodes and ramp slots are those of `s`, and so are the registers, but for what shows the use of tile `p` and what settling
writes. -/
structure SameNodes (p : Nat) (s t : State) : Prop where
  nodes : t.gal.nodes = s.gal.nodes
  slots : t.gal.slots = s.gal.slots
  rd : ∀ k, k ≠ GAL_TILE_USE p → k ≠ GAL_TILE_DEFER p → ¬settleKey k → rd t k = rd s k

theorem SameNodes.trans {p : Nat} {s t u : State} (h : SameNodes p s t) (h' : SameNodes p t u) : SameNodes p s u :=
  ⟨h'.nodes.trans h.nodes, h'.slots.trans h.slots, fun k hu hd hk => (h'.rd k hu hd hk).trans (h.rd k hu hd hk)⟩

theorem SameNodes.settled (p : Nat) (s t : State) : SameNodes p t (keep s (settle t)) :=
  ⟨congrArg GalSt.nodes (settle_gal t), congrArg GalSt.slots (settle_gal t), fun k _ _ hk => rd_settle t k hk⟩

theorem SameNodes.tileUse (p : Nat) (jobs : List ColJob) (s : State) :
    SameNodes p s (Machine.tileUse p { s with gal := { s.gal with jobs := jobs } }) :=
  ⟨tileUse_keeps (fun t => t.gal.nodes) (fun _ _ => rfl) p _, tileUse_keeps (fun t => t.gal.slots) (fun _ _ => rfl) p _,
    fun k hu hd _ => rd_tileUse p k _ hu hd⟩

/-- A command whose effect is a job's next read: what holds of the nodes after the read holds after the command. -/
theorem NextRead.completes {c : Instr} {s s1 : State} {d i p : Nat} {j : ColJob} {x : Dom} {v : Int} {e : NodeEv} {want : NodeEv → Bool}
    {P : State → Prop} (h : NextRead s d i p j x) (hc : exec c s = run (readUpTo d i want) s) (ready : Ready s)
    (hst : ndState (node s (nodeKey p j.d i)) ≠ nSTEADY) (hread : readNode x p j.d i j.n (quietOut s) = (s1, v, e))
    (he : e ≠ .plain) (hwant : want e = true) (hP : ∀ t, SameNodes p s1 t → P t) : Completes c s P := by
  have hquiet : NextRead (quietOut s) d i p j x := ⟨h.job, h.tile, h.clk, h.notResolving, h.dom, h.upTo, h.noBad⟩
  obtain ⟨jobs, hrun⟩ := readUpTo_next hquiet hst hread he hwant
  refine completes_run (readUpTo d i want) hc ready (hP _ ?_)
  rw [hrun]
  exact (SameNodes.tileUse p jobs s1).trans (.settled p s _)

/-! ### The transitions of a node -/

/-- The registers of the audio blocks lie above those that settling writes. -/
theorem not_settleKey {k : Nat} (h : 0x200000 ≤ k) : ¬settleKey k := by
  unfold settleKey CTL_MSIX_PBA PWR_DOM_STATUS
  omega

/-- What a node's ramp begun in slot `sl` leaves (03 R79, R85). -/
theorem SameNodes.fallback {x : Dom} {p k n sl : Nat} {s t : State} (h : SameNodes p (fallbackBegun x p k n sl s) t) :
    node t k = ndSetState (node s k) nRAMPING sl ∧
      slotOf t p sl = ⟨some n, (genEntry s x (ndGen (node s k))).fallbackLen, 1, 0, none, 0⟩ ∧
      Machine.rd t (GAL_TILE_FALLBACK p) = Machine.rd s (GAL_TILE_FALLBACK p) + 1 ∧ ∀ k', k' ≠ k → node t k' = node s k' := by
  have huse : GAL_TILE_FALLBACK p ≠ GAL_TILE_USE p := by unfold GAL_TILE_FALLBACK GAL_TILE_USE; omega
  have hdefer : GAL_TILE_FALLBACK p ≠ GAL_TILE_DEFER p := by unfold GAL_TILE_FALLBACK GAL_TILE_DEFER; omega
  refine ⟨?_, ?_, ?_, fun k' hk' => ?_⟩
  · rw [node_congr h.nodes, node_fallbackBegun, if_pos rfl]
  · rw [slotOf_congr h.slots, slotOf_fallbackBegun]
  · rw [h.rd _ huse hdefer (not_settleKey (by unfold GAL_TILE_FALLBACK; omega)), fallbackBegun, rd_cnt, rd_setNode, rd_setSlot]
  · rw [node_congr h.nodes, node_fallbackBegun, if_neg hk']

theorem node_hardStepped (p k k' : Nat) (s : State) : node (hardStepped p k s) k' = if k' = k then ndSettle (node s k) else node s k' :=
  (node_congr (congrArg GalSt.nodes (cnt_gal ..)) k').trans (node_setNode ..)

/-- What a hard step leaves (03 R85). -/
theorem SameNodes.hardStep {p k : Nat} {s t : State} (h : SameNodes p (hardStepped p k s) t) :
    node t k = ndSettle (node s k) ∧ Machine.rd t (GAL_TILE_HARD_STEP p) = Machine.rd s (GAL_TILE_HARD_STEP p) + 1 ∧
      ∀ k', k' ≠ k → node t k' = node s k' := by
  have huse : GAL_TILE_HARD_STEP p ≠ GAL_TILE_USE p := by unfold GAL_TILE_HARD_STEP GAL_TILE_USE; omega
  have hdefer : GAL_TILE_HARD_STEP p ≠ GAL_TILE_DEFER p := by unfold GAL_TILE_HARD_STEP GAL_TILE_DEFER; omega
  refine ⟨?_, ?_, fun k' hk' => ?_⟩
  · rw [node_congr h.nodes, node_hardStepped, if_pos rfl]
  · rw [h.rd _ huse hdefer (not_settleKey (by unfold GAL_TILE_HARD_STEP; omega)), hardStepped, rd_cnt, rd_setNode]
  · rw [node_congr h.nodes, node_hardStepped, if_neg hk']

theorem node_rampEnded (x : Dom) (p k n k' : Nat) (s : State) :
    node (rampEnded x p k n s) k' = if k' = k then ndSettle (node s k) else node s k' := by
  unfold rampEnded
  rw [node_setNode, slotDrop_eq, node_setSlot]

theorem slotOf_rampEnded (x : Dom) (p k n : Nat) (s : State) :
    slotOf (rampEnded x p k n s) p (ndSlot (node s k)) = (if (slotOf s p (ndSlot (node s k))).users ≤ 1 then ⟨none, 0, 0, 0, some x, n⟩
      else { slotOf s p (ndSlot (node s k)) with users := (slotOf s p (ndSlot (node s k))).users - 1 }) := by
  unfold rampEnded
  rw [slotOf_setNode, slotDrop_eq, slotOf_setSlot_same]

/-- What the end of a ramp leaves (03 R79, R87). -/
theorem SameNodes.rampEnd {x : Dom} {p k n : Nat} {s t : State} (h : SameNodes p (rampEnded x p k n s) t) :
    node t k = ndSettle (node s k) ∧ (∀ k', k' ≠ k → node t k' = node s k') ∧
      slotOf t p (ndSlot (node s k)) = (if (slotOf s p (ndSlot (node s k))).users ≤ 1 then ⟨none, 0, 0, 0, some x, n⟩
        else { slotOf s p (ndSlot (node s k)) with users := (slotOf s p (ndSlot (node s k))).users - 1 }) := by
  refine ⟨?_, fun k' hk' => ?_, ?_⟩
  · rw [node_congr h.nodes, node_rampEnded, if_pos rfl]
  · rw [node_congr h.nodes, node_rampEnded, if_neg hk']
  · rw [slotOf_congr h.slots, slotOf_rampEnded]

/-- Settles O15: the row's command makes the job read its next node, and the read is the transition. -/
theorem nodeTransitions : Obligations.NodeTransitions := by
  intro s d i j p x ready hjob htile hclk hres hdom hupTo hbad k w e hdefer
  have hnext : NextRead s d i p j x := ⟨hjob, htile, hclk, hres, hdom, hupTo, hbad⟩
  refine ⟨fun harmed hbound hzc hdl => ?_, fun hramp a ha hlast _ => ?_⟩
  · have hdeadline : AtDeadline x p j.d i j.n (quietOut s) := ⟨harmed, hbound, hzc, hdl⟩
    have hst : ndState w ≠ nSTEADY := harmed ▸ by decide
    refine ⟨fun sl hsl hlen => ?_, fun hsl => ?_⟩
    · obtain ⟨v, hread⟩ := readNode_fallback hdeadline hsl hlen
      exact hnext.completes rfl ready hst hread (by decide) rfl fun t ht => ht.fallback
    · obtain ⟨v, hread⟩ := readNode_hardStep hdeadline hsl hdefer
      exact hnext.completes rfl ready hst hread (by decide) rfl fun t ht => ht.hardStep
  · have hst : ndState w ≠ nSTEADY := hramp ▸ by decide
    obtain ⟨v, hread⟩ := readNode_rampEnd (s := quietOut s) (x := x) hramp ha hlast hdefer
    exact hnext.completes rfl ready hst hread (by decide) rfl fun t ht => ht.rampEnd

end Sys2Proof.Machine
end

section
/-! PROOF. 03 R88, R90, R93, R100, R101: a write to the staging port (O16). -/

namespace Sys2Proof.Machine

/-! ### The staging port (03 R90, R100) -/

/-- The port has answered with code `c`, and is free. -/
def stgAnswered (c : Nat) (s : State) : State :=
  fset (fset { s with gal := { s.gal with stgWait := none } } GAL_STG_CMD GAL_STG_CMD_status c) GAL_STG_CMD GAL_STG_CMD_busy 0

/-- The port waits with write `q` for room. -/
def stgStalled (q : StgWrite) (s : State) : State := fset { s with gal := { s.gal with stgWait := some q } } GAL_STG_CMD GAL_STG_CMD_busy 1

theorem stgFinish_answered {q : StgWrite} {s s1 : State} {c : Nat} (h : stageNode q s = (s1, some c)) : stgFinish q s = stgAnswered c s1 := by
  unfold stgFinish
  rw [h]
  rfl

theorem stgFinish_stalled {q : StgWrite} {s s1 : State} (h : stageNode q s = (s1, none)) : stgFinish q s = stgStalled q s1 := by
  unfold stgFinish
  rw [h]
  rfl

/-- A write of 1 to the stage bit of a free port in an island that is ON. -/
structure Launches (w : W32) (s : State) : Prop where
  on : regOn s GAL_STG_CMD = true
  stage : wbit w GAL_STG_CMD_stage = true
  free : fbit s GAL_STG_CMD GAL_STG_CMD_busy = false

theorem softWrite_stgCmd {w : W32} {s : State} (h : Launches w s) : softWrite 8 GAL_STG_CMD w s = stgCmd w s := by
  unfold softWrite
  rw [if_pos h.on]
  rfl

theorem launch_answered {w : W32} {s s1 : State} {c : Nat} (h : Launches w s) (hq : stageNode (stgWriteRegs s) s = (s1, some c)) :
    softWrite 8 GAL_STG_CMD w s = stgAnswered c s1 := by
  rw [softWrite_stgCmd h]
  simp [stgCmd, h.stage, h.free, stgFinish_answered hq, stgAnswered]

theorem launch_stalled {w : W32} {s s1 : State} {p : Nat} (h : Launches w s) (hq : stageNode (stgWriteRegs s) s = (s1, none))
    (hp : tileOf s (stgWriteRegs s).d = some p) : softWrite 8 GAL_STG_CMD w s = cnt (stgStalled (stgWriteRegs s) s1) (GAL_TILE_STALL p) := by
  rw [softWrite_stgCmd h]
  simp [stgCmd, h.stage, h.free, stgFinish_stalled hq, stgStalled, hp]

/-- After the command the port has answered code `c` and is free, and the tiles are as in `s`. -/
structure Answered (c : Nat) (s t : State) : Prop where
  status : fget t GAL_STG_CMD GAL_STG_CMD_status = c
  busy : fget t GAL_STG_CMD GAL_STG_CMD_busy = 0
  gal : t.gal = { s.gal with stgWait := none }

theorem stgAnswered_answered {c : Nat} (hc : c < 16) (s' s : State) : Answered c s (keep s' (settle (stgAnswered c s))) := by
  have hsettle (f : Fld) : fget (keep s' (settle (stgAnswered c s))) GAL_STG_CMD f = fget (stgAnswered c s) GAL_STG_CMD f :=
    fget_settle _ _ f (not_settleKey (by decide))
  refine ⟨(hsettle _).trans ?_, (hsettle _).trans ?_, settle_gal (stgAnswered c s)⟩
  · exact (fget_fset_other _ _ GAL_STG_CMD_busy GAL_STG_CMD_status 0 (by decide) (by decide)).trans
      ((fget_fset _ _ GAL_STG_CMD_status c (by decide)).trans (Nat.mod_eq_of_lt hc))
  · exact fget_fset _ _ GAL_STG_CMD_busy 0 (by decide)

/-- What holds of a port that has answered holds after a command whose effect is the answer. -/
theorem completes_answered {i : Instr} {s s1 : State} {c : Nat} {P : State → Prop} {f : State → State} (hi : exec i s = run f s)
    (ready : Ready s) (hc : c < 16) (hf : f (quietOut s) = stgAnswered c s1) (hP : ∀ t, Answered c s1 t → P t) : Completes i s P := by
  refine completes_run f hi ready (hP _ ?_)
  rw [hf]
  exact stgAnswered_answered hc s s1

theorem Launches.quiet {w : W32} {s : State} (h : Launches w s) : Launches w (quietOut s) := ⟨h.on, h.stage, h.free⟩

/-- A launch that the tile answers at once. -/
theorem Launches.completes {w : W32} {s s1 : State} {c : Nat} {P : State → Prop} (h : Launches w s) (ready : Ready s) (hc : c < 16)
    (hq : stageNode (stgWriteRegs s) (quietOut s) = (s1, some c)) (hP : ∀ t, Answered c s1 t → P t) : Completes (.stageNode w) s P :=
  completes_answered (f := softWrite 8 GAL_STG_CMD w) rfl ready hc (launch_answered h.quiet hq) hP

/-- A write that has waited and is answered now (03 R90). -/
theorem completes_release {q : StgWrite} {s s1 : State} {c : Nat} {P : State → Prop} (hw : s.gal.stgWait = some q) (ready : Ready s)
    (hc : c < 16) (hq : stageNode q (quietOut s) = (s1, some c)) (hP : ∀ t, Answered c s1 t → P t) : Completes .stagingStallRelease s P := by
  refine completes_answered (f := doStagingStallRelease) rfl ready hc ?_ hP
  unfold doStagingStallRelease
  rw [quietOut_gal, hw]
  exact stgFinish_answered hq

/-! ### What a staging write of one node does (03 R88, R90, R93, R101) -/

section
variable {q : StgWrite} {s : State} {p : Nat}

theorem stageNode_noTile (h : tileOf s q.d = none) : stageNode q s = (s, some stTILE) := by
  unfold stageNode
  rw [h]

theorem stageNode_full (hp : tileOf s q.d = some p) (h : 64 ≤ defersOf s p) : stageNode q s = (s, none) := by
  unfold stageNode
  simp [hp, h]

theorem stageNode_unbound (hp : tileOf s q.d = some p) (hroom : defersOf s p < 64) (hl : q.linked = false) (h : domD s q.d = none) :
    stageNode q s = (landNow (nodeKey p q.d q.s) q.gain s, some stOK) := by
  unfold stageNode
  simp [hp, Nat.not_le.mpr hroom, hl, h]

theorem stageNode_closed {x : Dom} (hp : tileOf s q.d = some p) (hroom : defersOf s p < 64) (hl : q.linked = false)
    (hx : domD s q.d = some x) (h : tagCommitted s x q.gen = true) : stageNode q s = (s, some stGENCLOSED) := by
  unfold stageNode
  simp [hp, Nat.not_le.mpr hroom, hl, hx, h]

theorem stageNode_free {x : Dom} (hp : tileOf s q.d = some p) (hroom : defersOf s p < 64) (hl : q.linked = false)
    (hx : domD s q.d = some x) (ht : tagCommitted s x q.gen = false) (h : ndState (node s (nodeKey p q.d q.s)) < nARMED) :
    stageNode q s = (tileUse p (stageAt (nodeKey p q.d q.s) 0x1FF q.gen q.gain (unlink s p (node s (nodeKey p q.d q.s)))), some stOK) := by
  unfold stageNode
  simp [hp, Nat.not_le.mpr hroom, hl, hx, ht, busyNode, Nat.not_le.mpr h]

theorem stageNode_busy {x : Dom} (hp : tileOf s q.d = some p) (hroom : defersOf s p < 64) (hl : q.linked = false)
    (hx : domD s q.d = some x) (ht : tagCommitted s x q.gen = false) (h : nARMED ≤ ndState (node s (nodeKey p q.d q.s)))
    (hd : deferAt s p (nodeKey p q.d q.s) = none) :
    stageNode q s = (tileUse p { s with gal := { s.gal with defer := s.gal.defer ++ [⟨p, nodeKey p q.d q.s, q.gain, q.gen, false⟩] } },
      some stOK) := by
  unfold stageNode
  simp [hp, Nat.not_le.mpr hroom, hl, hx, ht, busyNode, h, hd]

end

theorem tileUse_gal (p : Nat) (s : State) : (tileUse p s).gal = s.gal := tileUse_keeps State.gal (fun _ _ => rfl) p s

/-- Giving up the slot of a linked change leaves the nodes as they are (03 R88). -/
theorem node_unlink (s : State) (p k : Nat) (w : BitVec 64) : node (unlink s p w) k = node s k := by
  unfold unlink slotGiveUp
  split
  · dsimp only
    split <;> exact node_setSlot ..
  · rfl

theorem node_staged (s : State) (p k slot gen k' : Nat) (g : G24) (w : BitVec 64) :
    node (tileUse p (stageAt k slot gen g (unlink s p w))) k' =
      if k' = k then ndPut (ndSetState (ndSetPend (node s k) g) nSTAGED slot) 9 4 gen else node s k' := by
  rw [node_congr (congrArg GalSt.nodes (tileUse_gal p _)), stageAt, node_setNode, node_unlink, node_unlink]

theorem Answered.nodes {c : Nat} {s t : State} (h : Answered c s t) : t.gal.nodes = s.gal.nodes := by rw [h.gal]

theorem Answered.node {c : Nat} {s t : State} (h : Answered c s t) (k : Nat) : node t k = Machine.node s k := node_congr h.nodes k

/-! ### A launch, case by case (O16) -/

/-- A launch to a tile whose deferral table is full: the port waits, and the tile counts it (03 R90). -/
theorem Launches.stalls {w : W32} {s : State} {p : Nat} (h : Launches w s) (ready : Ready s)
    (hp : tileOf s (stgWriteRegs s).d = some p) (hfull : 64 ≤ defersOf s p) :
    Completes (.stageNode w) s (fun t => fget t GAL_STG_CMD GAL_STG_CMD_busy = 1 ∧
      t.gal = { s.gal with stgWait := some (stgWriteRegs s) } ∧ rd t (GAL_TILE_STALL p) = rd s (GAL_TILE_STALL p) + 1) := by
  have hne : GAL_TILE_STALL p ≠ GAL_STG_CMD := by unfold GAL_TILE_STALL GAL_STG_CMD; omega
  refine completes_run (softWrite 8 GAL_STG_CMD w) rfl ready ?_
  rw [launch_stalled (p := p) h.quiet (stageNode_full (s := quietOut s) hp hfull) hp]
  refine ⟨?_, ?_, ?_⟩
  · rw [fget_keep, fget_settle _ _ _ (not_settleKey (by decide)), fget_congr _ _ _ _ (rd_cnt_ne _ _ _ hne.symm)]
    exact fget_fset _ _ GAL_STG_CMD_busy 1 (by decide)
  · rw [keep_gal, settle_gal, cnt_gal]
    rfl
  · rw [rd_keep, rd_settle _ _ (not_settleKey (by unfold GAL_TILE_STALL; omega)), rd_cnt]
    exact congrArg (· + 1) (rd_fset_ne _ _ _ _ _ hne)

/-- Settles O16: the tile answers each write at once, by the case that its table, binding, tag and node make, or stalls it. -/
theorem stagingPort : Obligations.StagingPort := by
  intro s w ready r status
  refine ⟨fun hon hstage hfree hl => ?_, fun q p x hq hp hx ht hl hbusy hd hroom => ?_⟩
  · have launch : Launches w s := ⟨hon, hstage, hfree⟩
    refine ⟨fun hp => ?_, fun p hp => ⟨launch.stalls ready hp, fun hroom hx => ?_, fun x hroom hx ht => ?_, fun x hroom hx ht hidle => ?_⟩⟩
    · exact launch.completes ready (by decide) (stageNode_noTile (s := quietOut s) hp) fun t h => ⟨⟨h.status, h.busy⟩, h.gal⟩
    · refine launch.completes ready (by decide) (stageNode_unbound (s := quietOut s) hp hroom hl hx) fun t h =>
        ⟨⟨h.status, h.busy⟩, ?_, fun k' hk' => ?_⟩
      · exact (h.node _).trans (node_setNode_same ..)
      · exact (h.node k').trans ((node_setNode ..).trans (if_neg hk'))
    · exact launch.completes ready (by decide) (stageNode_closed (s := quietOut s) hp hroom hl hx ht) fun t h =>
        ⟨⟨h.status, h.busy⟩, h.nodes⟩
    · refine launch.completes ready (by decide) (stageNode_free (s := quietOut s) hp hroom hl hx ht hidle) fun t h =>
        ⟨⟨h.status, h.busy⟩, ?_, fun k' hk' => ?_⟩
      · exact (h.node _).trans ((node_staged ..).trans (if_pos rfl))
      · exact (h.node k').trans ((node_staged ..).trans (if_neg hk'))
  · refine completes_release hq ready (by decide) (stageNode_busy (s := quietOut s) hp hroom hl hx ht hbusy hd) fun t h => ?_
    have hgal := h.gal
    rw [tileUse_gal] at hgal
    rw [hgal]
    exact ⟨⟨h.status, h.busy⟩, rfl, rfl, rfl⟩

end Sys2Proof.Machine
end

section
/-! PROOF. 15 R460: a software write to a register of the scene block stores a word, and reads of the rest of the engine do not see it;
04 R104: a claim of a generation tag; 04 R116, R123, R125 to R127, R603: a record at the record port (O17). -/

namespace Sys2Proof.Machine

/-! ### A software write to a register of the scene block (15 R460, R463) -/

/-- No seal locks a register of the scene block (15 R462). -/
theorem not_isSealed_scene {k : Nat} (s : State) (h : k / 0x40000 = 12) : isSealed s k = false := by
  have hgeom : (List.range 4).any (fun c => k == DRC_CH_GEOM c) = false := by
    simp only [List.any_eq_false, List.mem_range, beq_iff_eq]
    intro c hc
    unfold DRC_CH_GEOM drcChBase
    split <;> omega
  have hdom : (List.range 15).any (fun d => decide (1 ≤ d) && k == PWR_DOM_CFG d) = false := by
    simp only [List.any_eq_false, List.mem_range, Bool.and_eq_true, beq_iff_eq, PWR_DOM_CFG]
    omega
  unfold isSealed
  rw [hgeom, hdom, if_neg, if_neg, if_neg, if_neg, if_neg, if_neg, if_neg] <;>
    simp only [TIM_DOM_CFG, TIM_PRIO, TIM_HOLD_CFG, TIM_REF_IN_CFG, TIM_AUX_CFG, DRC_CFG, DRC_TIM0, DRC_TIM1, DRC_TIM2, TWN_CFG,
      PWR_MAP_RUN, PWR_MAP_QUIET, PWR_BANK_RETAIN_LO, PWR_BANK_RETAIN_HI, PWR_NW_CFG, PWR_NW_LINKS, PWR_WAKE_GP, PWR_RESUME_LO,
      PWR_RESUME_HI, Bool.false_eq_true, or_false] <;> omega

/-- The word that a software write leaves in the register described by `r` (15 R460). -/
def wordAfterWrite (r : RegInfo) (old v : W32) : W32 :=
  (old &&& ~~~BitVec.ofNat 32 r.w) ||| (v &&& BitVec.ofNat 32 r.w) ||| (v &&& BitVec.ofNat 32 r.sealed)

/-- A field that software writes takes the written word. -/
theorem wget_wordAfterWrite {r : RegInfo} {f : Fld} (old v : W32) (hlen : f.lo + f.len ≤ 32)
    (hw : ∀ i < f.len, r.w.testBit (f.lo + i) = true) : wget (wordAfterWrite r old v) f = wget v f := by
  refine Nat.eq_of_testBit_eq fun i => ?_
  unfold wget wordAfterWrite
  rw [bitsOf_testBit, bitsOf_testBit]
  by_cases hi : i < f.len
  · have hlt : f.lo + i < 32 := by omega
    simp only [BitVec.testBit_toNat, BitVec.getLsbD_or, BitVec.getLsbD_and, BitVec.getLsbD_not, BitVec.getLsbD_ofNat, hlt, hw i hi]
    cases v.getLsbD (f.lo + i) <;> simp
  · simp [hi]

theorem swWrite_scene {k : Nat} {r : RegInfo} (hr : regInfo k = some r) (h : k / 0x40000 = 12) (s : State) (m : Nat) (v : W32) :
    swWrite s m k v = wr s k (wordAfterWrite r (rd s k) v) := by
  unfold swWrite fieldsWrite
  rw [not_isSealed_scene s h, hr]
  rfl

/-- The scene block's registers with an action of their own, and the others. -/
theorem softWrite_scene {k : Nat} {s : State} (m : Nat) (v : W32) (h : k / 0x40000 = 12) (hon : regOn s k = true) :
    softWrite m k v s = if k = SCN_GEN_CLAIM then genClaim m v s else if k = SCN_REC_CMD then recCmd m v s
      else if k = SCN_CMT_CTRL then cmtCtrl m (issuerOf m) v s else swWrite s m k v := by
  have hctl : ¬k < 6 * 0x40000 := by omega
  have hlink : ¬k < 11 * 0x40000 := by omega
  unfold softWrite regWrite regWriteAudio
  rw [if_pos hon, if_neg hctl, if_neg hlink, h]
  rfl

/-! ### What a claim of a tag does (04 R104) -/

theorem claimedBits_congr {s t : State} {x : Dom} (h : rd t (SCN_GEN (domNo x)) = rd s (SCN_GEN (domNo x))) :
    claimedBits t x = claimedBits s x := fget_congr _ _ _ _ h

theorem isClaimed_congr {s t : State} {x : Dom} (h : rd t (SCN_GEN (domNo x)) = rd s (SCN_GEN (domNo x))) (g : Nat) :
    isClaimed t x g = isClaimed s x g := congrArg (bitOf · g) (claimedBits_congr h)

theorem tagOpen_congr {s t : State} (h : rd t GAL_COMMITTED = rd s GAL_COMMITTED) (x : Dom) (g : Nat) : tagOpen t x g = tagOpen s x g := by
  unfold tagOpen tagCommitted genC
  rw [fget_congr _ _ _ _ h]

/-- The tag that a claim would take is read from the domain's register and from GAL_COMMITTED. -/
theorem claimTag_congr {s t : State} {x : Dom} (hgen : rd t (SCN_GEN (domNo x)) = rd s (SCN_GEN (domNo x)))
    (hcom : rd t GAL_COMMITTED = rd s GAL_COMMITTED) : claimTag t x = claimTag s x := by
  unfold claimTag genC
  simp only [claimedBits_congr hgen, tagOpen_congr hcom, fget_congr _ _ _ _ hgen, fget_congr _ _ _ _ hcom]

theorem claimTag_lt {s : State} {x : Dom} {g : Nat} (h : claimTag s x = some g) : g < 16 := by
  simp only [claimTag, Option.ite_none_right_eq_some, Option.some.injEq] at h
  exact h.2 ▸ Nat.mod_lt _ (by decide)

theorem bitOf_eq_testBit (v i : Nat) : bitOf v i = v.testBit i := by
  unfold bitOf
  rw [Nat.testBit_eq_decide_div_mod_eq]

theorem bitOf_putBits_one (v g i : Nat) : bitOf (putBits v g 1 1) i = (decide (i = g) || bitOf v i) := by
  rw [bitOf_eq_testBit, bitOf_eq_testBit]
  by_cases h : i = g
  · subst h
    have hfield := bitsOf_testBit (putBits v i 1 1) i 1 0
    rw [bitsOf_putBits] at hfield
    simpa using hfield.symm
  · rw [putBits_testBit _ _ _ _ _ (by omega), decide_eq_false h, Bool.false_or]

@[simp] theorem claim_scn (x : Dom) (g : Nat) (s : State) : (claim x g s).scn = s.scn := (fset_scn ..).trans (fset_scn ..)

theorem rd_claim_ne {x : Dom} {k : Nat} (g : Nat) (s : State) (h : k ≠ SCN_GEN (domNo x)) : rd (claim x g s) k = rd s k :=
  (rd_fset_ne _ _ _ _ _ h).trans (rd_fset_ne _ _ _ _ _ h)

theorem domOf_domNo (x : Dom) : domOf (domNo x + 1) = some x := by cases x <;> rfl

theorem domNo_injective {x y : Dom} (h : domNo x = domNo y) : x = y :=
  Option.some.inj ((domOf_domNo x).symm.trans ((congrArg (fun n => domOf (n + 1)) h).trans (domOf_domNo y)))

theorem scnGen_ne {x y : Dom} (h : x ≠ y) : SCN_GEN (domNo x) ≠ SCN_GEN (domNo y) := fun e => h (domNo_injective (Nat.add_left_cancel e))

theorem not_settleKey_scnGen (x : Dom) : ¬settleKey (SCN_GEN (domNo x)) := not_settleKey (by unfold SCN_GEN; omega)

theorem isClaimed_settled (s t : State) (x : Dom) (g : Nat) : isClaimed (keep s (settle t)) x g = isClaimed t x g :=
  isClaimed_congr (rd_settle t _ (not_settleKey_scnGen x)) g

/-- A claim claims its tag and no other. -/
theorem isClaimed_claim {x : Dom} {g : Nat} (hg : g < 16) (s : State) (y : Dom) (i : Nat) :
    isClaimed (claim x g s) y i = (decide (y = x ∧ i = g) || isClaimed s y i) := by
  by_cases hy : y = x
  · subst hy
    have hbits : claimedBits (claim y g s) y = putBits (claimedBits s y) g 1 1 := by
      refine (fget_fset_other _ _ SCN_GEN_last_claimed SCN_GEN_claimed g (by decide) (by decide)).trans ?_
      rw [fget_fset _ _ _ _ (by decide)]
      exact Nat.mod_eq_of_lt (putBits_lt _ _ _ _ 16 (bitsOf_lt ..) (by omega))
    unfold isClaimed
    rw [hbits, bitOf_putBits_one]
    simp
  · rw [isClaimed_congr (rd_claim_ne g s (scnGen_ne hy))]
    simp [hy]

theorem lastClaimed_claim {x : Dom} {g : Nat} (hg : g < 16) (s : State) :
    fget (claim x g s) (SCN_GEN (domNo x)) SCN_GEN_last_claimed = g :=
  (fget_fset _ _ SCN_GEN_last_claimed g (by decide)).trans (Nat.mod_eq_of_lt hg)

/-! ### The claim register (04 R104) -/

theorem regInfo_genClaim : regInfo SCN_GEN_CLAIM = some ⟨3, 1, 0x300, 0, 0⟩ := by decide +kernel

/-- The claim register after the write, before the claim. -/
def claimWritten (w : W32) (s : State) : State := wr s SCN_GEN_CLAIM (wordAfterWrite ⟨3, 1, 0x300, 0, 0⟩ (rd s SCN_GEN_CLAIM) w)

theorem rd_claimWritten {k : Nat} (w : W32) (s : State) (h : k ≠ SCN_GEN_CLAIM) : rd (claimWritten w s) k = rd s k := rd_wr_ne _ _ _ _ h

/-- The domain field takes the written word. -/
theorem domain_claimWritten (w : W32) (s : State) :
    fget (claimWritten w s) SCN_GEN_CLAIM SCN_GEN_CLAIM_domain = wget w SCN_GEN_CLAIM_domain := by
  unfold fget claimWritten
  rw [rd_wr]
  exact wget_wordAfterWrite _ w (by decide) (by decide)

theorem scnGen_ne_claim (x : Dom) : SCN_GEN (domNo x) ≠ SCN_GEN_CLAIM := by cases x <;> decide

theorem claimTag_claimWritten (w : W32) (s : State) (x : Dom) : claimTag (claimWritten w s) x = claimTag s x :=
  claimTag_congr (rd_claimWritten w s (scnGen_ne_claim x)) (rd_claimWritten w s (by decide))

theorem swWrite_genClaim (s : State) (m : Nat) (w : W32) : swWrite s m SCN_GEN_CLAIM w = claimWritten w s :=
  swWrite_scene regInfo_genClaim (by decide) s m w

/-- Domain `x` has no tag to claim. -/
def claimRefused (w : W32) (s : State) : State := fset (claimWritten w s) SCN_GEN_CLAIM SCN_GEN_CLAIM_ok 0

/-- Tag `g` of domain `x` is claimed. -/
def claimTaken (x : Dom) (g : Nat) (w : W32) (s : State) : State :=
  fset (fset (claim x g (claimWritten w s)) SCN_GEN_CLAIM SCN_GEN_CLAIM_tag g) SCN_GEN_CLAIM SCN_GEN_CLAIM_ok 1

/-- A write of 1 to the claim bit that names domain `x`, in an island that is ON. -/
structure Claims (w : W32) (x : Dom) (s : State) : Prop where
  on : regOn s SCN_GEN_CLAIM = true
  claim : wbit w SCN_GEN_CLAIM_claim = true
  dom : wget w SCN_GEN_CLAIM_domain = domNo x

theorem Claims.softWrite {w : W32} {x : Dom} {s : State} (h : Claims w x s) : softWrite 8 SCN_GEN_CLAIM w s =
    match claimTag s x with | none => claimRefused w s | some g => claimTaken x g w s := by
  have hwrite : Machine.softWrite 8 SCN_GEN_CLAIM w s = genClaim 8 w s :=
    (softWrite_scene 8 w (by decide) h.on).trans (if_pos rfl)
  rw [hwrite]
  unfold genClaim
  simp only [swWrite_genClaim, domain_claimWritten, h.dom, domOf_domNo, h.claim, claimTag_claimWritten]
  rfl

theorem isClaimed_claimWritten (w : W32) (s : State) (x : Dom) (g : Nat) : isClaimed (claimWritten w s) x g = isClaimed s x g :=
  isClaimed_congr (rd_claimWritten w s (scnGen_ne_claim x)) g

theorem rd_claimTaken {k : Nat} (x : Dom) (g : Nat) (w : W32) (s : State) (h : k ≠ SCN_GEN_CLAIM) :
    rd (claimTaken x g w s) k = rd (claim x g (claimWritten w s)) k := (rd_fset_ne _ _ _ _ _ h).trans (rd_fset_ne _ _ _ _ _ h)

theorem claimTaken_scn (x : Dom) (g : Nat) (w : W32) (s : State) : (claimTaken x g w s).scn = s.scn :=
  (fset_scn ..).trans ((fset_scn ..).trans ((claim_scn ..).trans (wr_scn ..)))

theorem isClaimed_claimTaken {x : Dom} {g : Nat} (hg : g < 16) (w : W32) (s : State) (y : Dom) (i : Nat) :
    isClaimed (claimTaken x g w s) y i = (decide (y = x ∧ i = g) || isClaimed s y i) := by
  rw [isClaimed_congr (rd_claimTaken x g w s (scnGen_ne_claim y)), isClaimed_claim hg, isClaimed_claimWritten]

theorem Claims.completes_taken {w : W32} {x : Dom} {s : State} {g : Nat} (h : Claims w x s) (ready : Ready s) (ht : claimTag s x = some g) :
    Completes (.genClaim w) s (fun t => isClaimed t x g = true ∧ (∀ g', g' ≠ g → isClaimed t x g' = isClaimed s x g') ∧
      fget t (SCN_GEN (domNo x)) SCN_GEN_last_claimed = g ∧ fget t SCN_GEN_CLAIM SCN_GEN_CLAIM_tag = g ∧
      fget t SCN_GEN_CLAIM SCN_GEN_CLAIM_ok = 1 ∧ t.scn = s.scn) := by
  have hg := claimTag_lt ht
  have hquiet : Claims w x (quietOut s) := ⟨h.on, h.claim, h.dom⟩
  have htag : claimTag (quietOut s) x = some g := ht
  refine completes_run (Machine.softWrite 8 SCN_GEN_CLAIM w) rfl ready ?_
  rw [hquiet.softWrite, htag]
  have hclaimed (i : Nat) := (isClaimed_settled s (claimTaken x g w (quietOut s)) x i).trans (isClaimed_claimTaken hg w (quietOut s) x i)
  have hport (f : Fld) := fget_settle (claimTaken x g w (quietOut s)) SCN_GEN_CLAIM f (not_settleKey (by decide))
  refine ⟨?_, fun i hi => ?_, ?_, ?_, ?_, (settle_scn _).trans (claimTaken_scn ..)⟩
  · exact (hclaimed g).trans (by simp)
  · exact (hclaimed i).trans (by simp [hi]; rfl)
  · refine (fget_settle _ _ _ (not_settleKey_scnGen x)).trans ?_
    exact (fget_congr _ _ _ _ (rd_claimTaken x g w (quietOut s) (scnGen_ne_claim x))).trans (lastClaimed_claim hg _)
  · exact (hport _).trans ((fget_fset_other _ _ SCN_GEN_CLAIM_ok SCN_GEN_CLAIM_tag 1 (by decide) (by decide)).trans
      ((fget_fset _ _ SCN_GEN_CLAIM_tag g (by decide)).trans (Nat.mod_eq_of_lt hg)))
  · exact (hport _).trans (fget_fset _ _ SCN_GEN_CLAIM_ok 1 (by decide))

theorem Claims.completes_refused {w : W32} {x : Dom} {s : State} (h : Claims w x s) (ready : Ready s) (ht : claimTag s x = none) :
    Completes (.genClaim w) s (fun t =>
      fget t SCN_GEN_CLAIM SCN_GEN_CLAIM_ok = 0 ∧ (∀ y g, isClaimed t y g = isClaimed s y g) ∧ t.scn = s.scn) := by
  have hquiet : Claims w x (quietOut s) := ⟨h.on, h.claim, h.dom⟩
  have htag : claimTag (quietOut s) x = none := ht
  refine completes_run (Machine.softWrite 8 SCN_GEN_CLAIM w) rfl ready ?_
  rw [hquiet.softWrite, htag]
  refine ⟨?_, fun y g => ?_, settle_scn _⟩
  · exact (fget_settle (claimRefused w (quietOut s)) _ _ (not_settleKey (by decide))).trans (fget_fset _ _ SCN_GEN_CLAIM_ok 0 (by decide))
  · refine (isClaimed_settled s (claimRefused w (quietOut s)) y g).trans ?_
    exact (isClaimed_congr (rd_fset_ne _ _ _ _ _ (scnGen_ne_claim y)) g).trans (isClaimed_claimWritten w (quietOut s) y g)

/-! ### The checks of a record (04 R125) -/

/-- 04 R125: the record passes every check of its staging, and its kind is not that of a node. -/
structure Passes (who : Stager) (w0 w1 : BitVec 64) (gen : Nat) (s : State) : Prop where
  kind : 3 ≤ rKind w0 ∧ rKind w0 ≤ 8
  range : recRange s w0 w1 = true
  tag : ∀ x, recDomain s w0 w1 = some x → mayUse s who x gen = true
  target : recTarget s w0 w1 = true
  domains : recDomains s w0 w1 = true
  dram : recDram s w0 w1 = true
  room : recRoom s w0 = true
  budget : recBudget s w0 w1 = true

/-! No check reads what the last command sent. -/

theorem recRange_quietOut (s : State) (w0 w1 : BitVec 64) : recRange (quietOut s) w0 w1 = recRange s w0 w1 := rfl
theorem recDomain_quietOut (s : State) (w0 w1 : BitVec 64) : recDomain (quietOut s) w0 w1 = recDomain s w0 w1 := rfl
theorem mayUse_quietOut (s : State) (who : Stager) (x : Dom) (g : Nat) : mayUse (quietOut s) who x g = mayUse s who x g := rfl
theorem recTarget_quietOut (s : State) (w0 w1 : BitVec 64) : recTarget (quietOut s) w0 w1 = recTarget s w0 w1 := rfl
theorem occDom_quietOut (s : State) (code : Nat) : occDom (quietOut s) code = occDom s code := rfl
theorem outDoms_quietOut (s : State) (e : Nat) : outDoms (quietOut s) e = outDoms s e := rfl

theorem recDomains_quietOut (s : State) (w0 w1 : BitVec 64) : recDomains (quietOut s) w0 w1 = recDomains s w0 w1 := by
  unfold recDomains
  rw [occDom_quietOut, outDoms_quietOut]
  rfl

theorem recDram_quietOut (s : State) (w0 w1 : BitVec 64) : recDram (quietOut s) w0 w1 = recDram s w0 w1 := rfl
theorem recRoom_quietOut (s : State) (w0 : BitVec 64) : recRoom (quietOut s) w0 = recRoom s w0 := rfl
theorem recBudget_quietOut (s : State) (w0 w1 : BitVec 64) : recBudget (quietOut s) w0 w1 = recBudget s w0 w1 := rfl

section
variable {who : Stager} {w0 w1 : BitVec 64} {gen : Nat} {s : State}

theorem Passes.quiet (h : Passes who w0 w1 gen s) : Passes who w0 w1 gen (quietOut s) where
  kind := h.kind
  range := (recRange_quietOut s w0 w1).trans h.range
  tag x hx := (mayUse_quietOut s who x gen).trans (h.tag x ((recDomain_quietOut s w0 w1).symm.trans hx))
  target := (recTarget_quietOut s w0 w1).trans h.target
  domains := (recDomains_quietOut s w0 w1).trans h.domains
  dram := (recDram_quietOut s w0 w1).trans h.dram
  room := (recRoom_quietOut s w0).trans h.room
  budget := (recBudget_quietOut s w0 w1).trans h.budget

theorem stageRec_unknown (h : rKind w0 = 0 ∨ 8 < rKind w0) : stageRec who w0 w1 gen s = (s, some rcKIND) := if_pos h

/-- A record that passes its checks and whose target has no domain lands at once (04 R603). -/
theorem Passes.stageRec_unbound (h : Passes who w0 w1 gen s) (hx : recDomain s w0 w1 = none) :
    stageRec who w0 w1 gen s = (recLandNow w0 w1 s, some rcOK) := by
  obtain ⟨⟨h3, h8⟩, range, -, target, domains, dram, room, budget⟩ := h
  have hk : ¬(rKind w0 = 0 ∨ 8 < rKind w0) := by omega
  have h2 : ¬rKind w0 ≤ 2 := by omega
  simp [stageRec, hk, h2, hx, range, target, domains, dram, room, budget]

/-- A record that passes its checks joins the staged ones of its domain, or its output patch entry (04 R122, R127). -/
theorem Passes.stageRec_bound {x : Dom} (h : Passes who w0 w1 gen s) (hx : recDomain s w0 w1 = some x) :
    stageRec who w0 w1 gen s = if rKind w0 = 4 then patchStage (rEntry w0) (rVal w1) (recLandNow.patchLen w1 s) gen x s
      else (recPut w0 w1 gen x s, some rcOK) := by
  obtain ⟨⟨h3, h8⟩, range, tag, target, domains, dram, room, budget⟩ := h
  have hk : ¬(rKind w0 = 0 ∨ 8 < rKind w0) := by omega
  have h2 : ¬rKind w0 ≤ 2 := by omega
  simp [stageRec, hk, h2, hx, range, tag x hx, target, domains, dram, room, budget]

end

/-! ### The record port (04 R116, R125) -/

/-- The port has answered with status `c`, and is free. -/
def recAnswered (c : Nat) (s : State) : State :=
  fset (fset { s with scn := { s.scn with recWait := none } } SCN_REC_CMD SCN_REC_CMD_status c) SCN_REC_CMD SCN_REC_CMD_busy 0

theorem portRecord_answered {w0 w1 : BitVec 64} {g c : Nat} {first : Bool} {s s1 : State} (h : stageRec .software w0 w1 g s = (s1, some c)) :
    portRecord w0 w1 g first s = if c = 0 then recAnswered c s1 else cnt (recAnswered c s1) SCN_REFUSED := by
  unfold portRecord
  rw [h]
  rfl

/-- After the command the port has answered status `c` and is free, and the staging is as in `s`. -/
structure RecAnswered (c : Nat) (s t : State) : Prop where
  status : fget t SCN_REC_CMD SCN_REC_CMD_status = c
  busy : fget t SCN_REC_CMD SCN_REC_CMD_busy = 0
  scn : t.scn = { s.scn with recWait := none }
  refused : rd t SCN_REFUSED = if c = 0 then rd s SCN_REFUSED else rd s SCN_REFUSED + 1

theorem portRecord_settled {w0 w1 : BitVec 64} {g c : Nat} {first : Bool} {s s1 : State} (s' : State)
    (h : stageRec .software w0 w1 g s = (s1, some c)) (hc : c < 16) : RecAnswered c s1 (keep s' (settle (portRecord w0 w1 g first s))) := by
  have hcmd : rd (portRecord w0 w1 g first s) SCN_REC_CMD = rd (recAnswered c s1) SCN_REC_CMD := by
    rw [portRecord_answered h]
    split
    · rfl
    · exact rd_cnt_ne _ _ _ (by decide)
  have hport (f : Fld) : fget (keep s' (settle (portRecord w0 w1 g first s))) SCN_REC_CMD f = fget (recAnswered c s1) SCN_REC_CMD f :=
    (fget_settle _ _ f (not_settleKey (by decide))).trans (fget_congr _ _ _ f hcmd)
  have hrefused : rd (recAnswered c s1) SCN_REFUSED = rd s1 SCN_REFUSED :=
    (rd_fset_ne _ _ _ _ _ (by decide)).trans (rd_fset_ne _ _ _ _ _ (by decide))
  refine ⟨(hport _).trans ?_, (hport _).trans (fget_fset _ _ SCN_REC_CMD_busy 0 (by decide)), (settle_scn _).trans ?_,
    (rd_settle _ _ (not_settleKey (by decide))).trans ?_⟩
  · exact (fget_fset_other _ _ SCN_REC_CMD_busy SCN_REC_CMD_status 0 (by decide) (by decide)).trans
      ((fget_fset _ _ SCN_REC_CMD_status c (by decide)).trans (Nat.mod_eq_of_lt hc))
  · rw [portRecord_answered h]
    split
    · rfl
    · exact cnt_scn ..
  · rw [portRecord_answered h]
    split
    · exact hrefused
    · rw [rd_cnt, hrefused]

/-! ### A launch of a record (04 R116) -/

theorem regInfo_recCmd : regInfo SCN_REC_CMD = some ⟨8, 1, 0xF0, 0, 0⟩ := by decide +kernel

/-- The port's command register after the write, before the record is staged. -/
def recCmdWritten (w : W32) (s : State) : State := wr s SCN_REC_CMD (wordAfterWrite ⟨8, 1, 0xF0, 0, 0⟩ (rd s SCN_REC_CMD) w)

theorem rd_recCmdWritten {k : Nat} (w : W32) (s : State) (h : k ≠ SCN_REC_CMD) : rd (recCmdWritten w s) k = rd s k := rd_wr_ne _ _ _ _ h

theorem recCmdWritten_scn (w : W32) (s : State) : (recCmdWritten w s).scn = s.scn := wr_scn ..

theorem fget_recCmdWritten {k : Nat} (w : W32) (s : State) (f : Fld) (h : k ≠ SCN_REC_CMD) : fget (recCmdWritten w s) k f = fget s k f :=
  fget_congr _ _ _ _ (rd_recCmdWritten w s h)

theorem recCmdWritten_quietOut (w : W32) (s : State) : recCmdWritten w (quietOut s) = quietOut (recCmdWritten w s) := rfl

theorem get64_recCmdWritten {lo hi : Nat} (w : W32) (s : State) (hlo : lo ≠ SCN_REC_CMD) (hhi : hi ≠ SCN_REC_CMD) :
    get64 (recCmdWritten w s) lo hi = get64 s lo hi := by
  unfold get64
  rw [rd_recCmdWritten w s hlo, rd_recCmdWritten w s hhi]

/-- The two words of the record that the port's registers hold (04 R116). -/
def portW0 (s : State) : BitVec 64 := BitVec.ofNat 64 (get64 s SCN_REC_W0_LO SCN_REC_W0_HI)
def portW1 (s : State) : BitVec 64 := BitVec.ofNat 64 (get64 s SCN_REC_W1_LO SCN_REC_W1_HI)

/-- A write of 1 to the stage bit of a free port, in an island that is ON. -/
structure RecLaunches (w : W32) (s : State) : Prop where
  on : regOn s SCN_REC_CMD = true
  stage : wbit w SCN_REC_CMD_stage = true
  free : fbit s SCN_REC_CMD SCN_REC_CMD_busy = false

theorem RecLaunches.softWrite {w : W32} {s : State} (h : RecLaunches w s) :
    softWrite 8 SCN_REC_CMD w s = portRecord (portW0 s) (portW1 s) (wget w SCN_REC_CMD_gen) true (recCmdWritten w s) := by
  have hwrite : Machine.softWrite 8 SCN_REC_CMD w s = recCmd 8 w s :=
    (softWrite_scene 8 w (by decide) h.on).trans ((if_neg (by decide)).trans (if_pos rfl))
  have hword : swWrite s 8 SCN_REC_CMD w = recCmdWritten w s := swWrite_scene regInfo_recCmd (by decide) s 8 w
  have h0 := get64_recCmdWritten (lo := SCN_REC_W0_LO) (hi := SCN_REC_W0_HI) w s (by decide) (by decide)
  have h1 := get64_recCmdWritten (lo := SCN_REC_W1_LO) (hi := SCN_REC_W1_HI) w s (by decide) (by decide)
  rw [hwrite]
  unfold recCmd portW0 portW1
  simp [hword, h.stage, h.free, h0, h1]

/-! ### What a check does not read (04 R125)

The port's command register is written before its record is checked. No check reads it, nor the registers of the links through the register
map. -/

theorem smDel_filter_out {α : Type} {p : Nat × α → Bool} {k : Nat} (m : SMap α) (h : ∀ e : Nat × α, e.1 = k → p e = false) :
    (smDel m k).filter p = m.filter p := by
  unfold smDel
  rw [List.filter_filter]
  refine List.filter_congr fun e _ => ?_
  by_cases he : e.1 = k
  · rw [h e he, Bool.false_and]
  · simp [he]

theorem smIns_filter_out {α : Type} {p : Nat × α → Bool} {k : Nat} {v : α} (m : SMap α) (h : p (k, v) = false) :
    (smIns m k v).filter p = m.filter p := by
  induction m with
  | nil => simp [smIns, h]
  | cons e t ih =>
    unfold smIns
    split
    · rw [List.filter_cons, h]
      rfl
    · rw [List.filter_cons, List.filter_cons, ih]

/-- A write outside a range of keys leaves the range as it is. -/
theorem smRange_smSet_out {α : Type} [DecidableEq α] (d : α) (m : SMap α) {k lo hi : Nat} (v : α) (h : k < lo ∨ hi ≤ k) :
    smRange (smSet d m k v) lo hi = smRange m lo hi := by
  have hout (e : Nat × α) (he : e.1 = k) : (decide (lo ≤ e.1) && decide (e.1 < hi)) = false := by
    simp only [he, Bool.and_eq_false_iff, decide_eq_false_iff_not]
    omega
  have hdel := smDel_filter_out m hout
  unfold smRange smSet
  split
  · exact hdel
  · exact (smIns_filter_out _ (hout (k, v) rfl)).trans hdel

section
variable (w : W32) (s : State)

theorem domRate_recCmdWritten (x : Dom) : domRate (recCmdWritten w s) x = domRate s x := by
  unfold domRate
  rw [fget_recCmdWritten w s _ (by unfold TIM_DOM_CFG SCN_REC_CMD; cases x <;> decide)]
  rfl

theorem domHz_recCmdWritten (x : Dom) : domHz (recCmdWritten w s) x = domHz s x := congrArg rateHz (domRate_recCmdWritten w s x)

theorem domUnits_recCmdWritten (x : Dom) : domUnits (recCmdWritten w s) x = domUnits s x := congrArg rateUnits (domRate_recCmdWritten w s x)

theorem linkUnits_recCmdWritten (sDom dDom : Nat → Option Dom) (vals : Nat → List PatchVal) {l : Nat} (hl : l < 2) :
    linkUnits (recCmdWritten w s) sDom dDom vals l = linkUnits s sDom dDom vals l := by
  have hmap : smRange (recCmdWritten w s).regs (DAX_TXMAP l 0) (DAX_TXMAP l 0 + 8192) =
      smRange s.regs (DAX_TXMAP l 0) (DAX_TXMAP l 0 + 8192) := smRange_smSet_out _ _ _ (by unfold DAX_TXMAP SCN_REC_CMD; omega)
  have hps : smRange (recCmdWritten w s).regs (DAX_PS l 0) (DAX_PS l 0 + 4096) = smRange s.regs (DAX_PS l 0) (DAX_PS l 0 + 4096) :=
    smRange_smSet_out _ _ _ (by unfold DAX_PS SCN_REC_CMD; omega)
  unfold linkUnits
  simp only [hmap, hps, domUnits_recCmdWritten]

theorem planFits_recCmdWritten (p : Plan) : planFits (recCmdWritten w s) p = planFits s p := by
  have hlinks : (List.range 2).all (fun l => decide (linkUnits (recCmdWritten w s) p.sDom p.dDom p.vals l ≤ 8192)) =
      (List.range 2).all (fun l => decide (linkUnits s p.sDom p.dDom p.vals l ≤ 8192)) := by
    rw [Bool.eq_iff_iff, List.all_eq_true, List.all_eq_true]
    refine forall₂_congr fun l hl => ?_
    rw [linkUnits_recCmdWritten w s _ _ _ (List.mem_range.mp hl)]
  unfold planFits
  simp only [hlinks, domUnits_recCmdWritten]

theorem recBudget_recCmdWritten (w0 w1 : BitVec 64) : recBudget (recCmdWritten w s) w0 w1 = recBudget s w0 w1 := by
  have hplan : planOf (recCmdWritten w s) w0 w1 = planOf s w0 w1 := rfl
  unfold recBudget
  rw [hplan, planFits_recCmdWritten]

theorem flowCfg_recCmdWritten (f : Nat) : flowCfg (recCmdWritten w s) f = flowCfg s f := by
  unfold flowCfg
  rw [rd_recCmdWritten w s (by unfold NET_RXF_CFG SCN_REC_CMD; omega), rd_recCmdWritten w s (by unfold NET_TXF_CFG SCN_REC_CMD; omega)]
  rfl

theorem mapChan_recCmdWritten {e : Nat} (m : Nat) (h : e < 8192) : mapChan (recCmdWritten w s) e m = mapChan s e m := by
  unfold mapChan
  rw [fget_recCmdWritten w s _ (by unfold NET_MAP SCN_REC_CMD; omega)]
  rfl

theorem playIdx_recCmdWritten (r : RxFlow) : playIdx (recCmdWritten w s) r = playIdx s r := by
  unfold playIdx linkTicks
  simp only [domHz_recCmdWritten]
  rfl

theorem chanFlowNow_recCmdWritten (ch : Nat) : chanFlowNow (recCmdWritten w s) ch = chanFlowNow s ch := by
  unfold chanFlowNow chanFlow
  refine congrArg (List.foldl _ none) (congrArg List.flatten (List.map_congr_left fun ⟨f, r⟩ _ => ?_))
  cases r with
  | none => rfl
  | some r =>
    refine congrArg (List.map _) (List.filter_congr fun k hk => ?_)
    have hbase : cfgBase r.cfg < 4096 := bitsOf_lt _ _ 12
    have hchans : cfgChans r.cfg < 128 := bitsOf_lt _ _ 7
    have hk := List.mem_range.mp hk
    dsimp only
    rw [playIdx_recCmdWritten, mapChan_recCmdWritten w s _ (by omega)]

theorem occDom_recCmdWritten (code : Nat) : occDom (recCmdWritten w s) code = occDom s code := by
  have hcore : coreDom (recCmdWritten w s) (code % 65536 / 64) = coreDom s (code % 65536 / 64) :=
    congrArg domOf (fget_recCmdWritten w s _ (by unfold ATL_LCORE_STATUS SCN_REC_CMD; omega))
  have hnet : netChanDom (recCmdWritten w s) (code % 65536) = netChanDom s (code % 65536) := by
    unfold netChanDom
    simp only [chanFlowNow_recCmdWritten, flowCfg_recCmdWritten]
  unfold occDom
  dsimp only
  rw [hcore, hnet]
  rfl

end

/-! ### Source patch records (04 R125 to R127) -/

section
variable {w0 w1 : BitVec 64}

theorem recDomain_source (s : State) (h : rKind w0 = 3) : recDomain s w0 w1 = domS s (rSlot w0) := by
  simp [recDomain, bindingOf, h]

theorem recDomains_source (s : State) (h : rKind w0 = 3) : recDomains s w0 w1 = !mixes (domS s (rSlot w0)) (occDom s (rOcc w1)) := by
  simp [recDomains, bindingOf, h]

theorem recRange_source (s t : State) (h : rKind w0 = 3) : recRange t w0 w1 = recRange s w0 w1 := by
  simp [recRange, h]

theorem recTarget_source (s : State) (h : rKind w0 = 3) : recTarget s w0 w1 = domOn s 10 := by simp [recTarget, h]

theorem recDram_source (s : State) (h : rKind w0 = 3) : recDram s w0 w1 = true := by simp [recDram, h]

theorem recRoom_source (s : State) (h : rKind w0 = 3) : recRoom s w0 = true := by simp [recRoom, h]

/-- 04 R105: what software may use is read from the claims, the owners and the committed tags. -/
theorem mayUse_recCmdWritten (w : W32) (s : State) (who : Stager) (x : Dom) (g : Nat) :
    mayUse (recCmdWritten w s) who x g = mayUse s who x g := by
  unfold mayUse
  rw [isClaimed_congr (rd_recCmdWritten w s (by cases x <;> decide)), tagOpen_congr (rd_recCmdWritten w s (by decide))]
  rfl

/-- A source patch record that passes its checks before the launch passes them at the port. -/
theorem passes_source {w : W32} {s : State} {g : Nat} (h : rKind w0 = 3) (hrange : recRange s w0 w1 = true)
    (htag : ∀ x, domS s (rSlot w0) = some x → mayUse s .software x g = true) (hon : domOn s 10 = true) (hdoms : recDomains s w0 w1 = true)
    (hbudget : recBudget s w0 w1 = true) : Passes .software w0 w1 g (recCmdWritten w s) where
  kind := by omega
  range := (recRange_source s _ h).trans hrange
  tag x hx := by
    rw [recDomain_source _ h] at hx
    exact (mayUse_recCmdWritten w s _ x g).trans (htag x hx)
  target := by
    rw [recTarget_source _ h]
    unfold domOn domState
    rw [fget_recCmdWritten w s _ (by decide)]
    exact hon
  domains := by
    rw [recDomains_source _ h] at hdoms ⊢
    rw [occDom_recCmdWritten]
    exact hdoms
  dram := recDram_source _ h
  room := recRoom_source _ h
  budget := (recBudget_recCmdWritten w s w0 w1).trans hbudget

/-- The staged records without an uncommitted one for the target of `w0`. -/
def otherRecs (s : State) (w0 : BitVec 64) : List StagedRec := s.scn.recs.filter (fun r => !(r.w0 == w0 && tagOpen s r.dom r.gen))

theorem otherRecs_quietOut (s : State) : otherRecs (quietOut s) w0 = otherRecs s w0 := rfl

theorem otherRecs_recCmdWritten (w : W32) (s : State) : otherRecs (recCmdWritten w s) w0 = otherRecs s w0 := by
  unfold otherRecs
  simp only [tagOpen_congr (rd_recCmdWritten w s (by decide : GAL_COMMITTED ≠ SCN_REC_CMD))]
  rfl

theorem recPut_source (s : State) (g : Nat) (x : Dom) (h : rKind w0 = 3) :
    (recPut w0 w1 g x s).scn = { s.scn with recs := otherRecs s w0 ++ [⟨w0, w1, g, x⟩] } := by
  simp [recPut, recDrop, recWord, otherRecs, h]

theorem recLandNow_source (s : State) (h : rKind w0 = 3) :
    (recLandNow w0 w1 s).scn = { s.scn with recs := otherRecs s w0, occ := smSet 0 s.scn.occ (rSlot w0) (rOcc w1) } := by
  simp [recLandNow, recDrop, otherRecs, h]

end

/-- A launch that the port answers at once. -/
theorem RecLaunches.completes {w : W32} {s s1 : State} {c : Nat} {P : State → Prop} (h : RecLaunches w s) (ready : Ready s) (hc : c < 16)
    (hq : stageRec .software (portW0 s) (portW1 s) (wget w SCN_REC_CMD_gen) (quietOut (recCmdWritten w s)) = (s1, some c))
    (hP : ∀ t, RecAnswered c s1 t → P t) : Completes (.stageRecord w) s P := by
  have hquiet : RecLaunches w (quietOut s) := ⟨h.on, h.stage, h.free⟩
  refine completes_run (Machine.softWrite 8 SCN_REC_CMD w) rfl ready (hP _ ?_)
  rw [hquiet.softWrite, recCmdWritten_quietOut]
  exact portRecord_settled s hq hc

/-- A record of an unknown kind is refused and counted (04 R125). -/
theorem RecLaunches.completes_unknown {w : W32} {s : State} (h : RecLaunches w s) (ready : Ready s)
    (hk : rKind (portW0 s) = 0 ∨ 8 < rKind (portW0 s)) : Completes (.stageRecord w) s (fun t =>
      (fget t SCN_REC_CMD SCN_REC_CMD_status = rcKIND ∧ fget t SCN_REC_CMD SCN_REC_CMD_busy = 0) ∧
      rd t SCN_REFUSED = rd s SCN_REFUSED + 1 ∧ t.scn = { s.scn with recWait := none }) := by
  refine h.completes ready (by decide) (stageRec_unknown hk) fun t ht => ⟨⟨ht.status, ht.busy⟩, ?_, ?_⟩
  · rw [ht.refused, if_neg (by decide), rd_quietOut, rd_recCmdWritten w s (by decide)]
  · rw [ht.scn, quietOut_scn, recCmdWritten_scn]

section
variable {w : W32} {s : State} (h : RecLaunches w s) (ready : Ready s)
  (hpass : Passes .software (portW0 s) (portW1 s) (wget w SCN_REC_CMD_gen) (recCmdWritten w s)) (hk : rKind (portW0 s) = 3)
include h ready hpass hk

/-- A source patch record of a bound S-slot joins the staged ones (04 R127). -/
theorem RecLaunches.completes_joined {x : Dom} (hx : domS s (rSlot (portW0 s)) = some x) : Completes (.stageRecord w) s (fun t =>
    (fget t SCN_REC_CMD SCN_REC_CMD_status = rcOK ∧ fget t SCN_REC_CMD SCN_REC_CMD_busy = 0) ∧ t.scn.occ = s.scn.occ ∧
    t.scn.recs = otherRecs s (portW0 s) ++ [⟨portW0 s, portW1 s, wget w SCN_REC_CMD_gen, x⟩]) := by
  have hstaged := hpass.quiet.stageRec_bound ((recDomain_source _ hk).trans hx)
  rw [if_neg (by omega)] at hstaged
  refine h.completes ready (by decide) hstaged fun t ht => ⟨⟨ht.status, ht.busy⟩, ?_⟩
  have hscn := ht.scn
  rw [recPut_source _ _ _ hk, otherRecs_quietOut, otherRecs_recCmdWritten, quietOut_scn, recCmdWritten_scn] at hscn
  exact ⟨(congrArg ScnSt.occ hscn).trans rfl, congrArg ScnSt.recs hscn⟩

/-- A source patch record of an unbound S-slot lands at once (04 R603). -/
theorem RecLaunches.completes_landed (hx : domS s (rSlot (portW0 s)) = none) : Completes (.stageRecord w) s (fun t =>
    (fget t SCN_REC_CMD SCN_REC_CMD_status = rcOK ∧ fget t SCN_REC_CMD SCN_REC_CMD_busy = 0) ∧ t.scn.recs = otherRecs s (portW0 s) ∧
    occCode t (rSlot (portW0 s)) = rOcc (portW1 s) ∧ ∀ i, i ≠ rSlot (portW0 s) → occCode t i = occCode s i) := by
  have hstaged := hpass.quiet.stageRec_unbound ((recDomain_source _ hk).trans hx)
  refine h.completes ready (by decide) hstaged fun t ht => ⟨⟨ht.status, ht.busy⟩, ?_⟩
  have hscn := ht.scn
  rw [recLandNow_source _ hk, otherRecs_quietOut, otherRecs_recCmdWritten, quietOut_scn, recCmdWritten_scn] at hscn
  have hocc (i : Nat) : occCode t i = if i = rSlot (portW0 s) then rOcc (portW1 s) else occCode s i := by
    unfold occCode
    rw [hscn]
    exact smGet_smSet ..
  exact ⟨congrArg ScnSt.recs hscn, (hocc _).trans (if_pos rfl), fun i hi => (hocc i).trans (if_neg hi)⟩

end

/-! ### Output patch records (04 R122, R123) -/

@[simp] theorem deferShow_scn (s : State) : (deferShow s).scn = s.scn := by
  unfold deferShow
  rw [ite_scn, fset_scn, fset_scn, ite_self]

/-- 04 R123: the record of an entry that crossfades joins the deferral table when it has room and no record of the entry. -/
theorem patchStage_deferred {e len gen : Nat} {v : PatchVal} {x : Dom} {s : State} (hf : (patchOf s e).state = .fading)
    (hnone : s.scn.patchDefer.any (fun q => q.e == e) = false) (hroom : s.scn.patchDefer.length < 256) :
    patchStage e v len gen x s = (deferShow { s with scn := { s.scn with
      patchDefer := s.scn.patchDefer ++ [⟨e, v, len, gen, some x, false, (valDom s v).isNone⟩] } }, some rcOK) := by
  unfold patchStage
  simp [hf, hnone, hroom]

/-- An output patch record needs no memory and no staging area: the other checks are its all. -/
theorem passes_patch {s : State} {v0 v1 : BitVec 64} {h : Nat} {x : Dom} (hk : rKind v0 = 4) (hrange : recRange s v0 v1 = true)
    (hdom : recDomain s v0 v1 = some x) (huse : mayUse s .software x h = true) (htarget : recTarget s v0 v1 = true)
    (hdoms : recDomains s v0 v1 = true) (hbudget : recBudget s v0 v1 = true) : Passes .software v0 v1 h s where
  kind := by omega
  range := hrange
  tag y hy := Option.some.inj (hdom.symm.trans hy) ▸ huse
  target := htarget
  domains := hdoms
  dram := by simp [recDram, hk]
  room := by simp [recRoom, hk]
  budget := hbudget

/-- A record that has waited at the port and is answered now (04 R123). -/
theorem completes_patchRelease {s s1 : State} {v0 v1 : BitVec 64} {h c : Nat} {P : State → Prop} (hw : s.scn.recWait = some (v0, v1, h))
    (ready : Ready s) (hc : c < 16) (hq : stageRec .software v0 v1 h (quietOut s) = (s1, some c)) (hP : ∀ t, RecAnswered c s1 t → P t) :
    Completes .patchStallRelease s P := by
  refine completes_run doPatchStallRelease rfl ready (hP _ ?_)
  have hport : doPatchStallRelease (quietOut s) = portRecord v0 v1 h false (quietOut s) := by
    unfold doPatchStallRelease
    rw [quietOut_scn, hw]
  rw [hport]
  exact portRecord_settled s hq hc

/-- Settles O17: the claim takes the next open tag; the port answers a record by its checks, and a record that passes lands, joins the
staged ones, or waits in the deferral table. -/
theorem tagsAndRecords : Obligations.TagsAndRecords := by
  refine ⟨fun s w x ready hon hclaim hx => ?_, ?_⟩
  · have claims : Claims w x s := ⟨hon, hclaim, hx⟩
    exact ⟨fun g => claims.completes_taken ready, claims.completes_refused ready⟩
  intro s w ready w0 w1 g status others
  refine ⟨fun hon hstage hfree => ?_, ?_⟩
  · have launch : RecLaunches w s := ⟨hon, hstage, hfree⟩
    refine ⟨fun hk => ?_, fun hk hrange hpower hdoms hbudget => ⟨fun x hx huse => ?_, fun hx => ?_⟩⟩
    · exact launch.completes_unknown ready hk
    · have hpass : Passes .software w0 w1 g (recCmdWritten w s) :=
        passes_source hk hrange (fun y hy => Option.some.inj (hx.symm.trans hy) ▸ huse) hpower hdoms hbudget
      exact launch.completes_joined ready hpass hk hx
    · have hpass : Passes .software w0 w1 g (recCmdWritten w s) :=
        passes_source hk hrange (fun y hy => absurd (hx.symm.trans hy) nofun) hpower hdoms hbudget
      exact launch.completes_landed ready hpass hk hx
  · intro v0 v1 h x hwait hk hrange hdom huse htarget hdoms hbudget hfading hnone hroom
    have hpass : Passes .software v0 v1 h s := passes_patch hk hrange hdom huse htarget hdoms hbudget
    have hstaged := hpass.quiet.stageRec_bound ((recDomain_quietOut s v0 v1).trans hdom)
    rw [if_pos hk, patchStage_deferred (s := quietOut s) hfading hnone hroom] at hstaged
    refine completes_patchRelease hwait ready (by decide) hstaged fun t ht => ?_
    have hscn := ht.scn
    rw [deferShow_scn] at hscn
    rw [hscn]
    exact ⟨⟨ht.status, ht.busy⟩, rfl, rfl⟩

end Sys2Proof.Machine
end

section
/-! PROOF. 04 R107 to R112: a commit that is applied where a staged flow map record names a map entry that the engine does not
have (O18). -/

namespace Sys2Proof.Machine

/-- The map entry that would stand at the key of GAL_COMMITTED: the engine has 8,192 entries (09 R285), and this is beyond them. -/
def entryOverCommitted : Nat := GAL_COMMITTED - NET_MAP 0

/-- Domain A runs, its first uncommitted tag 1 is claimed and its commit waits. The one staged record of the tag is a flow map
record for `entryOverCommitted` and channel 2. -/
def strayMapRecord : State :=
  { fset State.reset (SCN_GEN 0) SCN_GEN_claimed 2 with
    tim := { State.reset.tim with gens := pdSet State.reset.tim.gens .A { genOf State.reset .A with running := true } }
    scn := { State.reset.scn with
      commits := [⟨.A, 1, none, false, 0, none⟩]
      recs := [⟨0x7000_0000_0000_0000#64, BitVec.ofNat 64 (entryOverCommitted * 2 ^ 16 + 2), 1, .A⟩] } }

/-- What follows every effect leaves the committed tags as they are. -/
theorem genC_settled (s t : State) (x : Dom) : genC (keep s (settle t)) x = genC t x :=
  fget_settle t GAL_COMMITTED (committedFld x) (not_settleKey (by decide))

theorem strayMapRecord_ready : Ready strayMapRecord := by decide +kernel

/-- The tag commits, and then its record lands in GAL_COMMITTED: the committed tag reads 2. -/
theorem genC_commitApply_strayMapRecord : genC (doCommitApply .A (quietOut strayMapRecord)) .A = 2 := by decide +kernel

/-- Refutes O18: no premise bounds the map entry of a staged flow map record. In `strayMapRecord` the record that lands with tag 1
writes over GAL_COMMITTED, and the committed tag after the commit of tag 1 is 2. -/
theorem not_commitsAndCrossfades : ¬ Obligations.CommitsAndCrossfades := by
  rintro ⟨hcommits, -⟩
  obtain ⟨-, -, hApply⟩ := hcommits strayMapRecord .A
  obtain ⟨t, ht, hgen, -⟩ := hApply ⟨.A, 1, none, false, 0, none⟩ strayMapRecord_ready rfl rfl rfl
    (by decide +kernel) (by decide +kernel) (le_refl _) rfl
  cases (run_ready (doCommitApply .A) _ strayMapRecord_ready).symm.trans ht
  rw [genC_settled, genC_commitApply_strayMapRecord] at hgen
  exact absurd hgen (by decide)

end Sys2Proof.Machine
end

section
/-! PROOF. 04 R128 to R135: a recall joins the loader's queue, is started in turn, and ends in its commits or CORRUPT (O19). -/

namespace Sys2Proof.Machine

/-! ### What completing and raising leave alone -/

theorem docPush_scn (s : State) (t : Nat) : (docPush s t).scn = s.scn := by
  unfold docPush
  dsimp only
  rw [ite_scn, ite_scn, fset_scn, fset_scn, ite_self, ite_self]

theorem outstUpdate_scn (s : State) (l : List Tkt) : (outstUpdate s l).scn = s.scn := fset_scn ..

theorem ticketDone_scn (s : State) (ticket : Nat) (signal : Option Nat) : (ticketDone s ticket signal).scn = s.scn := by
  unfold ticketDone
  dsimp only
  split
  · exact (docPush_scn ..).trans (outstUpdate_scn ..)
  · exact outstUpdate_scn ..

theorem memStore_scn (s : State) (a n v : Nat) : (memStore s a n v).scn = s.scn := rfl

theorem recordWrite_scn (s : State) (h : Held) : (recordWrite s h).scn = s.scn := by
  unfold recordWrite
  extract_lets tail ph0 w0 a s1 nt flip s2 _ s3
  have h1 : s1.scn = s.scn := by simp only [s1, memStore_scn]
  have h2 : s2.scn = s1.scn := by simp only [s2, ite_scn, cnt_scn, fset_scn, ite_self]
  have h3 : s3.scn = s2.scn := by simp only [s3, ite_scn, ite_self]
  exact (ticketDone_scn ..).trans (h3.trans (h2.trans h1))

theorem recordQueue_scn (s : State) (h : Held) : (recordQueue s h).scn = s.scn := by
  unfold recordQueue
  simp only [ite_scn, fset_scn, recordWrite_scn, ite_self]

/-- A completion leaves the staging, the commits and the recalls as they are (16 R494). -/
theorem complete_scn (s : State) (ticket oc dom result : Nat) : (complete s ticket oc dom result).scn = s.scn := by
  unfold complete
  split
  · rfl
  · simp only [ite_scn, ticketDone_scn, recordQueue_scn, ite_self]

theorem raiseStart_scn (mask : Nat) (s : State) : (raiseStart mask s).scn = s.scn := by
  unfold raiseStart setPhase
  simp only [ite_scn, fset_scn, ite_self]

theorem raiseKeyed_scn (s : State) : (raiseKeyed s).scn = s.scn := raiseStart_scn ..

/-- Raising a domain writes PWR_STATUS and no other register (18 R533). -/
theorem rd_raiseKeyed {k : Nat} (s : State) (h : k ≠ PWR_STATUS) : rd (raiseKeyed s) k = rd s k := by
  unfold raiseKeyed raiseStart setPhase
  dsimp only
  split
  · rfl
  · exact rd_fset_ne _ _ _ _ _ h

theorem loaderShow_scn (s : State) : (loaderShow s).scn = s.scn := (fset_scn ..).trans (fset_scn ..)

theorem rd_loaderShow {k : Nat} (s : State) (h : k ≠ SCN_LOADER) : rd (loaderShow s) k = rd s k :=
  (rd_fset_ne _ _ _ _ _ h).trans (rd_fset_ne _ _ _ _ _ h)

/-! ### The loader at work (04 R132) -/

/-- A command of the loader while no drop that it has agreed to is open. -/
theorem completes_loader {i : Instr} {s : State} {P : ScnSt → Prop} (f : State → State)
    (he : exec i s = run (unlessPaused 5 (fun t => raiseKeyed (f t))) s) (ready : Ready s) (hp : paused s 5 = false)
    (hP : P (f (quietOut s)).scn) : Completes i s (fun t => P t.scn) := by
  refine completes_run _ he ready ?_
  have hscn : (keep s (settle (unlessPaused 5 (fun t => raiseKeyed (f t)) (quietOut s)))).scn = (f (quietOut s)).scn := by
    have hgoes : unlessPaused 5 (fun t => raiseKeyed (f t)) (quietOut s) = raiseKeyed (f (quietOut s)) := if_neg (Bool.eq_false_iff.mp hp)
    rw [hgoes]
    exact (settle_scn _).trans (raiseKeyed_scn _)
  rw [hscn]
  exact hP

/-- A command of the loader while a drop that it has agreed to is open does nothing (18 R537). -/
theorem completes_loaderPaused {i : Instr} {s : State} (f : State → State) (he : exec i s = run (unlessPaused 5 f) s) (ready : Ready s)
    (hp : paused s 5 = true) : Completes i s (fun t => t.scn = s.scn) := by
  refine completes_run _ he ready ((settle_scn _).trans ?_)
  have hstays : unlessPaused 5 f (quietOut s) = quietOut s := if_pos hp
  rw [hstays, quietOut_scn]

/-- With a recall staging, none starts. -/
theorem recallNext_busy {s : State} (h : s.scn.recalls.any (fun q => q.phase == .staging) = true) : recallNext s = s := if_pos h

/-- With no recall staging and none waiting, none starts. -/
theorem recallNext_none {s : State} (h : s.scn.recalls.find? (fun q => q.phase == .waiting) = none) : recallNext s = s := by
  unfold recallNext
  rw [h]
  exact ite_self _

/-- With no recall staging, the one that has waited longest starts. -/
theorem recallNext_starts {s : State} {r : Recall} (h : s.scn.recalls.any (fun q => q.phase == .staging) = false)
    (hr : s.scn.recalls.find? (fun q => q.phase == .waiting) = some r) : recallNext s = setRecall { r with phase := .staging } s := by
  unfold recallNext
  rw [h, hr]
  rfl

/-! ### The end of staging (04 R133 to R135) -/

theorem recallLoad_done {fuel : Nat} {r : Recall} (s : State) (h : r.staged + r.refused = r.count) : recallLoad fuel r s = (r, s) := by
  cases fuel with
  | zero => rfl
  | succ n => exact if_pos h.ge

theorem readNote_nothing (s : State) (a : Nat) : readNote s (wordsIn a 0) [] = s := rfl

theorem setRecall_only {s : State} {r r' : Recall} (h : s.scn.recalls = [r]) (hid : r.id = r'.id) :
    (setRecall r' s).scn = { s.scn with recalls := [r'] } := by
  unfold setRecall
  simp [h, hid]

/-- A recall that is given up leaves an empty queue when it was alone. -/
theorem recallDone_only {s : State} {r r' : Recall} (oc : Nat) (h : s.scn.recalls = [r]) (hid : r.id = r'.id) :
    (recallDone r' oc s).scn.recalls = [] ∧ (recallDone r' oc s).scn.commits = s.scn.commits := by
  have hnone : (recallLeave r' s).scn.recalls.filter (fun q => q.id != r'.id) = [] := by simp [recallLeave, h, hid]
  unfold recallDone dropRecall
  rw [complete_scn, loaderShow_scn, hnone, recallNext_none rfl]
  exact ⟨rfl, rfl⟩

/-- The commits of a recall whose records are staged (04 R133). -/
def recallCommits (r : Recall) : List Commit :=
  (allDoms.filter (maskHas r.mask)).filterMap (fun x => (pdGet r.tags x).map (fun g => ⟨x, g, pdGet r.targets x, false, r.ticket, some r.id⟩))

/-- The one recall of the loader has every record loaded. -/
structure Loaded (r : Recall) (s : State) : Prop where
  only : s.scn.recalls = [r]
  staging : r.phase = .staging
  all : r.staged + r.refused = r.count

/-- 04 R133 to R135: the last step of the staging of recall `r`: CORRUPT, EXPIRED, or its commits. -/
def recallFinish (r : Recall) (s : State) : State :=
  let past := (allDoms.filter (maskHas r.mask)).any (fun x =>
    match pdGet r.targets x with | some n => decide (n < (genOf s x).next) | none => false)
  if (~~~r.crcAcc).toNat ≠ r.crc then recallDone r ocCORRUPT s
  else if r.expire ∧ past then recallDone r ocEXPIRED (cnt s SCN_EXPIRED)
  else
    let s1 := setRecall { r with phase := .committing, left := (recallCommits r).length } s
    loaderShow (recallNext { s1 with scn := { s1.scn with commits := s1.scn.commits ++ recallCommits r } })

/-- With every record loaded, the loader stages nothing more. -/
theorem Loaded.doRecallStaged {r : Recall} {s : State} (h : Loaded r s) : doRecallStaged [] s = recallFinish r (setRecall r s) := by
  have hstart : doRecallLoadStart s = s := recallNext_busy (by simp [h.only, h.staging])
  have hfind : s.scn.recalls.find? (fun q => q.phase == .staging) = some r := by simp [h.only, h.staging]
  have hnone : 16 * (r.count - (r.staged + r.refused)) = 0 := by rw [h.all, Nat.sub_self, Nat.mul_zero]
  have hall : ¬r.staged + r.refused < r.count := by rw [h.all]; exact Nat.lt_irrefl _
  unfold Machine.doRecallStaged
  rw [hstart]
  dsimp only
  rw [hfind]
  simp only [hnone, readNote_nothing, recallLoad_done _ h.all, if_neg hall]
  rfl

/-- A wrong CRC ends the recall, which commits nothing (04 R134). -/
theorem Loaded.corrupt {r : Recall} {s : State} (h : Loaded r s) (hcrc : (~~~r.crcAcc).toNat ≠ r.crc) :
    (Machine.doRecallStaged [] s).scn.recalls = [] ∧ (Machine.doRecallStaged [] s).scn.commits = s.scn.commits := by
  have hset := setRecall_only (r' := r) h.only rfl
  obtain ⟨hrecalls, hcommits⟩ := recallDone_only (r' := r) ocCORRUPT (congrArg ScnSt.recalls hset) rfl
  rw [h.doRecallStaged, recallFinish, if_pos hcrc]
  exact ⟨hrecalls, hcommits.trans ((congrArg ScnSt.commits hset).trans rfl)⟩

/-- The right CRC queues the commits of a recall that does not expire (04 R133). -/
theorem Loaded.commits {r : Recall} {s : State} (h : Loaded r s) (hcrc : (~~~r.crcAcc).toNat = r.crc) (hlive : r.expire = false) :
    (Machine.doRecallStaged [] s).scn.commits = s.scn.commits ++ recallCommits r ∧
      (Machine.doRecallStaged [] s).scn.recalls.map (fun q => q.phase) = [.committing] := by
  have hset := setRecall_only (r' := r) h.only rfl
  have hcom := setRecall_only (r' := { r with phase := .committing, left := (recallCommits r).length }) (congrArg ScnSt.recalls hset) rfl
  rw [h.doRecallStaged, recallFinish, if_neg (not_not.mpr hcrc), if_neg (by simp [hlive]), loaderShow_scn,
    recallNext_none (by rw [hcom]; rfl), hcom, hset]
  exact ⟨rfl, rfl⟩

/-! ### The acceptance of a command (16 R486 to R490) -/

section
variable (iss : Nat) (e : BitVec 512) (s : State)

theorem allot_scn : (allot iss e s).2.scn = s.scn := fset_scn ..
theorem allot_ecc : (allot iss e s).2.ecc = s.ecc := fset_ecc ..
theorem allot_drc : (allot iss e s).2.drc = s.drc := fset_drc ..
theorem rd_allot {k : Nat} (h : k ≠ CTL_STATUS) : rd (allot iss e s).2 k = rd s k := rd_fset_ne _ _ _ _ _ h

end

/-- A command that is accepted at once begins with its ticket. -/
theorem Accepts.acceptCode {s : State} {code : Nat} {e : BitVec 512} {used : List (Nat × Nat)} (h : Accepts s code e used) (iss : Nat) :
    acceptCode code iss e s = dispatch (allot iss e s).1 e (allot iss e s).2 := by
  have hroom : ticketsFull s = false := decide_eq_false (Nat.not_le.mpr h.room)
  unfold Machine.acceptCode acceptCommand
  rw [if_pos h.code, hroom, h.noWait]
  rfl

/-- Outside CONFIG_HALT a RECALL entry is a recall (16 R490, 17 R520). -/
theorem dispatch_recall {t : Nat} {e : BitVec 512} {s : State} (hcode : eByte e 0 2 = 0x0101) (hcat : catState s ≠ 6) :
    dispatch t e s = raiseKeyed (recallCmd t e s) := by
  unfold dispatch dispatchCode
  simp only [hcode, if_neg hcat]
  rfl

/-! ### The claims of a recall (04 R131) -/

/-- Recall `id` is the owner of tag `g` of domain `x`. -/
def ownTag (id : Nat) (x : Dom) (g : Nat) (s : State) : State := { s with scn := { s.scn with owned := s.scn.owned ++ [(x, g, id)] } }

theorem rd_ownTag (id : Nat) (x : Dom) (g : Nat) (s : State) (k : Nat) : rd (ownTag id x g s) k = rd s k := rfl

theorem ownTag_recalls (id : Nat) (x : Dom) (g : Nat) (s : State) : (ownTag id x g s).scn.recalls = s.scn.recalls := rfl

theorem isClaimed_ownTag (id : Nat) (x : Dom) (g : Nat) (s : State) (y : Dom) (i : Nat) : isClaimed (ownTag id x g s) y i = isClaimed s y i :=
  isClaimed_congr (rd_ownTag ..) i

/-- Recall `id` claims a tag of domain `x`, when one is open. -/
def claimFor (id : Nat) (s : State) (x : Dom) : State :=
  match claimTag s x with
  | some g => ownTag id x g (claim x g s)
  | none => s

theorem claimFor_some {id : Nat} {s : State} {x : Dom} {g : Nat} (h : claimTag s x = some g) :
    claimFor id s x = ownTag id x g (claim x g s) := by
  unfold claimFor
  rw [h]

theorem claimFor_none {id : Nat} {s : State} {x : Dom} (h : claimTag s x = none) : claimFor id s x = s := by
  unfold claimFor
  rw [h]

theorem rd_claimFor {id k : Nat} {x : Dom} (s : State) (h : k ≠ SCN_GEN (domNo x)) : rd (claimFor id s x) k = rd s k := by
  cases ht : claimTag s x with
  | none => rw [claimFor_none ht]
  | some g => rw [claimFor_some ht, rd_ownTag, rd_claim_ne g s h]

theorem claimFor_recalls (id : Nat) (s : State) (x : Dom) : (claimFor id s x).scn.recalls = s.scn.recalls := by
  cases ht : claimTag s x with
  | none => rw [claimFor_none ht]
  | some g => rw [claimFor_some ht, ownTag_recalls, claim_scn]

/-- A claim for another domain leaves the tag that this one would claim. -/
theorem claimTag_claimFor_ne {id : Nat} {x y : Dom} (s : State) (h : x ≠ y) : claimTag (claimFor id s y) x = claimTag s x :=
  claimTag_congr (rd_claimFor s (scnGen_ne h)) (rd_claimFor s (by cases y <;> decide))

theorem isClaimed_claimFor_self {id g : Nat} {s : State} {x : Dom} (h : claimTag s x = some g) : isClaimed (claimFor id s x) x g = true := by
  rw [claimFor_some h, isClaimed_ownTag, isClaimed_claim (claimTag_lt h)]
  simp

/-- What is claimed stays claimed. -/
theorem isClaimed_claimFor {id g : Nat} {s : State} {x : Dom} (y : Dom) (h : isClaimed s x g = true) :
    isClaimed (claimFor id s y) x g = true := by
  cases ht : claimTag s y with
  | none => rw [claimFor_none ht, h]
  | some i =>
    rw [claimFor_some ht, isClaimed_ownTag, isClaimed_claim (claimTag_lt ht), h, Bool.or_true]

theorem isClaimed_claimFors {id g : Nat} {x : Dom} (l : List Dom) {s : State} (h : isClaimed s x g = true) :
    isClaimed (l.foldl (claimFor id) s) x g = true := by
  induction l generalizing s with
  | nil => exact h
  | cons y l ih => exact ih (isClaimed_claimFor y h)

/-- Each of the domains that a recall touches has its tag claimed. -/
theorem isClaimed_claimFors_of_mem {id g : Nat} {x : Dom} {l : List Dom} {s : State} (hx : x ∈ l) (h : claimTag s x = some g) :
    isClaimed (l.foldl (claimFor id) s) x g = true := by
  induction l generalizing s with
  | nil => exact absurd hx List.not_mem_nil
  | cons y l ih =>
    by_cases hy : x = y
    · subst hy
      exact isClaimed_claimFors l (isClaimed_claimFor_self h)
    · exact ih ((List.mem_cons.mp hx).resolve_left hy) ((claimTag_claimFor_ne s hy).trans h)

theorem claimFors_recalls (id : Nat) (l : List Dom) (s : State) : (l.foldl (claimFor id) s).scn.recalls = s.scn.recalls :=
  foldl_frame (fun t => t.scn.recalls) _ (claimFor_recalls id) l s

/-! ### A recall that applies at once (04 R131, R132) -/

/-- 04 R131: the tag that a recall of a scene for the domains of `mask` takes in domain `x`. -/
def recallTag (s : State) (mask : Nat) (x : Dom) : Option Nat := if maskHas mask x then claimTag s x else none

theorem pdGet_mk (f : Dom → Option Nat) (x : Dom) : pdGet ⟨f .A, f .B, f .C⟩ x = f x := by cases x <;> rfl

/-- The recall of `scene` with ticket `t` as it joins the loader's queue, in mode 0 and without expiry; the directory gives the offset,
the count, the CRC and the domains. -/
def recallAtOnce (t scene off n crc mask : Nat) (s : State) : Recall :=
  { id := s.scn.nextRecall + 1, scene := scene, mode := 0, targets := ⟨none, none, none⟩, expire := false, ticket := t,
    phase := if s.scn.recalls.any (fun r => r.phase == .staging) then .waiting else .staging,
    addr := vaultBase s + off, count := n, crc := crc, mask := mask,
    tags := ⟨recallTag s mask .A, recallTag s mask .B, recallTag s mask .C⟩, staged := 0, refused := 0,
    crcAcc := 0xFFFF_FFFF, stalled := false, firstRefused := none, left := 0, late := 0, lateDom := none }

/-- Recall `r` joins the loader's queue. -/
def recallJoin (r : Recall) (s : State) : State :=
  loaderShow { s with scn := { s.scn with recalls := s.scn.recalls ++ [r], nextRecall := r.id } }

theorem recallJoin_recalls (r : Recall) (s : State) : (recallJoin r s).scn.recalls = s.scn.recalls ++ [r] := by
  unfold recallJoin
  rw [loaderShow_scn]

theorem rd_recallJoin {k : Nat} (r : Recall) (s : State) (h : k ≠ SCN_LOADER) : rd (recallJoin r s) k = rd s k := rd_loaderShow _ h

/-- 04 R131: a RECALL entry of mode 0 that names a valid scene, while the vault and the loader are on and every domain that the scene
touches has a tag to claim. -/
structure RecallsAtOnce (e : BitVec 512) (off n crc mask : Nat) (s : State) : Prop where
  zero : eReserved e [(16, 4), (24, 12)] = none
  scene : eByte e 16 2 < 4096
  mode : eByte e 18 1 = 0
  flags : eByte e 19 1 = 0
  vault : vaultSize s ≠ 0
  loader : bgEnabled s 0 = true
  entry : dirEntry s (eByte e 16 2) = some (off, n, crc, mask)
  tags : ∀ x, maskHas mask x = true → (claimTag s x).isSome = true

theorem RecallsAtOnce.recallCmd {e : BitVec 512} {off n crc mask : Nat} {s : State} (h : RecallsAtOnce e off n crc mask s) (t : Nat) :
    recallCmd t e s = recallJoin (recallAtOnce t (eByte e 16 2) off n crc mask s)
      ((allDoms.filter (maskHas mask)).foldl (claimFor (s.scn.nextRecall + 1)) s) := by
  have htags : ¬(allDoms.filter (maskHas mask)).any (fun x => (claimTag s x).isNone) = true := by
    simp only [List.any_eq_true, List.mem_filter, not_exists, not_and]
    rintro x ⟨-, hx⟩
    rw [Option.isNone_iff_eq_none, ← Option.not_isSome_iff_eq_none, not_not]
    exact h.tags x hx
  have hoff : ¬(vaultSize s = 0 ∨ (!bgEnabled s 0) = true) := by simp [h.vault, h.loader]
  unfold Machine.recallCmd
  rw [h.mode, h.flags, h.zero]
  extract_lets scene mode dom id
  refine (if_neg (Nat.not_le.mpr h.scene)).trans ((if_neg (by decide)).trans ((if_neg (by decide)).trans
    ((if_neg fun hns => absurd hns.1 (by decide)).trans ((if_neg hoff).trans ?_))))
  rw [h.entry]
  refine (if_neg Bool.false_ne_true).trans ((if_neg htags).trans ?_)
  extract_lets tag tgt s1 r
  have htgt : tgt = fun _ => none := funext fun x => ite_self _
  have hr : r = recallAtOnce t (eByte e 16 2) off n crc mask s := by
    simp only [r, htgt]
    rfl
  rw [hr]
  rfl

theorem vaultBase_allot (iss : Nat) (e : BitVec 512) (s : State) : vaultBase (allot iss e s).2 = vaultBase s := by
  unfold vaultBase get64
  rw [rd_allot _ _ _ (by decide), rd_allot _ _ _ (by decide)]

/-- Taking a ticket changes nothing that a directory entry is read from. -/
theorem dirEntry_allot (iss : Nat) (e : BitVec 512) (s : State) (scene : Nat) : dirEntry (allot iss e s).2 scene = dirEntry s scene := by
  have hsize : vaultSize (allot iss e s).2 = vaultSize s := fget_congr _ _ _ _ (rd_allot _ _ _ (by decide))
  have hread (a n : Nat) : memRead (allot iss e s).2 a n = memRead s a n := by
    unfold memRead viewBytes memView
    rw [allot_ecc, allot_drc, allot_mem]
  have hlost (ws : List Nat) : lostWords (allot iss e s).2 ws = lostWords s ws := by
    unfold lostWords queueHolds
    rw [allot_ecc, allot_drc]
  unfold dirEntry
  simp only [vaultBase_allot, hsize, hread, hlost]

theorem claimTag_allot (iss : Nat) (e : BitVec 512) (s : State) (x : Dom) : claimTag (allot iss e s).2 x = claimTag s x :=
  claimTag_congr (rd_allot _ _ _ (by cases x <;> decide)) (rd_allot _ _ _ (by decide))

theorem RecallsAtOnce.allot {e : BitVec 512} {off n crc mask : Nat} {s : State} (h : RecallsAtOnce e off n crc mask s) (iss : Nat) :
    RecallsAtOnce e off n crc mask (allot iss e s).2 where
  zero := h.zero
  scene := h.scene
  mode := h.mode
  flags := h.flags
  vault := by
    unfold vaultSize
    rw [fget_congr _ _ _ _ (rd_allot iss e s (by decide))]
    exact h.vault
  loader := by
    unfold bgEnabled
    rw [rd_allot iss e s (by decide)]
    exact h.loader
  entry := (dirEntry_allot iss e s _).trans h.entry
  tags x hx := by
    rw [claimTag_allot]
    exact h.tags x hx

theorem recallAtOnce_allot (iss : Nat) (e : BitVec 512) (s : State) (t scene off n crc mask : Nat) :
    recallAtOnce t scene off n crc mask (Machine.allot iss e s).2 = recallAtOnce t scene off n crc mask s := by
  unfold recallAtOnce recallTag
  simp only [vaultBase_allot, claimTag_allot, allot_scn]

/-- A RECALL entry that is accepted at once: the recall joins the queue, and the tags of its domains are claimed. -/
theorem recall_accepted {e : BitVec 512} {off n crc mask : Nat} {s : State} (hacc : Accepts s 0x0101 e [(16, 4), (24, 12)])
    (h : RecallsAtOnce e off n crc mask s) (iss : Nat) :
    ∃ u, acceptCode 0x0101 iss e s = raiseKeyed u ∧
      u.scn.recalls = s.scn.recalls ++ [recallAtOnce (allot iss e s).1 (eByte e 16 2) off n crc mask s] ∧
      ∀ x g, maskHas mask x = true → claimTag s x = some g → isClaimed u x g = true := by
  have hcat : catState (allot iss e s).2 ≠ 6 := by
    unfold catState
    rw [fget_congr _ _ _ _ (rd_allot iss e s (by decide))]
    exact hacc.config
  refine ⟨_, (hacc.acceptCode iss).trans ((dispatch_recall hacc.code hcat).trans (congrArg raiseKeyed ((h.allot iss).recallCmd _))), ?_, ?_⟩
  · rw [recallJoin_recalls, claimFors_recalls, recallAtOnce_allot, allot_scn]
  · intro x g hx hg
    refine (isClaimed_congr (rd_recallJoin _ _ (by cases x <;> decide)) g).trans ?_
    have hmem : x ∈ allDoms.filter (maskHas mask) := List.mem_filter.mpr ⟨by cases x <;> decide, hx⟩
    exact isClaimed_claimFors_of_mem hmem ((claimTag_allot iss e s x).trans hg)

theorem Accepts.quiet {s : State} {code : Nat} {e : BitVec 512} {used : List (Nat × Nat)} (h : Accepts s code e used) :
    Accepts (quietOut s) code e used := ⟨h.ready, h.code, h.room, h.noWait, h.config, h.zero⟩

theorem dirEntry_quietOut (s : State) (scene : Nat) : dirEntry (quietOut s) scene = dirEntry s scene := rfl

theorem RecallsAtOnce.quiet {e : BitVec 512} {off n crc mask : Nat} {s : State} (h : RecallsAtOnce e off n crc mask s) :
    RecallsAtOnce e off n crc mask (quietOut s) :=
  ⟨h.zero, h.scene, h.mode, h.flags, h.vault, h.loader, (dirEntry_quietOut s _).trans h.entry, h.tags⟩

/-- Settles O19: a recall joins the queue with the tags that it claims, the loader starts the one that has waited longest, and the
last record leaves it CORRUPT or with its commits queued. -/
theorem recalls : Obligations.Recalls := by
  intro s
  refine ⟨fun iss e off n crc mask hacc hscene hmode hflags hvault hon hentry htags => ?_, fun r ready hp hidle hr => ?_,
    fun r ready hp honly hstaging hall => ?_, fun ready hp => ?_⟩
  · have hrecall : RecallsAtOnce e off n crc mask s := ⟨hacc.zero, hscene, hmode, hflags, hvault, hon, hentry, htags⟩
    obtain ⟨u, hu, hrecalls, hclaimed⟩ := recall_accepted hacc.quiet hrecall.quiet iss
    refine completes_run (acceptCode 0x0101 iss e) rfl hacc.ready ?_
    rw [hu]
    refine ⟨recallAtOnce (allot iss e s).1 (eByte e 16 2) off n crc mask s, ?_, rfl, rfl, rfl, rfl, rfl, rfl, rfl, rfl,
      fun x g hx hg => ⟨?_, ?_⟩, rfl⟩
    · exact (congrArg ScnSt.recalls ((settle_scn _).trans (raiseKeyed_scn _))).trans hrecalls
    · exact (pdGet_mk (recallTag s mask) x).trans ((if_pos hx).trans hg)
    · refine (isClaimed_settled s _ x g).trans ((isClaimed_congr (rd_raiseKeyed _ (by cases x <;> decide)) g).trans ?_)
      exact hclaimed x g hx hg
  · refine completes_loader (P := fun c => c.recalls = _) doRecallLoadStart rfl ready hp ?_
    have hnext : doRecallLoadStart (quietOut s) = setRecall { r with phase := .staging } (quietOut s) := recallNext_starts hidle hr
    rw [hnext]
    rfl
  · have loaded : Loaded r (quietOut s) := ⟨honly, hstaging, hall⟩
    exact ⟨fun hcrc => completes_loader (P := fun c => c.recalls = [] ∧ c.commits = _) (doRecallStaged []) rfl ready hp (loaded.corrupt hcrc),
      fun hcrc hlive => completes_loader (P := fun c => c.commits = _ ∧ c.recalls.map _ = _) (doRecallStaged []) rfl ready hp
        (loaded.commits hcrc hlive)⟩
  · exact ⟨completes_loaderPaused _ rfl ready hp, completes_loaderPaused _ rfl ready hp⟩

end Sys2Proof.Machine
end

section
/-! PROOF. 05 R139, R143 to R148, R151, R155, R156: what a transition of a strip that is due does to the running state of its strip, and
late stages and delay reads (O20). -/

namespace Sys2Proof.Machine

/-! ### The running state of the strips (05 R141) -/

theorem stripRun_setRun (p q : Nat) (r : StripRun) (s : State) : stripRun (setRun p r s) q = if q = p then r else stripRun s q :=
  smGet_smSet ..

theorem stripRun_congr {s t : State} (h : t.str = s.str) (p : Nat) : stripRun t p = stripRun s p := by
  unfold stripRun
  rw [h]

/-- A strip that holds no record has none to land at the end of a fade (05 R145, R147, R156). -/
theorem landHeld_none {s : State} {p : Nat} (key : Nat) (plain : Bool) (h : (stripRun s p).held = []) : landHeld p key plain s = s := by
  unfold landHeld
  dsimp only
  rw [h]
  rfl

theorem landHeld_setRun {r : StripRun} (p key : Nat) (s : State) (h : r.held = []) :
    landHeld p key false (setRun p r s) = setRun p r s := by
  refine landHeld_none key false ?_
  rw [stripRun_setRun, if_pos rfl]
  exact h

theorem fadeEnd_noneHeld {s : State} {p : Nat} (key : Nat) (h : (stripRun s p).held = []) :
    fadeEnd p key s = setRun p (dropFade (stripRun s p) key) s := landHeld_setRun p key s h

theorem dipEnd_noneHeld {s : State} {p : Nat} (h : (stripRun s p).held = []) :
    dipEnd p s = setRun p { stripRun s p with dip := none } s := landHeld_setRun p kMode s h

theorem interpEnd_section {key b : Nat} (h : secBase key = some b) (p : Nat) (s : State) :
    interpEnd p key s =
      setRun p { stripRun s p with fades := (stripRun s p).fades.filter (fun f => !(decide (b ≤ f.key) && decide (f.key < b + 5))) } s := by
  unfold interpEnd
  rw [h]

theorem dipHalf_dip {s : State} {p : Nat} {d : Dip} (h : (stripRun s p).dip = some d) :
    dipHalf p s = setRun p { stripRun s p with mode := d.newMode } s := by
  unfold dipHalf
  dsimp only
  rw [h]

/-! ### A transition that is due (log 11) -/

/-- The state that a transition meets: the one of the tick that made it due, with the transition taken from the list. -/
def takenDue (d : Due) (s : State) : State := { quietOut s with due := s.due.erase d }

theorem oneDue_quietOut {d : Due} {s : State} (h : d ∈ s.due) : oneDue d (quietOut s) = dueDo d (takenDue d s) :=
  if_pos (List.contains_iff_mem.mpr h)

/-- What holds of a settled transition holds after the command that names it. -/
theorem completes_runDue {i : Instr} {s : State} {P : State → Prop} {d : Due} (he : exec i s = runDue d s) (ha : awake s = true)
    (hd : d ∈ s.due) (hp : P (keep s (settle (dueDo d (takenDue d s))))) : Completes i s P := by
  refine ⟨_, he, ?_⟩
  rw [if_pos ha, oneDue_quietOut hd]
  exact hp

/-- A transition that gives its strip the running state `r` changes that of no other strip. -/
theorem completes_stripDue {i : Instr} {s : State} {d : Due} {p : Nat} {r : StripRun} (he : exec i s = runDue d s) (ha : awake s = true)
    (hd : d ∈ s.due) (hr : dueDo d (takenDue d s) = setRun p r (takenDue d s)) :
    Completes i s (fun t => stripRun t p = r ∧ ∀ q, q ≠ p → stripRun t q = stripRun s q) := by
  refine completes_runDue he ha hd ?_
  rw [hr]
  have hrun (q : Nat) : stripRun (keep s (settle (setRun p r (takenDue d s)))) q = if q = p then r else stripRun s q :=
    (stripRun_congr (settle_str _) q).trans (stripRun_setRun p q r _)
  exact ⟨(hrun p).trans (if_pos rfl), fun q hq => (hrun q).trans (if_neg hq)⟩

/-! ### Late stages and delay reads (05 R139, R155) -/

theorem not_reportKey_unitStatus (u : Nat) : ¬reportKey (STR_UNIT_STATUS u) :=
  not_reportKey (by unfold STR_UNIT_STATUS LDG_STATUS LDG_SUPPRESSED; omega)

/-- The unit of a strip with a late stage shows it (05 R139). -/
theorem doStripStageLate_shows (out : Bool) (p : Fin 4096) (g : Fin 3) (s : State) {x : Dom}
    (h : stripDom s (p.val + if out then 4096 else 0) = some x) :
    fget (doStripStageLate out p g.castSucc s) (STR_UNIT_STATUS (stripUnit s (p.val + if out then 4096 else 0)))
      STR_UNIT_STATUS_late = 1 := by
  unfold doStripStageLate
  extract_lets i
  simp only [show stripDom s i = some x from h]
  rw [if_neg (show ¬3 ≤ g.castSucc.val from Nat.not_le.mpr g.isLt)]
  exact (((occur_reported ..).trans (accuse_reported ..)).fget_eq (not_reportKey_unitStatus _) _).trans
    (fget_fset _ _ STR_UNIT_STATUS_late 1 (by decide))

/-- A delay read in DRAM that misses its tick is marked, and its unit counts it. -/
theorem doDelayReadLate_marks {p : Fin 8192} {s : State} (hdom : (stripDom s p).isSome = true) (hlong : 64 ≤ (param s p 4).toNat)
    (hnew : (stripRun s p).dlyLate = false) :
    doDelayReadLate p s = cnt (setRun p { stripRun s p with dlyLate := true } s) (STR_UNIT_DLY_LATE (stripUnit s p)) := by
  refine if_neg ?_
  rintro (hnone | ⟨hshort, -⟩ | hlate)
  · rw [Option.isNone_iff_eq_none.mp hnone] at hdom
    exact absurd hdom (by decide)
  · exact absurd hshort (Nat.not_lt.mpr hlong)
  · exact absurd (hnew.symm.trans hlate) (by decide)

theorem not_settleKey_unitDlyLate (u : Nat) : ¬settleKey (STR_UNIT_DLY_LATE u) := not_settleKey (by unfold STR_UNIT_DLY_LATE; omega)

/-- Settles O20: each transition gives its own strip a new running state, and a late stage or delay read leaves its mark and its
count. -/
theorem stripTransitions : Obligations.StripTransitions := by
  intro s
  refine ⟨fun p key ha => ?_, fun out i stage ready => ?_, fun p ready hdom hlong hnew => ?_⟩
  · intro r others becomes
    refine ⟨fun b hd hb => ?_, fun hd => ?_, fun hd hh => ?_, fun hd hh => ?_, fun hd hh => ?_, fun d hd hdip => ?_, fun hd hh => ?_,
      fun hd => ?_⟩
    · exact completes_stripDue rfl ha hd (interpEnd_section hb p _)
    · exact completes_stripDue rfl ha hd rfl
    · exact completes_stripDue rfl ha hd (fadeEnd_noneHeld key hh)
    · exact completes_stripDue rfl ha hd (fadeEnd_noneHeld key hh)
    · exact completes_stripDue rfl ha hd (fadeEnd_noneHeld 4 hh)
    · exact completes_stripDue rfl ha hd (dipHalf_dip hdip)
    · exact completes_stripDue rfl ha hd (dipEnd_noneHeld hh)
    · exact completes_stripDue rfl ha hd rfl
  · intro p u hdom hstage
    obtain ⟨x, hx⟩ := Option.isSome_iff_exists.mp hdom
    refine completes_run (doStripStageLate out i stage) rfl ready ?_
    rw [← Fin.castSucc_castLT stage hstage]
    have r := settled_reported s (doStripStageLate out i (stage.castLT hstage).castSucc (quietOut s))
    obtain ⟨hmarked, hcount, -⟩ := (doStripStageLate_marks out i (stage.castLT hstage) (quietOut s) hx).report r
    exact ⟨hmarked, hcount, (r.fget_eq (not_reportKey_unitStatus _) _).trans (doStripStageLate_shows out i _ (quietOut s) hx)⟩
  · refine completes_run (doDelayReadLate p) rfl ready ?_
    have hlate : doDelayReadLate p (quietOut s) = _ := doDelayReadLate_marks hdom hlong hnew
    rw [hlate]
    refine ⟨?_, ?_⟩
    · exact (stripRun_congr ((settle_str _).trans (cnt_str ..)) p).trans ((stripRun_setRun ..).trans (if_pos rfl))
    · exact (rd_settle _ _ (not_settleKey_unitDlyLate _)).trans (rd_cnt ..)

end Sys2Proof.Machine
end

section
/-! PROOF. 05 R162 to R164, R167: a meter frame closes, a loudness block ends, a group's reset is asked for, and the Archive drops a
block (O21). -/

namespace Sys2Proof.Machine

/-! ### A software write to a register of the strip block (15 R460, R463) -/

/-- A software write that only stores keeps what is read neither from the registers nor from the control core's state. -/
theorem swWrite_keeps {α : Type} (f : State → α) (hr : ∀ s r, f { s with regs := r } = f s) (hc : ∀ s c, f { s with ctl := c } = f s)
    (s : State) (m k : Nat) (v : W32) : f (swWrite s m k v) = f s := by
  unfold swWrite capture fieldsWrite
  split
  · extract_lets s1 w
    have h1 : f s1 = f s := cnt_keeps f hr s _
    clear_value w
    split
    · exact h1
    · exact (hc (wr s1 ATR_ERR_CAP _) _).trans ((hr s1 _).trans h1)
  · split
    · rfl
    · exact hr s _

theorem rd_withCtl (s : State) (c : CtlSt) (k : Nat) : rd { s with ctl := c } k = rd s k := rfl

/-- A write to register `k` changes no other register of the audio blocks: a sealed one is captured in the Atrium's own. -/
theorem rd_swWrite_ne {k j : Nat} (s : State) (m : Nat) (v : W32) (hj : j ≠ k) (haudio : 0x200000 ≤ j) :
    rd (swWrite s m k v) j = rd s j := by
  have hcnt : j ≠ ATR_ERR_CNT := by unfold ATR_ERR_CNT; omega
  have hcap : j ≠ ATR_ERR_CAP := by unfold ATR_ERR_CAP; omega
  unfold swWrite capture fieldsWrite
  split
  · extract_lets s1 w
    have h1 : rd s1 j = rd s j := rd_cnt_ne _ _ _ hcnt
    split
    · exact h1
    · exact (rd_withCtl ..).trans ((rd_wr_ne s1 _ _ _ hcap).trans h1)
  · split
    · rfl
    · exact rd_wr_ne _ _ _ _ hj

@[simp] theorem swWrite_str (s : State) (m k : Nat) (v : W32) : (swWrite s m k v).str = s.str :=
  swWrite_keeps State.str (fun _ _ => rfl) (fun _ _ => rfl) s m k v

theorem softWrite_strip {k : Nat} {s : State} (m : Nat) (v : W32) (h : k / 0x40000 = 11) (hon : regOn s k = true) :
    softWrite m k v s =
      if k = STR_ARC_SIZE then wr (swWrite s m k v) STR_ARC_DEPTH (BitVec.ofNat 32 (arcDepth (swWrite s m k v)))
      else if k = STR_LG_RESET then lgReset m v s
      else onInst k (STR_PB_CTRL 0) 0x10 64 (fun c s => pbCtrl m c v s) (fun s => swWrite s m k v) s := by
  have hctl : ¬k < 6 * 0x40000 := by omega
  have hlink : ¬k < 11 * 0x40000 := by omega
  unfold softWrite regWrite regWriteAudio
  rw [if_pos hon, if_neg hctl, if_neg hlink, h]
  rfl

/-! ### Meter frames (05 R164) -/

/-- The state of the columns and of the strips. -/
def State.sound (s : State) : GalSt × StrSt := (s.gal, s.str)

theorem memStore_sound (s : State) (a n v : Nat) : (memStore s a n v).sound = s.sound := rfl
theorem memStoreBytes_sound (s : State) (a : Nat) (l : List Byte) : (memStoreBytes s a l).sound = s.sound := rfl
theorem memZero_sound (s : State) (a n : Nat) : (memZero s a n).sound = s.sound := rfl
theorem withTime_sound (s : State) (t : TimSt) (c : CtlSt) : ({ s with tim := t, ctl := c } : State).sound = s.sound := rfl
theorem withCtl_sound (s : State) (c : CtlSt) : ({ s with ctl := c } : State).sound = s.sound := rfl
theorem wr_sound (s : State) (k : Nat) (v : W32) : (wr s k v).sound = s.sound := rfl
theorem cnt_sound (s : State) (k : Nat) : (cnt s k).sound = s.sound := wr_sound ..

theorem timeTo_sound (s : State) (t : Nat) : (timeTo s t).sound = s.sound := by
  unfold timeTo
  split
  · rfl
  · exact withTime_sound ..

theorem capture_sound (s : State) (cause m a : Nat) (write : Bool) (strobes : Nat) : (capture s cause m a write strobes).sound = s.sound := by
  unfold capture
  extract_lets s1 w
  have h1 : s1.sound = s.sound := cnt_sound ..
  split
  · exact h1
  · exact (withCtl_sound ..).trans ((wr_sound ..).trans h1)

/-- The strips with a meter frame closed at `t`: nothing is gathered, and the sequence number is used. -/
def frameClosed (t : Nat) (m : StrSt) : StrSt := { m with meters := [], tpPeak := [], meterSeq := m.meterSeq + 1, meterAt := t }

/-- Writing a meter frame out, or failing to, changes nothing of the columns and strips but what closing it does (log 150). -/
theorem doMeterFrameClose_sound {s : State} (hstr : strOn s = true) (hon : fbit s STR_MTR_CFG STR_MTR_CFG_enable = true) :
    (doMeterFrameClose s).sound = (s.gal, frameClosed (frameClose s) s.str) := by
  unfold doMeterFrameClose
  rw [hstr, hon]
  refine (congrArg State.sound (if_neg (by decide))).trans ?_
  extract_lets t s1 depth seq a done s2 s3 s4 s5
  have h1 : s1.sound = s.sound := timeTo_sound s t
  have hdone {u : State} (h : u.sound = s.sound) : (done u).sound = (s.gal, frameClosed t s.str) := by
    obtain ⟨hgal, hstr⟩ := Prod.mk.inj h
    refine Prod.ext hgal ?_
    exact congrArg (fun m : StrSt => { m with meters := [], tpPeak := [], meterSeq := seq + 1, meterAt := t }) hstr
  split
  · exact hdone ((capture_sound ..).trans h1)
  · refine (cnt_sound ..).trans (hdone ((memStore_sound ..).trans ?_))
    have h2 : s2.sound = s.sound := (memStoreBytes_sound ..).trans ((memZero_sound ..).trans h1)
    have h3 : s3.sound = s.sound := by
      refine (foldl_frame State.sound _ ?_ _ _).trans h2
      exact fun _ _ => memStore_sound ..
    have h4 : s4.sound = s.sound := by
      refine (foldl_frame State.sound _ ?_ _ _).trans h3
      exact fun _ _ => memStore_sound ..
    refine (foldl_frame State.sound _ ?_ _ _).trans h4
    exact fun _ _ => memStore_sound ..

/-! ### Loudness groups (05 R162, R163) -/

theorem group_setGroup (g h : Nat) (v : LoudGroup) (s : State) : group (setGroup g v s) h = if h = g then v else group s h := smGet_smSet ..

theorem group_congr {s t : State} (h : t.str = s.str) (g : Nat) : group t g = group s g := by
  unfold group
  rw [h]

theorem loudOf_str (g : LoudGroup) (k len : Nat) (s : State) : (loudOf g k len s).2.str = s.str := by
  unfold loudOf
  split
  · rfl
  · extract_lets sum
    clear_value sum
    split <;> rfl

/-- From `q` to `r` a group's block joins the last 30, and the next one begins; a reset that waits starts the count anew. -/
structure BlockJoined (q r : LoudGroup) : Prop where
  blocks : r.blocks = (q.sum :: q.blocks).take 30
  sum : r.sum = 0
  n : r.n = 0
  count : r.count = if q.resetReq then 0 else q.count + 1
  resetReq : r.resetReq = false

/-- What a block adds to the histogram of its group is beside this. -/
theorem BlockJoined.hist {q r : LoudGroup} (h : BlockJoined q r) (m : SMap Nat) : BlockJoined q { r with hist := m } :=
  ⟨h.blocks, h.sum, h.n, h.count, h.resetReq⟩

theorem BlockJoined.shown {q r : LoudGroup} (h : BlockJoined q r) (mo sh int : W32) :
    BlockJoined q { r with momentary := mo, short := sh, integrated := int } := ⟨h.blocks, h.sum, h.n, h.count, h.resetReq⟩

theorem blockEnd_joins (g len : Nat) (s : State) :
    ∃ r u, blockEnd g len s = setGroup g r u ∧ u.str = s.str ∧ BlockJoined (group s g) r := by
  unfold blockEnd
  extract_lets q r1 win r2
  have h1 : BlockJoined q r1 := ⟨rfl, rfl, rfl, rfl, rfl⟩
  have h2 : BlockJoined q r2 := by
    unfold r2
    clear_value r1
    split
    · split
      · exact h1.hist _
      · exact h1
    · exact h1
  clear_value r2
  exact ⟨_, _, rfl, (loudOf_str ..).trans (loudOf_str ..), h2.shown ..⟩

theorem doLoudnessBlock_done {g : Fin 512} {s : State} {n : Nat} (h : blockDone s g = some n) : doLoudnessBlock g s = blockEnd g n s := by
  unfold doLoudnessBlock loudnessBlock
  rw [h]

/-- A group alone has changed, to `v`. -/
theorem group_settled {s t u : State} (h : u.str = s.str) (g : Nat) (v : LoudGroup) (k : Nat) :
    group (keep t (settle (setGroup g v u))) k = if k = g then v else group s k :=
  (group_congr (settle_str _) k).trans ((group_setGroup ..).trans (by rw [group_congr h]))

theorem softWrite_lgReset {s : State} (m : Nat) (w : W32) (hon : regOn s STR_LG_RESET = true) :
    softWrite m STR_LG_RESET w s = lgReset m w s := by
  rw [softWrite_strip m w (by decide) hon, if_neg (by decide), if_pos rfl]

/-- A write to STR_LG_RESET that asks for a group's reset. -/
theorem lgReset_asks {w : W32} (m : Nat) (s : State) (h : bitOf w.toNat 16 = true) :
    lgReset m w s = setGroup (bitsOf w.toNat 0 9) { group s (bitsOf w.toNat 0 9) with resetReq := true } (swWrite s m STR_LG_RESET w) := by
  unfold lgReset
  refine (if_pos h).trans ?_
  dsimp only
  rw [group_congr (swWrite_str ..)]

/-! ### A block that the Archive drops (05 R167) -/

theorem not_reportKey_arcDrop : ¬reportKey STR_ARC_DROP := not_reportKey (by decide)

/-- A dropped block is counted; of the strips it moves no more than the first index of its slot. -/
theorem blockDrop_counts (i first : Nat) (s : State) :
    (blockDrop i first s).str.arcPend = s.str.arcPend ∧ rd (blockDrop i first s) STR_ARC_DROP = rd s STR_ARC_DROP + 1 ∧
      (blockDrop i first s).mem = s.mem := by
  unfold blockDrop
  extract_lets s1
  have r : Reported (cnt s STR_ARC_DROP) s1 := occur_reported ..
  have hpend : s1.str.arcPend = s.str.arcPend := congrArg StrSt.arcPend (r.str.trans (cnt_str ..))
  have hrd : rd s1 STR_ARC_DROP = rd s STR_ARC_DROP + 1 := (r.rd _ not_reportKey_arcDrop).trans (rd_cnt ..)
  have hmem : s1.mem = s.mem := r.mem.trans (cnt_mem ..)
  split
  · exact ⟨hpend, hrd, hmem⟩
  · exact ⟨hpend, hrd, hmem⟩

/-- The Archive's list of waiting blocks without `e`. -/
def arcTaken (e : Nat × Dom × Nat × SMap Nat) (s : State) : State := { s with str := { s.str with arcPend := s.str.arcPend.erase e } }

theorem doArchiveBlockDrop_found {i : Fin 4096} {s : State} {e : Nat × Dom × Nat × SMap Nat}
    (h : s.str.arcPend.find? (fun e => e.1 == i.val) = some e) : doArchiveBlockDrop i s = blockDrop i e.2.2.1 (arcTaken e s) := by
  unfold doArchiveBlockDrop
  rw [h]
  rfl

/-- Settles O21: a frame's close, a block's end and a reset each change their own part of the strips' state, and a dropped block is
taken from the list and counted. -/
theorem metersAndArchive : Obligations.MetersAndArchive := by
  intro s ready
  refine ⟨fun hstr hon => ?_, fun g n hdone => ?_, fun w hon hreset => ?_, fun i e he => ?_⟩
  · refine completes_run doMeterFrameClose rfl ready ?_
    obtain ⟨hgal, hclosed⟩ := Prod.mk.inj (doMeterFrameClose_sound (s := quietOut s) hstr hon)
    rw [keep_str, settle_str, hclosed]
    exact ⟨rfl, rfl, rfl, rfl, rfl, (settle_gal _).trans hgal⟩
  · refine completes_run (doLoudnessBlock g) rfl ready ?_
    rw [doLoudnessBlock_done (s := quietOut s) hdone]
    obtain ⟨r, u, hr, hu, joined⟩ := blockEnd_joins g n (quietOut s)
    rw [hr]
    have hself := (group_settled (t := s) hu g r g).trans (if_pos rfl)
    refine ⟨?_, ?_, ?_, ?_, ?_, fun k hk => (group_settled hu g r k).trans (if_neg hk)⟩ <;> rw [hself]
    · exact joined.blocks
    · exact joined.sum
    · exact joined.n
    · exact joined.count
    · exact joined.resetReq
  · refine completes_run (softWrite 8 STR_LG_RESET w) rfl ready ?_
    rw [softWrite_lgReset (s := quietOut s) 8 w hon, lgReset_asks 8 _ hreset]
    have hgroup := group_settled (t := s) (swWrite_str (quietOut s) 8 STR_LG_RESET w) (bitsOf w.toNat 0 9)
      { group s (bitsOf w.toNat 0 9) with resetReq := true }
    exact ⟨(hgroup _).trans (if_pos rfl), fun h hh => (hgroup h).trans (if_neg hh)⟩
  · refine completes_run (doArchiveBlockDrop i) rfl ready ?_
    rw [doArchiveBlockDrop_found (s := quietOut s) he]
    have r := settled_reported s (blockDrop i e.2.2.1 (arcTaken e (quietOut s)))
    obtain ⟨hpend, hcount, hmem⟩ := blockDrop_counts i e.2.2.1 (arcTaken e (quietOut s))
    exact ⟨(congrArg StrSt.arcPend r.str).trans hpend, (r.rd _ not_reportKey_arcDrop).trans hcount, r.mem.trans hmem⟩

end Sys2Proof.Machine
end

section
/-! PROOF. 05 R168, R169: a playback channel is armed or refused, starts, ends, and counts a late read once (O22). -/

namespace Sys2Proof.Machine

/-! ### The playback channels -/

theorem pbOf_congr {s t : State} (h : t.str = s.str) (ch : Nat) : pbOf t ch = pbOf s ch := by
  unfold pbOf
  rw [h]

theorem pbOf_setPb (ch c : Nat) (v : Option Playback) (s : State) : pbOf (setPb ch v s) c = if c = ch then v else pbOf s c := smGet_smSet ..

theorem setPb_str_congr {s t : State} (ch : Nat) (v : Option Playback) (h : t.str = s.str) : (setPb ch v t).str = (setPb ch v s).str :=
  congrArg (fun m : StrSt => { m with pb := smSet none m.pb ch v }) h

theorem setPbState_str (ch v : Nat) (s : State) : (setPbState ch v s).str = s.str := fset_str ..

/-- A channel alone has changed, to `v`. -/
theorem pbOf_settled {s t u : State} {ch : Nat} {v : Option Playback} (h : u.str = (setPb ch v s).str) (c : Nat) :
    pbOf (keep t (settle u)) c = if c = ch then v else pbOf s c :=
  (pbOf_congr ((settle_str u).trans h) c).trans (pbOf_setPb ..)

theorem not_settleKey_pbStatus (ch : Nat) : ¬settleKey (STR_PB_STATUS ch) := not_settleKey (by unfold STR_PB_STATUS; omega)

theorem not_settleKey_pbLate : ¬settleKey STR_PB_LATE := not_settleKey (by decide)

theorem fget_pbStatus_settled (s t : State) (ch : Nat) (f : Fld) :
    fget (keep s (settle t)) (STR_PB_STATUS ch) f = fget t (STR_PB_STATUS ch) f := fget_settle _ _ _ (not_settleKey_pbStatus ch)

theorem pbState_setPbState (ch v : Nat) (s : State) (h : v < 4) : pbState (setPbState ch v s) ch = v :=
  (fget_fset _ _ STR_PB_STATUS_state v (by decide)).trans (Nat.mod_eq_of_lt h)

/-! ### The window of a channel (05 R168) -/

/-- What arming a channel reads is in `t` as it is in `s`: the Archive's registers, the channel's own, the bindings and time. -/
structure SameWindow (ch : Nat) (s t : State) : Prop where
  scn : t.scn = s.scn
  tim : t.tim = s.tim
  rd : ∀ k, k = STR_ARC_CTRL ∨ k = STR_ARC_SIZE ∨ (STR_PB_SRC ch ≤ k ∧ k ≤ STR_PB_LEN ch) → rd t k = rd s k

namespace SameWindow

variable {ch : Nat} {s t : State}

theorem src (h : SameWindow ch s t) (f : Fld) : fget t (STR_PB_SRC ch) f = fget s (STR_PB_SRC ch) f :=
  fget_congr _ _ _ _ (h.rd _ (.inr (.inr (by unfold STR_PB_SRC STR_PB_LEN; omega))))

theorem start (h : SameWindow ch s t) :
    get64 t (STR_PB_START_LO ch) (STR_PB_START_HI ch) = get64 s (STR_PB_START_LO ch) (STR_PB_START_HI ch) := by
  unfold get64
  rw [h.rd _ (.inr (.inr (by unfold STR_PB_SRC STR_PB_LEN STR_PB_START_LO; omega))),
    h.rd _ (.inr (.inr (by unfold STR_PB_SRC STR_PB_LEN STR_PB_START_HI; omega)))]

theorem from_ (h : SameWindow ch s t) :
    get64 t (STR_PB_FROM_LO ch) (STR_PB_FROM_HI ch) = get64 s (STR_PB_FROM_LO ch) (STR_PB_FROM_HI ch) := by
  unfold get64
  rw [h.rd _ (.inr (.inr (by unfold STR_PB_SRC STR_PB_LEN STR_PB_FROM_LO; omega))),
    h.rd _ (.inr (.inr (by unfold STR_PB_SRC STR_PB_LEN STR_PB_FROM_HI; omega)))]

theorem len (h : SameWindow ch s t) : Machine.rd t (STR_PB_LEN ch) = Machine.rd s (STR_PB_LEN ch) :=
  h.rd _ (.inr (.inr (by unfold STR_PB_SRC STR_PB_LEN; omega)))

theorem arcSize (h : SameWindow ch s t) : Machine.arcSize t = Machine.arcSize s := by
  unfold Machine.arcSize
  rw [fget_congr _ _ _ _ (h.rd _ (.inr (.inl rfl)))]

theorem refusal (h : SameWindow ch s t) : pbRefusal t ch = pbRefusal s ch := by
  have hctrl : fget t STR_ARC_CTRL STR_ARC_CTRL_enable = fget s STR_ARC_CTRL STR_ARC_CTRL_enable := fget_congr _ _ _ _ (h.rd _ (.inl rfl))
  have hdom (i : Nat) : domS t i = domS s i := by
    unfold domS
    rw [h.scn]
  unfold pbRefusal arcEnabled arcDepth fbit
  simp only [h.src, h.start, h.from_, h.arcSize, hctrl, hdom]

end SameWindow

/-- A write to the channel's control register leaves its window. -/
theorem SameWindow.swWrite (s : State) (m ch : Nat) (w : W32) : SameWindow ch s (swWrite s m (STR_PB_CTRL ch) w) where
  scn := swWrite_keeps State.scn (fun _ _ => rfl) (fun _ _ => rfl) ..
  tim := swWrite_keeps State.tim (fun _ _ => rfl) (fun _ _ => rfl) ..
  rd k hk := by
    unfold STR_ARC_CTRL STR_ARC_SIZE STR_PB_SRC STR_PB_LEN at hk
    exact rd_swWrite_ne _ _ _ (by unfold STR_PB_CTRL; omega) (by omega)

/-- So does one to its status. -/
theorem SameWindow.status {ch : Nat} {s t : State} (h : SameWindow ch s t) (f : Fld) (v : Nat) :
    SameWindow ch s (fset t (STR_PB_STATUS ch) f v) where
  scn := h.scn
  tim := h.tim
  rd k hk := by
    refine (rd_fset_ne _ _ _ _ _ ?_).trans (h.rd k hk)
    unfold STR_ARC_CTRL STR_ARC_SIZE STR_PB_SRC STR_PB_LEN at hk
    unfold STR_PB_STATUS
    omega

theorem pbRefusal_lt (s : State) (ch : Nat) : pbRefusal s ch < 16 := by
  unfold pbRefusal
  cases domOf (fget s (STR_PB_SRC ch) STR_PB_SRC_domain)
  · exact (show 4 < 16 by decide)
  · dsimp only
    split_ifs <;> decide

/-! ### Arming and stopping a channel (05 R168, R169) -/

theorem inst_self {base stride n i : Nat} (hs : 0 < stride) (h : i < n) : inst (base + stride * i) base stride n = some i := by
  unfold inst
  rw [Nat.add_sub_cancel_left, Nat.mul_mod_right, Nat.mul_div_cancel_left i hs, if_pos ⟨Nat.le_add_right .., rfl, h⟩]

theorem softWrite_pbCtrl {s : State} (m : Nat) (ch : Fin 64) (w : W32) (hon : regOn s (STR_PB_CTRL ch) = true) :
    softWrite m (STR_PB_CTRL ch) w s = pbCtrl m ch w s := by
  have hblock : STR_PB_CTRL ch / 0x40000 = 11 := by unfold STR_PB_CTRL; omega
  have harc : STR_PB_CTRL ch ≠ STR_ARC_SIZE := by unfold STR_PB_CTRL STR_ARC_SIZE; omega
  have hreset : STR_PB_CTRL ch ≠ STR_LG_RESET := by unfold STR_PB_CTRL STR_LG_RESET; omega
  have hinst : inst (STR_PB_CTRL ch) (STR_PB_CTRL 0) 0x10 64 = some ch.val := inst_self (by decide) ch.isLt
  rw [softWrite_strip m w hblock hon, if_neg harc, if_neg hreset, onInst, hinst]

/-- The channel's status with a refusal code, after the write `w` to its control register. -/
def pbAnswered (m ch : Nat) (w : W32) (s : State) : State :=
  fset (swWrite s m (STR_PB_CTRL ch) w) (STR_PB_STATUS ch) STR_PB_STATUS_refusal (pbRefusal s ch)

theorem pbAnswered_window (m ch : Nat) (w : W32) (s : State) : SameWindow ch s (pbAnswered m ch w s) :=
  (SameWindow.swWrite s m ch w).status _ _

theorem pbAnswered_refusal (m ch : Nat) (w : W32) (s : State) :
    fget (pbAnswered m ch w s) (STR_PB_STATUS ch) STR_PB_STATUS_refusal = pbRefusal s ch :=
  (fget_fset _ _ STR_PB_STATUS_refusal _ (by decide)).trans (Nat.mod_eq_of_lt (pbRefusal_lt s ch))

theorem pbAnswered_str (m ch : Nat) (w : W32) (s : State) : (pbAnswered m ch w s).str = s.str := (fset_str ..).trans (swWrite_str ..)

/-- The playback that a channel armed in domain `x` waits with. -/
def pbWindow (s : State) (ch : Nat) (x : Dom) : Playback :=
  { src := fget s (STR_PB_SRC ch) STR_PB_SRC_s_slot, dom := x, idxFrom := get64 s (STR_PB_FROM_LO ch) (STR_PB_FROM_HI ch),
    start := get64 s (STR_PB_START_LO ch) (STR_PB_START_HI ch), len := (rd s (STR_PB_LEN ch)).toNat, stopReq := false,
    late := running s x && decide (get64 s (STR_PB_START_LO ch) (STR_PB_START_HI ch) ≤ nowIdx s x), prev := 0, lateRead := false }

/-- Channel `ch` waits in domain `x`. -/
def pbArmed (ch : Nat) (x : Dom) (s : State) : State :=
  setPbState ch 1 (setPb ch (some (pbWindow s ch x)) (fset s (STR_PB_STATUS ch) STR_PB_STATUS_late (b2n (pbWindow s ch x).late)))

theorem pbArmed_str (ch : Nat) (x : Dom) (s : State) : (pbArmed ch x s).str = (setPb ch (some (pbWindow s ch x)) s).str :=
  (setPbState_str ..).trans (setPb_str_congr _ _ (fset_str ..))

theorem pbArmed_refusal (ch : Nat) (x : Dom) (s : State) :
    fget (pbArmed ch x s) (STR_PB_STATUS ch) STR_PB_STATUS_refusal = fget s (STR_PB_STATUS ch) STR_PB_STATUS_refusal :=
  (fget_fset_other _ _ STR_PB_STATUS_state STR_PB_STATUS_refusal _ (by decide) (by decide)).trans
    (fget_fset_other s _ STR_PB_STATUS_late STR_PB_STATUS_refusal _ (by decide) (by decide))

/-- A write that arms and does not stop: the channel answers, and waits unless it is refused. -/
theorem pbCtrl_arm {s : State} {ch : Nat} {w : W32} (m : Nat) (harm : bitOf w.toNat 0 = true) (hstop : bitOf w.toNat 1 = false) :
    pbCtrl m ch w s = if pbRefusal s ch ≠ 0 then pbAnswered m ch w s else
      (domOf (fget s (STR_PB_SRC ch) STR_PB_SRC_domain)).elim (pbAnswered m ch w s) fun x => pbArmed ch x (pbAnswered m ch w s) := by
  unfold pbCtrl
  rw [harm, hstop]
  extract_lets s0 s1 code s2 start
  refine (if_neg (by decide)).trans ?_
  have h1 : s1 = s0 := if_neg (by decide)
  have hcode : code = pbRefusal s ch := (congrArg (pbRefusal · ch) h1).trans (SameWindow.swWrite s m ch w).refusal
  have h2 : s2 = pbAnswered m ch w s := by
    unfold s2 pbAnswered
    rw [h1, hcode]
  clear_value s2 code
  subst hcode h2
  rw [(pbAnswered_window m ch w s).src]
  cases domOf (fget s (STR_PB_SRC ch) STR_PB_SRC_domain) <;> rfl

theorem pbCtrl_refused {s : State} {ch : Nat} {w : W32} (m : Nat) (harm : bitOf w.toNat 0 = true) (hstop : bitOf w.toNat 1 = false)
    (h : pbRefusal s ch ≠ 0) : pbCtrl m ch w s = pbAnswered m ch w s := (pbCtrl_arm m harm hstop).trans (if_pos h)

theorem pbCtrl_armed {s : State} {ch : Nat} {w : W32} {x : Dom} (m : Nat) (harm : bitOf w.toNat 0 = true) (hstop : bitOf w.toNat 1 = false)
    (h : pbRefusal s ch = 0) (hx : domOf (fget s (STR_PB_SRC ch) STR_PB_SRC_domain) = some x) :
    pbCtrl m ch w s = pbArmed ch x (pbAnswered m ch w s) := by
  rw [pbCtrl_arm m harm hstop, if_neg (not_not.mpr h), hx]
  rfl

/-- A stop marks the channel; it ends with a tick. -/
theorem pbCtrl_stopped {s : State} {ch : Nat} {w : W32} {p : Playback} (m : Nat) (harm : bitOf w.toNat 0 = false)
    (hstop : bitOf w.toNat 1 = true) (hp : pbOf s ch = some p) :
    pbCtrl m ch w s = setPb ch (some { p with stopReq := true }) (swWrite s m (STR_PB_CTRL ch) w) := by
  have hp' : pbOf (swWrite s m (STR_PB_CTRL ch) w) ch = some p := (pbOf_congr (swWrite_str ..) ch).trans hp
  unfold pbCtrl
  rw [harm, hstop]
  refine (if_pos rfl).trans ((if_pos rfl).trans ?_)
  rw [hp']

/-! ### The tick of a channel (05 R168, R169) -/

theorem doPlaybackStart_starts {s : State} {ch : Fin 64} {p : Playback} (hp : pbOf s ch = some p) (hrun : running s p.dom = true)
    (hwait : pbState s ch = 1) (hgo : p.stopReq = false) (hstart : p.start ≤ (genOf s p.dom).next) :
    doPlaybackStart ch s = setPbState ch 2 s := by
  unfold doPlaybackStart pbStart
  rw [hp]
  refine (if_pos hrun).trans ?_
  exact if_pos ⟨hwait, by rw [hgo]; rfl, hstart⟩

theorem doPlaybackEnd_ends {s : State} {ch : Fin 64} {p : Playback} (hp : pbOf s ch = some p) (hrun : running s p.dom = true)
    (hend : p.stopReq = true ∨ (p.len ≠ 0 ∧ p.start + p.len ≤ (genOf s p.dom).next)) :
    doPlaybackEnd ch s = setPbState ch 0 (setPb ch none s) := by
  unfold doPlaybackEnd pbEnd
  rw [hp]
  exact (if_pos hrun).trans (if_pos hend)

theorem doPlaybackReadLate_marks {s : State} {ch : Fin 64} {p : Playback} (hp : pbOf s ch = some p) (hplay : pbState s ch = 2)
    (hnew : p.lateRead = false) :
    doPlaybackReadLate ch s = cnt (setPb ch (some { p with lateRead := true }) s) STR_PB_LATE := by
  unfold doPlaybackReadLate
  rw [hp]
  exact if_pos ⟨hplay, by rw [hnew]; rfl⟩

/-- Settles O22: the control register arms or refuses a channel by its window and marks a stop; the channel's tick starts and ends it, and
a late read is marked and counted. -/
theorem playback : Obligations.Playback := by
  intro s ch ready
  refine ⟨fun w hon harm hstop => ⟨fun href => ?_, fun x hok hx => ?_⟩, fun w p hon harm hstop hp => ?_, fun p hp =>
    ⟨fun hrun hwait hgo hstart => ?_, fun hrun hend => ?_, fun hplay hnew => ?_⟩⟩
  · refine completes_run (softWrite 8 (STR_PB_CTRL ch) w) rfl ready ?_
    rw [softWrite_pbCtrl (s := quietOut s) 8 ch w hon, pbCtrl_refused (s := quietOut s) 8 harm hstop href]
    exact ⟨(fget_pbStatus_settled ..).trans (pbAnswered_refusal ..), (settle_str _).trans (pbAnswered_str ..)⟩
  · refine completes_run (softWrite 8 (STR_PB_CTRL ch) w) rfl ready ?_
    rw [softWrite_pbCtrl (s := quietOut s) 8 ch w hon, pbCtrl_armed (s := quietOut s) 8 harm hstop hok hx]
    have hsame := pbAnswered_window 8 ch w (quietOut s)
    refine ⟨?_, ?_, pbWindow (pbAnswered 8 ch w (quietOut s)) ch x, ?_, rfl, hsame.src _, hsame.start, hsame.from_,
      congrArg BitVec.toNat hsame.len, rfl⟩
    · exact (fget_pbStatus_settled ..).trans (pbState_setPbState _ _ _ (by decide))
    · exact (fget_pbStatus_settled ..).trans ((pbArmed_refusal ..).trans ((pbAnswered_refusal ..).trans hok))
    · exact (pbOf_settled (pbArmed_str ..) ch).trans (if_pos rfl)
  · refine completes_run (softWrite 8 (STR_PB_CTRL ch) w) rfl ready ?_
    rw [softWrite_pbCtrl (s := quietOut s) 8 ch w hon, pbCtrl_stopped (s := quietOut s) 8 harm hstop hp]
    have hpb (c : Nat) := pbOf_settled (s := s) (t := s) (setPb_str_congr ch (some { p with stopReq := true })
      (swWrite_str (quietOut s) 8 (STR_PB_CTRL ch) w)) c
    exact ⟨(hpb ch).trans (if_pos rfl), fun c hc => (hpb c).trans (if_neg hc)⟩
  · refine completes_run (doPlaybackStart ch) rfl ready ?_
    rw [doPlaybackStart_starts (s := quietOut s) hp hrun hwait hgo hstart]
    exact ⟨(fget_pbStatus_settled ..).trans (pbState_setPbState _ _ _ (by decide)), (settle_str _).trans (fset_str ..)⟩
  · refine completes_run (doPlaybackEnd ch) rfl ready ?_
    rw [doPlaybackEnd_ends (s := quietOut s) hp hrun hend]
    have hpb (c : Nat) := pbOf_settled (s := quietOut s) (t := s) (setPbState_str ch 0 (setPb ch none (quietOut s))) c
    exact ⟨(fget_pbStatus_settled ..).trans (pbState_setPbState _ _ _ (by decide)), (hpb ch).trans (if_pos rfl),
      fun c hc => (hpb c).trans (if_neg hc)⟩
  · refine completes_run (doPlaybackReadLate ch) rfl ready ?_
    rw [doPlaybackReadLate_marks (s := quietOut s) hp hplay hnew]
    refine ⟨(pbOf_settled (cnt_str ..) ch).trans (if_pos rfl), ?_⟩
    exact (rd_settle _ _ not_settleKey_pbLate).trans (rd_cnt ..)

end Sys2Proof.Machine
end

section
/-! PROOF. 07 R226, R227: the ALU instructions (O1, O2). -/

namespace Sys2Proof.Machine

/-! ### Stored results and sticky bits -/

theorem sat64_eq_aluResult (v : Int) : sat64 v = aluResult v .saturating := by
  have hmax : s64Max.toInt = 2 ^ 63 - 1 := by decide
  have hmin : s64Min.toInt = -2 ^ 63 := by decide
  unfold sat64 aluResult
  simp only [hmax, hmin]
  split
  · rw [min_eq_left (by omega)]
    rfl
  · split
    · rw [min_eq_right (by omega), max_eq_left (by omega)]
      rfl
    · rw [min_eq_right (by omega), max_eq_right (by omega)]

theorem aluBits_wrapping (p : Prop) [Decidable p] : aluBits .wrapping (decide p) = ifV (decide ¬p) := by
  by_cases h : p <;> simp [aluBits, ifV, h]

theorem aluBits_saturating (p : Prop) [Decidable p] : aluBits .saturating (decide p) = ifS (decide ¬p) := by
  by_cases h : p <;> simp [aluBits, ifS, h]

theorem aluBits_exact (e : Bool) : aluBits .exact e = 0 := by cases e <;> rfl

section
variable {i : Instr} {c : Fin 68} {w : BitVec 64} {s : State} (rd : Nat) (v : Core → Int)

/-- An ALU instruction of a wrapping form. -/
theorem completes_aluWraps (he : exec i s = run (issue c w .plain (fun k => aluWrite rd (v k) .wrapping k)) s) {x : Int} (hx : v (coreOf s c) = x)
    {r : S64} (hr : BitVec.ofInt 64 x = r) (hl : atlLegal w (coreOf s c).pc = true) (h : AtWord c w s) :
    Completes i s (fun t => seen (coreOf t c) = aluDone (coreOf s c) rd r (ifV (decide (r.toInt ≠ x))) ∧ OnlyCore c s t) := by
  subst hx hr
  have hdone := completes_alu c w rd v .wrapping s he h hl
  rwa [aluBits_wrapping] at hdone

/-- An ALU instruction of the saturating form. -/
theorem completes_aluSaturates (he : exec i s = run (issue c w .plain (fun k => aluWrite rd (v k) .saturating k)) s) {x : Int}
    (hx : v (coreOf s c) = x) (hl : atlLegal w (coreOf s c).pc = true) (h : AtWord c w s) :
    Completes i s (fun t => seen (coreOf t c) = aluDone (coreOf s c) rd (sat64 x) (ifS (decide ((sat64 x).toInt ≠ x))) ∧ OnlyCore c s t) := by
  subst hx
  have hdone := completes_alu c w rd v .saturating s he h hl
  rwa [aluBits_saturating, ← sat64_eq_aluResult] at hdone

/-- An ALU instruction whose exact result is a 64-bit number. -/
theorem completes_aluExact (he : exec i s = run (issue c w .plain (fun k => aluWrite rd (v k) .exact k)) s) {r : S64}
    (hr : v (coreOf s c) = r.toInt) (hl : atlLegal w (coreOf s c).pc = true) (h : AtWord c w s) :
    Completes i s (fun t => seen (coreOf t c) = aluDone (coreOf s c) rd r 0 ∧ OnlyCore c s t) := by
  have hdone := completes_alu c w rd v .exact s he h hl
  rwa [aluBits_exact, hr, show aluResult r.toInt .exact = r from BitVec.ofInt_toInt] at hdone

end

/-! ### Legal words of format A (07 R219) -/

/-- MOV, NEG and ABS. -/
theorem atlLegal_aluOne {op : Nat} (hop : op = 0x10 ∨ op = 0x15 ∨ op = 0x16) (rd ra : Fin 16) (pc : Nat) :
    atlLegal (encA op rd ra 0 0 0) pc = true := by
  obtain rfl | rfl | rfl := hop <;>
    exact legalA _ rd ra 0 0 0 pc (by decide) (by omega) (by omega) (by decide) (by decide) (by decide) (by simp)

/-- ADD, ADDS, SUB, SUBS, MIN, MAX, AND, OR and XOR. -/
theorem atlLegal_aluTwo {op : Nat} (hop : op ∈ [0x11, 0x12, 0x13, 0x14, 0x17, 0x18, 0x19, 0x1A, 0x1B]) (rd ra rb : Fin 16) (pc : Nat) :
    atlLegal (encA op rd ra rb 0 0) pc = true := by
  fin_cases hop <;>
    exact legalA _ rd ra rb 0 0 pc (by decide) (by omega) (by omega) (by omega) (by decide) (by decide) (by simp)

theorem atlLegal_cmp (ra rb : Fin 16) (pc : Nat) : atlLegal (encA 0x20 0 ra rb 0 0) pc = true :=
  legalA _ 0 ra rb 0 0 pc (by decide) (by decide) (by omega) (by omega) (by decide) (by decide) (by simp)

/-- SHL, SHLS, SHR and SHRL. -/
theorem atlLegal_shift {op : Nat} (hop : op ∈ [0x1C, 0x1D, 0x1E, 0x1F]) (rd ra : Fin 16) (sh : Fin 64) (pc : Nat) :
    atlLegal (encA op rd ra 0 0 sh) pc = true := by
  fin_cases hop <;>
    exact legalA _ rd ra 0 0 sh pc (by decide) (by omega) (by omega) (by decide) (by decide) (by omega) (by simp)

/-- MOVI and MOVIH. -/
theorem atlLegal_immediate {op : Nat} (hop : op = 0x28 ∨ op = 0x29) (rd : Fin 16) (imm : BitVec 32) (pc : Nat) :
    atlLegal (encI op rd 0 0 imm.toNat) pc = true := by
  obtain rfl | rfl := hop <;> exact legalI _ rd 0 0 _ pc (by decide) (by omega) (by decide) (by decide) imm.isLt (by simp)

theorem atlLegal_addi (rd ra : Fin 16) (imm : BitVec 32) (pc : Nat) : atlLegal (encI 0x2A rd ra 0 imm.toNat) pc = true :=
  legalI _ rd ra 0 _ pc (by decide) (by omega) (by omega) (by decide) imm.isLt (by simp)

/-! ### The instructions -/

/-- CMP writes N and Z alone (07 R227). -/
theorem completes_cmp {i : Instr} {c : Fin 68} {w : BitVec 64} {s : State} (ra rb : Nat)
    (he : exec i s = run (issue c w .plain (effCmp ra rb)) s) (hl : atlLegal w (coreOf s c).pc = true) (h : AtWord c w s) :
    Completes i s (fun t => seen (coreOf t c) = stepped (coreOf s c) { bankOf (coreOf s c) with
      sw := swNZ (bankOf (coreOf s c)).sw (decide ((coreD (coreOf s c) ra).toInt < (coreD (coreOf s c) rb).toInt))
        (decide (coreD (coreOf s c) ra = coreD (coreOf s c) rb)) 0 } ∧ OnlyCore c s t) := by
  have hcore := completes_plain c w (effCmp ra rb) s he h hl rfl rfl rfl
    ((coreLater_delay ..).trans h.noDelay) ((coreLater_loops ..).trans h.noLoop) (coreLater_pc ..)
  refine hcore.mono fun t ⟨hk, honly⟩ => ⟨?_, honly⟩
  rw [hk, ← decide_eq_decide.2 (BitVec.toInt_inj (x := coreD (coreOf s c) ra))]
  exact seen_nz _ _ (coreOf s c) h.noFlight h.noLoop

theorem toInt_min (a b : S64) : min a.toInt b.toInt = (if a.toInt ≤ b.toInt then a else b).toInt := by
  rw [min_def, apply_ite BitVec.toInt]

theorem toInt_max (a b : S64) : max a.toInt b.toInt = (if a.toInt ≤ b.toInt then b else a).toInt := by
  rw [max_def, apply_ite BitVec.toInt]

/-- Settles O1: each instruction gives Dd its exact result in the form of its row; CMP gives the flags alone. -/
theorem aluArithmeticCompareBitwise : Obligations.AluArithmeticCompareBitwise := by
  refine ⟨?_, ?_⟩
  · intro s c rd ra rb k a b wraps saturates
    refine ⟨?_, ?_, ?_, ?_, ?_, ?_, ?_⟩
    · exact completes_aluExact rd (fun k => (coreD k ra).toInt) rfl rfl (atlLegal_aluOne (by decide) ..)
    · exact completes_aluWraps rd (fun k => (coreD k ra).toInt + (coreD k rb).toInt) rfl rfl rfl (atlLegal_aluTwo (by decide) ..)
    · exact completes_aluSaturates rd (fun k => (coreD k ra).toInt + (coreD k rb).toInt) rfl rfl (atlLegal_aluTwo (by decide) ..)
    · exact completes_aluWraps rd (fun k => (coreD k ra).toInt - (coreD k rb).toInt) rfl rfl rfl (atlLegal_aluTwo (by decide) ..)
    · exact completes_aluSaturates rd (fun k => (coreD k ra).toInt - (coreD k rb).toInt) rfl rfl (atlLegal_aluTwo (by decide) ..)
    · exact completes_aluWraps rd (fun k => -(coreD k ra).toInt) rfl rfl rfl (atlLegal_aluOne (by decide) ..)
    · exact completes_aluSaturates rd (fun k => ((coreD k ra).toInt.natAbs : Int)) rfl rfl (atlLegal_aluOne (by decide) ..)
  · intro s c rd ra rb k a b gives
    refine ⟨?_, ?_, ?_, ?_, ?_, ?_⟩
    · exact completes_aluExact rd (fun k => min (coreD k ra).toInt (coreD k rb).toInt) rfl (toInt_min a b) (atlLegal_aluTwo (by decide) ..)
    · exact completes_aluExact rd (fun k => max (coreD k ra).toInt (coreD k rb).toInt) rfl (toInt_max a b) (atlLegal_aluTwo (by decide) ..)
    · exact completes_aluExact rd (fun k => (coreD k ra &&& coreD k rb).toInt) rfl rfl (atlLegal_aluTwo (by decide) ..)
    · exact completes_aluExact rd (fun k => (coreD k ra ||| coreD k rb).toInt) rfl rfl (atlLegal_aluTwo (by decide) ..)
    · exact completes_aluExact rd (fun k => (coreD k ra ^^^ coreD k rb).toInt) rfl rfl (atlLegal_aluTwo (by decide) ..)
    · exact completes_cmp ra rb rfl (atlLegal_cmp ..)

/-- Shifting left multiplies, modulo 2^64. -/
theorem ofInt_mul_two_pow (a : S64) (n : Nat) : BitVec.ofInt 64 (a.toInt * 2 ^ n) = a <<< n := by
  rw [BitVec.shiftLeft_eq_mul_twoPow, BitVec.ofInt_mul, BitVec.ofInt_toInt]
  refine congrArg (a * ·) (BitVec.eq_of_toNat_eq ?_)
  rw [show (2 : Int) ^ n = ((2 ^ n : Nat) : Int) from by push_cast; rfl, BitVec.ofInt_natCast, BitVec.toNat_ofNat, BitVec.toNat_twoPow]

/-- Settles O2: a shift or an immediate form gives Dd its exact result in the form of its row. -/
theorem aluShiftImmediate : Obligations.AluShiftImmediate := by
  intro s c rd ra sh imm k a v gives
  refine ⟨?_, ?_, ?_, ?_, ?_, ?_, ?_⟩
  · exact completes_aluWraps rd (fun k => (coreD k ra).toInt * 2 ^ sh.val) rfl rfl (ofInt_mul_two_pow a sh) (atlLegal_shift (by decide) ..)
  · exact completes_aluSaturates rd (fun k => (coreD k ra).toInt * 2 ^ sh.val) rfl rfl (atlLegal_shift (by decide) ..)
  · refine completes_aluExact rd (fun k => (coreD k ra).toInt / 2 ^ sh.val) rfl ?_ (atlLegal_shift (by decide) ..)
    rw [BitVec.toInt_sshiftRight, Int.shiftRight_eq_div_pow]
    rfl
  · exact completes_aluExact rd (fun k => (coreD k ra >>> sh.val).toInt) rfl rfl (atlLegal_shift (by decide) ..)
  · refine completes_aluExact rd (fun _ => imm.toInt) rfl ?_ (atlLegal_immediate (by decide) ..)
    exact (BitVec.toInt_signExtend_of_le (by decide)).symm
  · exact completes_aluExact rd (fun k => (imm ++ (coreD k rd).setWidth 32 : BitVec 64).toInt) rfl rfl (atlLegal_immediate (by decide) ..)
  · refine completes_aluWraps rd (fun k => (coreD k ra).toInt + imm.toInt) rfl rfl ?_ (atlLegal_addi ..)
    rw [BitVec.ofInt_add, BitVec.ofInt_toInt]
    rfl

end Sys2Proof.Machine
end

section
/-! PROOF. 07 R229, R230, 06 R193 to R195: loads, stores and exchange, whose results land at the first and the second instruction
after them (O4). -/

namespace Sys2Proof.Machine

/-! ### Results in flight of two distances (06 R193) -/

/-- The core with the results `acts` of the instruction that issues in flight for the `n`-th instruction after it. -/
def afterMany (n : Nat) (acts : List WbAct) (k : Core) : Core := acts.foldl (fun x a => coreLater n a x) k

theorem afterMany_eq (n : Nat) (acts : List WbAct) (k : Core) :
    afterMany n acts k = setBank k { bankOf k with wb := (bankOf k).wb ++ acts.map fun a => ⟨(bankOf k).issued + n, a⟩ } := by
  induction acts generalizing k with
  | nil =>
    rw [List.map_nil, List.append_nil]
    exact (setBank_bankOf k).symm
  | cons a acts ih =>
    refine (ih (coreLater n a k)).trans ?_
    simp [coreLater_form, bankOf_setBank]

theorem afterMany_keeps {α : Type} (p : Core → α) {n : Nat} (hp : ∀ a k, p (coreLater n a k) = p k) (acts : List WbAct) (k : Core) :
    p (afterMany n acts k) = p k := by
  induction acts generalizing k with
  | nil => rfl
  | cons a acts ih => exact (ih _).trans (hp a k)

theorem inHandler_wbApply (sh : Bool) (k : Core) (a : WbAct) : (wbApply sh k a).1.inHandler = k.inHandler := by
  unfold wbApply putBank
  cases a with
  | accAdd r v =>
    dsimp only
    obtain ⟨x, loss⟩ := accAdd (smGet accZero (if sh then k.shadow else k.main).a r) v
    cases sh <;> cases loss <;> rfl
  | accSet r x loss => cases sh <;> cases loss <;> rfl
  | _ => cases sh <;> rfl

/-- The results `acts` reach their registers in the bank that issues. -/
def landAll (acts : List WbAct) (k : Core) : Core := acts.foldl (fun x a => (wbApply x.inHandler x a).1) k

theorem landAll_cons (a : WbAct) (acts : List WbAct) (k : Core) : landAll (a :: acts) k = landAll acts (wbApply k.inHandler k a).1 := rfl

theorem inHandler_landAll (acts : List WbAct) (k : Core) : (landAll acts k).inHandler = k.inHandler := by
  induction acts generalizing k with
  | nil => rfl
  | cons a acts ih => exact (ih _).trans (inHandler_wbApply ..)

/-- The core with other results in flight in the bank that issues. -/
def withFlight (l : List Wb) (k : Core) : Core := setBank k { bankOf k with wb := l }

theorem inHandler_withFlight (l : List Wb) (k : Core) : (withFlight l k).inHandler = k.inHandler := inHandler_setBank ..

theorem withFlight_withFlight (l l' : List Wb) (k : Core) : withFlight l (withFlight l' k) = withFlight l k := by
  unfold withFlight
  rw [bankOf_setBank, setBank_setBank]

theorem withFlight_stepped (l : List Wb) (k : Core) (b : Bank) : withFlight l (stepped k b) = stepped k { b with wb := l } := by
  unfold withFlight
  rw [bankOf_stepped]
  exact setBank_stepped k b { b with wb := l }

/-- A result reaches its register whatever else is in flight. -/
theorem wbApply_withFlight (l : List Wb) (k : Core) (a : WbAct) :
    (wbApply k.inHandler (withFlight l k) a).1 = withFlight l (wbApply k.inHandler k a).1 := by
  unfold wbApply withFlight setBank putBank bankOf
  cases a with
  | accAdd r v =>
    cases k.inHandler <;> dsimp only <;> simp only [if_true, Bool.false_eq_true, if_false]
    · obtain ⟨x, loss⟩ := accAdd (smGet accZero k.main.a r) v
      cases loss <;> simp
    · obtain ⟨x, loss⟩ := accAdd (smGet accZero k.shadow.a r) v
      cases loss <;> simp
  | accSet r x loss => cases k.inHandler <;> cases loss <;> simp
  | _ => cases k.inHandler <;> simp

theorem landAll_withFlight (l : List Wb) (acts : List WbAct) (k : Core) : landAll acts (withFlight l k) = withFlight l (landAll acts k) := by
  induction acts generalizing k with
  | nil => rfl
  | cons a acts ih => rw [landAll_cons, inHandler_withFlight, wbApply_withFlight, ih, landAll_cons]

theorem wbApplyAll_map (n : Nat) (acts : List WbAct) (k : Core) : (wbApplyAll k.inHandler k (acts.map fun a => ⟨n, a⟩)).1 = landAll acts k := by
  rw [wbApplyAll_core, List.foldl_map]
  induction acts generalizing k with
  | nil => rfl
  | cons a acts ih =>
    have := ih (wbApply k.inHandler k a).1
    rw [inHandler_wbApply] at this
    exact this

/-! ### When they become visible -/

theorem seen_eq (k : Core) : seen k = (wbUpTo k.inHandler ((bankOf k).issued + 2)
    (wbUpTo k.inHandler ((bankOf k).issued + 1) (wbUpTo k.inHandler (bankOf k).issued k).1).1).1 := rfl

theorem wb_withFlight (l : List Wb) (k : Core) : (bankOf (withFlight l k)).wb = l := by
  unfold withFlight
  rw [bankOf_setBank]

/-- Results that are due leave flight; those of the other list stay. -/
theorem wbUpTo_withFlight {n m : Nat} (now : List WbAct) (later : List Wb) (k : Core) (hm : m ≤ n) (hlater : ∀ w ∈ later, n < w.due) :
    (wbUpTo k.inHandler n (withFlight (later ++ now.map fun a => ⟨m, a⟩) k)).1 = withFlight later (landAll now k) := by
  have hnow : (later ++ now.map fun a => (⟨m, a⟩ : Wb)).filter (fun w => decide (w.due ≤ n)) = now.map fun a => ⟨m, a⟩ := by
    rw [List.filter_append, List.filter_eq_nil_iff.2 fun w hw => by simpa using hlater w hw, List.nil_append]
    exact List.filter_eq_self.2 (by simp [hm])
  have hrest : (later ++ now.map fun a => (⟨m, a⟩ : Wb)).filter (fun w => !decide (w.due ≤ n)) = later := by
    rw [List.filter_append, List.filter_eq_self.2 fun w hw => by simpa using hlater w hw]
    refine (congrArg (later ++ ·) (List.filter_eq_nil_iff.2 ?_)).trans (List.append_nil _)
    simp [hm]
  rw [← inHandler_withFlight (later ++ now.map fun a => ⟨m, a⟩) k, wbUpTo_eq, wb_withFlight, hnow, hrest]
  change (wbApplyAll _ (withFlight later (withFlight _ k)) _).1 = _
  rw [withFlight_withFlight, inHandler_withFlight, ← inHandler_withFlight later k, wbApplyAll_map, landAll_withFlight]

theorem withFlight_wb (k : Core) : withFlight (bankOf k).wb k = k := setBank_bankOf k

/-- Results for the first instruction after become visible before those for the second. -/
theorem seen_oneThenTwo (one two : List WbAct) (k : Core)
    (h : (bankOf k).wb = (two.map fun a => ⟨(bankOf k).issued + 1, a⟩) ++ one.map fun a => ⟨(bankOf k).issued, a⟩) :
    seen k = landAll two (landAll one (withFlight [] k)) := by
  set n := (bankOf k).issued with hn
  have hfirst := wbUpTo_withFlight one (two.map fun a => ⟨n + 1, a⟩) k (Nat.le_refl n) (by simp)
  have hsecond := wbUpTo_withFlight two [] (landAll one k) (Nat.le_refl (n + 1)) (by simp)
  have hthird := wbUpTo_withFlight [] [] (landAll two (landAll one k)) (Nat.le_refl (n + 2)) (by simp)
  simp only [inHandler_landAll, List.nil_append, List.map_nil] at hfirst hsecond hthird
  rw [← h, withFlight_wb] at hfirst
  rw [seen_eq, ← hn, hfirst, hsecond]
  exact hthird.trans ((landAll_withFlight [] two (landAll one k)).symm.trans (congrArg (landAll two) (landAll_withFlight [] one k).symm))

/-- With nothing in flight the core is seen as it is. -/
theorem seen_of_none {k : Core} (h : (bankOf k).wb = []) : seen k = k :=
  (seen_oneThenTwo [] [] k h).trans ((congrArg (withFlight · k) h.symm).trans (withFlight_wb k))

/-- The core issues where another does, with the same registers and results in flight. -/
structure IssuesAs (k k0 : Core) : Prop where
  bank : bankOf k = bankOf k0
  delay : k.delay = k0.delay
  pc : k.pc = k0.pc
  starts : k.b = k0.b
  lengths : k.l = k0.l

theorem IssuesAs.refl (k : Core) : IssuesAs k k := ⟨rfl, rfl, rfl, rfl, rfl⟩

theorem memWr_issuesAs (k : Core) (sp a : Nat) (v : BitVec 64) : IssuesAs (memWr k sp a v) k := by
  obtain ⟨xm, ym, em, bad, h⟩ := memWr_form k sp a v
  rw [h]
  exact ⟨rfl, rfl, rfl, rfl, rfl⟩

theorem seen_afterOneAndTwo (one two : List WbAct) (k : Core) (h : (bankOf k).wb = []) :
    seen { coreCount [] (afterMany 1 one (afterMany 2 two k)) with pc := (k.pc + 1) % 16384 } =
      landAll two (landAll one (stepped k (bankOf k))) := by
  have hform : ({ coreCount [] (afterMany 1 one (afterMany 2 two k)) with pc := (k.pc + 1) % 16384 } : Core) =
      stepped k { bankOf k with wb := (two.map fun a => ⟨(bankOf k).issued + 2, a⟩) ++ one.map fun a => ⟨(bankOf k).issued + 1, a⟩ } := by
    simp only [afterMany_eq, bankOf_setBank, setBank_setBank, h, List.nil_append]
    unfold coreCount stepped
    simp only [bankOf_setBank, setBank_setBank]
    unfold setBank putBank
    split <;> rfl
  rw [hform, seen_oneThenTwo one two _ (by rw [bankOf_stepped]), withFlight_stepped, ← h]

/-- An instruction that only leaves results in flight for the first and the second instruction after it, once it has written its
word to memory: they land, and nothing else changes. -/
theorem completes_oneThenTwo {i : Instr} {c : Fin 68} {w : BitVec 64} {s : State} (eff : Core → IssueEff) (one two : List WbAct) {k x : Core}
    (he : exec i s = run (issue c w .plain eff) s) (hk : IssuesAs k (coreOf s c))
    (heff : eff (coreOf s c) = effPlain (afterMany 1 one (afterMany 2 two k)))
    (hx : landAll two (landAll one (stepped k (bankOf k))) = x) (hl : atlLegal w (coreOf s c).pc = true) (h : AtWord c w s) :
    Completes i s (fun t => seen (coreOf t c) = x ∧ OnlyCore c s t) := by
  have hkeep {α : Type} (p : Core → α) (hp : ∀ n a k, p (coreLater n a k) = p k) : p (eff (coreOf s c)).core = p k := by
    rw [heff]
    exact (afterMany_keeps p (hp 1) ..).trans (afterMany_keeps p (hp 2) ..)
  have hdone := completes_plain c w eff s he h hl (by rw [heff]; rfl) (by rw [heff]; rfl) (by rw [heff]; rfl)
    ((hkeep Core.delay coreLater_delay).trans (hk.delay.trans h.noDelay))
    ((hkeep (fun k => (bankOf k).loops) coreLater_loops).trans ((congrArg Bank.loops hk.bank).trans h.noLoop))
    ((hkeep Core.pc coreLater_pc).trans hk.pc)
  refine hdone.mono fun t ⟨hcore, honly⟩ => ⟨?_, honly⟩
  rw [hcore, heff, ← hx, ← seen_afterOneAndTwo one two k ((congrArg Bank.wb hk.bank).trans h.noFlight), hk.pc]
  rfl

/-! ### Pointers and words of memory -/

theorem wbApply_stepped_p (k : Core) (b : Bank) (r : Nat) (v : BitVec 16) :
    (wbApply k.inHandler (stepped k b) (.p r v)).1 = stepped k { b with p := smSet 0 b.p r v } := by
  unfold wbApply stepped setBank putBank
  cases k.inHandler <;> rfl

theorem wbApply_stepped_k (k : Core) (b : Bank) (r : Nat) (v : C40) :
    (wbApply k.inHandler (stepped k b) (.k r v)).1 = stepped k { b with k := smSet 0 b.k r v } := by
  unfold wbApply stepped setBank putBank
  cases k.inHandler <;> rfl

/-- What post-modification puts in flight (06 R195). -/
def pmActs (nm : Bool) (i m : Nat) (k : Core) : List WbAct :=
  if nm then [] else [.p i (BitVec.ofNat 16 (pmVal k i m (coreP k i)))]

/-- The bank once the pointer is stepped. -/
def pmBank (nm : Bool) (i m : Nat) (k : Core) : Bank :=
  { bankOf k with p := if nm then (bankOf k).p else smSet 0 (bankOf k).p i (BitVec.ofNat 16 (pmVal k i m (coreP k i))) }

theorem pmOne_eq (nm : Bool) (i m : Nat) (k : Core) : pmOne nm i m k = afterMany 1 (pmActs nm i m k) k := by
  unfold pmOne pmActs
  cases nm <;> rfl

/-- What post-modification puts in flight is read past the results that are in flight. -/
theorem pmActs_afterMany (nm : Bool) (i m n : Nat) (acts : List WbAct) (k : Core) : pmActs nm i m (afterMany n acts k) = pmActs nm i m k := by
  refine afterMany_keeps (pmActs nm i m) (fun a k => ?_) acts k
  unfold pmActs
  rw [pmVal_later, coreP_later]

theorem IssuesAs.pmActs {k k0 : Core} (h : IssuesAs k k0) (nm : Bool) (i m : Nat) : pmActs nm i m k = Machine.pmActs nm i m k0 := by
  unfold Machine.pmActs pmVal coreP coreM coreB coreL
  rw [h.bank, h.starts, h.lengths]

theorem landAll_one (a : WbAct) (k : Core) (b : Bank) : landAll [a] (stepped k b) = (wbApply k.inHandler (stepped k b) a).1 :=
  congrArg (fun sh => (wbApply sh (stepped k b) a).1) (inHandler_stepped k b)

theorem landAll_pmActs (nm : Bool) (i m : Nat) (k k0 : Core) :
    landAll (pmActs nm i m k0) (stepped k (bankOf k0)) = stepped k (pmBank nm i m k0) := by
  unfold pmActs pmBank
  cases nm with
  | false => exact (landAll_one ..).trans (wbApply_stepped_p ..)
  | true => rfl

/-! ### The instructions -/

section
variable {i : Instr} {c : Fin 68} {w : BitVec 64} {s : State} (eff : Core → IssueEff) (nm : Bool) (px mx : Nat) {k : Core}

/-- An access to memory that steps its pointer: its results land two instructions later. -/
theorem completes_access (acts : List WbAct) (he : exec i s = run (issue c w .plain eff) s) (hk : IssuesAs k (coreOf s c))
    (heff : eff (coreOf s c) = effPlain (pmOne nm px mx (afterMany 2 acts k))) (hl : atlLegal w (coreOf s c).pc = true) (h : AtWord c w s) :
    Completes i s (fun t => seen (coreOf t c) = landAll acts (stepped k (pmBank nm px mx (coreOf s c))) ∧ OnlyCore c s t) := by
  refine completes_oneThenTwo eff (pmActs nm px mx (coreOf s c)) acts he hk ?_ ?_ hl h
  · rw [heff, pmOne_eq, pmActs_afterMany, hk.pmActs]
  · rw [hk.bank, landAll_pmActs]

/-- An access that gives a register of D the word `v`. -/
theorem completes_accessD (rd : Nat) (v : S64) (he : exec i s = run (issue c w .plain eff) s) (hk : IssuesAs k (coreOf s c))
    (heff : eff (coreOf s c) = effPlain (pmOne nm px mx (coreLater 2 (.d rd v) k))) (hl : atlLegal w (coreOf s c).pc = true) (h : AtWord c w s) :
    Completes i s (fun t => seen (coreOf t c) = stepped k { pmBank nm px mx (coreOf s c) with d := smSet 0 (bankOf (coreOf s c)).d rd v } ∧
      OnlyCore c s t) := by
  have hdone := completes_access eff nm px mx [.d rd v] he hk heff hl h
  rwa [landAll_one, wbApply_stepped_d] at hdone

end

/-! ### Legal words of format M (07 R219) -/

/-- LD and LDK. -/
theorem atlLegal_load {op rd : Nat} (h : op = 0x40 ∧ rd < 16 ∨ op = 0x41 ∧ rd < 8) (sp : Fin 3) (nm : Bool) (px mx : Fin 8) (pc : Nat) :
    atlLegal (encM op rd 0 sp nm px mx false 0 0) pc = true := by
  obtain ⟨rfl, hrd⟩ | ⟨rfl, hrd⟩ := h <;>
    exact legalM _ rd 0 sp nm px mx false 0 0 pc (by decide) (by omega) (by decide) (by omega) (by omega) (by omega) (by decide) (by decide)
      (by simp [b2n, hrd])

/-- ST and STK. -/
theorem atlLegal_store {op ra : Nat} (h : op = 0x42 ∧ ra < 16 ∨ op = 0x43 ∧ ra < 8) (sp : Fin 3) (nm : Bool) (px mx : Fin 8) (pc : Nat) :
    atlLegal (encM op 0 ra sp nm px mx false 0 0) pc = true := by
  obtain ⟨rfl, hra⟩ | ⟨rfl, hra⟩ := h <;>
    exact legalM _ 0 ra sp nm px mx false 0 0 pc (by decide) (by decide) (by omega) (by omega) (by omega) (by omega) (by decide) (by decide)
      (by simp [b2n, hra])

theorem atlLegal_exchange (rd : Fin 16) (e nm : Bool) (px mx : Fin 8) (pc : Nat) :
    atlLegal (encM 0x44 rd 0 (2 * b2n e) nm px mx false 0 0) pc = true := by
  refine legalM _ rd 0 (2 * b2n e) nm px mx false 0 0 pc (by decide) (by omega) (by decide) ?_ (by omega) (by omega) (by decide) (by decide) ?_
  · cases e <;> decide
  · cases e <;> rfl

/-- Settles O4: a load's word lands in its register, a store's word is in memory at once, and an exchange does both; the pointer is
stepped beside them. -/
theorem loadsStores : Obligations.LoadsStores := by
  intro s c rd r8 sp e nm px mx k a step b w es gives
  have hes : es = 2 * b2n e := by cases e <;> rfl
  refine ⟨?_, ?_, ?_, ?_, ?_⟩
  · intro h hgood
    refine completes_accessD _ nm px mx rd _ rfl (IssuesAs.refl _) ?_ (atlLegal_load (.inl ⟨rfl, rd.isLt⟩) ..) h
    exact congrArg (fun e => { effPlain _ with evs := e }) hgood
  · intro h hgood
    have hdone : Completes (.ldk c r8 sp nm px mx) s _ := completes_access (effLdk r8 sp nm px mx) nm px mx [.k r8 (w.setWidth 40)] rfl (IssuesAs.refl _)
      (congrArg (fun e => { effPlain _ with evs := e }) hgood) (atlLegal_load (.inr ⟨rfl, r8.isLt⟩) ..) h
    rwa [landAll_one, wbApply_stepped_k] at hdone
  · exact completes_access _ nm px mx [] rfl (memWr_issuesAs k sp a (coreD k rd)) rfl (atlLegal_store (.inl ⟨rfl, rd.isLt⟩) ..)
  · exact completes_access _ nm px mx [] rfl (memWr_issuesAs k sp a ((coreK k r8).signExtend 64)) rfl (atlLegal_store (.inr ⟨rfl, r8.isLt⟩) ..)
  · rw [hes]
    intro h hgood
    refine completes_accessD _ nm px mx rd _ rfl (memWr_issuesAs k (2 * b2n e) a (coreD k rd)) ?_ (atlLegal_exchange ..) h
    exact congrArg (fun e => { effPlain _ with evs := e }) hgood

end Sys2Proof.Machine
end

section
/-! PROOF. 07 R237 to R241, 06 R200: branches, loops, waits, RTI and NOP (O8). -/

namespace Sys2Proof.Machine

/-! ### The issue of an instruction with nothing pending or in flight -/

section
variable {cls : OpClass} {eff : Core → IssueEff} {k : Core}

/-- Why no rule of loops, delay slots or handlers stands in the way of an instruction: no loop is open, no slot is being filled. -/
structure Free (cls : OpClass) (k : Core) : Prop where
  good : isBad k 0 k.pc = false
  noLoop : (bankOf k).loops = []
  noFlight : (bankOf k).wb = []
  noDelay : k.delay = none
  noFend : cls ≠ .fend
  rti : cls = .rti → k.inHandler = true

theorem AtWord.free {c : Nat} {w : BitVec 64} {s : State} (h : AtWord c w s) (hf : cls ≠ .fend)
    (hr : cls = .rti → (coreOf s c).inHandler = true) : Free cls (coreOf s c) := ⟨h.good, h.noLoop, h.noFlight, h.noDelay, hf, hr⟩

theorem loopHalt_noLoop (cls : OpClass) (h : (bankOf k).loops = []) : loopHalt k cls = none := by
  simp [loopHalt, breaksBody, h]

theorem Free.executes (h : Free cls k) :
    (k.delay.isSome && (cls == .branch || cls == .loop || cls == .rti || cls == .fend) || cls == .rti && !k.inHandler) = false := by
  rw [h.noDelay]
  by_cases hc : cls = .rti
  · simp [hc, h.rti hc]
  · simp [hc]

/-- An instruction with a delay slot: issue goes on behind it, in the slot. -/
theorem coreIssue_delay (h : Free cls k) {d : DelaySlot} (hd : (eff k).delay = some d) :
    coreIssue cls eff k = ({ coreCount (eff k).tap (eff k).core with delay := some d, pc := (k.pc + 1) % 16384 }, (eff k).evs) := by
  unfold coreIssue
  rw [wbUpTo_none k _ h.noFlight, loopHalt_noLoop cls h.noLoop]
  dsimp only
  rw [h.executes]
  simp [h.good, h.noFend, hd]

/-- An instruction that sends issue to an address of its own. -/
theorem coreIssue_jump (h : Free cls k) {t : Nat} (hd : (eff k).delay = none) (hj : (eff k).jump = some t) :
    coreIssue cls eff k = ({ coreCount (eff k).tap (eff k).core with pc := t }, (eff k).evs) := by
  unfold coreIssue
  rw [wbUpTo_none k _ h.noFlight, loopHalt_noLoop cls h.noLoop]
  dsimp only
  rw [h.executes]
  simp [h.good, h.noFend, hd, hj]

theorem delay_setBank (k : Core) (b : Bank) : (setBank k b).delay = k.delay := by
  unfold setBank putBank
  split <;> rfl

theorem pc_setBank (k : Core) (b : Bank) : (setBank k b).pc = k.pc := by
  unfold setBank putBank
  split <;> rfl

theorem bankOf_coreCount (k : Core) : bankOf (coreCount [] k) = { bankOf k with issued := (bankOf k).issued + 1, tapLoad := [] } :=
  bankOf_setBank ..

theorem wb_coreCount (k : Core) : (bankOf (coreCount [] k)).wb = (bankOf k).wb := by rw [bankOf_coreCount]

theorem loops_coreCount (k : Core) : (bankOf (coreCount [] k)).loops = (bankOf k).loops := by rw [bankOf_coreCount]

/-- Outside slots and loops issue goes on at the next word. -/
theorem coreAdvance_next (hd : k.delay = none) (hl : (bankOf k).loops = []) : coreAdvance k = ({ k with pc := (k.pc + 1) % 16384 }, []) := by
  unfold coreAdvance
  rw [hd]
  simp only [hl]

theorem coreAdvance_count (hd : k.delay = none) (hl : (bankOf k).loops = []) : coreAdvance (coreCount [] k) = (stepped k (bankOf k), []) := by
  have hdelay : (coreCount [] k).delay = none := (delay_setBank ..).trans hd
  have hpc : (coreCount [] k).pc = k.pc := pc_setBank ..
  rw [coreAdvance_next hdelay ((loops_coreCount k).trans hl), hpc]
  rfl

/-- An instruction that leaves the way of issue as it is: it goes on at the next word. -/
theorem coreIssue_next (h : Free cls k) {k' : Core} (heff : eff k = effPlain k') (hd : k'.delay = none) (hl : (bankOf k').loops = []) :
    coreIssue cls eff k = (stepped k' (bankOf k'), []) := by
  unfold coreIssue
  rw [wbUpTo_none k _ h.noFlight, loopHalt_noLoop cls h.noLoop]
  dsimp only
  rw [h.executes]
  simp [h.good, h.noFend, heff, effPlain, coreAdvance_count hd hl]

/-- RTI outside a handler executes as no operation (06 R200). -/
theorem coreIssue_rti_outside (hb : isBad k 0 k.pc = false) (hl : (bankOf k).loops = []) (hw : (bankOf k).wb = []) (hd : k.delay = none)
    (hin : k.inHandler = false) : coreIssue .rti eff k = (stepped k (bankOf k), []) := by
  unfold coreIssue
  rw [wbUpTo_none k _ hw, loopHalt_noLoop .rti hl]
  simp [hb, hin, coreAdvance_count hd hl]

end

/-- An instruction of any class whose issue raises nothing: the core takes the state that its issue leaves, and nothing else changes. -/
theorem completes_issue {i : Instr} {c : Fin 68} {w : BitVec 64} {s : State} (cls : OpClass) (eff : Core → IssueEff) {k x : Core}
    (he : exec i s = run (issue c w cls eff) s) (hi : coreIssue cls eff (coreOf s c) = (k, [])) (hx : seen k = x)
    (hl : atlLegal w (coreOf s c).pc = true) (h : AtWord c w s) : Completes i s (fun t => seen (coreOf t c) = x ∧ OnlyCore c s t) := by
  have hissue : issue c w cls eff (quietOut s) = coreStep c (coreOf s c).cyc (coreOf s c).pc (coreIssue cls eff (coreOf s c)).1
      (coreIssue cls eff (coreOf s c)).2 (quietOut s) := issue_any c w cls eff (quietOut s) (atWord_quiet h) hl
  rw [hi] at hissue
  refine (completes_step c _ s _ _ k he h.ready hissue).mono fun t ⟨hcore, honly⟩ => ⟨?_, honly⟩
  rw [hcore, hx]

/-! ### Legal words of formats A and B (07 R219) -/

/-- NOP, FEND and RTI. -/
theorem atlLegal_bare {op : Nat} (hop : op = 0x00 ∨ op = 0x01 ∨ op = 0x02) (pc : Nat) : atlLegal (encA op 0 0 0 0 0) pc = true := by
  obtain rfl | rfl | rfl := hop <;>
    exact legalA _ 0 0 0 0 0 pc (by decide) (by decide) (by decide) (by decide) (by decide) (by decide) (by simp)

theorem atlLegal_wait (u : Fin 65536) (pc : Nat) : atlLegal (encB 0x03 0 0 u 0) pc = true :=
  legalB _ 0 0 u 0 pc (by decide) (by decide) (by decide) u.isLt (by decide) (by simp)

theorem atlLegal_br (cc : Fin 10) (t : Fin 16384) (pc : Nat) : atlLegal (encB 0x04 cc 0 0 t) pc = true :=
  legalB _ cc 0 0 t pc (by decide) (by omega) (by decide) (by decide) t.isLt (by simp; omega)

theorem atlLegal_brl (pk : Fin 8) (t : Fin 16384) (pc : Nat) : atlLegal (encB 0x05 0 pk 0 t) pc = true :=
  legalB _ 0 pk 0 t pc (by decide) (by decide) (by omega) (by decide) t.isLt (by simp)

theorem atlLegal_brr (cc : Fin 10) (pk : Fin 8) (pc : Nat) : atlLegal (encB 0x06 cc pk 0 0) pc = true :=
  legalB _ cc pk 0 0 pc (by decide) (by omega) (by omega) (by decide) (by decide) (by simp; omega)

theorem atlLegal_loop (n : Fin 65536) (e : Fin 16384) {pc : Nat} (h : (pc + 1) % 16384 ≤ e) : atlLegal (encB 0x07 0 0 n e) pc = true :=
  legalB _ 0 0 n e pc (by decide) (by decide) (by decide) n.isLt e.isLt (by simp [h])

theorem atlLegal_loopr (ra : Fin 16) (e : Fin 16384) {pc : Nat} (h : (pc + 1) % 16384 ≤ e) : atlLegal (encB 0x08 0 ra 0 e) pc = true :=
  legalB _ 0 ra 0 e pc (by decide) (by decide) (by omega) (by decide) e.isLt (by simp [h])

/-! ### The instructions -/

section
variable {i : Instr} {c : Fin 68} {w : BitVec 64} {s : State}

/-- The effect of an instruction that opens its delay slot. -/
def effSlot (d : DelaySlot) (k : Core) : IssueEff := { effPlain k with delay := some d }

/-- The effect of an instruction that sends issue to address `t`. -/
def effJump (t : Nat) (k : Core) : IssueEff := { effPlain k with jump := some t }

theorem completes_slot (cls : OpClass) (eff : Core → IssueEff) (d : DelaySlot) {k x : Core} (he : exec i s = run (issue c w cls eff) s)
    (hf : Free cls (coreOf s c)) (heff : eff (coreOf s c) = effSlot d k)
    (hx : seen { coreCount [] k with delay := some d, pc := ((coreOf s c).pc + 1) % 16384 } = x) (hl : atlLegal w (coreOf s c).pc = true)
    (h : AtWord c w s) : Completes i s (fun t => seen (coreOf t c) = x ∧ OnlyCore c s t) := by
  have hissue := coreIssue_delay hf (show (eff (coreOf s c)).delay = some d by rw [heff]; rfl)
  rw [heff] at hissue
  exact completes_issue cls eff he hissue hx hl h

theorem completes_jump (cls : OpClass) (eff : Core → IssueEff) (t : Nat) {k x : Core} (he : exec i s = run (issue c w cls eff) s)
    (hf : Free cls (coreOf s c)) (heff : eff (coreOf s c) = effJump t k) (hx : seen { coreCount [] k with pc := t } = x)
    (hl : atlLegal w (coreOf s c).pc = true) (h : AtWord c w s) : Completes i s (fun t => seen (coreOf t c) = x ∧ OnlyCore c s t) := by
  have hissue := coreIssue_jump hf (show (eff (coreOf s c)).delay = none by rw [heff]; rfl)
    (show (eff (coreOf s c)).jump = some t by rw [heff]; rfl)
  rw [heff] at hissue
  exact completes_issue cls eff he hissue hx hl h

/-- Where no loop is open, a branch only opens its delay slot. -/
theorem effBranch_noLoop {k : Core} (h : (bankOf k).loops = []) (taken : Bool) (t : Nat) :
    effBranch taken t k = effSlot (if taken then .taken t else .fallThrough) k := by
  have hsame : setBank k { bankOf k with loops := popOutside t (bankOf k).loops } = k := by
    rw [h]
    exact (congrArg (fun l => setBank k { bankOf k with loops := l }) h.symm).trans (setBank_bankOf k)
  cases taken with
  | true => exact congrArg (effSlot (.taken t)) hsame
  | false => rfl

/-- BR, BRR and RTI put nothing in flight. -/
theorem AtWord.seen_slot (h : AtWord c w s) (d : DelaySlot) :
    seen { coreCount [] (coreOf s c) with delay := some d, pc := ((coreOf s c).pc + 1) % 16384 } =
      { stepped (coreOf s c) (bankOf (coreOf s c)) with delay := some d } := seen_of_none ((wb_coreCount _).trans h.noFlight)

/-- The return address of BRL reaches its pointer whatever its delay slot (07 R237). -/
theorem seen_slot_later {k : Core} (h : (bankOf k).wb = []) (d : Option DelaySlot) (r : Nat) (v : BitVec 16) :
    seen { coreCount [] (coreLater 1 (.p r v) k) with delay := d, pc := (k.pc + 1) % 16384 } =
      { stepped k { bankOf k with p := smSet 0 (bankOf k).p r v } with delay := d } := by
  obtain ⟨m, sh, b, l, ph, pc, cyc, fr, fi, ih⟩ := k
  cases ih <;> simp only [bankOf, Bool.false_eq_true, if_false, if_true] at h <;>
    simp [seen, stepped, coreCount, coreLater, setBank, putBank, bankOf, wbFlush, wbUpTo, wbApplyAll, wbApply, h]

theorem effLoop_level {n : Nat} (hn : n ≠ 0) (e : Nat) (k : Core) : effLoop n e k =
    effJump ((k.pc + 1) % 16384) (setBank k { bankOf k with loops := ⟨(k.pc + 1) % 16384, e, n⟩ :: (bankOf k).loops }) := if_neg hn

theorem coreCount_level (k : Core) (l : List LoopLvl) :
    { coreCount [] (setBank k { bankOf k with loops := l }) with pc := (k.pc + 1) % 16384 } = stepped k { bankOf k with loops := l } := by
  unfold coreCount stepped
  simp only [bankOf_setBank, setBank_setBank]
  unfold setBank putBank
  split <;> rfl

/-- LOOP and LOOPR: a level, or a body that is skipped (07 R238). -/
theorem completes_loop (eff : Core → IssueEff) (n e : Nat) (he : exec i s = run (issue c w .loop eff) s)
    (heff : eff (coreOf s c) = effLoop n e (coreOf s c)) (hl : atlLegal w (coreOf s c).pc = true)
    (h : AtWord c w s) : Completes i s (fun u => seen (coreOf u c) =
      (if n = 0 then { stepped (coreOf s c) (bankOf (coreOf s c)) with pc := (e + 1) % 16384 }
        else stepped (coreOf s c) { bankOf (coreOf s c) with loops := [⟨((coreOf s c).pc + 1) % 16384, e, n⟩] }) ∧ OnlyCore c s u) := by
  have hfree : Free .loop (coreOf s c) := h.free nofun nofun
  by_cases hn : n = 0
  · subst hn
    exact completes_jump .loop eff _ he hfree heff (seen_of_none ((wb_coreCount _).trans h.noFlight)) hl h
  · rw [if_neg hn]
    refine completes_jump .loop eff _ he hfree (heff.trans (effLoop_level hn ..)) ?_ hl h
    rw [h.noLoop, coreCount_level]
    refine seen_of_none ?_
    rw [bankOf_stepped]
    exact h.noFlight

theorem stepped_wait (k : Core) (b : Bank) (x : Option (Nat × Bool)) : stepped { k with wait := x } b = { stepped k b with wait := x } := by
  unfold stepped setBank putBank
  cases k.inHandler <;> rfl

/-- WAIT: the core stalls, or issue goes on at once (07 R240). -/
theorem completes_wait (u : Nat) (he : exec i s = run (issue c w .wait (effWait u)) s) (hl : atlLegal w (coreOf s c).pc = true) (h : AtWord c w s) :
    Completes i s (fun t => seen (coreOf t c) = (if (coreOf s c).cyc + 1 < u then
      { stepped (coreOf s c) (bankOf (coreOf s c)) with wait := some (u, false) } else stepped (coreOf s c) (bankOf (coreOf s c))) ∧
      OnlyCore c s t) := by
  have hfree : Free .wait (coreOf s c) := h.free nofun nofun
  by_cases hu : (coreOf s c).cyc + 1 < u
  · rw [if_pos hu]
    have heff : effWait u (coreOf s c) = effPlain { coreOf s c with wait := some (u, false) } :=
      (if_pos hu).trans (congrArg (fun d => effPlain { coreOf s c with wait := some (u, d) }) (by rw [h.noDelay]; rfl))
    rw [← stepped_wait]
    exact completes_issue .wait (effWait u) he (coreIssue_next hfree heff h.noDelay h.noLoop)
      (seen_of_none ((congrArg Bank.wb (bankOf_stepped ..)).trans h.noFlight)) hl h
  · rw [if_neg hu]
    have heff : effWait u (coreOf s c) = effPlain (coreOf s c) := if_neg hu
    exact completes_issue .wait (effWait u) he (coreIssue_next hfree heff h.noDelay h.noLoop)
      (seen_of_none ((congrArg Bank.wb (bankOf_stepped ..)).trans h.noFlight)) hl h

end

end Sys2Proof.Machine
end

section
/-! PROOF. 06 R189, R190, 07 R217: the results in flight that retire together as a frame ends or a core halts, and what their landing
does outside the core. -/

namespace Sys2Proof.Machine

/-! ### What landing results leave of a core -/

/-- The bank that a flag names. -/
def bankAt (sh : Bool) (k : Core) : Bank := if sh then k.shadow else k.main

/-- What stands beside the registers. -/
structure BesideRegs {α : Type} (p : Core → α) : Prop where
  main : ∀ k b, p { k with main := b } = p k
  shadow : ∀ k b, p { k with shadow := b } = p k
  starts : ∀ k m, p { k with b := m } = p k
  lengths : ∀ k m, p { k with l := m } = p k

section
variable {α : Type} {p : Core → α}

theorem BesideRegs.putBank (h : BesideRegs p) (sh : Bool) (k : Core) (b : Bank) : p (putBank k sh b) = p k := by
  cases sh
  · exact h.main k b
  · exact h.shadow k b

theorem BesideRegs.setBank (h : BesideRegs p) (k : Core) (b : Bank) : p (setBank k b) = p k := h.putBank ..

end

/-- Where a result lands: in its bank, which keeps its results in flight and its count, or in the registers of both banks. -/
theorem wbApply_form (sh : Bool) (k : Core) (a : WbAct) :
    (∃ b : Bank, b.wb = (bankAt sh k).wb ∧ b.issued = (bankAt sh k).issued ∧ (wbApply sh k a).1 = putBank k sh b) ∨
      (∃ m, (wbApply sh k a).1 = { k with b := m }) ∨ (∃ m, (wbApply sh k a).1 = { k with l := m }) ∨ (wbApply sh k a).1 = k := by
  unfold wbApply
  cases a with
  | b r v => exact .inr (.inl ⟨_, rfl⟩)
  | l r v => exact .inr (.inr (.inl ⟨_, rfl⟩))
  | satCount => exact .inr (.inr (.inr rfl))
  | accAdd r v =>
    dsimp only
    generalize accAdd _ v = y
    obtain ⟨x, loss⟩ := y
    cases loss <;> refine .inl ⟨_, ?_, ?_, rfl⟩ <;> rfl
  | accSet r x loss => cases loss <;> refine .inl ⟨_, ?_, ?_, rfl⟩ <;> rfl
  | _ => refine .inl ⟨_, ?_, ?_, rfl⟩ <;> rfl

theorem wbFlush_core (sh : Bool) (k : Core) : (wbFlush sh k).1 = (wbUpTo sh ((bankAt sh k).issued + 2)
    (wbUpTo sh ((bankAt sh k).issued + 1) (wbUpTo sh (bankAt sh k).issued k).1).1).1 := rfl

theorem wbFlushBoth_eq (k : Core) : wbFlushBoth k =
    ((wbFlush true (wbFlush false k).1).1, (wbFlush false k).2 ++ (wbFlush true (wbFlush false k).1).2) := by
  unfold wbFlushBoth
  obtain ⟨k1, e1⟩ := wbFlush false k
  dsimp only

section
variable {α : Type} {p : Core → α}

theorem BesideRegs.wbApply (h : BesideRegs p) (sh : Bool) (k : Core) (a : WbAct) : p (wbApply sh k a).1 = p k := by
  obtain ⟨b, -, -, e⟩ | ⟨m, e⟩ | ⟨m, e⟩ | e := wbApply_form sh k a <;> rw [e]
  · exact h.putBank ..
  · exact h.starts ..
  · exact h.lengths ..

theorem BesideRegs.wbUpTo (h : BesideRegs p) (sh : Bool) (n : Nat) (k : Core) : p (wbUpTo sh n k).1 = p k := by
  unfold Machine.wbUpTo
  extract_lets b now
  rw [wbApplyAll_core]
  refine (List.foldlRecOn now _ (motive := fun x : Core => p x = p (Machine.putBank k sh _)) rfl fun x hx w _ => ?_).trans (h.putBank ..)
  exact (h.wbApply ..).trans hx

theorem BesideRegs.wbFlush (h : BesideRegs p) (sh : Bool) (k : Core) : p (wbFlush sh k).1 = p k := by
  rw [wbFlush_core, h.wbUpTo, h.wbUpTo, h.wbUpTo]

theorem BesideRegs.wbFlushBoth (h : BesideRegs p) (k : Core) : p (wbFlushBoth k).1 = p k := by
  rw [wbFlushBoth_eq, h.wbFlush, h.wbFlush]

end

/-! ### What a flush leaves in flight -/

/-- What a bank has in flight, and the instructions that it has issued. -/
def flightOf (sh : Bool) (k : Core) : List Wb × Nat := ((bankAt sh k).wb, (bankAt sh k).issued)

theorem flightOf_wbApply (sh sh' : Bool) (k : Core) (a : WbAct) : flightOf sh' (wbApply sh k a).1 = flightOf sh' k := by
  obtain ⟨b, hwb, hn, e⟩ | ⟨m, e⟩ | ⟨m, e⟩ | e := wbApply_form sh k a <;> rw [e]
  · cases sh <;> cases sh'
    · exact Prod.ext hwb hn
    · rfl
    · rfl
    · exact Prod.ext hwb hn
  · rfl
  · rfl

theorem flightOf_wbApplyAll (sh sh' : Bool) (l : List Wb) (k : Core) : flightOf sh' (wbApplyAll sh k l).1 = flightOf sh' k := by
  rw [wbApplyAll_core]
  exact List.foldlRecOn l _ (motive := fun x : Core => flightOf sh' x = flightOf sh' k) rfl fun x hx w _ => (flightOf_wbApply ..).trans hx

/-- What is due later stays in flight. -/
theorem flightOf_wbUpTo (sh : Bool) (n : Nat) (k : Core) :
    flightOf sh (wbUpTo sh n k).1 = ((flightOf sh k).1.filter (fun w => !decide (w.due ≤ n)), (flightOf sh k).2) := by
  refine (flightOf_wbApplyAll ..).trans ?_
  cases sh <;> rfl

theorem flightOf_wbUpTo_other (sh : Bool) (n : Nat) (k : Core) : flightOf (!sh) (wbUpTo sh n k).1 = flightOf (!sh) k := by
  refine (flightOf_wbApplyAll ..).trans ?_
  cases sh <;> rfl

/-- Every result within the distances of 06 R193 retires. -/
theorem wb_wbFlush {sh : Bool} {k : Core} (h : ∀ w ∈ (flightOf sh k).1, w.due ≤ (flightOf sh k).2 + 2) : (flightOf sh (wbFlush sh k).1).1 = [] := by
  rw [wbFlush_core, flightOf_wbUpTo, flightOf_wbUpTo, flightOf_wbUpTo]
  refine List.filter_eq_nil_iff.2 fun w hw => ?_
  have hdue : w.due ≤ (flightOf sh k).2 + 2 := h w (List.mem_of_mem_filter (List.mem_of_mem_filter hw))
  simpa using (show w.due ≤ (bankAt sh k).issued + 2 from hdue)

theorem flightOf_wbFlush_other (sh : Bool) (k : Core) : flightOf (!sh) (wbFlush sh k).1 = flightOf (!sh) k := by
  rw [wbFlush_core, flightOf_wbUpTo_other, flightOf_wbUpTo_other, flightOf_wbUpTo_other]

/-- With both banks within the distances, nothing stays in flight. -/
theorem wb_wbFlushBoth {k : Core} (hm : ∀ w ∈ k.main.wb, w.due ≤ k.main.issued + 2) (hs : ∀ w ∈ k.shadow.wb, w.due ≤ k.shadow.issued + 2) :
    (wbFlushBoth k).1.main.wb = [] ∧ (wbFlushBoth k).1.shadow.wb = [] := by
  have hmain : (flightOf false (wbFlush false k).1).1 = [] := wb_wbFlush hm
  have hshadow : (flightOf true (wbFlush true (wbFlush false k).1).1).1 = [] := by
    refine wb_wbFlush ?_
    rw [show flightOf true (wbFlush false k).1 = flightOf true k from flightOf_wbFlush_other false k]
    exact hs
  rw [wbFlushBoth_eq]
  have hkept : flightOf false (wbFlush true (wbFlush false k).1).1 = _ := flightOf_wbFlush_other true _
  have hboth := (congrArg Prod.fst hkept).trans hmain
  generalize (wbFlush true (wbFlush false k).1).1 = x at hboth hshadow
  exact ⟨hboth, hshadow⟩

/-! ### What landing results raise -/

/-- Results that land raise the counts of R49 and R54 alone. -/
def CountsOnly (l : List CoreEv) : Prop := ∀ e ∈ l, e = .xlost ∨ e = .sat

theorem CountsOnly.nil : CountsOnly [] := nofun

theorem CountsOnly.append {l l' : List CoreEv} (h : CountsOnly l) (h' : CountsOnly l') : CountsOnly (l ++ l') := fun e he =>
  (List.mem_append.1 he).elim (h e) (h' e)

theorem wbApply_counts (sh : Bool) (k : Core) (a : WbAct) : CountsOnly (wbApply sh k a).2 := by
  unfold wbApply CountsOnly
  cases a with
  | accAdd r v =>
    dsimp only
    generalize accAdd _ v = y
    obtain ⟨x, loss⟩ := y
    cases loss <;> simp
  | accSet r x loss => cases loss <;> simp
  | _ => simp

theorem wbApplyAll_counts (sh : Bool) (l : List Wb) (k : Core) : CountsOnly (wbApplyAll sh k l).2 := by
  unfold wbApplyAll
  exact List.foldlRecOn l _ (motive := fun x : Core × List CoreEv => CountsOnly x.2) CountsOnly.nil
    fun x hx w _ => CountsOnly.append hx (wbApply_counts sh x.1 w.act)

theorem wbFlush_counts (sh : Bool) (k : Core) : CountsOnly (wbFlush sh k).2 :=
  CountsOnly.append (CountsOnly.append (wbApplyAll_counts sh _ _) (wbApplyAll_counts sh _ _)) (wbApplyAll_counts sh _ _)

theorem wbFlushBoth_counts (k : Core) : CountsOnly (wbFlushBoth k).2 := by
  rw [wbFlushBoth_eq]
  exact CountsOnly.append (wbFlush_counts false k) (wbFlush_counts true _)

/-! ### What a report of a core leaves of a rotation -/

theorem occur_twn (s : State) (code src : Nat) (det : List W32) : (occur s code src det).twn = s.twn := by
  unfold occur ldgSuppress
  simp only [ite_twn, cnt_twn, fset_twn, ite_self]

theorem twinOn_twn (s t : State) : (twinOn s t).twn = t.twn := by
  unfold twinOn twinSend daxQueue
  simp only [ite_twn, ite_self]

theorem accuse_rot (s : State) (cause : Nat) : (accuse s cause).twn.rot = s.twn.rot := by
  unfold accuse
  split
  · rw [twinOn_twn]
    unfold accuse.accused
    extract_lets peer sole s1 s2 s3
    have h3 : s3.twn = s.twn := by simp only [s3, s2, s1, occur_twn, fset_twn, cnt_twn]
    split
    · exact congrArg TwnSt.rot ((fset_twn ..).trans h3)
    · have hrot : s3.twn.rot = s.twn.rot := congrArg TwnSt.rot h3
      split <;> exact hrot
  · rfl

theorem coreFault_rot (c code : Nat) (det : List W32) (cause : Nat) (s : State) : (coreFault c code det cause s).twn.rot = s.twn.rot := by
  unfold coreFault
  dsimp only
  split
  · exact (accuse_rot ..).trans (congrArg TwnSt.rot (occur_twn ..))
  · exact congrArg TwnSt.rot (occur_twn ..)

/-- From `s` to `t` core `c` has counted results that it lost or saturated, and reported them. -/
structure Counted (c : Nat) (s t : State) : Prop where
  cores : t.cores = s.cores
  mem : t.mem = s.mem
  rot : t.twn.rot = s.twn.rot
  rd : ∀ k, ¬reportKey k → k ≠ ATL_CORE_XLOST c → k ≠ ATL_CORE_SAT c → rd t k = rd s k

namespace Counted

theorem refl (c : Nat) (s : State) : Counted c s s := ⟨rfl, rfl, rfl, fun _ _ _ _ => rfl⟩

theorem trans {c : Nat} {s t u : State} (h : Counted c s t) (h' : Counted c t u) : Counted c s u :=
  ⟨h'.cores.trans h.cores, h'.mem.trans h.mem, h'.rot.trans h.rot, fun k hk hx hs => (h'.rd k hk hx hs).trans (h.rd k hk hx hs)⟩

theorem of_cnt {c k : Nat} (hk : k = ATL_CORE_XLOST c ∨ k = ATL_CORE_SAT c) (s : State) : Counted c s (cnt s k) :=
  ⟨cnt_cores .., cnt_mem .., congrArg TwnSt.rot (cnt_twn ..), fun _ _ hx hs => rd_cnt_ne _ _ _ fun e => hk.elim (fun h => hx (e.trans h)) fun h => hs (e.trans h)⟩

theorem of_fault (c code : Nat) (det : List W32) (cause : Nat) (s : State) : Counted c s (coreFault c code det cause s) :=
  have r := coreFault_reported c code det cause s
  ⟨r.cores, r.mem, coreFault_rot .., fun k hk _ _ => r.rd k hk⟩

end Counted

theorem coreEvents_counted (c cyc pc : Nat) {l : List CoreEv} (h : CountsOnly l) (s : State) : Counted c s (l.foldl (coreEvent c cyc pc) s) := by
  induction l generalizing s with
  | nil => exact .refl c s
  | cons e l ih =>
    refine .trans ?_ (ih (fun e' he => h e' (List.mem_cons_of_mem _ he)) _)
    obtain rfl | rfl := h e List.mem_cons_self
    · exact (Counted.of_cnt (.inl rfl) s).trans (.of_fault ..)
    · exact .of_cnt (.inr rfl) s

end Sys2Proof.Machine
end

section
/-! PROOF. 06 R189, R200, R212, 07 R237 to R241: flow control, and the frame that FEND ends (O8). -/

namespace Sys2Proof.Machine

/-! ### The core whose frame has ended -/

/-- The core after FEND, its results in flight retired: the banks are kept as they then are (06 R189). -/
def frameEnded (cy : Nat) (k : Core) : Core :=
  { k with phase := .ended, lastFend := cy, delay := none, loopDue := false, fendMain := k.main, fendShadow := k.shadow }

theorem coreIssue_fend (eff : Core → IssueEff) {k : Core} (hb : isBad k 0 k.pc = false) (hl : (bankOf k).loops = []) (hw : (bankOf k).wb = [])
    (hd : k.delay = none) :
    coreIssue .fend eff k = (frameEnded k.cyc (wbFlushBoth (coreCount [] k)).1, (wbFlushBoth (coreCount [] k)).2 ++ [.fend k.cyc]) := by
  unfold coreIssue
  rw [wbUpTo_none k _ hw, loopHalt_noLoop .fend hl, hb, hd]
  dsimp only
  generalize wbFlushBoth (coreCount [] k) = x
  rfl

theorem em_flushed (k : Core) : (wbFlushBoth (coreCount [] k)).1.em = k.em := by
  have hem : BesideRegs Core.em := ⟨fun _ _ => rfl, fun _ _ => rfl, fun _ _ => rfl, fun _ _ => rfl⟩
  rw [hem.wbFlushBoth]
  exact hem.setBank k _

theorem wb_flushed {k : Core} (hm : ∀ w ∈ k.main.wb, w.due ≤ k.main.issued + 2) (hs : ∀ w ∈ k.shadow.wb, w.due ≤ k.shadow.issued + 2) :
    (wbFlushBoth (coreCount [] k)).1.main.wb = [] ∧ (wbFlushBoth (coreCount [] k)).1.shadow.wb = [] := by
  refine wb_wbFlushBoth (k := coreCount [] k) ?_ ?_
  all_goals
    unfold coreCount setBank putBank bankOf
    cases k.inHandler
  · exact fun w hw => (hm w hw).trans (Nat.add_le_add_right (Nat.le_succ _) 2)
  · exact hm
  · exact hs
  · exact fun w hw => (hs w hw).trans (Nat.add_le_add_right (Nat.le_succ _) 2)

/-! ### The gap after FEND in a rotation (06 R212) -/

theorem pqWritten_form (l : List (Nat × BitVec 64)) (k : Core) :
    ∃ pm bad, l.foldl (fun x (a, w) => coreWr x 0 a w) k = { k with pm := pm, bad := bad } := by
  refine List.foldlRecOn l _ (motive := fun x : Core => ∃ pm bad, x = { k with pm := pm, bad := bad }) ⟨_, _, rfl⟩ ?_
  rintro _ ⟨pm, bad, rfl⟩ e -
  exact ⟨_, _, rfl⟩

/-- The gap writes P of the spare of a rotation, and nothing else of a core or a register. -/
theorem rotGap_form (c : Nat) (s : State) : rotGap c s = s ∨ ∃ r pm bad q, s.twn.rot = some r ∧
    rotGap c s = setRot (setCore r.spare { coreOf s r.spare with pm := pm, bad := bad } s) q := by
  unfold rotGap
  cases hr : s.twn.rot with
  | none => exact .inl rfl
  | some r =>
    dsimp only
    split
    · obtain ⟨pm, bad, h⟩ := pqWritten_form (coreOf s c).pq { coreOf s r.spare with
        pm := (smRange (coreOf s c).pm r.copied (r.copied + 512)).foldl (fun m (a, v) => smSet 0 m a v)
          (smDrop (coreOf s r.spare).pm r.copied (r.copied + 512)),
        bad := (coreOf s r.spare).bad.filter (fun b => !(decide (r.copied ≤ b) && decide (b < r.copied + 512))) ++
          (coreOf s c).bad.filter (fun b => decide (r.copied ≤ b) && decide (b < r.copied + 512)) }
      exact .inr ⟨r, pm, bad, _, rfl, congrArg (fun x => setRot (setCore r.spare x s) _) h⟩
    · exact .inl rfl

theorem rd_rotGap (c : Nat) (s : State) (k : Nat) : rd (rotGap c s) k = rd s k := by
  obtain h | ⟨r, pm, bad, q, -, h⟩ := rotGap_form c s <;> rw [h]
  rfl

theorem coreOf_rotGap (c : Nat) (s : State) (c' : Nat) : ∃ pm bad, coreOf (rotGap c s) c' = { coreOf s c' with pm := pm, bad := bad } := by
  obtain h | ⟨r, pm, bad, q, -, h⟩ := rotGap_form c s <;> rw [h]
  · exact ⟨_, _, rfl⟩
  · by_cases hc : c' = r.spare
    · exact ⟨pm, bad, hc ▸ coreOf_setCore ..⟩
    · exact ⟨_, _, coreOf_setCore_ne _ _ _ s hc⟩

theorem coreOf_rotGap_ne {c c' : Nat} {s : State} (hne : ∀ r, s.twn.rot = some r → r.spare ≠ c') : coreOf (rotGap c s) c' = coreOf s c' := by
  obtain h | ⟨r, pm, bad, q, hr, h⟩ := rotGap_form c s <;> rw [h]
  exact coreOf_setCore_ne _ _ _ s (hne r hr).symm

/-! ### What FEND shows (06 R189) -/

theorem fget_fieldShow_ne (k n : Nat) (f g : Fld) (v : Nat) (s : State) (h : n ≠ k) : fget (fieldShow k f v s) n g = fget s n g :=
  fget_congr _ _ _ _ (rd_fieldShow_ne _ _ _ _ _ h)

theorem fget_fieldShow_other (k : Nat) (f g : Fld) (v : Nat) (s : State) (h : f.lo + f.len ≤ 32) (hd : g.lo + g.len ≤ f.lo ∨ f.lo + f.len ≤ g.lo) :
    fget (fieldShow k f v s) k g = fget s k g := by
  obtain e | e := fieldShow_cases k f v s <;> rw [e]
  exact fget_fset_other _ _ _ _ _ h hd

/-- From `s` to `t` core `c` has shown the end of its frame at frame cycle `cy`, and the gap of a rotation has been used. -/
structure FendShown (c cy : Nat) (s t : State) : Prop where
  cores : ∀ c', ∃ pm bad, coreOf t c' = { coreOf s c' with pm := pm, bad := bad }
  others : ∀ c', (∀ r, s.twn.rot = some r → r.spare ≠ c') → coreOf t c' = coreOf s c'
  mem : t.mem = s.mem
  late : fget t (ATL_CORE_STATUS c) ATL_CORE_STATUS_late = 0
  last : fget t (ATL_CORE_FEND c) ATL_CORE_FEND_last = cy % 65536
  high : cy < 65536 → fget t (ATL_CORE_FEND c) ATL_CORE_FEND_high_water = Nat.max (fget s (ATL_CORE_FEND c) ATL_CORE_FEND_high_water) cy

theorem status_ne_fend (c : Nat) : ATL_CORE_STATUS c ≠ ATL_CORE_FEND c := by unfold ATL_CORE_STATUS ATL_CORE_FEND; omega
theorem status_ne_pq (c : Nat) : ATL_CORE_STATUS c ≠ ATL_CORE_PQ c := by unfold ATL_CORE_STATUS ATL_CORE_PQ; omega
theorem fend_ne_pq (c : Nat) : ATL_CORE_FEND c ≠ ATL_CORE_PQ c := by unfold ATL_CORE_FEND ATL_CORE_PQ; omega
theorem fend_ne_lmUse (c : Nat) : ATL_CORE_FEND c ≠ ATL_CORE_LM_USE c := by unfold ATL_CORE_FEND ATL_CORE_LM_USE; omega

theorem not_reportKey_fend (c : Nat) : ¬reportKey (ATL_CORE_FEND c) :=
  not_reportKey (by unfold ATL_CORE_FEND LDG_STATUS LDG_SUPPRESSED; omega)
theorem not_reportKey_coreStatus (c : Nat) : ¬reportKey (ATL_CORE_STATUS c) :=
  not_reportKey (by unfold ATL_CORE_STATUS LDG_STATUS LDG_SUPPRESSED; omega)

theorem fendEvent_shown (c cyc pc cy : Nat) (s : State) : FendShown c cy s (coreEvent c cyc pc s (.fend cy)) := by
  unfold coreEvent
  dsimp only
  set s0 := fset (frameShow c cy s) (ATL_CORE_STATUS c) ATL_CORE_STATUS_late 0 with hs0
  have hkeep {α : Type} (p : State → α) (hr : ∀ s r, p { s with regs := r } = p s) : p s0 = p s :=
    (fset_keeps p hr ..).trans (frameShow_keeps p hr ..)
  have hcores (c' : Nat) : coreOf s0 c' = coreOf s c' := coreOf_congr _ _ _ (hkeep State.cores fun _ _ => rfl)
  have hrot : s0.twn.rot = s.twn.rot := congrArg TwnSt.rot (hkeep State.twn fun _ _ => rfl)
  have hlast : fget s0 (ATL_CORE_FEND c) ATL_CORE_FEND_last = cy % 65536 := by
    rw [hs0, fget_fset_ne _ _ _ _ _ _ (status_ne_fend c).symm, frameShow, fget_fset_ne _ _ _ _ _ _ (fend_ne_lmUse c),
      fget_fset_ne _ _ _ _ _ _ (fend_ne_lmUse c)]
    exact fget_fset _ _ _ _ (by decide)
  have hhigh : fget s0 (ATL_CORE_FEND c) ATL_CORE_FEND_high_water = fget s (ATL_CORE_FEND c) ATL_CORE_FEND_high_water := by
    rw [hs0, fget_fset_ne _ _ _ _ _ _ (status_ne_fend c).symm, frameShow, fget_fset_ne _ _ _ _ _ _ (fend_ne_lmUse c),
      fget_fset_ne _ _ _ _ _ _ (fend_ne_lmUse c)]
    exact fget_fset_other _ _ _ _ _ (by decide) (by decide)
  have hlate : fget s0 (ATL_CORE_STATUS c) ATL_CORE_STATUS_late = 0 := fget_fset _ _ _ _ (by decide)
  have hgap (k : Nat) (f : Fld) : fget (rotGap c s0) k f = fget s0 k f := fget_congr _ _ _ _ (rd_rotGap ..)
  clear_value s0
  have hown (c' : Nat) : ∃ pm bad, coreOf (rotGap c s0) c' = { coreOf s c' with pm := pm, bad := bad } := hcores c' ▸ coreOf_rotGap ..
  have hothers (c' : Nat) (h : ∀ r, s.twn.rot = some r → r.spare ≠ c') : coreOf (rotGap c s0) c' = coreOf s c' :=
    (coreOf_rotGap_ne (hrot ▸ h)).trans (hcores c')
  have hmem : (rotGap c s0).mem = s.mem := (rotGap_mem ..).trans (hkeep State.mem fun _ _ => rfl)
  split
  · next hlt =>
    rw [hgap, hhigh] at hlt
    refine ⟨hown, hothers, hmem, ?_, ?_, fun hcy => ?_⟩
    · rw [fget_fset_ne _ _ _ _ _ _ (status_ne_fend c), hgap, hlate]
    · rw [fget_fset_other _ _ _ _ _ (by decide) (by decide), hgap, hlast]
    · rw [fget_fset _ _ _ _ (by decide)]
      exact (Nat.mod_eq_of_lt hcy).trans (Nat.max_eq_right hlt.le).symm
  · next hge =>
    rw [hgap, hhigh] at hge
    refine ⟨hown, hothers, hmem, (hgap ..).trans hlate, (hgap ..).trans hlast, fun _ => ?_⟩
    rw [hgap, hhigh]
    exact (Nat.max_eq_left (Nat.le_of_not_lt hge)).symm

/-- What a core's step shows beside it leaves the end of the frame as shown (06 R189). -/
theorem FendShown.shown {c cy : Nat} {s t : State} (h : FendShown c cy s t) (pq : Nat) (v : Nat) :
    FendShown c cy s (fieldShow (ATL_CORE_PQ c) ATL_CORE_PQ_level pq (fieldShow (ATL_CORE_STATUS c) ATL_CORE_STATUS_in_handler v t)) := by
  have hkeep {α : Type} (p : State → α) (hr : ∀ s r, p { s with regs := r } = p s) :
      p (fieldShow (ATL_CORE_PQ c) ATL_CORE_PQ_level pq (fieldShow (ATL_CORE_STATUS c) ATL_CORE_STATUS_in_handler v t)) = p t :=
    (fieldShow_keeps p hr ..).trans (fieldShow_keeps p hr ..)
  have hcore (c' : Nat) := coreOf_congr _ _ c' (hkeep State.cores fun _ _ => rfl)
  refine ⟨fun c' => hcore c' ▸ h.cores c', fun c' hc => (hcore c').trans (h.others c' hc), (hkeep State.mem fun _ _ => rfl).trans h.mem, ?_, ?_,
    fun hcy => ?_⟩
  · rw [fget_fieldShow_ne _ _ _ _ _ _ (status_ne_pq c), fget_fieldShow_other _ _ _ _ _ (by decide) (by decide), h.late]
  · rw [fget_fieldShow_ne _ _ _ _ _ _ (fend_ne_pq c), fget_fieldShow_ne _ _ _ _ _ _ (status_ne_fend c).symm, h.last]
  · rw [fget_fieldShow_ne _ _ _ _ _ _ (fend_ne_pq c), fget_fieldShow_ne _ _ _ _ _ _ (status_ne_fend c).symm, h.high hcy]

/-- The results that land as the frame ends are counted before it, and change nothing of that. -/
theorem FendShown.counted {c cy : Nat} {s t u : State} (r : Counted c s t) (h : FendShown c cy t u) : FendShown c cy s u := by
  have hcore (c' : Nat) := coreOf_congr s t c' r.cores
  have hfend : rd t (ATL_CORE_FEND c) = rd s (ATL_CORE_FEND c) :=
    r.rd _ (not_reportKey_fend c) (by unfold ATL_CORE_FEND ATL_CORE_XLOST; omega) (by unfold ATL_CORE_FEND ATL_CORE_SAT; omega)
  exact ⟨fun c' => hcore c' ▸ h.cores c', fun c' hc => (h.others c' (r.rot ▸ hc)).trans (hcore c'), h.mem.trans r.mem, h.late, h.last,
    fun hcy => (h.high hcy).trans (by rw [fget_congr _ _ _ _ hfend])⟩

/-- The settling after the command, too. -/
theorem FendShown.report {c cy : Nat} {s t u : State} (h : FendShown c cy s t) (r : Reported t u) : FendShown c cy s u :=
  ⟨fun c' => r.core c' ▸ h.cores c', fun c' hc => (r.core c').trans (h.others c' hc), r.mem.trans h.mem,
    (r.fget_eq (not_reportKey_coreStatus c) _).trans h.late, (r.fget_eq (not_reportKey_fend c) _).trans h.last,
    fun hcy => (r.fget_eq (not_reportKey_fend c) _).trans (h.high hcy)⟩

theorem coreStep_fend_shown (c cyc pc cy : Nat) {l : List CoreEv} (h : CountsOnly l) (k : Core) (s : State) :
    FendShown c cy (setCore c k s) (coreStep c cyc pc k (l ++ [.fend cy]) s) := by
  unfold coreStep
  rw [List.foldl_append]
  exact .shown (.counted (coreEvents_counted c cyc pc h _) (fendEvent_shown c cyc pc cy _)) _ _

/-- FEND retires what is in flight, ends the frame and shows it. -/
theorem completes_fend {c : Fin 68} {s : State} (h : AtWord c (encA 0x01 0 0 0 0 0) s) : Completes (.fend c) s (fun t =>
    FendShown c (coreOf s c).cyc (setCore c (frameEnded (coreOf s c).cyc (wbFlushBoth (coreCount [] (coreOf s c))).1) (quietOut s)) t) := by
  refine completes_run (doFend c) rfl h.ready (.report ?_ (settled_reported s _))
  have hissue := issue_any c _ .fend effPlain (quietOut s) (atWord_quiet h) (atlLegal_bare (by decide) _)
  rw [coreOf_congr _ _ c (quietOut_cores s), coreIssue_fend effPlain h.good h.noLoop h.noFlight h.noDelay] at hissue
  unfold doFend
  rw [hissue]
  exact coreStep_fend_shown c _ _ _ (wbFlushBoth_counts (coreCount [] (coreOf s c))) _ _

/-- Settles O8: each instruction of the flow of issue sends it where its effect says; FEND ends the frame. -/
theorem flowControlAndFrameEnd : Obligations.FlowControlAndFrameEnd := by
  refine ⟨?_, fun s c h => ?_⟩
  · intro s c cc pk ra tgt e n u k b z gives start loop
    refine ⟨fun h => ?_, fun h => ?_, fun h => ?_, fun h => ?_, fun h hs => ?_, fun h hs => ?_, fun h => ?_, fun h => ?_⟩
    · exact completes_afterThree effPlain [] rfl rfl rfl (atlLegal_bare (by decide) _) h
    · exact completes_slot .branch _ _ rfl (h.free nofun nofun) (effBranch_noLoop h.noLoop ..) (h.seen_slot _) (atlLegal_br ..) h
    · exact completes_slot .branch (effBrl tgt pk) _ rfl (h.free nofun nofun) (effBranch_noLoop ((coreLater_loops ..).trans h.noLoop) ..)
        (seen_slot_later h.noFlight ..) (atlLegal_brl ..) h
    · exact completes_slot .branch (effBrr cc pk) _ rfl (h.free nofun nofun) (effBranch_noLoop h.noLoop ..) (h.seen_slot _) (atlLegal_brr ..) h
    · exact completes_loop _ n e rfl rfl (atlLegal_loop n e hs) h
    · exact completes_loop _ _ e rfl rfl (atlLegal_loopr ra e hs) h
    · exact completes_wait u rfl (atlLegal_wait ..) h
    · cases hin : k.inHandler with
      | true => exact completes_slot .rti effRti .rti rfl (h.free nofun fun _ => hin) rfl (h.seen_slot _) (atlLegal_bare (by decide) _) h
      | false =>
        exact completes_issue (i := .rti c) .rti effRti rfl (coreIssue_rti_outside h.good h.noLoop h.noFlight h.noDelay hin)
          (seen_of_none ((congrArg Bank.wb (bankOf_stepped ..)).trans h.noFlight)) (atlLegal_bare (by decide) _) h
  · refine (completes_fend h).mono fun t hshown => ?_
    set k := coreOf s c with hk
    set k1 := (wbFlushBoth (coreCount [] k)).1 with hk1
    have hown : coreOf (setCore c (frameEnded k.cyc k1) (quietOut s)) c = frameEnded k.cyc k1 := coreOf_setCore ..
    obtain ⟨pm, bad, hcore⟩ := hshown.cores c
    rw [hown] at hcore
    have hem : k1.em = k.em := em_flushed k
    have hwb := wb_flushed (k := k)
    rw [← hk1] at hwb
    clear_value k1
    have hother (c' : Nat) (hc : c' ≠ c.val) : coreOf (setCore c (frameEnded k.cyc k1) (quietOut s)) c' = coreOf s c' := coreOf_setCore_ne _ _ _ _ hc
    rw [hcore]
    refine ⟨rfl, rfl, rfl, rfl, hwb, hem, hshown.late, fun hcy => ⟨hshown.last.trans (Nat.mod_eq_of_lt hcy), hshown.high hcy⟩,
      fun c' hc hr => (hshown.others c' hr).trans (hother c' hc), fun c' hc => ?_, hshown.mem⟩
    obtain ⟨pm', bad', hcore'⟩ := hshown.cores c'
    rw [hcore', hother c' hc]
    exact ⟨rfl, rfl, rfl, rfl⟩

end Sys2Proof.Machine
end

section
/-! PROOF. 06 R201 to R204, 07 R236: what the requests of a core to long memory store, reserve and refuse (O9). -/

namespace Sys2Proof.Machine

/-! ### The issue of a request -/

/-- An instruction whose effect is one event: the core counts it, and the event follows. -/
theorem completes_event {i : Instr} {c : Fin 68} {w : BitVec 64} {s : State} {P : State → Prop} (eff : Core → IssueEff) (e : CoreEv)
    (he : exec i s = run (issue c w .plain eff) s) (heff : eff (coreOf s c) = { effPlain (coreOf s c) with evs := [e] })
    (hl : atlLegal w (coreOf s c).pc = true) (h : AtWord c w s)
    (hP : ∀ t, Reported (coreStep c (coreOf s c).cyc (coreOf s c).pc (stepped (coreOf s c) (bankOf (coreOf s c))) [e] (quietOut s)) t → P t) :
    Completes i s P := by
  refine completes_run _ he h.ready (hP _ ?_)
  have hissue := issue_plain c w eff (quietOut s) (atWord_quiet h) hl
  rw [coreOf_congr _ _ c (quietOut_cores s), heff] at hissue
  rw [hissue rfl rfl h.noDelay h.noLoop rfl]
  exact settled_reported s _

/-! ### A request, whatever it asks for (06 R202 to R204) -/

/-- The request of a core in `s` at word offset `off` is open: its frame has room and time for it, and its logical core a region. -/
def RequestOpen (s : State) (c cyc : Nat) : Prop :=
  (coreOf s c).lmIssued < 64 ∧ cyc ≤ coreCutoff s c ∧ lmSize s ((coreServes s c).getD 0) ≠ 0

/-- A refused request: counted, with nothing stored. -/
structure Refused (c : Nat) (s t : State) : Prop where
  refused : (coreOf t c).lmRefused = true
  issued : (coreOf t c).lmIssued = (coreOf s c).lmIssued + 1
  count : rd t (ATL_CORE_LM_REFUSED c) = rd s (ATL_CORE_LM_REFUSED c) + 1
  mem : t.mem = s.mem

/-- The core with one request more, and the positions of its answer. -/
def requested (n : Nat) (k : Core) : Core := { k with lmIssued := k.lmIssued + 1, lmPos := k.lmPos + n }

theorem lmWrite_open {c cyc len off : Nat} {v : S64} {s : State} (ho : RequestOpen s c cyc) (ha : coreActive s c = true)
    (hd : dmaRefuse s 13 (lmAddr s ((coreServes s c).getD 0) off) 8 = none) :
    lmRequest c cyc len off (some v) s =
      memStore (setCore c (requested 0 (coreOf s c)) s) (lmAddr s ((coreServes s c).getD 0) off) 8 v.toNat := by
  obtain ⟨h1, h2, h3⟩ := ho
  unfold lmRequest
  extract_lets k j pos isWr bad k1 s1
  have hbad : bad = false := by simp [bad, isWr, k, j, Nat.not_le.2 h1, Nat.not_lt.2 h2, h3]
  have hs1 : s1 = setCore c (requested 0 (coreOf s c)) s := rfl
  have hd' : dmaRefuse s 13 (lmAddr s j off) 8 = none := hd
  clear_value s1 bad
  subst hbad
  refine (if_neg Bool.false_ne_true).trans ((if_neg (by rw [ha]; decide)).trans ?_)
  rw [hs1]
  generalize dmaRefuse s 13 (lmAddr s j off) 8 = x at hd'
  subst hd'
  rfl

/-- The word addresses that a read names (07 R236). -/
def readAddrs (s : State) (c len off : Nat) : List Nat := (List.range len).map fun i => lmAddr s ((coreServes s c).getD 0) (off + i)

/-- The core with a read outstanding: the words as memory holds them now. -/
def outstanding (s : State) (c len off : Nat) : Core := { requested len (coreOf s c) with
  lmReads := (coreOf s c).lmReads ++
    [⟨(coreOf s c).lmPos, len, readAddrs s c len off, (readAddrs s c len off).map fun a => BitVec.ofNat 64 (memRead s a 8)⟩] }

theorem lmRead_open {c cyc len off : Nat} {s : State} (ho : RequestOpen s c cyc) (hp : (coreOf s c).lmPos + len ≤ 256)
    (ha : coreActive s c = true) (hd : ∀ a ∈ readAddrs s c len off, dmaRefuse s 13 a 8 = none) :
    lmRequest c cyc len off none s = setCore c (outstanding s c len off) (setCore c (requested len (coreOf s c)) s) := by
  obtain ⟨h1, h2, h3⟩ := ho
  unfold lmRequest
  extract_lets k j pos isWr bad k1 s1 s2 _ _ l err
  have hbad : bad = false := by simp [bad, isWr, k, j, pos, Nat.not_le.2 h1, Nat.not_lt.2 h2, h3, hp]
  have herr : err = none := List.findSome?_eq_none_iff.2 fun a ha => congrArg (Option.map _) (hd a ha)
  refine (if_neg (by rw [hbad]; exact Bool.false_ne_true)).trans ((if_neg (by rw [ha]; decide)).trans ?_)
  clear_value err
  subst herr
  rfl

/-- The state that a refused read leaves: its positions are kept, and those that the answer words have read as zero (06 R202). -/
def readRefused (s : State) (c len : Nat) : State :=
  let t := lmRefuse c (setCore c (requested len (coreOf s c)) s)
  if 256 ≤ (coreOf s c).lmPos then t else setCore c { coreOf t c with lmZero := true } t

theorem lmRead_refused {c cyc len off : Nat} {s : State} (ho : ¬(RequestOpen s c cyc ∧ (coreOf s c).lmPos + len ≤ 256)) :
    lmRequest c cyc len off none s = readRefused s c len := by
  unfold lmRequest
  extract_lets k j pos isWr bad k1 s1 t
  have hbad : bad = true := by
    by_contra hb
    simp [bad, isWr, k, j, pos, not_or] at hb
    obtain ⟨⟨⟨h1, h2⟩, h3⟩, h4⟩ := hb
    exact ho ⟨⟨h1, h2, h3⟩, h4⟩
  refine (if_pos hbad).trans ?_
  change (if decide (256 ≤ (coreOf s c).lmPos) = true then t else setCore c { coreOf t c with lmZero := true } t) = _
  simp only [decide_eq_true_eq]
  rfl

theorem lmWrite_refused {c cyc len off : Nat} {v : S64} {s : State} (ho : ¬RequestOpen s c cyc) :
    lmRequest c cyc len off (some v) s = lmRefuse c (setCore c (requested 0 (coreOf s c)) s) := by
  unfold lmRequest
  extract_lets k j pos isWr bad k1 s1 _ s2
  have hbad : bad = true := by
    by_contra hb
    simp [bad, isWr, k, j, not_or] at hb
    exact ho ⟨by omega, by omega, hb.2⟩
  rw [hbad]
  rfl

/-! ### The core as its request is made -/

/-- The state in which the event of an instruction of `c` is carried out. -/
def issued (s : State) (c : Nat) : State := setCore c (stepped (coreOf s c) (bankOf (coreOf s c))) (quietOut s)

theorem coreOf_issued (s : State) (c : Nat) : coreOf (issued s c) c = stepped (coreOf s c) (bankOf (coreOf s c)) := coreOf_setCore ..

/-- What a core keeps of its requests. -/
def lmOf (k : Core) : Nat × Nat × Bool × List LmRead := (k.lmIssued, k.lmPos, k.lmZero, k.lmReads)

/-- Counting the instruction leaves them. -/
theorem lmOf_issued (s : State) (c : Nat) : lmOf (coreOf (issued s c) c) = lmOf (coreOf s c) := by
  have hbeside : BesideRegs lmOf := ⟨fun _ _ => rfl, fun _ _ => rfl, fun _ _ => rfl, fun _ _ => rfl⟩
  rw [coreOf_issued]
  exact hbeside.setBank ..

section
variable (s : State) (c : Nat)

theorem lmIssued_issued : (coreOf (issued s c) c).lmIssued = (coreOf s c).lmIssued := congrArg Prod.fst (lmOf_issued s c)
theorem lmPos_issued : (coreOf (issued s c) c).lmPos = (coreOf s c).lmPos := congrArg (fun x => x.2.1) (lmOf_issued s c)
theorem lmZero_issued : (coreOf (issued s c) c).lmZero = (coreOf s c).lmZero := congrArg (fun x => x.2.2.1) (lmOf_issued s c)
theorem lmReads_issued : (coreOf (issued s c) c).lmReads = (coreOf s c).lmReads := congrArg (fun x => x.2.2.2) (lmOf_issued s c)

theorem requestOpen_issued (cyc : Nat) : RequestOpen (issued s c) c cyc ↔ RequestOpen s c cyc := by
  unfold RequestOpen
  rw [lmIssued_issued]
  exact Iff.rfl

theorem dmaRefuse_issued (m a n : Nat) : dmaRefuse (issued s c) m a n = dmaRefuse s m a n := rfl

theorem coreActive_issued : coreActive (issued s c) c = coreActive s c := rfl

theorem lmAddr_issued (off : Nat) : lmAddr (issued s c) ((coreServes (issued s c) c).getD 0) off = lmAddr s ((coreServes s c).getD 0) off := rfl

theorem readAddrs_issued (len off : Nat) : readAddrs (issued s c) c len off = readAddrs s c len off := rfl

end

/-! ### The instructions -/

theorem memStore_mem (s : State) (a n v : Nat) : (memStore s a n v).mem = memPutBytes s.mem a (leBytes n v) := rfl

theorem memStore_cores (s : State) (a n v : Nat) : (memStore s a n v).cores = s.cores := rfl

theorem not_reportKey_lmRefused (c : Nat) : ¬reportKey (ATL_CORE_LM_REFUSED c) :=
  not_reportKey (by unfold ATL_CORE_LM_REFUSED LDG_STATUS LDG_SUPPRESSED; omega)

/-- LMR and LMW leave what their request leaves: long memory, the core and the count of its refusals. -/
theorem completes_request {i : Instr} {c : Fin 68} {w : BitVec 64} {s : State} {P : State → Prop} (eff : Core → IssueEff) {e : CoreEv}
    (u : State) (he : exec i s = run (issue c w .plain eff) s) (heff : eff (coreOf s c) = { effPlain (coreOf s c) with evs := [e] })
    (hu : coreEvent c (coreOf s c).cyc (coreOf s c).pc (issued s c) e = u) (hl : atlLegal w (coreOf s c).pc = true) (h : AtWord c w s)
    (hP : ∀ t, t.mem = u.mem → coreOf t c = coreOf u c → rd t (ATL_CORE_LM_REFUSED c) = rd u (ATL_CORE_LM_REFUSED c) → P t) :
    Completes i s P := by
  refine completes_event eff e he heff hl h fun t ht => ?_
  unfold coreStep at ht
  rw [List.foldl_cons, List.foldl_nil, show coreEvent _ _ _ (setCore _ _ _) e = u from hu] at ht
  have hkeep {α : Type} (p : State → α) (hr : ∀ s r, p { s with regs := r } = p s) (k k' : Nat) (f f' : Fld) (v v' : Nat) :
      p (fieldShow k f v (fieldShow k' f' v' u)) = p u := (fieldShow_keeps p hr ..).trans (fieldShow_keeps p hr ..)
  refine hP t (ht.mem.trans (hkeep State.mem (fun _ _ => rfl) ..)) ((ht.core c).trans (coreOf_congr _ _ c (hkeep State.cores (fun _ _ => rfl) ..))) ?_
  rw [ht.rd _ (not_reportKey_lmRefused c), rd_fieldShow_ne _ _ _ _ _ (by unfold ATL_CORE_LM_REFUSED ATL_CORE_PQ; omega),
    rd_fieldShow_ne _ _ _ _ _ (by unfold ATL_CORE_LM_REFUSED ATL_CORE_STATUS; omega)]

theorem coreOf_lmRefuse (c : Nat) (k : Core) (s : State) : coreOf (lmRefuse c (setCore c k s)) c = { k with lmRefused := true } := by
  unfold lmRefuse
  rw [coreOf_congr _ _ c (cnt_cores ..), coreOf_setCore, coreOf_setCore]

theorem mem_lmRefuse (c : Nat) (s : State) : (lmRefuse c s).mem = s.mem := cnt_mem ..

theorem rd_lmRefuse (c : Nat) (s : State) : rd (lmRefuse c s) (ATL_CORE_LM_REFUSED c) = rd s (ATL_CORE_LM_REFUSED c) + 1 := rd_cnt _ _

theorem coreOf_readRefused (s : State) (c len : Nat) : coreOf (readRefused s c len) c =
    { requested len (coreOf s c) with lmRefused := true, lmZero := (coreOf s c).lmZero || decide ((coreOf s c).lmPos < 256) } := by
  unfold readRefused
  dsimp only
  split
  · next h =>
    rw [coreOf_lmRefuse, decide_eq_false (Nat.not_lt.2 h), Bool.or_false]
    rfl
  · next h => rw [coreOf_setCore, coreOf_lmRefuse, decide_eq_true (Nat.not_le.1 h), Bool.or_true]

theorem rd_readRefused (s : State) (c len : Nat) :
    rd (readRefused s c len) (ATL_CORE_LM_REFUSED c) = rd s (ATL_CORE_LM_REFUSED c) + 1 := by
  unfold readRefused
  dsimp only
  split
  · exact rd_lmRefuse c _
  · exact rd_lmRefuse c (setCore c (requested len (coreOf s c)) s)

theorem mem_readRefused (s : State) (c len : Nat) : (readRefused s c len).mem = s.mem := by
  unfold readRefused
  dsimp only
  split
  · exact mem_lmRefuse c _
  · exact mem_lmRefuse c (setCore c (requested len (coreOf s c)) s)

theorem rd_issued (s : State) (c k : Nat) : rd (issued s c) k = rd s k := rfl

/-- A refused write of the core that issues. -/
theorem refused_lmRefuse (s : State) (c : Nat) : Refused c s (lmRefuse c (setCore c (requested 0 (coreOf (issued s c) c)) (issued s c))) where
  refused := by rw [coreOf_lmRefuse]
  issued := by
    rw [coreOf_lmRefuse]
    exact congrArg (· + 1) (lmIssued_issued s c)
  count := (rd_lmRefuse _ _).trans (congrArg (· + 1) (rd_issued s c _))
  mem := mem_lmRefuse _ _

/-- A refused read of the core that issues. -/
theorem refused_readRefused (len : Nat) (s : State) (c : Nat) : Refused c s (readRefused (issued s c) c len) where
  refused := by rw [coreOf_readRefused]
  issued := by
    rw [coreOf_readRefused]
    exact congrArg (· + 1) (lmIssued_issued s c)
  count := (rd_readRefused _ _ _).trans (congrArg (· + 1) (rd_issued s c _))
  mem := mem_readRefused _ _ _

section
variable {s : State} {c : Fin 68}

/-- LMW leaves what its request leaves. -/
theorem completes_lmw {P : State → Prop} (ra rb : Fin 16) (imm : BitVec 32) {u : State} (h : AtWord c (encL 0x71 ra rb 0 imm.toNat) s)
    (hu : lmRequest c (coreOf s c).cyc 1 (lmOff (coreOf s c) ra imm) (some (coreD (coreOf s c) rb)) (issued s c) = u)
    (hP : ∀ t, t.mem = u.mem → coreOf t c = coreOf u c → rd t (ATL_CORE_LM_REFUSED c) = rd u (ATL_CORE_LM_REFUSED c) → P t) :
    Completes (.lmw c ra rb imm) s P :=
  completes_request (e := .lmWrite (lmOff (coreOf s c) ra imm) (coreD (coreOf s c) rb)) (effLmw ra rb imm) u rfl rfl hu
    (legalL _ ra rb 0 _ _ (by decide) (by omega) (by omega) (by decide) imm.isLt rfl) h hP

/-- LMR leaves what its request leaves. -/
theorem completes_lmr {P : State → Prop} (ra : Fin 16) (len : Fin 9) (imm : BitVec 32) {u : State}
    (h : AtWord c (encL 0x70 ra 0 len imm.toNat) s) (hlen : 1 ≤ len.val)
    (hu : lmRequest c (coreOf s c).cyc len (lmOff (coreOf s c) ra imm) none (issued s c) = u)
    (hP : ∀ t, t.mem = u.mem → coreOf t c = coreOf u c → rd t (ATL_CORE_LM_REFUSED c) = rd u (ATL_CORE_LM_REFUSED c) → P t) :
    Completes (.lmr c ra len imm) s P :=
  completes_request (e := .lmRead (lmOff (coreOf s c) ra imm) len) (effLmr ra len imm) u rfl rfl hu
    (legalL _ ra 0 len _ _ (by decide) (by omega) (by decide) (by omega) imm.isLt (by simp [hlen]; omega)) h hP

end

/-- Settles O9: a request that its frame, its cutoff and its region let through stores or reserves; any other is counted and refused. -/
theorem longMemoryRequests : Obligations.LongMemoryRequests := by
  intro s c ra rb len imm k j off open_ refused
  have hopen : open_ ↔ RequestOpen (issued s c) c k.cyc := (requestOpen_issued ..).symm
  have htransfer {t u : State} (h : Refused c s u) (hm : t.mem = u.mem) (hc : coreOf t c = coreOf u c)
      (hr : rd t (ATL_CORE_LM_REFUSED c) = rd u (ATL_CORE_LM_REFUSED c)) : refused t :=
    ⟨hc ▸ h.refused, hc ▸ h.issued, hr.trans h.count, hm.trans h.mem⟩
  have hpos : (coreOf (issued s c) c).lmPos = k.lmPos := lmPos_issued s c
  have hissued : (coreOf (issued s c) c).lmIssued + 1 = k.lmIssued + 1 := congrArg (· + 1) (lmIssued_issued s c)
  refine ⟨fun h => ⟨fun ho ha hd => ?_, fun ho => ?_⟩, fun h hlen => ⟨fun ho hroom ha hd => ?_, fun ho => ?_⟩⟩
  · rw [← lmAddr_issued, ← dmaRefuse_issued] at hd
    rw [← coreActive_issued] at ha
    refine completes_lmw ra rb imm h (lmWrite_open (hopen.1 ho) ha hd) fun t hm hc _ => ⟨hm.trans ?_, ?_, ?_⟩
    · rw [memStore_mem, lmAddr_issued]
      rfl
    all_goals rw [hc, coreOf_congr _ _ c (memStore_cores ..), coreOf_setCore]
    · exact hissued
    · exact hpos
  · refine completes_lmw ra rb imm h (lmWrite_refused (mt hopen.2 ho)) fun t hm hc hr => ⟨htransfer (refused_lmRefuse s c) hm hc hr, ?_⟩
    rw [hc, coreOf_lmRefuse]
    exact hpos
  · have hd' : ∀ a ∈ readAddrs (issued s c) c len off, dmaRefuse (issued s c) 13 a 8 = none := by
      intro a ha
      obtain ⟨i, hi, rfl⟩ := List.mem_map.1 ha
      exact (dmaRefuse_issued ..).trans (hd i (List.mem_range.1 hi))
    rw [← coreActive_issued] at ha
    refine completes_lmr ra len imm h hlen (lmRead_open (hopen.1 ho) (hpos ▸ hroom) ha hd') fun t hm hc _ => ⟨?_, ?_, ?_, hm⟩
    all_goals rw [hc, coreOf_setCore]
    · refine congrArg₂ (· ++ ·) (lmReads_issued s c) ?_
      rw [hpos, readAddrs_issued]
      simp only [readAddrs, List.map_map]
      rfl
    · exact congrArg (· + len.val) hpos
    · exact hissued
  · have ho' : ¬(RequestOpen (issued s c) c k.cyc ∧ (coreOf (issued s c) c).lmPos + len ≤ 256) := by
      rw [← hopen, hpos]
      exact ho
    refine completes_lmr ra len imm h hlen (lmRead_refused ho') fun t hm hc hr => ⟨htransfer (refused_readRefused len s c) hm hc hr, ?_, ?_⟩
    all_goals rw [hc, coreOf_readRefused]
    · exact congrArg (· + len.val) hpos
    · rw [hpos, lmZero_issued]

end Sys2Proof.Machine
end

section
/-! PROOF. 07 R217, R238, R240, 06 R197, R198: what happens to a core at the boundary of an instruction (O10). -/

namespace Sys2Proof.Machine

/-! ### A command that changes one core -/

theorem OnlyCore.settled {c : Nat} {s u : State} (h : OnlyCore c s u) : OnlyCore c s (keep s (settle u)) where
  others c' hc := by
    rw [coreOf_congr _ _ _ (keep_cores ..), coreOf_congr _ _ _ (settle_cores _)]
    exact h.others c' hc
  mem := by simpa using h.mem
  gal := by simpa using h.gal
  scn := by simpa using h.scn
  str := by simpa using h.str
  atlOut := by simpa using h.atlOut
  xmap := by simpa using h.xmap
  prt := by simpa using h.prt
  dax := by simpa using h.dax
  line := by simpa using h.line
  tim := by simpa using h.tim
  twn := by simpa using h.twn
  ecc := by simpa using h.ecc
  drc := by simpa using h.drc
  cat := by simpa using h.cat
  ldg := by simpa using h.ldg
  pin := by simpa using h.pin
  perm := by rw [keep_perm]
  regs k hk h1 h2 := by
    rw [rd_keep, rd_settle _ _ hk]
    exact h.regs k hk h1 h2

theorem OnlyCore.of_setCore (c : Nat) (k : Core) (s : State) : OnlyCore c s (setCore c k (quietOut s)) :=
  ⟨fun c' hc => coreOf_setCore_ne c c' k (quietOut s) hc, rfl, rfl, rfl, rfl, rfl, rfl, rfl, rfl, rfl, rfl, rfl, rfl, rfl, rfl, rfl, rfl, rfl,
    fun _ _ _ _ => rfl⟩

/-- A command whose effect is the next state of a core. -/
theorem completes_setCore {i : Instr} (c : Nat) (f : State → State) (s : State) (x : Core) (he : exec i s = run f s) (h : Ready s)
    (e : f (quietOut s) = setCore c x (quietOut s)) : Completes i s (fun t => coreOf t c = x ∧ OnlyCore c s t) := by
  refine completes_run f he h ?_
  rw [e]
  refine ⟨?_, (OnlyCore.of_setCore c x s).settled⟩
  rw [coreOf_congr _ _ _ (keep_cores ..), coreOf_congr _ _ _ (settle_cores _), coreOf_setCore]

/-! ### Illegal words (07 R217) -/

/-- A core's halt, behind the results that land with it, leaves the cores as its step leaves them. -/
theorem coreStep_halt_cores (c cyc pc : Nat) (k : Core) {l : List CoreEv} (h : CountsOnly l) (cause a : Nat) (s : State) :
    (coreStep c cyc pc k (l ++ [.halt cause a]) s).cores = (setCore c k s).cores := by
  unfold coreStep
  rw [fieldShow_keeps State.cores (fun _ _ => rfl), fieldShow_keeps State.cores (fun _ _ => rfl), List.foldl_append]
  refine ((occur_reported ..).cores).trans ?_
  exact (coreEvents_counted c cyc pc h (setCore c k s)).cores

/-- The core that halts where it stands. -/
def haltedCore (k : Core) : Core := { k with phase := .halted, delay := none, wait := none }

theorem coreHalt_eq (cause : Nat) (k : Core) :
    coreHalt cause k = (haltedCore (wbFlushBoth k).1, (wbFlushBoth k).2 ++ [.halt cause k.pc]) := by
  unfold coreHalt
  generalize wbFlushBoth k = x
  rfl

theorem doIllegalInstruction_eq {c : Fin 68} {w : BitVec 64} {s : State} (h : AtWord c w s) (hl : atlLegal w (coreOf s c).pc = false) :
    doIllegalInstruction c s = coreStep c (coreOf s c).cyc (coreOf s c).pc (haltedCore (wbFlushBoth (coreOf s c)).1)
      ((wbFlushBoth (coreOf s c)).2 ++ [.halt haltIllegal (coreOf s c).pc]) s := by
  unfold doIllegalInstruction
  rw [boundary_plain _ h.noWait h.noPop h.noLand h.noCmp h.noDue]
  dsimp only
  rw [h.word, hl, if_neg Bool.false_ne_true]
  dsimp only
  rw [if_pos h.issues, h.good, if_neg Bool.false_ne_true, coreHalt_eq, List.nil_append]

/-- The core halts where it stands, with its memories as they are. -/
theorem completes_illegal {c : Fin 68} {w : BitVec 64} {s : State} (h : AtWord c w s) (hl : atlLegal w (coreOf s c).pc = false) :
    Completes (.illegalInstruction c) s (fun t => t.cores = (setCore c (haltedCore (wbFlushBoth (coreOf s c)).1) s).cores) := by
  refine completes_run (doIllegalInstruction c) rfl h.ready ?_
  rw [doIllegalInstruction_eq (atWord_quiet h) hl, coreOf_congr _ _ c (quietOut_cores s)]
  exact (keep_cores ..).trans ((settle_cores _).trans ((coreStep_halt_cores _ _ _ _ (wbFlushBoth_counts _) ..).trans rfl))

/-! ### Loop exits, stalls and interrupts (07 R238, R240, 06 R197, R198) -/

theorem loopPops_none {k : Core} (h : k.loopDue = false) : loopPops k = k := by simp [loopPops, h]

theorem loopPop_last {k : Core} {top : LoopLvl} (h : (bankOf k).loops = [top]) :
    loopPop k = { setBank k { bankOf k with loops := [] } with loopDue := false } := by
  unfold loopPop
  simp only [h]

theorem cmpRaise_running {k : Core} (h : k.wait = none) : cmpRaise k = { k with cmpPend := true, cmpRaised := true } := by
  unfold cmpRaise
  rw [h]
  rfl

/-- Where nothing is due or pending, the boundary of a stalled core leaves it as it is. -/
theorem coreBoundary_none {k : Core} (hp : k.loopDue = false) (hd : cmpDue k = false) (hl : k.landPend = false) (hc : k.cmpPend = false) :
    coreBoundary k = (k, []) := by
  unfold coreBoundary
  rw [loopPops_none hp]
  simp [hd, hl, hc]

theorem coreBoundary_take {k : Core} (hp : k.loopDue = false) (hd : cmpDue k = false) (he : coreEligible k = true)
    (hpend : k.landPend = true ∨ k.cmpPend = true) : coreBoundary k = coreTake k := by
  unfold coreBoundary
  rw [loopPops_none hp]
  simp [hd, he, hpend]

theorem wbUpTo_main_none {k : Core} (h : k.main.wb = []) (n : Nat) : wbUpTo false n k = (k, []) := by
  obtain ⟨m, sh, b, l, ph, pc, cyc, fr, fi, ih⟩ := k
  obtain ⟨d1, d2, d3, d4, d5, d6, d7, d8, d9, d10⟩ := m
  simp_all [wbUpTo, wbApplyAll, putBank]

theorem wbFlush_main_none {k : Core} (h : k.main.wb = []) : wbFlush false k = (k, []) := by
  simp [wbFlush, wbUpTo_main_none h]

/-- The core that has taken its pending interrupt, the landing one first, with the return address kept. -/
def takenCore (ret : Nat) (k : Core) : Core := { k with
  inHandler := true, rtiPc := ret, wait := none, landPend := false, cmpPend := k.landPend && k.cmpPend,
  pc := if k.landPend then k.landVec else k.cmpVec }

/-- The address to which a handler returns: that of a stalled WAIT, or of the next instruction. -/
def returnPc (k : Core) : Nat := match k.wait with
  | some _ => (k.pc + 16383) % 16384
  | none => k.pc

theorem coreTake_eq {k : Core} (h : k.main.wb = []) : coreTake k = (takenCore (returnPc k) k, []) := by
  unfold coreTake
  rw [wbFlush_main_none h]
  dsimp only
  unfold takenCore returnPc
  cases hl : k.landPend <;> simp <;> rfl

section
variable {s : State} {c : Fin 68}

theorem completes_loopExit (h : Ready s) (hi : coreIssues s c = true) (hd : (coreOf s c).loopDue = true) {top : LoopLvl}
    (hl : (bankOf (coreOf s c)).loops = [top]) : Completes (.loopExit c) s (fun t =>
      coreOf t c = { setBank (coreOf s c) { bankOf (coreOf s c) with loops := [] } with loopDue := false } ∧ OnlyCore c s t) := by
  refine completes_setCore c (doLoopExit c) s _ rfl h ?_
  rw [← loopPop_last hl]
  exact if_pos ⟨hi, hd⟩

theorem completes_waitEnd (h : Ready s) (hi : coreIssues s c = true) (hd : cmpDue (coreOf s c) = false) (hp : (coreOf s c).loopDue = false)
    {u : Nat} {d : Bool} (hw : (coreOf s c).wait = some (u, d)) (hl : (coreOf s c).landPend = false) (hc : (coreOf s c).cmpPend = false) :
    Completes (.waitEnd c) s (fun t => coreOf t c = { coreOf s c with wait := none, cyc := Nat.max (coreOf s c).cyc u } ∧ OnlyCore c s t) := by
  refine completes_step c (doWaitEnd c) s (coreOf s c).cyc (coreOf s c).pc _ rfl h ?_
  have hdone : waitDone (coreOf s c) = { coreOf s c with wait := none, cyc := Nat.max (coreOf s c).cyc u } := by
    unfold waitDone
    rw [hw]
  unfold doWaitEnd
  rw [coreOf_congr _ _ c (quietOut_cores s), if_pos ⟨hi, by rw [hw]; rfl⟩, coreBoundary_none hp hd hl hc, ← hdone]

/-- A stall in which a pending interrupt is taken ends with it: the handler returns to the WAIT. -/
theorem completes_waitEnd_taken (h : Ready s) (hi : coreIssues s c = true) (hd : cmpDue (coreOf s c) = false)
    (hp : (coreOf s c).loopDue = false) {u : Nat} {d : Bool} (hw : (coreOf s c).wait = some (u, d)) (he : coreEligible (coreOf s c) = true)
    (hl : (coreOf s c).landPend = true) (hm : (coreOf s c).main.wb = []) : Completes (.waitEnd c) s (fun t =>
      coreOf t c = takenCore (((coreOf s c).pc + 16383) % 16384) (coreOf s c) ∧ OnlyCore c s t) := by
  refine completes_step c (doWaitEnd c) s (coreOf s c).cyc (coreOf s c).pc _ rfl h ?_
  have hret : returnPc (coreOf s c) = ((coreOf s c).pc + 16383) % 16384 := by
    unfold returnPc
    rw [hw]
  unfold doWaitEnd
  rw [coreOf_congr _ _ c (quietOut_cores s), if_pos ⟨hi, by rw [hw]; rfl⟩, coreBoundary_take hp hd he (.inl hl), coreTake_eq hm, hret]
  rfl

theorem completes_compareInterrupt (h : Ready s) (hi : coreIssues s c = true) (hd : cmpDue (coreOf s c) = true)
    (hw : (coreOf s c).wait = none) : Completes (.compareInterrupt c) s (fun t =>
      coreOf t c = { coreOf s c with cmpPend := true, cmpRaised := true } ∧ OnlyCore c s t) := by
  refine completes_setCore c (doCompareInterrupt c) s _ rfl h ?_
  rw [← cmpRaise_running hw]
  exact if_pos ⟨hi, hd⟩

theorem completes_interruptTake (h : Ready s) (hi : coreIssues s c = true) (he : coreEligible (coreOf s c) = true)
    (hpend : (coreOf s c).landPend = true ∨ (coreOf s c).cmpPend = true) (hm : (coreOf s c).main.wb = [])
    (hp : (coreOf s c).loopDue = false) (hw : (coreOf s c).wait = none) : Completes (.interruptTake c) s (fun t =>
      coreOf t c = takenCore (coreOf s c).pc (coreOf s c) ∧ OnlyCore c s t) := by
  refine completes_step c (doInterruptTake c) s (coreOf s c).cyc (coreOf s c).pc _ rfl h ?_
  have hret : returnPc (coreOf s c) = (coreOf s c).pc := by
    unfold returnPc
    rw [hw]
  unfold doInterruptTake
  rw [coreOf_congr _ _ c (quietOut_cores s), loopPops_none hp, if_pos ⟨hi, he, hpend⟩, coreTake_eq hm, hret]

end

end Sys2Proof.Machine
end

section
/-! PROOF. 06 R190, R203, R204, R210: the end of a frame that has not issued FEND, the answers of long memory and the queued writes
to P (O10). -/

namespace Sys2Proof.Machine

/-- What a command is known to do in two parts, it does. -/
theorem Completes.and {i : Instr} {s : State} {P Q : State → Prop} (h : Completes i s P) (h' : Completes i s Q) :
    Completes i s (fun t => P t ∧ Q t) := by
  obtain ⟨t, ht, hp⟩ := h
  obtain ⟨t', ht', hq⟩ := h'
  obtain rfl : t = t' := Host.Outcome.next.inj (ht.symm.trans ht')
  exact ⟨t, ht, hp, hq⟩

theorem fget_fieldShow {k v : Nat} {f : Fld} (s : State) (h : f.lo + f.len ≤ 32) (hv : v < 2 ^ f.len) : fget (fieldShow k f v s) k f = v := by
  unfold fieldShow
  split
  · assumption
  · exact (fget_fset _ _ _ _ h).trans (Nat.mod_eq_of_lt hv)

/-! ### Abandoned frames (06 R190) -/

/-- The core whose frame has overrun. -/
def overrunCore (k : Core) : Core := { coreAbandon k with phase := .idle, overran := true, lastFend := 0xFFFF }

/-- The state in which the overrun of a core's frame is shown, before it is reported. -/
def overrunShown (c : Nat) (s : State) : State :=
  fset (cnt (frameShow c 0xFFFF (coreStep c (coreOf s c).cyc (coreOf s c).pc (overrunCore (coreOf s c)) [] s)) (ATL_CORE_OVERRUN c))
    (ATL_CORE_STATUS c) ATL_CORE_STATUS_late 1

theorem overrun_running {c : Nat} {s : State} (h : (coreOf s c).phase = .run) :
    overrun c s = coreFault c 0x380 (det64 (coreOf s c).frame) 5 (overrunShown c s) := if_pos (.inl h)

theorem overrunShown_keeps {α : Type} (p : State → α) (hr : ∀ s r, p { s with regs := r } = p s) (c : Nat) (s : State) :
    p (overrunShown c s) = p (setCore c (overrunCore (coreOf s c)) s) := by
  unfold overrunShown
  rw [fset_keeps p hr, cnt_keeps p hr, frameShow_keeps p hr, coreStep_quiet _ _ _ _ _ p hr]

theorem late_overrunShown (c : Nat) (s : State) : fget (overrunShown c s) (ATL_CORE_STATUS c) ATL_CORE_STATUS_late = 1 :=
  fget_fset _ _ _ _ (by decide)

theorem last_overrunShown (c : Nat) (s : State) : fget (overrunShown c s) (ATL_CORE_FEND c) ATL_CORE_FEND_last = 0xFFFF := by
  unfold overrunShown
  rw [fget_fset_ne _ _ _ _ _ _ (status_ne_fend c).symm,
    fget_congr _ _ _ _ (rd_cnt_ne _ _ _ (by unfold ATL_CORE_FEND ATL_CORE_OVERRUN; omega)), frameShow,
    fget_fset_ne _ _ _ _ _ _ (fend_ne_lmUse c), fget_fset_ne _ _ _ _ _ _ (fend_ne_lmUse c)]
  exact fget_fset _ _ _ _ (by decide)

theorem completes_frameOverrun {s : State} {c : Fin 68} (h : Ready s) (hr : (coreRunDom s c).isSome = true) (hp : (coreOf s c).phase = .run) :
    Completes (.frameOverrun c) s (fun t => coreOf t c = overrunCore (coreOf s c) ∧ rd t (ATL_CORE_OVERRUN c) = rd s (ATL_CORE_OVERRUN c) + 1 ∧
      fget t (ATL_CORE_STATUS c) ATL_CORE_STATUS_late = 1 ∧ fget t (ATL_CORE_FEND c) ATL_CORE_FEND_last = 0xFFFF ∧ t.mem = s.mem ∧
      ∀ c', c' ≠ c.val → coreOf t c' = coreOf s c') := by
  refine completes_run (doFrameOverrun c) rfl h ?_
  have hf : doFrameOverrun c (quietOut s) = overrun c (quietOut s) := if_pos hr
  have hp' : (coreOf (quietOut s) c).phase = .run := hp
  have hcount := (overrun_ends hp').count
  rw [hf]
  have r : Reported (overrunShown c (quietOut s)) (keep s (settle (overrun c (quietOut s)))) := by
    have hreport := coreFault_reported c 0x380 (det64 (coreOf (quietOut s) c).frame) 5 (overrunShown c (quietOut s))
    rw [← overrun_running hp'] at hreport
    exact hreport.trans (settled_reported ..)
  have r' := settled_reported s (overrun c (quietOut s))
  generalize keep s (settle (overrun c (quietOut s))) = t at r r'
  have hcore (c' : Nat) : coreOf t c' = coreOf (setCore c (overrunCore (coreOf s c)) (quietOut s)) c' :=
    (r.core c').trans (coreOf_congr _ _ c' (overrunShown_keeps State.cores (fun _ _ => rfl) c (quietOut s)))
  refine ⟨(hcore c).trans (coreOf_setCore ..), (r'.rd _ (not_reportKey_overrun c)).trans hcount,
    (r.fget_eq (not_reportKey_coreStatus c) _).trans (late_overrunShown ..), (r.fget_eq (not_reportKey_fend c) _).trans (last_overrunShown ..),
    r.mem.trans (overrunShown_keeps State.mem (fun _ _ => rfl) c (quietOut s)), fun c' hc => ?_⟩
  rw [hcore, coreOf_setCore_ne _ _ _ _ hc, coreOf_congr _ _ c' (quietOut_cores s)]

/-! ### Answers of long memory (06 R203, R204) -/

/-- A read whose words are whole leaves no note. -/
theorem readNote_clean {s : State} {ws : List Nat} (h : lostWords s ws = []) : readNote s ws [] = s := by
  unfold readNote
  dsimp only [List.foldl_nil]
  rw [List.filter_filter]
  have : ws.filter (fun w => s.ecc.bad.contains w && !queueHolds s w) = [] := h
  rw [this]
  rfl

/-- The answer of one word, in the buffer that the next frame reads. -/
theorem doLmAnswer_one {s : State} {c : Fin 68} {a n : Nat} {v : BitVec 64} {rest : List LmRead}
    (hr : (coreOf s c).lmReads = ⟨n, 1, [a], [v]⟩ :: rest) (hn : n < 256) (hl : lostWords s [a / 8] = []) :
    coreOf (doLmAnswer c [] s) c =
      coreWr { coreOf s c with lmReads := rest } 3 (((coreOf s c).frame + 1) % 2 * 384 + 128 + n) v := by
  unfold doLmAnswer
  extract_lets k
  split
  · next h => exact absurd (hr.symm.trans h) nofun
  · next r rest' h =>
    obtain ⟨rfl, rfl⟩ := List.cons.inj (hr.symm.trans h)
    extract_lets s1 lost vals base put _ s2 s3
    have hs1 : s1 = s := readNote_clean hl
    have hlost : lost = [] := (congrArg (lostWords · [a / 8]) hs1).trans hl
    have hput (x : Core) : put x = coreWr x 3 base v := by
      have hvals : vals = [v] := by simp [vals, hlost]
      simp [put, hvals, hn]
    clear_value put lost s1
    subst hs1 hlost
    have hs2 : coreOf s2 c = coreWr { k with lmReads := rest } 3 base v := (coreOf_setCore ..).trans
      ((hput _).trans (congrArg (fun z => coreWr { k with lmReads := rest, lmZero := z } 3 base v) (Bool.or_false _)))
    have hs3 : coreOf s3 c = coreOf s2 c := by
      unfold s3
      split
      · refine List.foldlRecOn _ _ (motive := fun x : State => coreOf x c = coreOf s2 c) rfl fun x hx c' hc => ?_
        have hne : c' ≠ c.val := by simpa using (List.mem_filter.1 hc).2
        exact (coreOf_setCore_ne _ _ _ _ hne.symm).trans hx
      · rfl
    rw [if_pos List.isEmpty_nil, hs3]
    exact hs2

theorem completes_lmAnswer {s : State} {c : Fin 68} {a n : Nat} {v : BitVec 64} {rest : List LmRead} (h : Ready s)
    (hr : (coreOf s c).lmReads = ⟨n, 1, [a], [v]⟩ :: rest) (hn : n < 256) (hl : lostWords s [a / 8] = []) :
    Completes (.lmAnswer c []) s (fun t =>
      coreOf t c = coreWr { coreOf s c with lmReads := rest } 3 (((coreOf s c).frame + 1) % 2 * 384 + 128 + n) v) := by
  refine completes_run (doLmAnswer c []) rfl h ?_
  have hcore : coreOf (quietOut s) c = coreOf s c := coreOf_congr _ _ c (quietOut_cores s)
  have hanswer := doLmAnswer_one (s := quietOut s) (hcore ▸ hr) hn hl
  rw [hcore] at hanswer
  exact ((settled_reported s _).core c).trans hanswer

theorem lmLate_first {c : Nat} {s : State} {r : LmRead} {rest : List LmRead} (h : (coreOf s c).lmReads = r :: rest) :
    lmLate c r s = cntN (setCore c { coreOf s c with lmReads := rest, lmZero := true } s) (ATL_CORE_LM_LATE c) r.len := by
  unfold lmLate
  dsimp only
  rw [h, List.erase_cons_head]

theorem not_reportKey_lmLate (c : Nat) : ¬reportKey (ATL_CORE_LM_LATE c) :=
  not_reportKey (by unfold ATL_CORE_LM_LATE LDG_STATUS LDG_SUPPRESSED; omega)

theorem completes_lmAnswerLate {s : State} {c : Fin 68} {r : LmRead} {rest : List LmRead} (h : Ready s)
    (hr : (coreOf s c).lmReads = r :: rest) : Completes (.lmAnswerLate c) s (fun t =>
      coreOf t c = { coreOf s c with lmReads := rest, lmZero := true } ∧
      rd t (ATL_CORE_LM_LATE c) = rd s (ATL_CORE_LM_LATE c) + BitVec.ofNat 32 r.len ∧ t.mem = s.mem ∧
      ∀ c', c' ≠ c.val → coreOf t c' = coreOf s c') := by
  refine completes_run (doLmAnswerLate c) rfl h ?_
  have hcore (c' : Nat) : coreOf (quietOut s) c' = coreOf s c' := coreOf_congr _ _ c' (quietOut_cores s)
  have hlate : doLmAnswerLate c (quietOut s) =
      cntN (setCore c { coreOf s c with lmReads := rest, lmZero := true } (quietOut s)) (ATL_CORE_LM_LATE c) r.len := by
    unfold doLmAnswerLate
    rw [hcore, hr]
    exact (lmLate_first ((congrArg Core.lmReads (hcore c)).trans hr)).trans (by rw [hcore])
  have hshown (c' : Nat) := ((settled_reported s (doLmAnswerLate c (quietOut s))).core c').trans
    (coreOf_congr _ _ c' ((congrArg State.cores hlate).trans (cntN_cores ..)))
  have r' := settled_reported s (doLmAnswerLate c (quietOut s))
  refine ⟨(hshown c).trans (coreOf_setCore ..), (r'.rd _ (not_reportKey_lmLate c)).trans ?_, r'.mem.trans ?_, fun c' hc => ?_⟩
  · rw [hlate, rd_cntN]
    rfl
  · rw [hlate, cntN_mem]
    rfl
  · rw [hshown, coreOf_setCore_ne _ _ _ _ hc, hcore]

/-! ### Queued writes to P (06 R210) -/

/-- The core once its oldest queued write is made. -/
def drainedCore (k : Core) (a : Nat) (w : BitVec 64) (rest : List (Nat × BitVec 64)) : Core := { coreWr k 0 a w with pq := rest }

theorem doPQueueDrain_eq {s : State} {c : Fin 68} {a : Nat} {w : BitVec 64} {rest : List (Nat × BitVec 64)}
    (hq : (coreOf s c).pq = (a, w) :: rest) (he : (coreOf s c).phase = .ended ∨ (coreRunDom s c).isNone = true) :
    doPQueueDrain c s = coreStep c (coreOf s c).cyc (coreOf s c).pc (drainedCore (coreOf s c) a w rest) [] s := by
  unfold doPQueueDrain
  dsimp only
  rw [hq]
  exact if_pos he

theorem completes_pQueueDrain {s : State} {c : Fin 68} {a : Nat} {w : BitVec 64} {rest : List (Nat × BitVec 64)} (h : Ready s)
    (hq : (coreOf s c).pq = (a, w) :: rest) (he : (coreOf s c).phase = .ended ∨ (coreRunDom s c).isNone = true) :
    Completes (.pQueueDrain c) s (fun t => coreOf t c = drainedCore (coreOf s c) a w rest ∧ OnlyCore c s t) :=
  completes_step c (doPQueueDrain c) s (coreOf s c).cyc (coreOf s c).pc _ rfl h (doPQueueDrain_eq (s := quietOut s) hq he)

theorem not_reportKey_pq (c : Fin 68) : ¬reportKey (ATL_CORE_PQ c) :=
  not_reportKey (by unfold ATL_CORE_PQ LDG_STATUS LDG_SUPPRESSED; omega)

theorem completes_pQueueDrain_level {s : State} {c : Fin 68} {a : Nat} {w : BitVec 64} {rest : List (Nat × BitVec 64)} (h : Ready s)
    (hq : (coreOf s c).pq = (a, w) :: rest) (he : (coreOf s c).phase = .ended ∨ (coreRunDom s c).isNone = true) (hn : rest.length ≤ 256) :
    Completes (.pQueueDrain c) s (fun t => fget t (ATL_CORE_PQ c) ATL_CORE_PQ_level = rest.length) := by
  refine completes_run (doPQueueDrain c) rfl h (((settled_reported s _).fget_eq (not_reportKey_pq c) _).trans ?_)
  rw [doPQueueDrain_eq (s := quietOut s) hq he, coreStep]
  exact fget_fieldShow _ (by decide) (lt_of_le_of_lt hn (by decide))

/-- Settles O10: each event of a core does what its rule says, and leaves the other cores. -/
theorem coreEvents : Obligations.CoreEvents := by
  refine ⟨fun s c => ⟨fun w h hl => ?_, fun h hi hd top ht => completes_loopExit h hi hd ht, fun h hi hd hp u d hw => ⟨?_, ?_⟩,
    fun h hi hd hw => completes_compareInterrupt h hi hd hw, fun h hi he hpend hm hp hw => ?_⟩, fun s c h => ⟨fun hr hp => ?_, ?_, ?_, ?_⟩⟩
  · refine (completes_illegal h hl).mono fun t hc => ?_
    have hother (c' : Nat) (hne : c' ≠ c.val) : coreOf t c' = coreOf s c' := (coreOf_congr _ _ c' hc).trans (coreOf_setCore_ne _ _ _ s hne)
    have hown : coreOf t c = haltedCore (wbFlushBoth (coreOf s c)).1 := (coreOf_congr _ _ c hc).trans (coreOf_setCore ..)
    have hkept {α : Type} {p : Core → α} (hp : BesideRegs p) : p (wbFlushBoth (coreOf s c)).1 = p (coreOf s c) := hp.wbFlushBoth _
    rw [hown]
    generalize (wbFlushBoth (coreOf s c)).1 = x at hkept
    exact ⟨rfl, hkept (p := Core.pc) ⟨fun _ _ => rfl, fun _ _ => rfl, fun _ _ => rfl, fun _ _ => rfl⟩,
      hkept (p := Core.xm) ⟨fun _ _ => rfl, fun _ _ => rfl, fun _ _ => rfl, fun _ _ => rfl⟩,
      hkept (p := Core.ym) ⟨fun _ _ => rfl, fun _ _ => rfl, fun _ _ => rfl, fun _ _ => rfl⟩,
      hkept (p := Core.em) ⟨fun _ _ => rfl, fun _ _ => rfl, fun _ _ => rfl, fun _ _ => rfl⟩, hother⟩
  · exact fun hl hc => completes_waitEnd h hi hd hp hw hl hc
  · refine fun he hl hm => (completes_waitEnd_taken h hi hd hp hw he hl hm).mono fun t ⟨hc, honly⟩ => ?_
    rw [hc]
    exact ⟨rfl, rfl, if_pos hl, rfl, rfl, honly⟩
  · refine (completes_interruptTake h hi he hpend hm hp hw).mono fun t ⟨hc, honly⟩ => ?_
    rw [hc]
    exact ⟨rfl, rfl, rfl, rfl, rfl, rfl, honly⟩
  · refine (completes_frameOverrun h hr hp).mono fun t ⟨hc, hrest⟩ => ?_
    rw [hc]
    exact ⟨rfl, rfl, rfl, hrest⟩
  · refine fun a v n rest hr hn hl => (completes_lmAnswer h hr hn hl).mono fun t hc => ?_
    rw [hc]
    exact ⟨rfl, smGet_smSet_same .., rfl, rfl, rfl, rfl⟩
  · exact fun r rest hr => completes_lmAnswerLate h hr
  · intro a w rest hq he
    have hlevel : Completes (.pQueueDrain c) s (fun t => rest.length ≤ 256 → fget t (ATL_CORE_PQ c) ATL_CORE_PQ_level = rest.length) := by
      by_cases hn : rest.length ≤ 256
      · exact (completes_pQueueDrain_level h hq he hn).mono fun t hlevel _ => hlevel
      · exact (completes_pQueueDrain h hq he).mono fun t _ hle => absurd hle hn
    refine ((completes_pQueueDrain h hq he).and hlevel).mono fun t ⟨⟨hc, honly⟩, hlevel⟩ => ?_
    rw [hc]
    exact ⟨rfl, rfl, rfl, rfl, hlevel, honly⟩

end Sys2Proof.Machine
end

section
/-! PROOF. 06 R179, R208 to R210: a whole word of a core through its window, and the end of its zero fill (O11). -/

namespace Sys2Proof.Machine

/-! ### Settling sends after what has been sent -/

theorem out_msixSend (s : State) (v : Nat) : s.out <+: (msixSend s v).out := by
  unfold msixSend
  dsimp only
  split
  · exact List.prefix_rfl
  · exact List.prefix_append ..

theorem out_vecsSend (l : List Nat) (s : State) : s.out <+: (vecsSend l s).out :=
  List.foldlRecOn l msixSend (motive := fun t => s.out <+: t.out) List.prefix_rfl fun t ht v _ => ht.trans (out_msixSend t v)

theorem out_srcsSignal (l : List Nat) (s : State) : (srcsSignal l s).out = s.out := by
  refine foldl_frame State.out _ ?_ l s
  intro t i
  split <;> rfl

theorem out_levelsHold (a b : List Nat) (s : State) : (levelsHold a b s).out = s.out := rfl

theorem out_intEdges (s : State) : s.out <+: (intEdges s).out := by
  obtain ⟨a, b, c, d, h⟩ := intEdges_form s
  rw [h]
  rw [out_levelsHold, out_srcsSignal]
  exact out_vecsSend d s

theorem out_syncKey (slot d : Nat) (v : Bool) (s : State) : (syncKey slot d v s).out = s.out := by
  unfold syncKey setKey
  split
  · rfl
  · split <;> rfl

theorem out_syncKeys (s : State) : (syncKeys s).out = s.out := by
  unfold syncKeys
  split
  · rfl
  · unfold syncFour
    rw [out_syncKey, out_syncKey, out_syncKey, out_syncKey]

theorem out_netSend (p : Nat) (l : List Byte) (s : State) : s.out <+: (netSend p l s).1.out := by
  rcases netSend_form p l s with h | ⟨m, e, h⟩ <;> rw [h]
  exact List.prefix_append ..

theorem out_mgmtSend {l0 : List Emit} {s : State} (h : l0 <+: s.out) (p dst udp : Nat) (l : List Byte) : l0 <+: (mgmtSend p dst udp l s).out := by
  unfold mgmtSend
  extract_lets own fr
  exact h.trans (out_netSend p fr s)

theorem out_mgmtFlush (s : State) : s.out <+: (mgmtFlush s).out := by
  unfold mgmtFlush
  refine List.foldlRecOn _ _ (motive := fun t : State => s.out <+: t.out) List.prefix_rfl fun t ht a _ => ?_
  obtain ⟨n, r⟩ := a
  dsimp only
  split
  · refine out_mgmtSend ?_ _ _ _ _
    exact ht
  · exact ht

theorem out_mtipHold (l : List Nat) (s : State) : (mtipHold l s).out = s.out := rfl

theorem out_settle (s : State) : s.out <+: (settle s).out := by
  unfold settle
  split
  · unfold settleAwake timerPend
    refine .trans ?_ (out_mgmtFlush _)
    rw [out_mtipHold, out_syncKeys]
    exact out_intEdges s
  · exact List.prefix_rfl

/-- What the effect of a command sends, the command sends. -/
theorem mem_out_settled {e : Emit} {u : State} (s : State) (h : e ∈ u.out) : e ∈ (keep s (settle u)).out := (out_settle u).subset h

/-! ### A whole word at its window (06 R208, R209) -/

/-- The bytes of a word, in their order, make its value. -/
theorem bytes_sum (x n : Nat) : (List.range n).foldl (fun acc i => acc + bitsOf x (8 * i) 8 * 256 ^ i) 0 = x % 256 ^ n := by
  induction n with
  | zero => simp [Nat.mod_one]
  | succ n ih =>
    rw [List.range_succ, List.foldl_append, ih, Nat.mod_pow_succ]
    rw [List.foldl_cons, List.foldl_nil, bitsOf, show 2 ^ (8 * n) = 256 ^ n from pow_mul 2 8 n, Nat.mul_comm (256 ^ n)]
    rfl

theorem bitsOf_word (v : BitVec 64) : bitsOf v.toNat 0 (8 * 2 ^ (3 : Fin 4).val) = v.toNat := by
  unfold bitsOf
  rw [pow_zero, Nat.div_one]
  exact Nat.mod_eq_of_lt v.isLt

/-- A word at a word's offset is one piece. -/
theorem windowAccess_word {o : Nat} (h : o % 8 = 0) (m c : Nat) (write : Option Nat) (s : State) :
    windowAccess m c o 8 write s = windowPiece m c o 8 (write.map (fun v => v % 256 ^ 8)) s := by
  have hone : wordsIn o 8 = [o / 8] := by
    unfold wordsIn
    rw [if_neg (by decide), show (o + 8 - 1) / 8 - o / 8 + 1 = 1 by omega]
    simp
  have hlo : Nat.max o (8 * (o / 8)) = o := Nat.max_eq_left (by omega)
  have hlen : Nat.min (o + 8) (8 * (o / 8) + 8) - o = 8 := by
    rw [show 8 * (o / 8) + 8 = o + 8 by omega]
    simp
  unfold windowAccess
  rw [hone, List.foldl_cons, List.foldl_nil]
  dsimp only
  rw [hlo, hlen]
  simp

/-- A word with no merge pending at its window reads as the core's word. -/
theorem windowPiece_read {s : State} {m c o mem w : Nat} (h : o % 8 = 0) (hat : windowAt s c o false = .word mem w)
    (hgood : isBad (coreOf s c) mem w = false)
    (hm : s.ecc.merge.find? (fun e => e.port == portWindow c && e.word == (0x8000_0000 + 0x10_0000 * c + o) / 8) = none) :
    windowPiece m c o 8 none s = respond s m false true (coreRd (coreOf s c) mem w).1.toNat := by
  unfold windowPiece windowGet
  dsimp only
  rw [show windowAt s c o (none : Option Nat).isSome = .word mem w from hat]
  dsimp only
  rw [hm, hgood, h]
  simp only [Nat.zero_add, Bool.not_false, Bool.false_eq_true, if_false]
  rw [bytes_sum]
  exact congrArg (respond s m false true) (Nat.mod_eq_of_lt (BitVec.isLt _))

/-- The state whose pending merge of a word is dropped. -/
def mergeDropped (s : State) (c o : Nat) : State := { s with ecc := { s.ecc with
  merge := s.ecc.merge.filter fun e => !(e.port == portWindow c && e.word == (0x8000_0000 + 0x10_0000 * c + o) / 8) } }

/-- A whole word that its window takes reaches the core, and is answered. -/
theorem windowPiece_write {s : State} {m c o mem w : Nat} {v : BitVec 64} (hat : windowAt s c o true = .word mem w)
    (hok : (windowPut (mergeDropped s c o) c mem w v).2 = true) :
    windowPiece m c o 8 (some v.toNat) s = respond (windowPut (mergeDropped s c o) c mem w v).1 m true true 0 := by
  unfold windowPiece
  dsimp only
  rw [show windowAt s c o (some v.toNat).isSome = .word mem w from hat]
  dsimp only
  rw [if_pos rfl, BitVec.ofNat_toNat, BitVec.setWidth_eq]
  exact if_pos hok

theorem respond_read (s : State) (m v : Nat) : respond s m false true v = emit s (.readData m v true) := rfl

theorem respond_write (s : State) (m : Nat) : respond s m true true 0 = if m = 8 then s else emit s (.writeResp m true) := by
  unfold respond respondAs
  simp

/-! ### Words written to a core (06 R209, R210, R212) -/

/-- From `s` to `t` a word has been written to core `c`, or queued for it. -/
structure WordPut (c : Nat) (s t : State) : Prop where
  others : ∀ c', c' ≠ c → coreOf t c' = coreOf s c'
  mem : t.mem = s.mem
  rot : t.twn.rot = s.twn.rot

theorem WordPut.of_setCore (c : Nat) (k : Core) (s : State) : WordPut c s (setCore c k s) :=
  ⟨fun c' h => coreOf_setCore_ne c c' k s h, rfl, rfl⟩

theorem corePost_put (c mem w : Nat) (v : BitVec 64) (s : State) : WordPut c s (corePost c mem w v s).1 := by
  unfold corePost
  extract_lets k
  split
  · split
    · exact ⟨fun _ _ => rfl, rfl, rfl⟩
    · have hset := WordPut.of_setCore c { k with pq := k.pq ++ [(w, v)] } s
      have hstep {α : Type} (p : State → α) (hr : ∀ s r, p { s with regs := r } = p s) := coreStep_quiet c k.cyc k.pc { k with pq := k.pq ++ [(w, v)] } s p hr
      exact ⟨fun c' h => (coreOf_congr _ _ c' (hstep State.cores fun _ _ => rfl)).trans (hset.others c' h), hstep State.mem fun _ _ => rfl,
        congrArg TwnSt.rot (hstep State.twn fun _ _ => rfl)⟩
  · exact .of_setCore ..

/-- A core that runs no frame takes the word at once. -/
theorem corePost_idle {s : State} {c : Nat} (h : (coreRunDom s c).isNone = true) (mem w : Nat) (v : BitVec 64) :
    corePost c mem w v s = (setCore c (coreWr (coreOf s c) mem w v) s, true) := by
  unfold corePost
  refine if_neg fun hrun => ?_
  rw [Option.isNone_iff_eq_none.1 h] at hrun
  exact absurd hrun.2 nofun

/-- The word at the window of a core that runs no frame reaches it; a spare that copies the core may take it too. -/
theorem windowPut_idle {s : State} {c : Nat} (h : (coreRunDom s c).isNone = true) (hrot : ∀ r, s.twn.rot = some r → r.spare ≠ r.old)
    (mem w : Nat) (v : BitVec 64) :
    (windowPut s c mem w v).2 = true ∧ coreOf (windowPut s c mem w v).1 c = coreWr (coreOf s c) mem w v ∧
      (windowPut s c mem w v).1.mem = s.mem ∧
      (s.twn.rot = none → ∀ c', c' ≠ c → coreOf (windowPut s c mem w v).1 c' = coreOf s c') := by
  unfold windowPut
  rw [corePost_idle h]
  dsimp only
  set s1 := setCore c (coreWr (coreOf s c) mem w v) s with hs1
  have hown : coreOf s1 c = coreWr (coreOf s c) mem w v := coreOf_setCore ..
  have hset : WordPut c s s1 := .of_setCore ..
  have hrot1 : s1.twn.rot = s.twn.rot := hset.rot
  split
  · next r hr =>
    split
    · next hboth =>
      have hne : c ≠ r.spare := by
        obtain ⟨-, -, -, hold, -⟩ := hboth
        rw [← hold]
        exact (hrot r (hrot1 ▸ hr)).symm
      have hspare := corePost_put r.spare 0 w v s1
      exact ⟨rfl, (hspare.others c hne).trans hown, hspare.mem.trans hset.mem, fun hnone => absurd (hr.symm.trans (hrot1.trans hnone)) nofun⟩
    · exact ⟨rfl, hown, hset.mem, fun _ => hset.others⟩
  · exact ⟨rfl, hown, hset.mem, fun _ => hset.others⟩

/-! ### The accesses -/

section
variable {s : State} {m : Fin 21} {a c o : Nat}

/-- An access that the window takes, and that a control core's protection lets through. -/
theorem doWindow_word {store : Bool} (ht : target a 8 = .window c o) (ho : o % 8 = 0) (hp : m.val < 8 → pmpLets s m a 8 store = true)
    (wr : Option (BitVec 64)) (f : State → State) (hf : windowPiece m c o 8 (wr.map fun v => v.toNat) s = f s) :
    throughPmp m a 8 store (doAtelierWindowAccess m a 3 wr) s = f s := by
  unfold throughPmp
  rw [if_neg fun h => Bool.noConfusion (h.2.symm.trans (hp h.1))]
  unfold doAtelierWindowAccess
  rw [show target a (2 ^ (3 : Fin 4).val) = .window c o from ht]
  dsimp only
  rw [← hf, show 2 ^ (3 : Fin 4).val = 8 from rfl, windowAccess_word ho, Option.map_map]
  refine congrArg (fun x => windowPiece m c o 8 x s) (congrArg (fun f => wr.map f) (funext fun v => ?_))
  exact (congrArg (· % 256 ^ 8) (bitsOf_word v)).trans (Nat.mod_eq_of_lt v.isLt)

theorem respond_write_keeps {α : Type} (p : State → α) (hp : ∀ s e, p (emit s e) = p s) (s : State) (m : Nat) :
    p (respond s m true true 0) = p s := by
  rw [respond_write]
  split
  · rfl
  · exact hp ..

theorem completes_windowWrite {mem w : Nat} {v : BitVec 64} (h : Ready s) (ht : target a 8 = .window c o) (ho : o % 8 = 0)
    (hidle : (coreRunDom s c).isNone = true) (hp : m.val < 8 → pmpLets s m a 8 true = true) (hat : windowAt s c o true = .word mem w)
    (hrot : ∀ r, s.twn.rot = some r → r.spare ≠ r.old) : Completes (.atelierWindowAccess m a 3 (some v)) s (fun t =>
      coreOf t c = coreWr (coreOf s c) mem w v ∧ (m ≠ 8 → Emit.writeResp m true ∈ t.out) ∧ t.mem = s.mem ∧
      (s.twn.rot = none → ∀ c', c' ≠ c → coreOf t c' = coreOf s c')) := by
  refine completes_run (throughPmp m a 8 true (doAtelierWindowAccess m a 3 (some v))) rfl h ?_
  obtain ⟨hok, hown, hmem, hother⟩ := windowPut_idle (s := mergeDropped (quietOut s) c o) hidle hrot mem w v
  have hpiece := windowPiece_write (m := m.val) (s := quietOut s) hat hok
  rw [doWindow_word (s := quietOut s) ht ho hp (some v) (fun s => respond (windowPut (mergeDropped s c o) c mem w v).1 m true true 0) hpiece]
  generalize (windowPut (mergeDropped (quietOut s) c o) c mem w v).1 = y at hown hmem hother
  have r := settled_reported s (respond y m true true 0)
  have hcores : (respond y m true true 0).cores = y.cores := respond_write_keeps State.cores (fun _ _ => rfl) y m
  have hcore (c' : Nat) : coreOf (keep s (settle (respond y m true true 0))) c' = coreOf y c' := (r.core c').trans (coreOf_congr _ _ c' hcores)
  refine ⟨(hcore c).trans hown, fun hm => mem_out_settled s ?_, r.mem.trans ((respond_write_keeps State.mem (fun _ _ => rfl) y m).trans hmem),
    fun hnone c' hc => (hcore c').trans (hother hnone c' hc)⟩
  rw [respond_write, if_neg (show m.val ≠ 8 from fun e => hm (Fin.ext e))]
  exact List.mem_append_right _ (List.mem_singleton_self _)

theorem completes_windowRead {mem w : Nat} (h : Ready s) (ht : target a 8 = .window c o) (ho : o % 8 = 0)
    (hp : m.val < 8 → pmpLets s m a 8 false = true) (hat : windowAt s c o false = .word mem w) (hgood : isBad (coreOf s c) mem w = false)
    (hmerge : s.ecc.merge.find? (fun e => e.port == portWindow c && e.word == (0x8000_0000 + 0x10_0000 * c + o) / 8) = none) :
    Completes (.atelierWindowAccess m a 3 none) s (fun t =>
      Emit.readData m (coreRd (coreOf s c) mem w).1.toNat true ∈ t.out ∧ t.cores = s.cores ∧ t.mem = s.mem) := by
  refine completes_run (throughPmp m a 8 false (doAtelierWindowAccess m a 3 none)) rfl h ?_
  rw [doWindow_word (s := quietOut s) ht ho hp none (fun s => respond s m false true (coreRd (coreOf s c) mem w).1.toNat)
    (windowPiece_read (s := quietOut s) ho hat hgood hmerge), respond_read]
  have r := settled_reported s (emit (quietOut s) (.readData m (coreRd (coreOf (quietOut s) c) mem w).1.toNat true))
  exact ⟨mem_out_settled s (List.mem_append_right _ (List.mem_singleton_self _)), r.cores, r.mem⟩

end

/-! ### The zero fill of a core (06 R179) -/

/-- The core whose memories are filled with zeros. -/
def filledCore (k : Core) : Core := { k with pm := [], xm := [], ym := [], em := [], bad := [] }

/-- With no access stalled, the fill ends with the core's memories zero. -/
theorem fillEnd_quiet {s : State} {c : Nat} (h : s.atlFill.contains c = true) (hs : s.ecc.stalled = []) :
    (fillEnd c s).cores = (setCore c (filledCore (coreOf s c)) s).cores ∧ (fillEnd c s).atlFill = s.atlFill.filter (· != c) := by
  unfold fillEnd
  rw [h]
  extract_lets k s1 mine l
  have hl : l = [] := congrArg (List.filter mine) hs
  rw [if_neg (by decide), hl, List.foldl_nil]
  exact ⟨rfl, rfl⟩

theorem completes_fill {s : State} {c : Fin 68} (h : Ready s) (hf : s.atlFill.contains c.val = true) (hs : s.ecc.stalled = []) :
    Completes (.atelierMemoryFill c) s (fun t => coreOf t c = filledCore (coreOf s c) ∧ t.atlFill = s.atlFill.filter (· != c.val) ∧
      ∀ c', c' ≠ c.val → coreOf t c' = coreOf s c') := by
  refine completes_run (doAtelierMemoryFill c) rfl h ?_
  obtain ⟨hcores, hfill⟩ := fillEnd_quiet (s := quietOut s) hf hs
  have hcore (c' : Nat) : coreOf (keep s (settle (doAtelierMemoryFill c (quietOut s)))) c' =
      coreOf (setCore c (filledCore (coreOf s c)) (quietOut s)) c' :=
    ((settled_reported s _).core c').trans (coreOf_congr _ _ c' hcores)
  refine ⟨(hcore c).trans (coreOf_setCore ..), ?_, fun c' hc => ?_⟩
  · rw [keep_atlFill, settle_atlFill]
    exact hfill
  · rw [hcore, coreOf_setCore_ne _ _ _ _ hc, coreOf_congr _ _ c' (quietOut_cores s)]

end Sys2Proof.Machine
end

section
/-! PROOF. 06 R182: the exchange map of a core, its writes by software, and its way to the core's island (O11). -/

namespace Sys2Proof.Machine

/-! ### The registers of the exchange map (15 R453, R460) -/

section
variable {l j : Nat}

theorem xmap_block (hl : l < 64) (hj : j < 64) : ATL_XMAP l j / 0x40000 = 14 := by unfold ATL_XMAP; omega

theorem regGroup_xmap (hl : l < 64) (hj : j < 64) : regGroup (ATL_XMAP l j) = some ⟨0, 64, 0x80003fff, 0, 0⟩ := by
  have hr : ATL_XMAP l j % 0x40000 * 4 = 0xa0000 + 0x100 * l + 4 * j := by unfold ATL_XMAP; omega
  have hlt : ¬0x400000 ≤ ATL_XMAP l j := by unfold ATL_XMAP; omega
  have hcore : instBase grp_atlCore (0xa0000 + 0x100 * l + 4 * j) = none := by
    simp [instBase, grp_atlCore]
    omega
  have hglb : instBase grp_atlGlb (0xa0000 + 0x100 * l + 4 * j) = none := by
    simp [instBase, grp_atlGlb]
    omega
  have hlgc : instBase grp_atlLgc (0xa0000 + 0x100 * l + 4 * j) = none := by
    simp [instBase, grp_atlLgc]
    omega
  have hxmap : instBase grp_atlXmap (0xa0000 + 0x100 * l + 4 * j) = some (0xa0000 + 0x100 * l) := by
    simp [instBase, grp_atlXmap]
    omega
  have hgrp : grpAt 14 (0xa0000 + 0x100 * l + 4 * j) = some (grp_atlXmap, 0xa0000 + 0x100 * l) := by
    simp [grpAt, blockGroups, hcore, hglb, hlgc, hxmap]
  unfold regGroup
  rw [if_neg hlt, xmap_block hl hj, hr, hgrp]
  have hidx : ATL_XMAP l j % 0x40000 - (0xa0000 + 0x100 * l) / 4 = j := by unfold ATL_XMAP; omega
  dsimp only
  rw [hidx]
  simp [regAt, grp_atlXmap, hj]

theorem regInfo_xmap (hl : l < 64) (hj : j < 64) : regInfo (ATL_XMAP l j) = some ⟨0, 64, 0x80003fff, 0, 0⟩ := by
  have hres : reservedIn (ATL_XMAP l j) = 0 := by
    unfold reservedIn
    rw [xmap_block hl hj]
    rfl
  unfold regInfo
  rw [regGroup_xmap hl hj, hres]
  rfl

theorem regReset_xmap (hl : l < 64) (hj : j < 64) : regReset (ATL_XMAP l j) = 0 := by
  have hrule : resetRule (ATL_XMAP l j) = none := by
    unfold resetRule
    rw [xmap_block hl hj]
    have hserves : ¬(ATL_LCORE_STATUS 0 ≤ ATL_XMAP l j ∧ ATL_XMAP l j < ATL_LCORE_STATUS 64) := by
      unfold ATL_LCORE_STATUS ATL_XMAP
      omega
    have hcore : ¬(ATL_XMAP l j % 0x40000 / 0x400 < 68 ∧ ATL_XMAP l j = ATL_CORE_STATUS (ATL_XMAP l j % 0x40000 / 0x400)) := by
      unfold ATL_XMAP
      omega
    exact (if_neg hserves).trans (if_neg hcore)
  unfold regReset
  rw [hrule, regInfo_xmap hl hj]
  rfl

/-- No seal locks a register of the audio blocks (15 R462). -/
theorem not_isSealed_audio {k : Nat} (s : State) (h : 0x200000 ≤ k) (h' : k < 0x400000) : isSealed s k = false := by
  have hgeom : (List.range 4).any (fun c => k == DRC_CH_GEOM c) = false := by
    simp only [List.any_eq_false, List.mem_range, beq_iff_eq]
    intro c hc
    unfold DRC_CH_GEOM drcChBase
    split <;> omega
  have hdom : (List.range 15).any (fun d => decide (1 ≤ d) && k == PWR_DOM_CFG d) = false := by
    simp only [List.any_eq_false, List.mem_range, Bool.and_eq_true, beq_iff_eq, PWR_DOM_CFG]
    omega
  unfold isSealed
  rw [hgeom, hdom, if_neg, if_neg, if_neg, if_neg, if_neg, if_neg, if_neg] <;>
    simp only [TIM_DOM_CFG, TIM_PRIO, TIM_HOLD_CFG, TIM_REF_IN_CFG, TIM_AUX_CFG, DRC_CFG, DRC_TIM0, DRC_TIM1, DRC_TIM2, TWN_CFG,
      PWR_MAP_RUN, PWR_MAP_QUIET, PWR_BANK_RETAIN_LO, PWR_BANK_RETAIN_HI, PWR_NW_CFG, PWR_NW_LINKS, PWR_WAKE_GP, PWR_RESUME_LO,
      PWR_RESUME_HI, Bool.false_eq_true, or_false] <;> omega

theorem swWrite_xmap (hl : l < 64) (hj : j < 64) (m : Nat) (v : W32) (s : State) : swWrite s m (ATL_XMAP l j) v =
    wr s (ATL_XMAP l j) ((rd s (ATL_XMAP l j) &&& ~~~0x80003FFF#32) ||| (v &&& 0x80003FFF#32)) := by
  unfold swWrite fieldsWrite
  rw [not_isSealed_audio s (by unfold ATL_XMAP; omega) (by unfold ATL_XMAP; omega), regInfo_xmap hl hj]
  simp

/-- A software write of a word of the map: an entry below 4,256 is ignored (06 R182). -/
theorem softWrite_xmap (hl : l < 64) (hj : j < 64) {s : State} (hon : regOn s (ATL_XMAP l j) = true) (m : Nat) (v : W32) :
    softWrite m (ATL_XMAP l j) v s = if wbit v ATL_XMAP_valid ∧ wget v ATL_XMAP_entry < 4256 then s else
      wr s (ATL_XMAP l j) ((rd s (ATL_XMAP l j) &&& ~~~0x80003FFF#32) ||| (v &&& 0x80003FFF#32)) := by
  have hctl : ¬ATL_XMAP l j < 6 * 0x40000 := by unfold ATL_XMAP; omega
  have hlink : ¬ATL_XMAP l j < 11 * 0x40000 := by unfold ATL_XMAP; omega
  have hrange : ATL_XMAP 0 0 ≤ ATL_XMAP l j ∧ ATL_XMAP l j < ATL_XMAP 64 0 := by unfold ATL_XMAP; omega
  have hrow : (ATL_XMAP l j - ATL_XMAP 0 0) / 64 = l := by unfold ATL_XMAP; omega
  have hword : (ATL_XMAP l j - ATL_XMAP 0 0) % 64 = j := by unfold ATL_XMAP; omega
  unfold softWrite regWrite regWriteAudio
  rw [if_pos hon, if_neg hctl, if_neg hlink, xmap_block hl hj]
  dsimp only
  rw [if_pos hrange, hrow, hword, xmapWrite, swWrite_xmap hl hj]
  rfl

theorem completes_xmapWrite {s : State} (l j : Fin 64) (v : W32) (h : Ready s) (hon : regOn s (ATL_XMAP l j) = true) :
    Completes (.xmapWrite l j v) s (fun t =>
      rd t (ATL_XMAP l j) = (if wbit v ATL_XMAP_valid ∧ wget v ATL_XMAP_entry < 4256 then rd s (ATL_XMAP l j) else
        (rd s (ATL_XMAP l j) &&& ~~~0x80003FFF#32) ||| (v &&& 0x80003FFF#32)) ∧
      t.xmap = s.xmap ∧ ∀ k, ¬settleKey k → k ≠ ATL_XMAP l j → rd t k = rd s k) := by
  refine completes_run (softWrite 8 (ATL_XMAP l j) v) rfl h ?_
  have hkey : ¬settleKey (ATL_XMAP l j) := not_settleKey (by unfold ATL_XMAP; omega)
  rw [softWrite_xmap l.isLt j.isLt (s := quietOut s) hon, rd_keep, rd_settle _ _ hkey, keep_xmap, settle_xmap]
  split
  · exact ⟨rfl, rfl, fun k hk _ => by rw [rd_keep, rd_settle _ _ hk, rd_quietOut]⟩
  · refine ⟨rd_wr .., rfl, fun k hk hne => ?_⟩
    rw [rd_keep, rd_settle _ _ hk, rd_wr_ne _ _ _ _ hne, rd_quietOut]

end

/-! ### The written map reaches its island (06 R182) -/

/-- What a part of a map, chosen by keys, holds. -/
theorem smGet_filter_keys {α : Type} (d : α) (p : Nat → Bool) (m : SMap α) (k : Nat) :
    smGet d (m.filter fun e => p e.1) k = if p k then smGet d m k else d := by
  induction m with
  | nil => simp [smGet]
  | cons e t ih =>
    obtain ⟨a, v⟩ := e
    by_cases ha : p a = true
    · rw [List.filter_cons_of_pos (p := fun e : Nat × α => p e.1) ha, smGet, ih, smGet]
      by_cases hk : a = k
      · simp [hk, hk ▸ ha]
      · simp [hk]
    · rw [List.filter_cons_of_neg (p := fun e : Nat × α => p e.1) ha, ih, smGet]
      by_cases hk : a = k
      · simp [← hk, ha]
      · simp [hk]

theorem smGet_smRange {α : Type} (d : α) (m : SMap α) {lo hi k : Nat} (h : lo ≤ k) (h' : k < hi) : smGet d (smRange m lo hi) k = smGet d m k :=
  (smGet_filter_keys d (fun k => decide (lo ≤ k) && decide (k < hi)) m k).trans (if_pos (by simp [h, h']))

theorem smGet_smDrop_in {α : Type} (d : α) (m : SMap α) {lo hi k : Nat} (h : lo ≤ k) (h' : k < hi) : smGet d (smDrop m lo hi) k = d :=
  (smGet_filter_keys d (fun k => !(decide (lo ≤ k) && decide (k < hi))) m k).trans (if_neg (by simp [h, h']))

theorem smGet_smDrop_out {α : Type} (d : α) (m : SMap α) {lo hi k : Nat} (h : k < lo ∨ hi ≤ k) : smGet d (smDrop m lo hi) k = smGet d m k :=
  (smGet_filter_keys d (fun k => !(decide (lo ≤ k) && decide (k < hi))) m k).trans (if_pos (by simp; omega))

section
variable {α : Type} [DecidableEq α] (d : α)

/-- The words of a map in rising order, written one after another behind `base`. -/
def placed (base from_ : Nat) (l m : SMap α) : SMap α := l.foldl (fun m e => smSet d m (base + (e.1 - from_)) e.2) m

theorem smGet_placed (base from_ : Nat) {l : SMap α} (m : SMap α) (hl : l.Pairwise fun a b => a.1 < b.1) (hfrom : ∀ e ∈ l, from_ ≤ e.1)
    {k : Nat} (hk : from_ ≤ k) :
    smGet d (placed d base from_ l m) (base + (k - from_)) = smGet (smGet d m (base + (k - from_))) l k := by
  induction l generalizing m with
  | nil => rfl
  | cons e t ih =>
    obtain ⟨hlt, ht⟩ := List.pairwise_cons.1 hl
    refine (ih (smSet d m (base + (e.1 - from_)) e.2) ht fun x hx => hfrom x (List.mem_cons_of_mem _ hx)).trans ?_
    have he : from_ ≤ e.1 := hfrom e List.mem_cons_self
    rw [smGet_smSet, smGet]
    by_cases hek : e.1 = k
    · rw [if_pos hek, if_pos (by rw [hek])]
      exact smGet_absent _ _ _ fun x hx => Nat.ne_of_gt (hek ▸ hlt x hx)
    · rw [if_neg hek, if_neg (by omega)]

theorem smGet_placed_out (base from_ : Nat) {l : SMap α} (m : SMap α) {i : Nat} (h : ∀ e ∈ l, base + (e.1 - from_) ≠ i) :
    smGet d (placed d base from_ l m) i = smGet d m i :=
  List.foldlRecOn l _ (motive := fun x => smGet d x i = smGet d m i) rfl fun x hx e he => (smGet_smSet_ne d x _ i e.2 (h e he).symm).trans hx

end

/-- The map of logical core `l` as its registers give it. -/
def xmapPlaced (l : Nat) (s : State) : SMap W32 :=
  placed 0 (64 * l) (ATL_XMAP l 0) (smRange s.regs (ATL_XMAP l 0) (ATL_XMAP l 0 + 64)) (smDrop s.xmap (64 * l) (64 * l + 64))

theorem xmapApply_eq (l : Nat) (s : State) : xmapApply l s = { s with xmap := xmapPlaced l s } := rfl

theorem smGet_xmapPlaced {s : State} {l j : Nat} (hl : l < 64) (hj : j < 64) (hr : regsOk s) :
    smGet 0 (xmapPlaced l s) (64 * l + j) = rd s (ATL_XMAP l j) := by
  have hkey : ATL_XMAP l j = ATL_XMAP l 0 + j := rfl
  have hplaced := smGet_placed (0 : W32) (64 * l) (ATL_XMAP l 0) (l := smRange s.regs (ATL_XMAP l 0) (ATL_XMAP l 0 + 64))
    (smDrop s.xmap (64 * l) (64 * l + 64)) (hr.filter _) (fun e he => by simpa using (Bool.and_eq_true_iff.1 (List.mem_filter.1 he).2).1)
    (k := ATL_XMAP l j) (by omega)
  rw [show ATL_XMAP l j - ATL_XMAP l 0 = j by omega] at hplaced
  refine hplaced.trans ?_
  rw [smGet_smDrop_in _ _ (by omega) (by omega), smGet_smRange _ _ (by omega) (by omega), rd_eq, regReset_xmap hl hj]

theorem smGet_xmapPlaced_other {s : State} {l i : Nat} (h : i / 64 ≠ l) : smGet 0 (xmapPlaced l s) i = smGet 0 s.xmap i := by
  refine (smGet_placed_out 0 _ _ _ fun e he => ?_).trans (smGet_smDrop_out _ _ (by omega))
  have hhi : e.1 < ATL_XMAP l 0 + 64 := by simpa using (Bool.and_eq_true_iff.1 (List.mem_filter.1 he).2).2
  omega

theorem completes_xmapApply {s : State} (l : Fin 64) (h : Ready s) (hr : regsOk s) : Completes (.xmapApply l) s (fun t =>
    (∀ j : Fin 64, smGet 0 t.xmap (64 * l.val + j.val) = rd s (ATL_XMAP l j)) ∧
    (∀ i, i / 64 ≠ l.val → smGet 0 t.xmap i = smGet 0 s.xmap i) ∧ ∀ k, ¬settleKey k → rd t k = rd s k) := by
  refine completes_run (doXmapApply l) rfl h ?_
  rw [doXmapApply, xmapApply_eq, keep_xmap, settle_xmap]
  refine ⟨fun j => smGet_xmapPlaced l.isLt j.isLt hr, fun i hi => smGet_xmapPlaced_other hi, fun k hk => ?_⟩
  rw [rd_keep, rd_settle _ _ hk]
  rfl

/-- Settles O11: a whole word goes through its window, a fill leaves zeros, and a map is written and applied word by word. -/
theorem coreWindowsAndMaps : Obligations.CoreWindowsAndMaps := by
  intro s h
  refine ⟨fun m a c o mem w ht ho _ hidle hp hmerge => ⟨fun v hat hrot => ?_, fun hat hgood => ?_⟩, fun c hf hs => ?_,
    fun l j v hon => completes_xmapWrite l j v h hon, fun l hr => completes_xmapApply l h hr⟩
  · exact completes_windowWrite h ht ho hidle (hp true) hat hrot
  · exact completes_windowRead h ht ho (hp false) hat hgood hmerge
  · refine (completes_fill h hf hs).mono fun t ⟨hc, hrest⟩ => ?_
    rw [hc]
    exact ⟨rfl, rfl, rfl, rfl, rfl, hrest⟩

end Sys2Proof.Machine
end

section
/-! PROOF. 12 R395, 06 R212, R213: the phases of a rotation, from the copy to the release (O12). -/

namespace Sys2Proof.Machine

/-! ### What completions, keys and settling leave of the twins and the units -/

/-- From `s` to `t` neither the twins' state nor a register above the control block has changed. -/
structure Above (s t : State) : Prop where
  twn : t.twn = s.twn
  rd : ∀ k, 0x180000 ≤ k → rd t k = rd s k

namespace Above

theorem refl (s : State) : Above s s := ⟨rfl, fun _ _ => rfl⟩

theorem trans {s t u : State} (h : Above s t) (h' : Above t u) : Above s u :=
  ⟨h'.twn.trans h.twn, fun k hk => (h'.rd k hk).trans (h.rd k hk)⟩

theorem ite {s a b : State} {c : Prop} [Decidable c] (ha : Above s a) (hb : Above s b) : Above s (if c then a else b) := by
  split
  · exact ha
  · exact hb

/-- A change of the rest of the engine. -/
theorem of_eq {s t : State} (ht : t.twn = s.twn) (hr : t.regs = s.regs) : Above s t := ⟨ht, fun k _ => rd_congr s t k hr⟩

theorem of_ctl (s : State) (c : CtlSt) : Above s { s with ctl := c } := of_eq rfl rfl

theorem of_fset (s : State) {k : Nat} (hk : k < 0x180000) (f : Fld) (v : Nat) : Above s (fset s k f v) :=
  ⟨fset_twn .., fun _ hn => rd_fset_ne _ _ _ _ _ (Nat.ne_of_gt (hk.trans_le hn))⟩

theorem of_cnt (s : State) {k : Nat} (hk : k < 0x180000) : Above s (cnt s k) :=
  ⟨cnt_twn .., fun _ hn => rd_cnt_ne _ _ _ (Nat.ne_of_gt (hk.trans_le hn))⟩

theorem fget {s t : State} (h : Above s t) {k : Nat} (hk : 0x180000 ≤ k) (f : Fld) : fget t k f = Machine.fget s k f :=
  fget_congr _ _ _ _ (h.rd k hk)

end Above

theorem setKey_above (s : State) (slot : Nat) {d : Nat} (hd : d < 16) (v : Bool) : Above s (setKey s slot d v) := by
  unfold setKey
  exact .ite (.refl s) (.of_fset s (by unfold PWR_DOM_STATUS; omega) _ _)

theorem docPush_above (s : State) (n : Nat) : Above s (docPush s n) := by
  unfold docPush
  dsimp only
  refine .ite ?_ (.of_ctl s _)
  have hlevel : Above s (fset { s with ctl := { s.ctl with fifo := s.ctl.fifo ++ [n] } } CTL_DOC_FIFO CTL_DOC_FIFO_level (s.ctl.fifo ++ [n]).length) :=
    (Above.of_ctl s _).trans (.of_fset _ (by decide) _ _)
  exact .ite (hlevel.trans (.of_fset _ (by decide) _ _)) hlevel

theorem outstUpdate_above (s : State) (l : List Tkt) : Above s (outstUpdate s l) :=
  (Above.of_ctl s _).trans (.of_fset _ (by decide) _ _)

theorem ticketDone_above (s : State) (ticket : Nat) (signal : Option Nat) : Above s (ticketDone s ticket signal) := by
  unfold ticketDone
  dsimp only
  split
  · exact (outstUpdate_above ..).trans (docPush_above ..)
  · exact outstUpdate_above ..

theorem memStore_twn (s : State) (a n v : Nat) : (memStore s a n v).twn = s.twn := rfl

theorem memStore_regs (s : State) (a n v : Nat) : (memStore s a n v).regs = s.regs := rfl

theorem memStore_above (s : State) (a n v : Nat) : Above s (memStore s a n v) := .of_eq (memStore_twn ..) (memStore_regs ..)

theorem recordWrite_above (s : State) (h : Held) : Above s (recordWrite s h) := by
  unfold recordWrite
  extract_lets tail ph0 w0 a s1 nt flip s2 _ s3
  have h1 : Above s s1 := (((memStore_above ..).trans (memStore_above ..)).trans (memStore_above ..)).trans (memStore_above ..)
  clear_value s1
  have h2 : Above s1 s2 :=
    .ite ((Above.of_fset s1 (by decide) _ _).trans (.of_cnt _ (by decide))) ((Above.of_fset s1 (by decide) _ _).trans (.of_cnt _ (by decide)))
  clear_value s2
  have h3 : Above s2 s3 := .ite (.of_ctl s2 _) (.refl s2)
  exact ((h1.trans h2).trans h3).trans (ticketDone_above ..)

theorem recordQueue_above (s : State) (h : Held) : Above s (recordQueue s h) := by
  unfold recordQueue
  refine .ite ?_ (recordWrite_above s h)
  have hheld : Above s { s with ctl := { s.ctl with held := s.ctl.held ++ [h] } } := .of_ctl s _
  exact .ite (hheld.trans (.of_fset _ (by decide) _ _)) (hheld.trans (.of_fset _ (by decide) _ _))

/-- A completion leaves the twins and the units as they are (16 R494). -/
theorem complete_above (s : State) (ticket oc dom result : Nat) : Above s (complete s ticket oc dom result) := by
  unfold complete
  split
  · exact .refl s
  · extract_lets w0 tell _ s1
    have h1 : Above s s1 := .ite (.of_eq rfl rfl) (.refl s)
    exact .ite (h1.trans (ticketDone_above ..)) (h1.trans (recordQueue_above ..))

/-- Settling leaves them as they are. -/
theorem settled_above (s u : State) : Above u (keep s (settle u)) := by
  refine ⟨by rw [keep_twn, settle_twn], fun k hk => (rd_keep ..).trans (rd_settle _ _ ?_)⟩
  unfold settleKey CTL_MSIX_PBA PWR_DOM_STATUS
  omega

/-! ### Roles, places and the phase of a rotation (12 R391, R395) -/

theorem unitKey_ge (kind u : Nat) : 0x200000 ≤ unitKey kind u := by
  unfold unitKey GAL_TILE_STATUS ATL_CORE_STATUS STR_UNIT_STATUS
  split <;> omega

theorem unitKey_inj {kind u v : Nat} (h : unitKey kind u = unitKey kind v) : u = v := by
  unfold unitKey GAL_TILE_STATUS ATL_CORE_STATUS STR_UNIT_STATUS at h
  split at h <;> omega

theorem unitKey_ne_rotStatus (kind u : Nat) : unitKey kind u ≠ TWN_ROT_STATUS :=
  Nat.ne_of_gt (lt_of_lt_of_le (by decide) (unitKey_ge kind u))

theorem setRole_twn (s : State) (kind u role logical : Nat) : (setRole s kind u role logical).twn = s.twn := (fset_twn ..).trans (fset_twn ..)

theorem setRole_cores (s : State) (kind u role logical : Nat) : (setRole s kind u role logical).cores = s.cores := rfl

theorem roleOf_setRole (s : State) (kind u logical : Nat) {role : Nat} (h : role < 4) : roleOf (setRole s kind u role logical) kind u = role := by
  have hfld : (roleFld kind).lo + (roleFld kind).len ≤ 32 ∧ (logFld kind).lo + (logFld kind).len ≤ 32 ∧
      (roleFld kind).lo + (roleFld kind).len ≤ (logFld kind).lo ∧ (roleFld kind).len = 2 := by
    unfold roleFld logFld
    split <;> decide
  obtain ⟨hrole, hlog, hapart, hlen⟩ := hfld
  unfold roleOf setRole
  rw [fget_fset_other _ _ _ _ _ hlog (.inl hapart), fget_fset _ _ _ _ hrole, hlen]
  exact Nat.mod_eq_of_lt h

theorem roleOf_setRole_ne {s : State} {kind u v : Nat} (role logical : Nat) (h : v ≠ u) :
    roleOf (setRole s kind u role logical) kind v = roleOf s kind v := by
  have hkey : unitKey kind v ≠ unitKey kind u := fun e => h (unitKey_inj e)
  unfold roleOf setRole
  rw [fget_fset_ne _ _ _ _ _ _ hkey, fget_fset_ne _ _ _ _ _ _ hkey]

theorem roleOf_congr {s t : State} {kind u : Nat} (h : rd t (unitKey kind u) = rd s (unitKey kind u)) : roleOf t kind u = roleOf s kind u :=
  fget_congr _ _ _ _ h

theorem Above.roleOf {s t : State} (h : Above s t) (kind u : Nat) : roleOf t kind u = Machine.roleOf s kind u :=
  roleOf_congr (h.rd _ (Nat.le_trans (by decide) (unitKey_ge kind u)))

theorem Above.rotPhase {s t : State} (h : Above s t) : rotPhase t = Machine.rotPhase s := h.fget (by decide) _

theorem setRotStatus_twn (s : State) (kind spare logical phase : Nat) : (setRotStatus s kind spare logical phase).twn = s.twn :=
  wr_twn ..

theorem setRotStatus_cores (s : State) (kind spare logical phase : Nat) : (setRotStatus s kind spare logical phase).cores = s.cores :=
  wr_cores ..

theorem rd_setRotStatus_ne {k : Nat} (s : State) (kind spare logical phase : Nat) (h : k ≠ TWN_ROT_STATUS) :
    rd (setRotStatus s kind spare logical phase) k = rd s k := rd_wr_ne _ _ _ _ h

theorem roleOf_setRotStatus (s : State) (kind spare logical phase kind' u : Nat) :
    roleOf (setRotStatus s kind spare logical phase) kind' u = roleOf s kind' u :=
  roleOf_congr (rd_setRotStatus_ne _ _ _ _ _ (unitKey_ne_rotStatus _ _))

/-- The phase stands below the other fields. -/
theorem rotPhase_setRotStatus (s : State) (kind spare logical : Nat) {phase : Nat} (h : phase < 8) :
    rotPhase (setRotStatus s kind spare logical phase) = phase := by
  unfold rotPhase setRotStatus fget
  rw [rd_wr, BitVec.toNat_ofNat]
  simp only [bitsOf, TWN_ROT_STATUS_kind, TWN_ROT_STATUS_spare, TWN_ROT_STATUS_logical, TWN_ROT_STATUS_phase]
  omega

theorem physOf_setPhys (s : State) {kind j u : Nat} (h1 : 1 ≤ kind) (h3 : kind ≤ 3) (h : u < unitCount kind) :
    physOf (setPhys s kind j u) kind j = u := by
  obtain rfl | rfl | rfl : kind = 1 ∨ kind = 2 ∨ kind = 3 := by omega
  all_goals
    simp only [physOf, setPhys]
    rw [fget_fset _ _ _ _ (by decide)]
    exact Nat.mod_eq_of_lt (lt_of_lt_of_le h (by decide))

/-- The maps of logical units stand beside the registers of the units. -/
theorem roleOf_setPhys (s : State) {kind j u v : Nat} (hj : j < 64) (hv : v < unitCount kind) : roleOf (setPhys s kind j u) kind v = roleOf s kind v := by
  have hv' : v < 68 := by
    unfold unitCount at hv
    split at hv <;> omega
  refine roleOf_congr ?_
  unfold setPhys
  split <;> refine rd_fset_ne _ _ _ _ _ ?_
  · exact Nat.ne_of_gt (lt_of_lt_of_le (by unfold TWN_ROT_MAP; omega) (unitKey_ge ..))
  · change ATL_CORE_STATUS v ≠ ATL_LCORE_STATUS j
    unfold ATL_LCORE_STATUS ATL_CORE_STATUS
    omega
  · exact Nat.ne_of_gt (lt_of_lt_of_le (by unfold TWN_ROT_MAP; omega) (unitKey_ge ..))

/-- The place of a logical unit reads from its map. -/
theorem physOf_congr {s t : State} (h : ∀ k, 0x180000 ≤ k → k ≠ TWN_ROT_STATUS → rd t k = rd s k) (kind j : Nat) :
    physOf t kind j = physOf s kind j := by
  unfold physOf
  split <;> refine fget_congr _ _ _ _ (h _ ?_ ?_)
  all_goals
    simp only [TWN_ROT_MAP, ATL_LCORE_STATUS, TWN_ROT_STATUS]
    omega

/-! ### The end of a rotation (12 R395) -/

theorem unitPower_lt {kind u : Nat} (h : u < unitCount kind) : unitPower kind u < 16 := by
  have hu : u < 68 := by
    unfold unitCount at h
    split at h <;> omega
  unfold unitPower
  split <;> omega

/-- From `s` to `t` the rotation has ended; the units keep their roles. -/
structure RotEnded (s t : State) : Prop where
  twn : t.twn = { s.twn with rot := none }
  phase : rotPhase t = 0
  role : ∀ kind u, roleOf t kind u = roleOf s kind u

theorem RotEnded.above {s t u : State} (h : RotEnded s t) (a : Above t u) : RotEnded s u :=
  ⟨a.twn.trans h.twn, a.rotPhase.trans h.phase, fun kind u => (a.roleOf ..).trans (h.role kind u)⟩

theorem rotEnd_ends {s : State} {r : Rotation} (hspare : r.spare < unitCount r.kind) (hold : r.old < unitCount r.kind) (oc : Nat) :
    RotEnded s (rotEnd s r oc) := by
  unfold rotEnd
  extract_lets s1
  have h1 : Above (setRot s none) s1 := (setKey_above _ 9 (unitPower_lt hspare) false).trans (setKey_above _ 9 (unitPower_lt hold) false)
  refine RotEnded.above ⟨(wr_twn ..).trans h1.twn, ?_, fun kind u => ?_⟩ (complete_above ..)
  · unfold rotPhase fget
    rw [rd_wr]
    rfl
  · exact (roleOf_congr (rd_wr_ne _ _ _ _ (unitKey_ne_rotStatus _ _))).trans (h1.roleOf kind u)

/-- A failed rotation gives its spare back. -/
theorem rotFail_ends {s : State} {r : Rotation} (hspare : r.spare < unitCount r.kind) (hold : r.old < unitCount r.kind) (oc : Nat) :
    (rotFail s r oc).twn.rot = none ∧ rotPhase (rotFail s r oc) = 0 ∧ roleOf (rotFail s r oc) r.kind r.spare = roleSpare ∧
      (r.kind, r.spare) ∈ (rotFail s r oc).twn.spares := by
  unfold rotFail
  extract_lets s0 s1
  have hrole : roleOf s1 r.kind r.spare = roleSpare := roleOf_setRole s0 r.kind r.spare 0 (by decide)
  clear_value s1
  have hend := rotEnd_ends (s := { s1 with twn := { s1.twn with spares := s1.twn.spares ++ [(r.kind, r.spare)] } }) hspare hold oc
  refine ⟨congrArg TwnSt.rot hend.twn, hend.phase, (hend.role r.kind r.spare).trans hrole, ?_⟩
  rw [hend.twn]
  exact List.mem_append_right _ (List.mem_singleton_self _)

/-! ### The phases -/

section
variable {s : State} {r : Rotation}

/-- What the effect of a command leaves of the twins and the units, the command leaves. -/
theorem completes_above {i : Instr} {P : State → Prop} (f : State → State) (he : exec i s = run f s) (h : Ready s)
    (hP : ∀ t, Above (f (quietOut s)) t → t.cores = (f (quietOut s)).cores → P t) : Completes i s P :=
  completes_run f he h (hP _ (settled_above s _) (settled_reported s _).cores)

theorem unitCopy_twn (s : State) (kind a b : Nat) : (unitCopy s kind a b).twn = s.twn := by
  unfold unitCopy
  split
  · rfl
  · unfold coreCopy
    extract_lets k sp isP bad s1 s2
    have h2 : s2.twn = s.twn := by
      unfold s2
      rw [ite_twn, fset_twn, ite_self]
      rfl
    exact (fset_twn ..).trans ((fset_twn ..).trans h2)
  · rfl

/-- The copy is done: the spare stands in SHADOW (06 R213). -/
theorem rotShadow_shadows (s : State) (r : Rotation) :
    rotPhase (rotShadow s r) = 2 ∧ roleOf (rotShadow s r) r.kind r.spare = roleShadow ∧ (rotShadow s r).twn = s.twn :=
  ⟨rotPhase_setRotStatus _ _ _ _ (by decide), (roleOf_setRotStatus ..).trans (roleOf_setRole _ _ _ _ (by decide)),
    (setRotStatus_twn ..).trans ((setRole_twn ..).trans (unitCopy_twn ..))⟩

/-- Nothing damaged is copied. -/
theorem copyErrors_none (hn : s.gal.badNodes = []) (hs : s.str.badState = []) : copyErrors s r = s := by
  unfold copyErrors
  split
  · rw [hn]
    rfl
  · rw [hs]
    rfl
  · rfl

theorem completes_rotationCopyDone (h : Ready s) (hr : s.twn.rot = some r) (hk : r.kind ≠ 2) (hp : rotPhase s = 1)
    (hn : s.gal.badNodes = []) (hs : s.str.badState = []) : Completes .rotationCopyDone s (fun t =>
      rotPhase t = 2 ∧ roleOf t r.kind r.spare = roleShadow ∧ t.twn.rot = some r) := by
  have hf : doRotationCopyDone (quietOut s) = rotShadow (quietOut s) r := by
    unfold doRotationCopyDone
    rw [show (quietOut s).twn.rot = some r from hr]
    exact (if_pos ⟨hp, hk⟩).trans (congrArg (rotShadow · r) (copyErrors_none hn hs))
  obtain ⟨hphase, hrole, htwn⟩ := rotShadow_shadows (quietOut s) r
  refine completes_above doRotationCopyDone rfl h fun t a _ => ?_
  rw [hf] at a
  exact ⟨a.rotPhase.trans hphase, (a.roleOf ..).trans hrole, (congrArg TwnSt.rot (a.twn.trans htwn)).trans hr⟩

/-- The spare as a copy of the old core, with its own P (06 R212). -/
def copiedCore (k spare : Core) : Core := { k with
  pm := spare.pm, pq := [], lmReads := [],
  bad := spare.bad.filter (fun w => decide (w < 65536)) ++ k.bad.filter (fun w => !decide (w < 65536)) }

theorem coreCopy_cores (s : State) (a b : Nat) : (coreCopy s a b).cores = (setCore b (copiedCore (coreOf s a) (coreOf s b)) s).cores := by
  unfold coreCopy
  extract_lets k sp isP bad s1 s2
  have h2 : s2.cores = s1.cores := by
    unfold s2
    rw [ite_cores, fset_cores, ite_self]
  exact (fset_cores ..).trans ((fset_cores ..).trans h2)

theorem completes_coreStateCopy (h : Ready s) (hr : s.twn.rot = some r) (hk : r.kind = 2) (hp : rotPhase s = 1) (hpause : paused s 6 = false)
    (hcopied : 16384 ≤ r.copied) (hended : (coreOf s r.old).phase = .ended) (hgap : (coreOf s r.old).lastFend + 200 ≤ coreBudget s r.old) :
    Completes .coreStateCopy s (fun t => (rotPhase t = 2 ∧ roleOf t 2 r.spare = roleShadow ∧ t.twn.rot = some r) ∧
      t.cores = (setCore r.spare (copiedCore (coreOf s r.old) (coreOf s r.spare)) s).cores) := by
  have hf : unlessPaused 6 doCoreStateCopy (quietOut s) = rotShadow (quietOut s) r := by
    refine (if_neg (by rw [show paused (quietOut s) 6 = false from hpause]; exact Bool.false_ne_true)).trans ?_
    unfold doCoreStateCopy
    rw [show (quietOut s).twn.rot = some r from hr]
    exact if_pos ⟨hp, hk, hcopied, hended, hgap⟩
  obtain ⟨hphase, hrole, htwn⟩ := rotShadow_shadows (quietOut s) r
  have hcores : (rotShadow (quietOut s) r).cores = (setCore r.spare (copiedCore (coreOf s r.old) (coreOf s r.spare)) s).cores := by
    unfold rotShadow
    rw [setRotStatus_cores, setRole_cores, hk]
    exact coreCopy_cores ..
  refine completes_above (unlessPaused 6 doCoreStateCopy) rfl h fun t a hc => ?_
  rw [hf] at a hc
  exact ⟨⟨a.rotPhase.trans hphase, (a.roleOf ..).trans (hk ▸ hrole), (congrArg TwnSt.rot (a.twn.trans htwn)).trans hr⟩, hc.trans hcores⟩

/-- A command that fails the rotation. -/
theorem completes_rotFail {i : Instr} (f : State → State) (q : Rotation) (oc : Nat) (he : exec i s = run f s) (h : Ready s)
    (hspare : q.spare < unitCount q.kind) (hold : q.old < unitCount q.kind) (hf : f (quietOut s) = rotFail (quietOut s) q oc) :
    Completes i s (fun t => (t.twn.rot = none ∧ rotPhase t = 0) ∧ roleOf t q.kind q.spare = roleSpare ∧ (q.kind, q.spare) ∈ t.twn.spares) := by
  obtain ⟨hrot, hphase, hrole, hspares⟩ := rotFail_ends (s := quietOut s) hspare hold oc
  refine completes_above f he h fun t a _ => ?_
  rw [hf] at a
  exact ⟨⟨(congrArg TwnSt.rot a.twn).trans hrot, a.rotPhase.trans hphase⟩, (a.roleOf ..).trans hrole, a.twn ▸ hspares⟩

/-- The rotation after a matching block of domain `x`. -/
def rotMatched (x : Dom) (r : Rotation) : Rotation := match x with
  | .A => { r with diff := false, goodA := r.goodA + 1 }
  | .B => { r with diff := false, goodB := r.goodB + 1 }
  | .C => { r with diff := false, goodC := r.goodC + 1 }

theorem rotGood_matched (x : Dom) (r : Rotation) : rotGood (rotMatched x r) x = rotGood r x + 1 := by cases x <;> rfl

theorem rotTick_matched (s : State) (x : Dom) (r : Rotation) : rotTick s (rotMatched x r) = rotTick s r := by cases x <;> rfl

/-- The rotation once its switch tick is chosen. -/
def rotChosen (s : State) (q : Rotation) : Rotation := { q with switchAt := rotTick s q }

theorem rotReady_chosen (s : State) (q : Rotation) : rotReady s (rotChosen s q) = rotReady s q := rfl

theorem rotGood_chosen (s : State) (q : Rotation) (x : Dom) : rotGood (rotChosen s q) x = rotGood q x := by cases x <;> rfl

/-- A block that differs, or that the outputs have belied, ends the rotation (12 R395). -/
theorem shadowBlockCompare_mismatch {x : Dom} (hr : s.twn.rot = some r) (hp : rotPhase s = 2)
    (hserves : unitServes s r.kind r.logical x = true) : doShadowBlockCompare x false s = rotFail s { r with diff := false } ocMISMATCH := by
  unfold doShadowBlockCompare
  rw [hr]
  dsimp only
  rw [if_neg (by simp [hp, hserves])]
  exact if_pos rfl

theorem shadowBlockCompare_match {x : Dom} (hr : s.twn.rot = some r) (hp : rotPhase s = 2)
    (hserves : unitServes s r.kind r.logical x = true) (hdiff : r.diff = false) : doShadowBlockCompare x true s =
      if rotReady s (rotMatched x r) then setRotStatus (setRot s (some (rotChosen s (rotMatched x r)))) r.kind r.spare r.logical 3
      else setRot s (some (rotMatched x r)) := by
  unfold doShadowBlockCompare
  rw [hr]
  dsimp only
  rw [if_neg (by simp [hp, hserves]), if_neg (by simp [hdiff])]
  cases x <;> rfl

theorem unlessPaused_open {f : State → State} {u : Nat} (h : paused s u = false) : unlessPaused u f s = f s :=
  if_neg (by rw [h]; exact Bool.false_ne_true)

theorem completes_blockMatch {x : Dom} (h : Ready s) (hr : s.twn.rot = some r) (hp : rotPhase s = 2) (hpause : paused s 6 = false)
    (hserves : unitServes s r.kind r.logical x = true) (hdiff : r.diff = false) :
    Completes (.shadowBlockCompare x true) s (fun t => ∃ q, t.twn.rot = some q ∧ rotGood q x = rotGood r x + 1 ∧
      rotPhase t = (if rotReady s q then 3 else 2) ∧ (rotReady s q = true → q.switchAt = rotTick s r)) := by
  have hf := (unlessPaused_open (f := doShadowBlockCompare x true) (s := quietOut s) hpause).trans (shadowBlockCompare_match hr hp hserves hdiff)
  refine completes_above (unlessPaused 6 (doShadowBlockCompare x true)) rfl h fun t a _ => ?_
  rw [hf] at a
  by_cases hready : rotReady s (rotMatched x r) = true
  · rw [if_pos (show rotReady (quietOut s) (rotMatched x r) = true from hready)] at a
    have hchosen : rotReady s (rotChosen s (rotMatched x r)) = true := (rotReady_chosen ..).trans hready
    refine ⟨rotChosen s (rotMatched x r), congrArg TwnSt.rot (a.twn.trans (setRotStatus_twn ..)), (rotGood_chosen ..).trans (rotGood_matched x r), ?_,
      fun _ => rotTick_matched s x r⟩
    rw [if_pos hchosen]
    exact a.rotPhase.trans (rotPhase_setRotStatus _ _ _ _ (by decide))
  · rw [if_neg (show ¬rotReady (quietOut s) (rotMatched x r) = true from hready)] at a
    refine ⟨rotMatched x r, congrArg TwnSt.rot a.twn, rotGood_matched x r, ?_, fun hyes => absurd hyes hready⟩
    rw [if_neg hready]
    exact a.rotPhase.trans hp

/-- The state in which the units of a switched rotation have changed places. -/
def switched (m : State) (r : Rotation) : State :=
  setRotStatus (setPhys (setRole (setRole m r.kind r.spare roleActive r.logical) r.kind r.old roleSpare 0) r.kind r.logical r.spare)
    r.kind r.spare r.logical 4

theorem doRotationSwitch_due (hr : s.twn.rot = some r) (hp : rotPhase s = 3) (hclk : clkOk s r.kind r.spare = true)
    (hdue : switchDue s r = true) : ∃ m, doRotationSwitch s = switched m r := by
  unfold doRotationSwitch
  rw [hr]
  exact ⟨_, if_pos ⟨.inl hp, hclk, hdue⟩⟩

/-- The state in which the old unit is released, before the rotation ends. -/
def released (pass : Bool) (r : Rotation) (s : State) : State :=
  let s1 := setRole s r.kind r.old (if r.fateOff then roleOff else roleSpare) 0
  let s2 := if r.fateOff then s1 else { s1 with twn := { s1.twn with spares := s1.twn.spares ++ [(r.kind, r.old)] } }
  if pass then s2 else { s2 with twn := { s2.twn with failed := s2.twn.failed ++ [(r.kind, r.old)] } }

theorem doRotationRelease_eq {pass : Bool} (hr : s.twn.rot = some r) (hp : rotPhase s = 4) :
    doRotationRelease pass s = rotEnd (released pass r s) r (if pass then ocOK else ocOLDFAILED) := by
  unfold doRotationRelease
  rw [hr]
  exact if_neg fun h => h hp

theorem regs_released (pass : Bool) (r : Rotation) (s : State) :
    (released pass r s).regs = (setRole s r.kind r.old (if r.fateOff then roleOff else roleSpare) 0).regs := by
  unfold released
  extract_lets s1 _ s2
  have h2 : s2.regs = s1.regs := by
    unfold s2
    split <;> rfl
  cases pass <;> exact h2

theorem roleOf_released (pass : Bool) (r : Rotation) (s : State) :
    roleOf (released pass r s) r.kind r.old = if r.fateOff then roleOff else roleSpare :=
  (roleOf_congr (rd_congr _ _ _ (regs_released pass r s))).trans (roleOf_setRole _ _ _ _ (by cases r.fateOff <;> decide))

theorem failed_released {pass : Bool} (h : pass = false) (r : Rotation) (s : State) : (r.kind, r.old) ∈ (released pass r s).twn.failed := by
  subst h
  exact List.mem_append_right _ (List.mem_singleton_self _)

section
variable (h1 : 1 ≤ r.kind) (h3 : r.kind ≤ 3) (hspare : r.spare < unitCount r.kind) (hold : r.old < unitCount r.kind) (hne : r.spare ≠ r.old)
  (hlog : r.logical < logicalCount r.kind)

include hlog in
theorem logical_lt : r.logical < 64 := by
  unfold logicalCount at hlog
  split at hlog <;> omega

include hspare hne hlog in
theorem roleOf_switched_spare (m : State) : roleOf (switched m r) r.kind r.spare = roleActive :=
  (roleOf_setRotStatus ..).trans ((roleOf_setPhys _ (logical_lt hlog) hspare).trans
    ((roleOf_setRole_ne _ _ hne).trans (roleOf_setRole _ _ _ _ (by decide))))

include hold hlog in
theorem roleOf_switched_old (m : State) : roleOf (switched m r) r.kind r.old = roleSpare :=
  (roleOf_setRotStatus ..).trans ((roleOf_setPhys _ (logical_lt hlog) hold).trans (roleOf_setRole _ _ _ _ (by decide)))

include h1 h3 hspare in
theorem physOf_switched (m : State) : physOf (switched m r) r.kind r.logical = r.spare :=
  (physOf_congr (fun _ _ hk => rd_setRotStatus_ne _ _ _ _ _ hk) _ _).trans (physOf_setPhys _ h1 h3 hspare)

include h1 h3 hspare hold hne hlog in
theorem completes_rotationSwitch (h : Ready s) (hr : s.twn.rot = some r) (hp : rotPhase s = 3) (hclk : clkOk s r.kind r.spare = true)
    (hdue : switchDue s r = true) : Completes .rotationSwitch s (fun t => rotPhase t = 4 ∧ roleOf t r.kind r.spare = roleActive ∧
      roleOf t r.kind r.old = roleSpare ∧ physOf t r.kind r.logical = r.spare) := by
  obtain ⟨m, hf⟩ := doRotationSwitch_due (s := quietOut s) hr hp hclk hdue
  refine completes_above doRotationSwitch rfl h fun t a _ => ?_
  rw [hf] at a
  exact ⟨a.rotPhase.trans (rotPhase_setRotStatus _ _ _ _ (by decide)), (a.roleOf ..).trans (roleOf_switched_spare hspare hne hlog m),
    (a.roleOf ..).trans (roleOf_switched_old hold hlog m),
    (physOf_congr (fun k hk _ => a.rd k hk) _ _).trans (physOf_switched h1 h3 hspare m)⟩

include hspare hold in
theorem completes_rotationRelease (h : Ready s) (hr : s.twn.rot = some r) (hp : rotPhase s = 4) (pass : Bool) :
    Completes (.rotationRelease pass) s (fun t => (t.twn.rot = none ∧ rotPhase t = 0) ∧
      roleOf t r.kind r.old = (if r.fateOff then roleOff else roleSpare) ∧ (pass = false → (r.kind, r.old) ∈ t.twn.failed)) := by
  refine completes_above (doRotationRelease pass) rfl h fun t a _ => ?_
  rw [doRotationRelease_eq (s := quietOut s) hr hp] at a
  have ended := (rotEnd_ends hspare hold (if pass then ocOK else ocOLDFAILED)).above a
  refine ⟨⟨congrArg TwnSt.rot ended.twn, ended.phase⟩, (ended.role ..).trans (roleOf_released pass r (quietOut s)), fun hpass => ?_⟩
  rw [ended.twn]
  exact failed_released hpass r (quietOut s)

end

end

/-- Settles O12: each phase of a rotation leaves the roles, the phase and the places that 12 R395 names. -/
theorem rotationPhases : Obligations.RotationPhases := by
  intro s r h hr h1 h3 hspare hold hne hlog ended
  refine ⟨fun hk hp hn hs => completes_rotationCopyDone h hr hk hp hn hs, fun hk hp hpause hcopied he hgap => ?_, fun hk hp hframes => ?_,
    fun x hp hpause hserves => ?_, fun x hp hpause hserves hdiff => completes_blockMatch h hr hp hpause hserves hdiff,
    fun hp hclk hdue => completes_rotationSwitch h1 h3 hspare hold hne hlog h hr hp hclk hdue,
    fun pass hp => completes_rotationRelease hspare hold h hr hp pass⟩
  · refine (completes_coreStateCopy h hr hk hp hpause hcopied he hgap).mono fun t ⟨⟨hphase, hrole, hrot⟩, hcores⟩ => ?_
    have hspareCore : coreOf t r.spare = copiedCore (coreOf s r.old) (coreOf s r.spare) := (coreOf_congr _ _ _ hcores).trans (coreOf_setCore ..)
    have holdCore : coreOf t r.old = coreOf s r.old := (coreOf_congr _ _ _ hcores).trans (coreOf_setCore_ne _ _ _ s hne.symm)
    rw [hspareCore, holdCore]
    exact ⟨hphase, hrole, hrot, rfl, rfl, rfl, rfl, rfl, rfl, rfl⟩
  · have hf : doRotationNoGap (quietOut s) = rotFail (quietOut s) r ocNOGAP := by
      unfold doRotationNoGap
      rw [show (quietOut s).twn.rot = some r from hr]
      exact if_pos ⟨hp, hk, hframes⟩
    refine (completes_rotFail doRotationNoGap r ocNOGAP rfl h hspare hold hf).mono fun t ht => ?_
    rw [hk] at ht
    exact ht
  · exact completes_rotFail (unlessPaused 6 (doShadowBlockCompare x false)) { r with diff := false } ocMISMATCH rfl h hspare hold
      ((unlessPaused_open (s := quietOut s) hpause).trans (shadowBlockCompare_mismatch hr hp hserves))

end Sys2Proof.Machine
end

section
/-! PROOF. 07 R228: the moves, whose results land at the first instruction after them (O3). -/

namespace Sys2Proof.Machine

/-! ### Results of moves -/

theorem wbApply_stepped_m (k : Core) (b : Bank) (r : Nat) (v : BitVec 16) :
    (wbApply k.inHandler (stepped k b) (.m r v)).1 = stepped k { b with m := smSet 0 b.m r v } := by
  unfold wbApply stepped setBank putBank
  cases k.inHandler <;> rfl

theorem wbApply_stepped_clear (k : Core) (b : Bank) (mask : BitVec 5) :
    (wbApply k.inHandler (stepped k b) (.clear mask)).1 = stepped k { b with sw := b.sw &&& ~~~mask } := by
  unfold wbApply stepped setBank putBank
  cases k.inHandler <;> rfl

/-- The start registers are those of the core, not of a bank (06 R192). -/
theorem wbApply_stepped_b (k : Core) (b : Bank) (r : Nat) (v : BitVec 16) :
    (wbApply k.inHandler (stepped k b) (.b r v)).1 = { stepped k b with b := smSet 0 k.b r v } := by
  unfold wbApply stepped setBank putBank
  cases k.inHandler <;> rfl

/-- So are the length registers. -/
theorem wbApply_stepped_l (k : Core) (b : Bank) (r : Nat) (v : BitVec 16) :
    (wbApply k.inHandler (stepped k b) (.l r v)).1 = { stepped k b with l := smSet 0 k.l r v } := by
  unfold wbApply stepped setBank putBank
  cases k.inHandler <;> rfl

/-- The result of a write to a register of a file: 0 P, 1 M, 2 B, 3 L. -/
def fileAct (file r : Nat) (v : BitVec 16) : WbAct := match file with | 0 => .p r v | 1 => .m r v | 2 => .b r v | _ => .l r v

/-- The core that has stepped, with a register of a file written. -/
def fileDone (k : Core) (file r : Nat) (v : BitVec 16) : Core :=
  match file with
  | 0 => stepped k { bankOf k with p := smSet 0 (bankOf k).p r v }
  | 1 => stepped k { bankOf k with m := smSet 0 (bankOf k).m r v }
  | 2 => { stepped k (bankOf k) with b := smSet 0 k.b r v }
  | _ => { stepped k (bankOf k) with l := smSet 0 k.l r v }

theorem wbApply_stepped_fileAct (k : Core) (file r : Nat) (v : BitVec 16) :
    (wbApply k.inHandler (stepped k (bankOf k)) (fileAct file r v)).1 = fileDone k file r v := by
  match file with
  | 0 => exact wbApply_stepped_p ..
  | 1 => exact wbApply_stepped_m ..
  | 2 => exact wbApply_stepped_b ..
  | _ + 3 => exact wbApply_stepped_l ..

theorem fileWr_eq (file r : Nat) (v : BitVec 16) (k : Core) : fileWr file r v k = effPlain (coreLater 1 (fileAct file r v) k) := rfl

/-- The word that MOVD reads from a file: P, B and L hold addresses, M holds a signed step. -/
def fileWord (k : Core) (file r : Nat) : S64 :=
  match file with
  | 0 => (smGet 0 (bankOf k).p r).setWidth 64
  | 1 => (smGet 0 (bankOf k).m r).signExtend 64
  | 2 => (smGet 0 k.b r).setWidth 64
  | _ => (smGet 0 k.l r).setWidth 64

theorem effMovd_eq (file rd ra : Nat) (k : Core) : effMovd file rd ra k = effPlain (coreLater 1 (.d rd (fileWord k file ra)) k) := by
  refine congrArg (fun v => effPlain (coreLater 1 (.d rd v) k)) ?_
  match file with
  | 0 | 2 | _ + 3 => exact BitVec.ofNat_toNat ..
  | 1 => rfl

/-- The operand of CLRSW names V, X and S alone. -/
theorem stickyMask_eq (r8 : Fin 8) : BitVec.ofNat 5 (4 * r8.val) &&& 0b11100#5 = BitVec.ofNat 5 (4 * r8.val) := by
  decide +revert

/-! ### Legal words (07 R219) -/

theorem atlLegal_movk (r8 : Fin 8) (ra : Fin 16) (pc : Nat) : atlLegal (encA 0x30 r8 ra 0 0 0) pc = true :=
  legalA _ r8 ra 0 0 0 pc (by decide) (by omega) (by omega) (by decide) (by decide) (by decide) (by simp)

theorem atlLegal_movdk (rd : Fin 16) (r8 : Fin 8) (pc : Nat) : atlLegal (encA 0x31 rd r8 0 0 0) pc = true :=
  legalA _ rd r8 0 0 0 pc (by decide) (by omega) (by omega) (by decide) (by decide) (by decide) (by simp)

theorem atlLegal_movr (file : Fin 4) (r8 : Fin 8) (ra : Fin 16) (pc : Nat) : atlLegal (encA 0x32 r8 ra 0 file 0) pc = true :=
  legalA _ r8 ra 0 file 0 pc (by decide) (by omega) (by omega) (by decide) (by omega) (by decide) (by simp)

theorem atlLegal_movd (file : Fin 4) (rd : Fin 16) (r8 : Fin 8) (pc : Nat) : atlLegal (encA 0x33 rd r8 0 file 0) pc = true :=
  legalA _ rd r8 0 file 0 pc (by decide) (by omega) (by omega) (by decide) (by omega) (by decide) (by simp)

theorem atlLegal_movsw (rd : Fin 16) (pc : Nat) : atlLegal (encA 0x34 rd 0 0 0 0) pc = true :=
  legalA _ rd 0 0 0 0 pc (by decide) (by omega) (by decide) (by decide) (by decide) (by decide) (by simp)

theorem atlLegal_clrsw (r8 : Fin 8) (pc : Nat) : atlLegal (encA 0x35 0 0 0 0 (4 * r8)) pc = true := by
  refine legalA _ 0 0 0 0 (4 * r8) pc (by decide) (by decide) (by decide) (by decide) (by decide) (by omega) ?_
  simp
  omega

theorem atlLegal_setr (file : Fin 4) (r8 : Fin 8) (imm : BitVec 16) (pc : Nat) : atlLegal (encI 0x36 r8 0 file imm.toNat) pc = true := by
  have himm := imm.isLt
  exact legalI _ r8 0 file _ pc (by decide) (by omega) (by decide) (by omega) (by omega) (by simp; omega)

/-! ### The instructions -/

/-- A move: the next instruction sees its one result, and nothing else changes. -/
theorem completes_move {i : Instr} {c : Fin 68} {w : BitVec 64} {s : State} (eff : Core → IssueEff) (a : WbAct) {x : Core}
    (he : exec i s = run (issue c w .plain eff) s) (heff : eff (coreOf s c) = effPlain (coreLater 1 a (coreOf s c)))
    (hx : (wbApply (coreOf s c).inHandler (stepped (coreOf s c) (bankOf (coreOf s c))) a).1 = x)
    (hl : atlLegal w (coreOf s c).pc = true) (h : AtWord c w s) :
    Completes i s (fun t => seen (coreOf t c) = x ∧ OnlyCore c s t) :=
  completes_oneThenTwo eff [a] [] he (IssuesAs.refl _) heff ((landAll_one ..).trans hx) hl h

/-- Settles O3: the one result of each move is the register of its row. -/
theorem moves : Obligations.Moves := by
  intro s c rd ra r8 file imm k b fileSet fileGet gives
  refine ⟨?_, ?_, ?_, ?_, ?_, ?_, ?_⟩
  · exact completes_move _ (.k r8 ((coreD k ra).setWidth 40)) rfl rfl (wbApply_stepped_k ..) (atlLegal_movk ..)
  · exact completes_move _ (.d rd ((coreK k r8).signExtend 64)) rfl rfl (wbApply_stepped_d ..) (atlLegal_movdk ..)
  · exact completes_move _ (fileAct file r8 ((coreD k ra).setWidth 16)) rfl rfl (wbApply_stepped_fileAct ..) (atlLegal_movr ..)
  · exact completes_move _ (.d rd (fileWord k file r8)) rfl (effMovd_eq ..) (wbApply_stepped_d ..) (atlLegal_movd ..)
  · exact completes_move _ (.d rd (b.sw.setWidth 64)) rfl rfl (wbApply_stepped_d ..) (atlLegal_movsw ..)
  · rw [← stickyMask_eq]
    exact completes_move _ (.clear (BitVec.ofNat 5 (4 * r8.val) &&& 0b11100#5)) rfl rfl (wbApply_stepped_clear ..) (atlLegal_clrsw ..)
  · exact completes_move _ (fileAct file r8 imm) rfl rfl (wbApply_stepped_fileAct ..) (atlLegal_setr ..)

end Sys2Proof.Machine
end

section
/-! PROOF. 07 R222 to R224, R231 to R233, 06 R193: products with Y coefficients and taps, whose results land at the first, the second
and the third instruction after them (O6). -/

namespace Sys2Proof.Machine

/-! ### Results in flight of three distances (06 R193) -/

/-- Results become visible in the order of their distances. -/
theorem seen_oneTwoThree (one two three : List WbAct) (k : Core)
    (h : (bankOf k).wb = (three.map fun a => ⟨(bankOf k).issued + 2, a⟩) ++ (two.map fun a => ⟨(bankOf k).issued + 1, a⟩) ++
      one.map fun a => ⟨(bankOf k).issued, a⟩) :
    seen k = landAll three (landAll two (landAll one (withFlight [] k))) := by
  set n := (bankOf k).issued with hn
  have hundue : ∀ w ∈ (three.map fun a => (⟨n + 2, a⟩ : Wb)) ++ two.map fun a => ⟨n + 1, a⟩, n < w.due := by
    simp only [List.mem_append, List.mem_map]
    rintro w (⟨a, -, rfl⟩ | ⟨a, -, rfl⟩)
    · exact Nat.lt_add_of_pos_right (by decide)
    · exact Nat.lt_succ_self n
  have hfirst := wbUpTo_withFlight one _ k (Nat.le_refl n) hundue
  have hsecond := wbUpTo_withFlight two (three.map fun a => ⟨n + 2, a⟩) (landAll one k) (Nat.le_refl (n + 1)) (by simp)
  have hthird := wbUpTo_withFlight three [] (landAll two (landAll one k)) (Nat.le_refl (n + 2)) (by simp)
  simp only [inHandler_landAll, List.nil_append] at hfirst hsecond hthird
  rw [← h, withFlight_wb] at hfirst
  rw [seen_eq, ← hn, hfirst, hsecond, hthird]
  simp only [landAll_withFlight]

/-- The core whose issuing bank keeps the loads of a tap for the tap that follows directly (07 R223). -/
def withTap (l : SMap S64) (k : Core) : Core := setBank k { bankOf k with tapLoad := l }

theorem inHandler_withTap (l : SMap S64) (k : Core) : (withTap l k).inHandler = k.inHandler := inHandler_setBank ..

theorem withTap_nil_stepped (k : Core) (b : Bank) : withTap [] (stepped k b) = stepped k b := by
  unfold withTap
  rw [bankOf_stepped]
  exact setBank_stepped k b b

theorem withFlight_withTap (fl : List Wb) (l : SMap S64) (k : Core) : withFlight fl (withTap l k) = withTap l (withFlight fl k) := by
  unfold withFlight withTap
  simp only [bankOf_setBank, setBank_setBank]

/-- A result reaches its register whatever a tap has loaded. -/
theorem wbApply_withTap (l : SMap S64) (k : Core) (a : WbAct) :
    (wbApply k.inHandler (withTap l k) a).1 = withTap l (wbApply k.inHandler k a).1 := by
  unfold wbApply withTap setBank putBank bankOf
  cases a with
  | accAdd r v =>
    cases k.inHandler <;> dsimp only <;> simp only [if_true, Bool.false_eq_true, if_false]
    · obtain ⟨x, loss⟩ := accAdd (smGet accZero k.main.a r) v
      cases loss <;> simp
    · obtain ⟨x, loss⟩ := accAdd (smGet accZero k.shadow.a r) v
      cases loss <;> simp
  | accSet r x loss => cases k.inHandler <;> cases loss <;> simp
  | _ => cases k.inHandler <;> simp

theorem landAll_withTap (l : SMap S64) (acts : List WbAct) (k : Core) : landAll acts (withTap l k) = withTap l (landAll acts k) := by
  induction acts generalizing k with
  | nil => rfl
  | cons a acts ih => rw [landAll_cons, inHandler_withTap, wbApply_withTap, ih, landAll_cons]

/-- The core with an instruction's results in flight, each for the distance of its list. -/
def afterAll (one two three : List WbAct) (k : Core) : Core := afterMany 1 one (afterMany 2 two (afterMany 3 three k))

theorem afterAll_keeps {α : Type} (p : Core → α) (hp : ∀ n a k, p (coreLater n a k) = p k) (one two three : List WbAct) (k : Core) :
    p (afterAll one two three k) = p k :=
  ((afterMany_keeps p (hp 1) ..).trans (afterMany_keeps p (hp 2) ..)).trans (afterMany_keeps p (hp 3) ..)

theorem seen_afterAll (one two three : List WbAct) (l : SMap S64) (k : Core) (h : (bankOf k).wb = []) :
    seen { coreCount l (afterAll one two three k) with pc := (k.pc + 1) % 16384 } =
      withTap l (landAll three (landAll two (landAll one (stepped k (bankOf k))))) := by
  have hform : ({ coreCount l (afterAll one two three k) with pc := (k.pc + 1) % 16384 } : Core) =
      withTap l (stepped k { bankOf k with wb := (three.map fun a => ⟨(bankOf k).issued + 3, a⟩) ++
        (two.map fun a => ⟨(bankOf k).issued + 2, a⟩) ++ one.map fun a => ⟨(bankOf k).issued + 1, a⟩ }) := by
    simp only [afterAll, afterMany_eq, bankOf_setBank, setBank_setBank, h, List.nil_append]
    unfold coreCount withTap stepped
    simp only [bankOf_setBank, setBank_setBank]
    unfold setBank putBank
    cases k.inHandler <;> simp [bankOf]
  rw [hform, seen_oneTwoThree one two three _ (by simp [withTap, bankOf_setBank]), withFlight_withTap, withFlight_stepped]
  simp only [landAll_withTap]
  rw [← h]

/-- An instruction that only leaves results in flight, once it has written its word to memory: they land, a tap's loads are kept for
the tap that follows, and nothing else changes. -/
theorem completes_afterAll {i : Instr} {c : Fin 68} {w : BitVec 64} {s : State} (eff : Core → IssueEff) (one two three : List WbAct)
    {l : SMap S64} {k x : Core} (he : exec i s = run (issue c w .plain eff) s) (hk : IssuesAs k (coreOf s c))
    (heff : eff (coreOf s c) = { effPlain (afterAll one two three k) with tap := l })
    (hx : landAll three (landAll two (landAll one (stepped k (bankOf k)))) = x) (hl : atlLegal w (coreOf s c).pc = true) (h : AtWord c w s) :
    Completes i s (fun t => seen (coreOf t c) = withTap l x ∧ OnlyCore c s t) := by
  have hkeep {α : Type} (p : Core → α) (hp : ∀ n a k, p (coreLater n a k) = p k) : p (eff (coreOf s c)).core = p k := by
    rw [heff]
    exact afterAll_keeps p hp ..
  have hdone := completes_plain c w eff s he h hl (by rw [heff]; rfl) (by rw [heff]; rfl) (by rw [heff]; rfl)
    ((hkeep Core.delay coreLater_delay).trans (hk.delay.trans h.noDelay))
    ((hkeep (fun k => (bankOf k).loops) coreLater_loops).trans ((congrArg Bank.loops hk.bank).trans h.noLoop))
    ((hkeep Core.pc coreLater_pc).trans hk.pc)
  refine hdone.mono fun t ⟨hcore, honly⟩ => ⟨?_, honly⟩
  rw [hcore, heff, ← hx, ← seen_afterAll one two three l k ((congrArg Bank.wb hk.bank).trans h.noFlight), hk.pc]
  rfl

/-! ### Both pointers of one instruction (07 R224) -/

theorem landAll_append (acts acts' : List WbAct) (k : Core) : landAll (acts ++ acts') k = landAll acts' (landAll acts k) := List.foldl_append

/-- What the post-modification of a pointer puts in flight steps the pointer in whatever bank the core has stepped with. -/
theorem landAll_pmActs_stepped (nm : Bool) (i m : Nat) (k k0 : Core) (b : Bank) : landAll (pmActs nm i m k0) (stepped k b) =
    stepped k { b with p := if nm then b.p else smSet 0 b.p i (BitVec.ofNat 16 (pmVal k0 i m (coreP k0 i))) } := by
  cases nm with
  | false => exact (landAll_one ..).trans (wbApply_stepped_p ..)
  | true => rfl

/-- A pointer that both sides name, stepped for the X side and then for the Y side. -/
def pmTwice (nmx : Bool) (px mx : Nat) (nmy : Bool) (py my : Nat) (k : Core) : Nat :=
  let p := if nmx then coreP k px else pmVal k px mx (coreP k px)
  if nmy then p else pmVal k py my p

/-- What the post-modification of both sides puts in flight. -/
def pmBothActs (nmx : Bool) (px mx : Nat) (nmy : Bool) (py my : Nat) (k : Core) : List WbAct :=
  if px = py then (if nmx && nmy then [] else [.p px (BitVec.ofNat 16 (pmTwice nmx px mx nmy py my k))])
  else pmActs nmx px mx k ++ pmActs nmy py my k

/-- The pointers once both sides are stepped. -/
def pmBothP (nmx : Bool) (px mx : Nat) (nmy : Bool) (py my : Nat) (k : Core) : SMap (BitVec 16) :=
  if px = py then (if nmx && nmy then (bankOf k).p else smSet 0 (bankOf k).p px (BitVec.ofNat 16 (pmTwice nmx px mx nmy py my k)))
  else
    let p := if nmx then (bankOf k).p else smSet 0 (bankOf k).p px (BitVec.ofNat 16 (pmVal k px mx (coreP k px)))
    if nmy then p else smSet 0 p py (BitVec.ofNat 16 (pmVal k py my (coreP k py)))

section
variable (nmx : Bool) (px mx : Nat) (nmy : Bool) (py my : Nat) (k : Core)

theorem pmBoth_eq : pmBoth nmx px mx nmy py my k = afterMany 1 (pmBothActs nmx px mx nmy py my k) k := by
  unfold pmBoth pmBothActs
  by_cases h : px = py
  · subst h
    cases nmx <;> cases nmy <;> simp [pmTwice, afterMany]
  · rw [if_neg h, if_neg h, pmOne_eq, pmOne_eq, pmActs_afterMany]
    exact List.foldl_append.symm

theorem pmBothActs_afterMany (n : Nat) (acts : List WbAct) :
    pmBothActs nmx px mx nmy py my (afterMany n acts k) = pmBothActs nmx px mx nmy py my k := by
  refine afterMany_keeps (pmBothActs nmx px mx nmy py my) (fun a k => ?_) acts k
  simp only [pmBothActs, pmTwice, pmActs, pmVal_later, coreP_later]

theorem IssuesAs.pmBothActs {k k0 : Core} (h : IssuesAs k k0) :
    Machine.pmBothActs nmx px mx nmy py my k = Machine.pmBothActs nmx px mx nmy py my k0 := by
  unfold Machine.pmBothActs Machine.pmTwice Machine.pmActs pmVal coreP coreM coreB coreL
  rw [h.bank, h.starts, h.lengths]

theorem landAll_pmBothActs (k0 : Core) : landAll (pmBothActs nmx px mx nmy py my k0) (stepped k (bankOf k0)) =
    stepped k { bankOf k0 with p := pmBothP nmx px mx nmy py my k0 } := by
  unfold pmBothActs pmBothP
  by_cases h : px = py
  · rw [if_pos h, if_pos h]
    cases nmx && nmy with
    | false => exact (landAll_one ..).trans (wbApply_stepped_p ..)
    | true => rfl
  · rw [if_neg h, if_neg h, landAll_append, landAll_pmActs_stepped, landAll_pmActs_stepped]

end

/-! ### Sums that land in accumulators -/

/-- The bank with a sum in an accumulator, and X where an excursion was lost (02 R46, R48). -/
def accSummed (r : Nat) (v : Int) (b : Bank) : Bank :=
  { b with a := smSet accZero b.a r (accAdd (smGet accZero b.a r) v).1, sw := b.sw ||| ifX (accAdd (smGet accZero b.a r) v).2 }

theorem landAll_accAdd_cons (r : Nat) (v : Int) (acts : List WbAct) (k : Core) (b : Bank) :
    landAll (.accAdd r v :: acts) (stepped k b) = landAll acts (stepped k (accSummed r v b)) := by
  rw [landAll_cons, inHandler_stepped, wbApply_stepped_accAdd]
  rfl

theorem landAll_d_cons (r : Nat) (v : S64) (acts : List WbAct) (k : Core) (b : Bank) :
    landAll (.d r v :: acts) (stepped k b) = landAll acts (stepped k { b with d := smSet 0 b.d r v }) := by
  rw [landAll_cons, inHandler_stepped, wbApply_stepped_d]

/-- A loaded accumulator has lost nothing (02 R49). -/
theorem landAll_accLoad (r : Nat) (v : Int) (k : Core) (b : Bank) :
    landAll [.accSet r (accLoad v) false] (stepped k b) = stepped k { b with a := smSet accZero b.a r (accLoad v) } := by
  rw [landAll_one, wbApply_stepped_accSet k b r (accLoad v, false)]
  exact congrArg (fun sw => stepped k { b with a := smSet accZero b.a r (accLoad v), sw := sw }) BitVec.or_zero

theorem landAll_tap (r ra : Nat) (v : Int) (w : S64) (k : Core) (b : Bank) : landAll [.accAdd r v] (landAll [.d ra w] (stepped k b)) =
    stepped k (accSummed r v { b with d := smSet 0 b.d ra w }) :=
  (congrArg (landAll _) (landAll_d_cons ..)).trans (landAll_accAdd_cons ..)

/-! ### Taps over words without an error -/

section
variable {rd ra : Nat} {nmx : Bool} {px mx : Nat} {nmy : Bool} {py my : Nat} {k : Core} (hy : (memRd k 1 (coreP k py)).2 = [])
include hy

theorem effTap_eq (wb : Bool) (hx : (memRd k 0 (coreP k px)).2 = []) : effTap wb rd ra nmx px mx nmy py my k =
    { effPlain (pmBoth nmx px mx nmy py my (afterMany 2 [.d ra (memRd k 0 (coreP k px)).1]
        (afterMany 3 [.accAdd rd (prodC (coreHeld k ra) (yCoef k py).1)] (if wb then memWr k 0 (coreP k px) (coreHeld k ra) else k)))) with
      tap := [(ra, (memRd k 0 (coreP k px)).1)] } :=
  congrArg (fun e => (⟨_, e, _, none, none⟩ : IssueEff)) (List.append_eq_nil_iff.2 ⟨hy, hx⟩)

theorem effTap2_eq (hx0 : (memRd k 0 (coreP k px / 2 * 2)).2 = []) (hx1 : (memRd k 0 (coreP k px / 2 * 2 + 1)).2 = []) :
    effTap2 rd ra nmx px mx nmy py my k =
    { effPlain (pmBoth nmx px mx nmy py my
        (afterMany 2 [.d ra (memRd k 0 (coreP k px / 2 * 2)).1, .d (ra + 1) (memRd k 0 (coreP k px / 2 * 2 + 1)).1]
          (afterMany 3 [.accAdd rd (prodC (coreHeld k ra) (yCoef k py).1), .accAdd (rd + 1) (prodC (coreHeld k (ra + 1)) (yCoef k py).1)] k)))
      with tap := [(ra, (memRd k 0 (coreP k px / 2 * 2)).1), (ra + 1, (memRd k 0 (coreP k px / 2 * 2 + 1)).1)] } :=
  congrArg (fun e => (⟨_, e, _, none, none⟩ : IssueEff)) (List.append_eq_nil_iff.2 ⟨List.append_eq_nil_iff.2 ⟨hy, hx0⟩, hx1⟩)

end

/-! ### Legal words of format M (07 R219) -/

/-- MACY, MSUY and MPYY. -/
theorem atlLegal_productY {op : Nat} (hop : op = 0x55 ∨ op = 0x56 ∨ op = 0x57) (rd : Fin 4) (ra : Fin 16) (nmy : Bool) (py my : Fin 8)
    (pc : Nat) : atlLegal (encM op rd ra 0 false 0 0 nmy py my) pc = true := by
  obtain rfl | rfl | rfl := hop <;>
    exact legalM _ rd ra 0 false 0 0 nmy py my pc (by decide) (by omega) (by omega) (by decide) (by decide) (by decide) (by omega) (by omega)
      (by simp [b2n])

/-- TAP and TAPW. -/
theorem atlLegal_tap {op : Nat} (hop : op = 0x58 ∨ op = 0x59) (rd : Fin 4) (ra : Fin 16) (nmx : Bool) (px mx : Fin 8) (nmy : Bool)
    (py my : Fin 8) (pc : Nat) : atlLegal (encM op rd ra 0 nmx px mx nmy py my) pc = true := by
  obtain rfl | rfl := hop <;>
    exact legalM _ rd ra 0 nmx px mx nmy py my pc (by decide) (by omega) (by omega) (by decide) (by omega) (by omega) (by omega) (by omega)
      (by simp)

theorem atlLegal_tap2 (pair : Bool) (h : Fin 8) (nmx : Bool) (px mx : Fin 8) (nmy : Bool) (py my : Fin 8) (pc : Nat) :
    atlLegal (encM 0x5A (2 * b2n pair) (2 * h) 0 nmx px mx nmy py my) pc = true := by
  refine legalM _ _ _ 0 nmx px mx nmy py my pc (by decide) ?_ (by omega) (by decide) (by omega) (by omega) (by omega) (by omega) ?_
  · cases pair <;> decide
  · cases pair <;> simp [b2n]

/-! ### The instructions -/

section
variable {i : Instr} {c : Fin 68} {w : BitVec 64} {s : State} (eff : Core → IssueEff)

/-- A product that steps its Y pointer: its result lands in the bank in which the pointer is stepped. -/
theorem completes_productY (a : WbAct) {nmy : Bool} {py my : Nat} {b : Bank} (he : exec i s = run (issue c w .plain eff) s)
    (heff : eff (coreOf s c) = effPlain (pmOne nmy py my (afterMany 3 [a] (coreOf s c))))
    (hx : landAll [a] (stepped (coreOf s c) (pmBank nmy py my (coreOf s c))) = stepped (coreOf s c) b)
    (hl : atlLegal w (coreOf s c).pc = true) (h : AtWord c w s) :
    Completes i s (fun t => seen (coreOf t c) = stepped (coreOf s c) b ∧ OnlyCore c s t) := by
  rw [← withTap_nil_stepped]
  refine completes_afterAll eff (pmActs nmy py my (coreOf s c)) [] [a] he (IssuesAs.refl _) ?_ ?_ hl h
  · rw [heff, pmOne_eq, pmActs_afterMany]
    rfl
  · rw [landAll_pmActs]
    exact hx

/-- A product that is added to its accumulator. -/
theorem completes_productY_sum {nmy : Bool} {py my : Nat} (rd : Nat) (v : Int) (he : exec i s = run (issue c w .plain eff) s)
    (heff : eff (coreOf s c) = effPlain (pmOne nmy py my (coreLater 3 (.accAdd rd v) (coreOf s c))))
    (hl : atlLegal w (coreOf s c).pc = true) (h : AtWord c w s) :
    Completes i s (fun t => seen (coreOf t c) = stepped (coreOf s c) (accSummed rd v (pmBank nmy py my (coreOf s c))) ∧ OnlyCore c s t) :=
  completes_productY eff (.accAdd rd v) he heff (landAll_accAdd_cons ..) hl h

/-- A tap steps both pointers: its loads and its sums land, and its loads are kept for the tap that follows. -/
theorem completes_tap (loads sums : List WbAct) {nmx : Bool} {px mx : Nat} {nmy : Bool} {py my : Nat} {l : SMap S64} {k x : Core}
    (he : exec i s = run (issue c w .plain eff) s) (hk : IssuesAs k (coreOf s c))
    (heff : eff (coreOf s c) = { effPlain (pmBoth nmx px mx nmy py my (afterMany 2 loads (afterMany 3 sums k))) with tap := l })
    (hx : landAll sums (landAll loads (stepped k { bankOf (coreOf s c) with p := pmBothP nmx px mx nmy py my (coreOf s c) })) = x)
    (hl : atlLegal w (coreOf s c).pc = true) (h : AtWord c w s) :
    Completes i s (fun t => seen (coreOf t c) = withTap l x ∧ OnlyCore c s t) := by
  refine completes_afterAll eff (pmBothActs nmx px mx nmy py my (coreOf s c)) loads sums he hk ?_ ?_ hl h
  · rw [heff, pmBoth_eq, pmBothActs_afterMany, pmBothActs_afterMany, hk.pmBothActs]
    rfl
  · rw [hk.bank, landAll_pmBothActs]
    exact hx

end

/-- Settles O6: each product lands in its accumulator beside its stepped Y pointer; a tap's products land after its loads, beside both
stepped pointers. -/
theorem tapsAndYProducts : Obligations.TapsAndYProducts := by
  intro s c rd ra pair h nmx nmy px mx py my k b y x x0 x1 stepY stepXY acc tapped gives pr hy
  have hpr : pr = 2 * b2n pair := by cases pair <;> rfl
  have hxy : stepXY = pmBothP nmx px mx nmy py my k := if_congr Fin.ext_iff rfl rfl
  rw [hpr, hxy]
  refine ⟨?_, ?_, ?_, ?_, ?_, ?_⟩
  · exact completes_productY_sum _ rd (prodC (coreD k ra) y) rfl (congrArg (fun e => { effPlain _ with evs := e }) hy)
      (atlLegal_productY (by decide) ..)
  · exact completes_productY_sum _ rd (-(prodC (coreD k ra) y)) rfl (congrArg (fun e => { effPlain _ with evs := e }) hy)
      (atlLegal_productY (by decide) ..)
  · exact completes_productY _ (.accSet rd (accLoad (prodC (coreD k ra) y)) false) rfl (congrArg (fun e => { effPlain _ with evs := e }) hy)
      (landAll_accLoad ..) (atlLegal_productY (by decide) ..)
  · intro hat hx
    exact completes_tap _ [.d ra x.1] [.accAdd rd (prodC (coreHeld k ra) y)] rfl (IssuesAs.refl _) (effTap_eq hy false hx)
      (landAll_tap ..) (atlLegal_tap (by decide) ..) hat
  · intro hat hx
    exact completes_tap _ [.d ra x.1] [.accAdd rd (prodC (coreHeld k ra) y)] rfl (memWr_issuesAs k 0 (coreP k px) (coreHeld k ra))
      (effTap_eq hy true hx) (landAll_tap ..) (atlLegal_tap (by decide) ..) hat
  · intro hat hx0 hx1
    refine completes_tap _ [.d (2 * h.val) x0.1, .d (2 * h.val + 1) x1.1]
      [.accAdd (2 * b2n pair) (prodC (coreHeld k (2 * h.val)) y), .accAdd (2 * b2n pair + 1) (prodC (coreHeld k (2 * h.val + 1)) y)]
      rfl (IssuesAs.refl _) (effTap2_eq hy hx0 hx1) ?_ (atlLegal_tap2 ..) hat
    rw [landAll_d_cons, landAll_d_cons]
    exact (landAll_accAdd_cons ..).trans (landAll_accAdd_cons ..)

end Sys2Proof.Machine
end

section
/-! PROOF. 08 R243 to R245: start and stop of a tick domain (O37). -/

namespace Sys2Proof.Machine

/-! ### The islands that a start places (03 R68, 18 R550) -/

/-- Placing islands writes registers of the Gallery's and the Atelier's units alone. -/
theorem islandsResume_frame {β : Type} (p : State → β) (h : ∀ s k f v, 0x200000 ≤ k → p (fset s k f v) = p s) (s : State) :
    p (islandsResume s) = p s := by
  have hclk (kind u : Nat) (s : State) : p (setClk s kind u) = p s := by
    unfold setClk
    split
    · exact h _ _ _ _ (by unfold GAL_TILE_STATUS; omega)
    · exact h _ _ _ _ (by unfold ATL_CORE_STATUS; omega)
    · rfl
  have hplace (d : Nat) (s : State) : p (islandsPlace d s) = p s := by
    unfold islandsPlace
    split_ifs
    · exact foldl_frame p _ (fun s i => hclk 1 _ s) _ s
    · exact foldl_frame p _ (fun s i => hclk 2 _ s) _ s
    · rfl
  unfold islandsResume
  dsimp only
  split_ifs
  · refine foldl_frame p _ (fun s d => ?_) _ s
    split_ifs
    · exact hplace d s
    · rfl
  · rfl

theorem islandsResume_tim (s : State) : (islandsResume s).tim = s.tim := islandsResume_frame State.tim (fun _ _ _ _ _ => rfl) s
theorem islandsResume_prt (s : State) : (islandsResume s).prt = s.prt := islandsResume_frame State.prt (fun _ _ _ _ _ => rfl) s

theorem rd_islandsResume {k : Nat} (hk : k < 0x200000) (s : State) : rd (islandsResume s) k = rd s k :=
  islandsResume_frame (fun s => rd s k) (fun _ _ _ _ hn => rd_fset_ne _ _ _ _ _ (Nat.ne_of_lt (hk.trans_le hn))) s

/-! ### The control register of a domain (15 R460, log 35) -/

theorem domNo_le (x : Dom) : domNo x ≤ 2 := by cases x <;> decide

theorem softWrite_domCtrl {s : State} {x : Dom} (m : Nat) (w : W32) (hon : regOn s (TIM_DOM_CTRL (domNo x)) = true) :
    softWrite m (TIM_DOM_CTRL (domNo x)) w s = domCtrl x w s := by
  unfold softWrite
  rw [if_pos hon]
  cases x <;> rfl

theorem domCtrl_start {w : W32} (x : Dom) (s : State) (hstart : wbit w TIM_DOM_CTRL_start = true) (hstop : wbit w TIM_DOM_CTRL_stop = false) :
    domCtrl x w s = genStart x s := by
  unfold domCtrl
  rw [hstart, hstop]
  rfl

theorem domCtrl_stop {w : W32} (x : Dom) (s : State) (hstart : wbit w TIM_DOM_CTRL_start = false) (hstop : wbit w TIM_DOM_CTRL_stop = true) :
    domCtrl x w s = genStop x s := by
  unfold domCtrl
  rw [hstart, hstop]
  rfl

/-! ### The status of a domain -/

theorem fget_domStatus_settled (s u : State) (x : Dom) (f : Fld) :
    fget (keep s (settle u)) (TIM_DOM_STATUS (domNo x)) f = fget u (TIM_DOM_STATUS (domNo x)) f :=
  (settled_above s u).fget (by unfold TIM_DOM_STATUS; omega) f

theorem genRefuse_refusal (x : Dom) {c : Nat} (hc : c < 16) (s : State) :
    fget (genRefuse x c s) (TIM_DOM_STATUS (domNo x)) TIM_DOM_STATUS_refusal = c :=
  (fget_fset _ _ _ _ (by decide)).trans (Nat.mod_eq_of_lt hc)

theorem genRefuse_running (x : Dom) (c : Nat) (s : State) :
    fget (genRefuse x c s) (TIM_DOM_STATUS (domNo x)) TIM_DOM_STATUS_running = fget s (TIM_DOM_STATUS (domNo x)) TIM_DOM_STATUS_running :=
  fget_fset_other _ _ _ _ _ (by decide) (by decide)

theorem genRefuse_tim (x : Dom) (c : Nat) (s : State) : (genRefuse x c s).tim = s.tim := fset_tim ..

/-- A control write that is answered with the code `c` alone. -/
theorem completes_domRefused {i : Instr} {s : State} {x : Dom} {c : Nat} (f : State → State) (he : exec i s = run f s) (ready : Ready s)
    (hc : c < 16) (hf : f (quietOut s) = genRefuse x c (quietOut s)) :
    Completes i s (fun t => fget t (TIM_DOM_STATUS (domNo x)) TIM_DOM_STATUS_refusal = c ∧ t.tim = s.tim) := by
  refine completes_run f he ready ?_
  rw [hf]
  exact ⟨(fget_domStatus_settled ..).trans (genRefuse_refusal x hc _), (settle_tim _).trans (genRefuse_tim ..)⟩

/-! ### A start (08 R243, R244) -/

/-- Domain `x` is C, set to run on its own. -/
def startsAlone (s : State) (x : Dom) : Bool := x == .C && fbit s (TIM_DOM_CFG 2) TIM_DOM_CFG_independent

/-- The grid that a start takes its first index from: a domain that does not run on its own starts on one that steps have not moved. -/
def startGrid (s : State) (x : Dom) : State :=
  if startsAlone s x then s else { s with tim := { s.tim with rho := pdSet s.tim.rho x 0 } }

/-- The generator that a start leaves. -/
def startGen (s : State) (x : Dom) : Gen :=
  let rate := wget (rd s (TIM_DOM_CFG (domNo x))) TIM_DOM_CFG_rate
  let n := firstIndex (startGrid s x) x (rateHz rate)
  ⟨true, rate, startsAlone s x, n, none,
    if startsAlone s x then s.tim.elapsed + (tickTime s x (rateHz rate) n - s.tim.freiz) else 0⟩

theorem startsAlone_eq (s : State) (x : Dom) :
    (x == .C && wbit (rd s (TIM_DOM_CFG (domNo x))) TIM_DOM_CFG_independent) = startsAlone s x := by cases x <;> rfl

theorem firstIndex_congr {s t : State} {x : Dom} (htim : t.tim = s.tim)
    (hlo : rd t (TIM_DOM_START_LO (domNo x)) = rd s (TIM_DOM_START_LO (domNo x)))
    (hhi : rd t (TIM_DOM_START_HI (domNo x)) = rd s (TIM_DOM_START_HI (domNo x))) (f : Nat) : firstIndex t x f = firstIndex s x f := by
  unfold firstIndex indexAt get64
  rw [htim, hlo, hhi]

theorem tickTime_congr {s t : State} (htim : t.tim = s.tim) (x : Dom) (f n : Nat) : tickTime t x f n = tickTime s x f n := by
  unfold tickTime
  rw [htim]

theorem genStart_running {s : State} {x : Dom} (h : running s x = true) : genStart x s = genRefuse x 3 s := if_pos h

theorem genStart_badRate {s : State} {x : Dom} (h : running s x = false)
    (hr : 5 < wget (rd s (TIM_DOM_CFG (domNo x))) TIM_DOM_CFG_rate) : genStart x s = genRefuse x 2 s :=
  (if_neg (Bool.eq_false_iff.mp h)).trans (if_pos hr)

/-- What an accepted start leaves. -/
structure Started (s : State) (x : Dom) (t : State) : Prop where
  refusal : fget t (TIM_DOM_STATUS (domNo x)) TIM_DOM_STATUS_refusal = 0
  running : fget t (TIM_DOM_STATUS (domNo x)) TIM_DOM_STATUS_running = 1
  tim : t.tim = (setGen x (startGen s x) (startGrid s x)).tim
  mem : t.mem = s.mem
  prt : t.prt = s.prt

theorem genStart_accepted {s : State} {x : Dom} (h : running s x = false)
    (hr : wget (rd s (TIM_DOM_CFG (domNo x))) TIM_DOM_CFG_rate ≤ 5) : Started s x (genStart x s) := by
  have hcfg : domNo x ≤ 2 := domNo_le x
  unfold genStart
  extract_lets cfg rate indep s1 tim s0 n due s2 k
  have hindep : indep = startsAlone s x := startsAlone_eq s x
  have htim : s1.tim = s.tim := islandsResume_tim s
  have h0 : s0.tim = (startGrid s x).tim := by
    unfold s0 startGrid
    rw [hindep]
    split_ifs
    · exact htim
    · exact congrArg (fun m : TimSt => { m with rho := pdSet m.rho x 0 }) htim
  have hgrid (k : Nat) : rd (startGrid s x) k = rd s k := by
    unfold startGrid
    split_ifs <;> rfl
  have hrd {k : Nat} (hk : k < 0x200000) : rd s0 k = rd (startGrid s x) k := by
    refine Eq.trans ?_ ((rd_islandsResume hk s).trans (hgrid k).symm)
    unfold s0
    split_ifs <;> rfl
  have hn : n = firstIndex (startGrid s x) x (rateHz rate) :=
    firstIndex_congr h0 (hrd (by unfold TIM_DOM_START_LO; omega)) (hrd (by unfold TIM_DOM_START_HI; omega)) _
  have hgen : (⟨true, rate, indep, n, none, due⟩ : Gen) = startGen s x := by
    have hdue : due = if startsAlone s x then s.tim.elapsed + (tickTime s x (rateHz rate) n - s.tim.freiz) else 0 := by
      unfold due
      rw [hindep]
      refine ite_congr rfl (fun ha => ?_) fun _ => rfl
      rw [tickTime_congr (h0.trans (congrArg State.tim (if_pos ha))) x]
    rw [hdue, hindep, hn]
    rfl
  rw [if_neg (Bool.eq_false_iff.mp h), if_neg (Nat.not_lt.mpr hr)]
  have hs0 {β : Type} (p : State → β) (hp : ∀ s r, p { s with tim := r } = p s) : p s0 = p s1 := by
    unfold s0
    split_ifs
    · rfl
    · exact hp ..
  refine ⟨genRefuse_refusal x (by decide) _, ?_, ?_, ?_, ?_⟩
  · refine (genRefuse_running ..).trans ((fget_fset_other _ _ _ _ _ (by decide) (by decide)).trans (fget_fset _ _ _ _ (by decide)))
  · unfold s2
    rw [hgen]
    exact congrArg (fun m : TimSt => { m with gens := pdSet m.gens x (startGen s x) }) h0
  · exact (hs0 State.mem fun _ _ => rfl).trans (islandsResume_mem s)
  · exact (hs0 State.prt fun _ _ => rfl).trans (islandsResume_prt s)

/-! ### A stop (08 R245) -/

theorem genStop_bound {s : State} {x : Dom} (h : domBound s x = true) : genStop x s = genRefuse x 1 s := if_pos h

/-- What an accepted stop leaves. -/
structure Stopped (s : State) (x : Dom) (t : State) : Prop where
  refusal : fget t (TIM_DOM_STATUS (domNo x)) TIM_DOM_STATUS_refusal = 0
  running : fget t (TIM_DOM_STATUS (domNo x)) TIM_DOM_STATUS_running = 0
  tim : t.tim = (setGen x { genOf s x with running := false } s).tim
  mem : t.mem = s.mem
  prt : t.prt = s.prt

theorem genStop_free {s : State} {x : Dom} (h : domBound s x = false) : Stopped s x (genStop x s) := by
  have hstop : genStop x s = genRefuse x 0
      (fset (setGen x { genOf s x with running := false } s) (TIM_DOM_STATUS (domNo x)) TIM_DOM_STATUS_running 0) :=
    if_neg (Bool.eq_false_iff.mp h)
  rw [hstop]
  exact ⟨genRefuse_refusal x (by decide) _, (genRefuse_running ..).trans (fget_fset _ _ _ _ (by decide)), rfl, rfl, rfl⟩

theorem startGrid_quietOut (s : State) (x : Dom) : startGrid (quietOut s) x = quietOut (startGrid s x) := by
  unfold startGrid
  rw [apply_ite quietOut]
  rfl

theorem startGen_quietOut (s : State) (x : Dom) : startGen (quietOut s) x = startGen s x := by
  unfold startGen
  rw [startGrid_quietOut]
  rfl

/-! ### Both over the settling of the state -/

theorem Started.gen {s t : State} {x : Dom} (h : Started s x t) : genOf t x = startGen s x :=
  (genOf_congr h.tim x).trans ((genOf_setGen ..).trans (if_pos rfl))

theorem startGrid_gens (s : State) (x : Dom) : (startGrid s x).tim.gens = s.tim.gens := by
  unfold startGrid
  split_ifs <;> rfl

theorem startGrid_freiz (s : State) (x : Dom) : (startGrid s x).tim.freiz = s.tim.freiz := by
  unfold startGrid
  split_ifs <;> rfl

theorem Started.gen_other {s t : State} {x y : Dom} (h : Started s x t) (hy : y ≠ x) : genOf t y = genOf s y :=
  (genOf_congr h.tim y).trans ((genOf_setGen ..).trans ((if_neg hy).trans (congrArg (pdGet · y) (startGrid_gens s x))))

theorem Started.rho {s t : State} {x : Dom} (h : Started s x t) (ha : startsAlone s x = false) : pdGet t.tim.rho x = 0 := by
  have hrho : t.tim.rho = pdSet s.tim.rho x 0 := by
    rw [h.tim]
    exact congrArg (fun u : State => u.tim.rho) (if_neg (Bool.eq_false_iff.mp ha))
  rw [hrho, pdGet_pdSet, if_pos rfl]

theorem Started.settled {s t u : State} {x : Dom} (h : Started s x t) : Started s x (keep u (settle t)) :=
  ⟨(fget_domStatus_settled ..).trans h.refusal, (fget_domStatus_settled ..).trans h.running, (settle_tim t).trans h.tim,
    (settle_mem t).trans h.mem, (settle_prt t).trans h.prt⟩

theorem Stopped.settled {s t u : State} {x : Dom} (h : Stopped s x t) : Stopped s x (keep u (settle t)) :=
  ⟨(fget_domStatus_settled ..).trans h.refusal, (fget_domStatus_settled ..).trans h.running, (settle_tim t).trans h.tim,
    (settle_mem t).trans h.mem, (settle_prt t).trans h.prt⟩

theorem Stopped.gen {s t : State} {x : Dom} (h : Stopped s x t) (y : Dom) :
    genOf t y = if y = x then { genOf s x with running := false } else genOf s y := (genOf_congr h.tim y).trans (genOf_setGen ..)

/-- Settles O37: a start and a stop answer by the domain's state, rate and bindings, and change its generator alone. -/
theorem domainControl : Obligations.DomainControl := by
  intro s x w ready hon rate refusal
  have hwrite : softWrite 8 (TIM_DOM_CTRL (domNo x)) w (quietOut s) = domCtrl x w (quietOut s) := softWrite_domCtrl 8 w hon
  refine ⟨fun hstart hstop => ?_, fun hstart hstop => ?_⟩
  · have hgo : softWrite 8 (TIM_DOM_CTRL (domNo x)) w (quietOut s) = genStart x (quietOut s) := hwrite.trans (domCtrl_start x _ hstart hstop)
    refine ⟨fun h => ?_, fun h hr => ?_, fun h hr => ?_⟩
    · exact completes_domRefused _ rfl ready (by decide) (hgo.trans (genStart_running h))
    · exact completes_domRefused _ rfl ready (by decide) (hgo.trans (genStart_badRate h hr))
    · refine completes_run (softWrite 8 (TIM_DOM_CTRL (domNo x)) w) rfl ready ?_
      rw [hgo]
      have done : Started (quietOut s) x (keep s (settle (genStart x (quietOut s)))) := (genStart_accepted (s := quietOut s) h hr).settled
      exact ⟨done.refusal, done.running, ⟨done.gen.trans (startGen_quietOut s x), done.rho⟩, fun y hy => done.gen_other hy,
        (congrArg TimSt.freiz done.tim).trans (startGrid_freiz ..), done.mem, done.prt⟩
  · have hgo : softWrite 8 (TIM_DOM_CTRL (domNo x)) w (quietOut s) = genStop x (quietOut s) := hwrite.trans (domCtrl_stop x _ hstart hstop)
    refine ⟨fun h => ?_, fun h => ?_⟩
    · exact completes_domRefused _ rfl ready (by decide) (hgo.trans (genStop_bound h))
    · refine completes_run (softWrite 8 (TIM_DOM_CTRL (domNo x)) w) rfl ready ?_
      rw [hgo]
      have done : Stopped (quietOut s) x (keep s (settle (genStop x (quietOut s)))) := (genStop_free (s := quietOut s) h).settled
      exact ⟨done.refusal, done.running, congrArg Gen.running ((done.gen x).trans (if_pos rfl)),
        fun y hy => (done.gen y).trans (if_neg hy), done.mem, done.prt⟩

end Sys2Proof.Machine
end

section
/-! PROOF. 15 R460: software writes to the registers of the ports' block; 08 R251 to R256: start, run, stop and blocks of a bridge (O38). -/

namespace Sys2Proof.Machine

/-! ### A software write to a register of the ports' block (15 R460) -/

theorem inst_below {k base : Nat} (stride n : Nat) (h : k < base) : inst k base stride n = none := if_neg fun hb => absurd hb.1 (Nat.not_le.mpr h)

theorem inst_beyond {k base stride n : Nat} (hs : 0 < stride) (h : base + stride * n ≤ k) : inst k base stride n = none := by
  refine if_neg fun hb => absurd hb.2.2 (Nat.not_lt.mpr ((Nat.le_div_iff_mul_le hs).mpr ?_))
  rw [Nat.mul_comm]
  omega

theorem onInst_none {k base stride n : Nat} (h : inst k base stride n = none) (f : Nat → State → State) (other : State → State) (s : State) :
    onInst k base stride n f other s = other s := by
  unfold onInst
  rw [h]

theorem onInst_some {k base stride n i : Nat} (h : inst k base stride n = some i) (f : Nat → State → State) (other : State → State)
    (s : State) : onInst k base stride n f other s = f i s := by
  unfold onInst
  rw [h]

/-- A write to the configuration of a side, or to a register without an action of its own. -/
def sideAction (m k : Nat) (v : W32) (s : State) : State :=
  match (List.range 160).find? (fun i => k == PRT_SIDE_CFG i) with
  | some i => sideCfg m i v s
  | none => swWrite s m k v

/-- The ports' registers with an action of their own, and the others. -/
theorem softWrite_port {k : Nat} {s : State} (m : Nat) (v : W32) (h : k / 0x40000 = 8) (hon : regOn s k = true) :
    softWrite m k v s =
      if k = PRT_GP_OUT then gpWrite m k v s
      else if k = PRT_GP_SENT_CLR then sentClear v s
      else onInst k (PRT_GP_CFG 0) 4 32 (fun _ s => gpWrite m k v s)
        (onInst k (PRT_BR_CTRL 0) 8 256 (fun b s => brCtrl b v s) (sideAction m k v)) s := by
  have hctl : ¬k < 6 * 0x40000 := by omega
  have hlink : k < 11 * 0x40000 := by omega
  unfold softWrite regWrite regWriteLink
  rw [if_pos hon, if_neg hctl, if_pos hlink, h]
  rfl

/-! ### The registers of a bridge -/

theorem softWrite_brCtrl {s : State} (m : Nat) (b : Fin 256) (w : W32) (hon : regOn s (PRT_BR_CTRL b) = true) :
    softWrite m (PRT_BR_CTRL b) w s = brCtrl b w s := by
  have hblock : PRT_BR_CTRL b / 0x40000 = 8 := by unfold PRT_BR_CTRL; omega
  have hout : PRT_BR_CTRL b ≠ PRT_GP_OUT := by unfold PRT_BR_CTRL PRT_GP_OUT; omega
  have hclr : PRT_BR_CTRL b ≠ PRT_GP_SENT_CLR := by unfold PRT_BR_CTRL PRT_GP_SENT_CLR; omega
  have hpin : inst (PRT_BR_CTRL b) (PRT_GP_CFG 0) 4 32 = none := inst_below _ _ (by unfold PRT_BR_CTRL PRT_GP_CFG; omega)
  have hbr : inst (PRT_BR_CTRL b) (PRT_BR_CTRL 0) 8 256 = some b.val := inst_self (by decide) b.isLt
  rw [softWrite_port m w hblock hon, if_neg hout, if_neg hclr, onInst_none hpin, onInst_some hbr]

theorem bridge_congr {s t : State} (h : t.prt = s.prt) (b : Nat) : bridge t b = bridge s b := by
  unfold bridge
  rw [h]

theorem bridge_setBridge (b : Nat) (v : Option Bridge) (s : State) : bridge (setBridge b v s) b = v := smGet_smSet_same ..

theorem brState_setBrState (b : Nat) {v : Nat} (hv : v < 4) (s : State) : brState (setBrState b v s) b = v :=
  (fget_fset _ _ _ _ (by decide)).trans (Nat.mod_eq_of_lt hv)

theorem brState_settled (s u : State) (b : Nat) : brState (keep s (settle u)) b = brState u b :=
  (settled_above s u).fget (by unfold PRT_BR_STATUS; omega) _

theorem bridge_settled (s u : State) (b : Nat) : bridge (keep s (settle u)) b = bridge u b := bridge_congr (settle_prt u) b

/-- The bridge with another running state. -/
def brMoved (b st : Nat) (v : Option Bridge) (s : State) : State := setBrState b st (setBridge b v s)

/-- A command that gives a bridge a new state and its status a new field. -/
theorem completes_brMoved {i : Instr} {s : State} {b st : Nat} {v : Option Bridge} (f : State → State) (he : exec i s = run f s)
    (ready : Ready s) (hst : st < 4) (hf : f (quietOut s) = brMoved b st v (quietOut s)) :
    Completes i s (fun t => brState t b = st ∧ bridge t b = v) := by
  refine completes_run f he ready ?_
  rw [hf]
  exact ⟨(brState_settled ..).trans (brState_setBrState b hst _),
    (bridge_settled ..).trans ((bridge_congr (fset_prt ..) b).trans (bridge_setBridge b v _))⟩

/-! ### Start and stop (08 R255, R256) -/

/-- What a domain's rate is read from, and whether it runs on its own. -/
theorem domRate_congr {s t : State} {x : Dom} (htim : t.tim = s.tim)
    (hcfg : rd t (TIM_DOM_CFG (domNo x)) = rd s (TIM_DOM_CFG (domNo x))) : domRate t x = domRate s x := by
  unfold domRate running
  rw [genOf_congr htim, fget_congr _ _ _ _ hcfg]

theorem isIndep_congr {s t : State} (htim : t.tim = s.tim) (hcfg : rd t (TIM_DOM_CFG 2) = rd s (TIM_DOM_CFG 2)) (x : Dom) :
    isIndep t x = isIndep s x := by
  unfold isIndep running fbit
  rw [genOf_congr htim, fget_congr _ _ _ _ hcfg]

theorem brRefusal_lt (s : State) (b : Nat) : brRefusal s b < 16 := by
  unfold brRefusal
  split
  · split_ifs <;> decide
  · decide

/-- The status with the answer to a start. -/
def brAnswered (b : Nat) (s : State) : State := fset s (PRT_BR_STATUS b) PRT_BR_STATUS_refusal (brRefusal s b)

theorem brAnswered_refusal (b : Nat) (s : State) : fget (brAnswered b s) (PRT_BR_STATUS b) PRT_BR_STATUS_refusal = brRefusal s b :=
  (fget_fset _ _ _ _ (by decide)).trans (Nat.mod_eq_of_lt (brRefusal_lt s b))

theorem brAnswered_state (b : Nat) (s : State) : brState (brAnswered b s) b = brState s b :=
  fget_fset_other _ _ _ _ _ (by decide) (by decide)

theorem rd_brAnswered {b k : Nat} (s : State) (h : k ≠ PRT_BR_STATUS b) : rd (brAnswered b s) k = rd s k := rd_fset_ne _ _ _ _ _ h

theorem brCtrl_started {b : Nat} {w : W32} {s : State} (hstart : wbit w PRT_BR_CTRL_start = true)
    (hstop : wbit w PRT_BR_CTRL_stop = false) (h : brState s b = brSTOPPED) : brCtrl b w s =
      if brRefusal s b = 0 then brStartAt b (get64 s (PRT_BR_START_LO b) (PRT_BR_START_HI b)) (brAnswered b s) else brAnswered b s := by
  unfold brCtrl
  rw [hstart, hstop, if_pos ⟨rfl, h⟩]
  dsimp only
  split
  · exact if_neg fun hs => absurd hs.1 Bool.false_ne_true
  · rfl

theorem brCtrl_stopped {b : Nat} {w : W32} {s : State} {v : Bridge} (hstart : wbit w PRT_BR_CTRL_start = false)
    (hstop : wbit w PRT_BR_CTRL_stop = true) (hv : bridge s b = some v) (h : brState s b ≠ brSTOPPING) :
    brCtrl b w s = brMoved b brSTOPPING (some (brFade 0 v)) s := by
  unfold brCtrl
  rw [hstart, hstop, if_neg fun hs => absurd hs.1 Bool.false_ne_true]
  unfold bridge at hv
  dsimp only
  rw [hv]
  exact if_pos ⟨rfl, h⟩

/-- The bridge that a start with first output index `first` (0: the second output tick from now) sets up from domain `x` to `y`. -/
def bridgeNew (s : State) (b first : Nat) (x y : Dom) : Bridge :=
  { inDom := x, outDom := y, inD := fbit s (PRT_BR_CFG b) PRT_BR_CFG_in_dslot, slot := fget s (PRT_BR_CFG b) PRT_BR_CFG_in_slot,
    async := isIndep s x || isIndep s y, inRate := domRate s x, outRate := domRate s y,
    s := if first = 0 then (genOf s y).next + 1 else first, lat := brLat (isIndep s x || isIndep s y) (domRate s y),
    hist := [], first := none, stamps := [], u := none, r := ratioNominal (domHz s x) (domHz s y), words := [],
    own := false, base := 0, err := 0, integ := 0, steady := false, calm := 0, blocks := 0, block := 0,
    gain := 0, fadeFrom := 0, fadeTo := 0, k := 64, out := 0 }

theorem brStartAt_waits {s : State} {b : Nat} {x y : Dom} (first : Nat)
    (hx : domOf (fget s (PRT_BR_CFG b) PRT_BR_CFG_in_domain) = some x) (hy : domOf (fget s (PRT_BR_CFG b) PRT_BR_CFG_out_domain) = some y) :
    brState (brStartAt b first s) b = brWAITING ∧ bridge (brStartAt b first s) b = some (bridgeNew s b first x y) ∧
    fget (brStartAt b first s) (PRT_BR_STATUS b) PRT_BR_STATUS_refusal = fget s (PRT_BR_STATUS b) PRT_BR_STATUS_refusal := by
  unfold brStartAt
  rw [hx, hy]
  refine ⟨brState_setBrState b (by decide) _, bridge_setBridge b _ s, ?_⟩
  exact (fget_fset_other _ _ _ _ _ (by decide) (by decide)).trans ((fget_fset_other _ _ _ _ _ (by decide) (by decide)).trans
    ((fget_fset_other _ _ _ _ _ (by decide) (by decide)).trans (fget_fset_other _ _ _ _ _ (by decide) (by decide))))

theorem brRefusal_none {s : State} {b : Nat} {x y : Dom} (hx : domOf (fget s (PRT_BR_CFG b) PRT_BR_CFG_in_domain) = some x)
    (hy : domOf (fget s (PRT_BR_CFG b) PRT_BR_CFG_out_domain) = some y) (hne : x ≠ y) (hrx : running s x = true)
    (hry : running s y = true) : brRefusal s b = 0 := by
  unfold brRefusal
  rw [hx, hy]
  simp [hne, hrx, hry]

/-! ### The bridge runs (08 R252, R255) -/

theorem doBridgeOutputStart_runs {s : State} {b : Fin 256} {v : Bridge} (hv : bridge s b = some v) (hsync : v.async = false)
    (hwait : brState s b = brWAITING) (hdue : v.s + v.lat ≤ (genOf s v.outDom).next) :
    doBridgeOutputStart b s = brMoved b brRUNNING (some (brFade unityG v)) s := by
  unfold doBridgeOutputStart
  rw [hv]
  unfold bridge at hv
  dsimp only [brOutputStart]
  rw [hv]
  exact if_pos ⟨by rw [hsync]; rfl, hwait, hdue⟩

theorem doBridgeRunning_runs {s : State} {b : Fin 256} {v : Bridge} (hv : bridge s b = some v) (hasync : v.async = true)
    (hwait : brState s b = brWAITING) (hcalm : 64 ≤ v.calm) : doBridgeRunning b s = brMoved b brRUNNING (some (brFade unityG v)) s := by
  unfold bridge at hv
  unfold doBridgeRunning brSettled
  rw [hv]
  exact if_pos ⟨hasync, hwait, hcalm⟩

/-! ### A block of an asynchronous bridge (08 R251 to R254) -/

/-- The bridge at the start of a block: an engine that takes the servo over starts from the increment in force. -/
def servoTaken (own : Bool) (v : Bridge) : Bridge :=
  let v0 := if own && !v.own then { v with base := v.r, integ := 0 } else v
  { v0 with own := own, integ := v0.integ + v0.err }

/-- The words known at the start of block `j`, with that of block j + 2 where this engine forms it. -/
def blockWords (own : Bool) (v : Bridge) (j : Nat) : SMap Nat :=
  if own then smSet 0 (servoTaken own v).words (j + 2) (brServo (servoTaken own v) + 1) else (servoTaken own v).words

theorem servoTaken_words (own : Bool) (v : Bridge) : (servoTaken own v).words = v.words := by
  unfold servoTaken
  cases own <;> cases v.own <;> rfl

/-- The bridge in block `j`. -/
def blockBegun (own : Bool) (v : Bridge) (j : Nat) : Bridge :=
  let got := smGet 0 (blockWords own v j) j
  { servoTaken own v with words := smDrop (blockWords own v j) 0 (j + 1), r := if got = 0 then v.r else got - 1, blocks := v.blocks + 1,
                          block := j, steady := true, calm := if v.steady then v.calm + 1 else 0 }

/-- The word of block j + 1 goes to the twin, when this engine has formed it. -/
def blockSent (own : Bool) (b : Nat) (v : Bridge) (j : Nat) (s : State) : State :=
  let next := smGet 0 (blockWords own v j) (j + 1)
  if own && isTwin s && decide (next ≠ 0) then
    daxOwn s 0 { type := 0x21, dest := 0, bcast := false, hops := 0, src := 0, body := [ratioWordOf b (j + 1) (next - 1)] }
  else s

/-- A block without a word counts, where the words come from the twin. -/
def blockCounted (own : Bool) (b : Nat) (v : Bridge) (j : Nat) (s : State) : State :=
  if smGet 0 (blockWords own v j) j = 0 ∧ !own then cnt s (PRT_BR_RATIO_LATE b) else s

theorem brBlock_eq {s : State} {b : Nat} {v : Bridge} (j : Nat) (hv : bridge s b = some v) : brBlock b j s =
    setBridge b (some (blockBegun (ratioOwner s) v j)) (fset (blockCounted (ratioOwner s) b v j (blockSent (ratioOwner s) b v j s))
      (PRT_BR_STATUS b) PRT_BR_STATUS_ext_ratio (b2n (!ratioOwner s))) := by
  unfold bridge at hv
  unfold brBlock
  rw [hv]
  rfl

theorem smGet_blockWords {own : Bool} {v : Bridge} {j k : Nat} (h : k ≠ j + 2) : smGet 0 (blockWords own v j) k = smGet 0 v.words k := by
  unfold blockWords
  rw [servoTaken_words]
  split_ifs
  · exact smGet_smSet_ne _ _ _ _ _ h
  · rfl

/-- The servo's bridge: one that takes the servo over starts from the increment in force. -/
theorem servoTaken_owner (v : Bridge) : servoTaken true v =
    { v with own := true, base := if v.own then v.base else v.r, integ := (if v.own then v.integ else 0) + v.err } := by
  unfold servoTaken
  cases v.own <;> rfl

theorem blockBegun_r (own : Bool) (v : Bridge) (j : Nat) :
    (blockBegun own v j).r = if smGet 0 v.words j = 0 then v.r else smGet 0 v.words j - 1 := by
  unfold blockBegun
  rw [smGet_blockWords (by omega)]

theorem blockBegun_own (own : Bool) (v : Bridge) (j : Nat) : (blockBegun own v j).own = own := rfl

/-- The word of block j + 2 is the increment that the servo forms. -/
theorem blockBegun_formed (v : Bridge) (j : Nat) :
    smGet 0 (blockBegun true v j).words (j + 2) = brServo (servoTaken true v) + 1 :=
  (smGet_smDrop_out _ _ (.inr (by omega))).trans ((congrArg (fun m => smGet 0 m (j + 2)) (if_pos rfl)).trans (smGet_smSet_same ..))

theorem blockCounted_dax (own : Bool) (b : Nat) (v : Bridge) (j : Nat) (s : State) : (blockCounted own b v j s).dax = s.dax := by
  unfold blockCounted
  rw [ite_dax, cnt_dax, ite_self]

theorem brBlock_dax {s : State} {b : Nat} {v : Bridge} (j : Nat) (hv : bridge s b = some v) :
    (brBlock b j s).dax = (blockSent (ratioOwner s) b v j s).dax := by
  rw [brBlock_eq j hv, ← blockCounted_dax (ratioOwner s) b v j (blockSent ..)]
  rfl

theorem daxQueue_link0 (s : State) (m : DaxMsg) : (daxLink (daxQueue s 0 m) 0).queue = (daxLink s 0).queue ++ [m] := rfl

theorem daxLink_congr {s t : State} (h : t.dax = s.dax) (l : Nat) : daxLink t l = daxLink s l := by
  unfold daxLink
  rw [h]

theorem blockSent_some {s : State} {v : Bridge} {j : Nat} (b : Nat) (ht : isTwin s = true) (hn : smGet 0 v.words (j + 1) ≠ 0) :
    (daxLink (blockSent true b v j s) 0).queue = (daxLink s 0).queue ++
      [{ type := 0x21, dest := 0, bcast := false, hops := 0, src := (daxLink s 0).engineId,
         body := [ratioWordOf b (j + 1) (smGet 0 v.words (j + 1) - 1)] }] := by
  unfold blockSent
  rw [smGet_blockWords (by omega), ht]
  dsimp only
  rw [Bool.true_and, Bool.true_and, if_pos (decide_eq_true hn)]
  exact daxQueue_link0 ..

theorem blockSent_none {own : Bool} {s : State} {v : Bridge} {j : Nat} (b : Nat)
    (h : own = false ∨ isTwin s = false ∨ smGet 0 v.words (j + 1) = 0) : blockSent own b v j s = s := by
  unfold blockSent
  rw [smGet_blockWords (by omega)]
  refine if_neg ?_
  simp only [Bool.and_eq_true, decide_eq_true_eq, not_and]
  rintro ⟨rfl, ht⟩ hn
  rcases h with h | h | h
  · nomatch h
  · nomatch ht.symm.trans h
  · exact hn h

/-- A block of the twin's words counts when its own has not come. -/
theorem brBlock_late {s : State} {b : Nat} {v : Bridge} (j : Nat) (hv : bridge s b = some v) (ho : ratioOwner s = false) :
    rd (brBlock b j s) (PRT_BR_RATIO_LATE b) = rd s (PRT_BR_RATIO_LATE b) + (if smGet 0 v.words j = 0 then 1 else 0) := by
  have hne : PRT_BR_RATIO_LATE b ≠ PRT_BR_STATUS b := by unfold PRT_BR_RATIO_LATE PRT_BR_STATUS; omega
  rw [brBlock_eq j hv, ho, blockSent_none b (.inl rfl)]
  refine (rd_fset_ne (blockCounted false b v j s) _ _ _ _ hne).trans ?_
  unfold blockCounted
  rw [smGet_blockWords (by omega)]
  by_cases h : smGet 0 v.words j = 0
  · rw [if_pos ⟨h, rfl⟩, if_pos h, rd_cnt]
  · rw [if_neg fun hc => h hc.1, if_neg h]
    exact (BitVec.add_zero _).symm

theorem bridge_brBlock {s : State} {b : Nat} {v : Bridge} (j : Nat) (hv : bridge s b = some v) :
    bridge (brBlock b j s) b = some (blockBegun (ratioOwner s) v j) := by
  rw [brBlock_eq j hv]
  exact bridge_setBridge ..

theorem doBridgeBlock_due {s : State} {b : Fin 256} {v : Bridge} (hv : bridge s b = some v) (hdue : brBlockDue v (genOf s v.outDom).next = true) :
    doBridgeBlock b s = brBlock b ((genOf s v.outDom).next / 64) s := by
  unfold doBridgeBlock
  rw [hv]
  exact if_pos hdue

/-- Settles O38: starts, stops and ends of a bridge each give it its state, and a block takes, forms and sends the words that 08 R251 to
R254 name. -/
theorem bridges : Obligations.Bridges := by
  intro s b w
  refine ⟨fun ready hon => ⟨fun hstart hstop hst => ⟨fun href => ?_, fun x y hx hy hne hrx hry => ?_⟩, fun v hstart hstop hv hst => ?_⟩,
    fun v ready hv => ⟨fun hsync hwait hdue => ?_, fun hasync hwait hcalm => ?_, fun hdue => ?_⟩, fun ha hd => ?_⟩
  · refine completes_run (softWrite 8 (PRT_BR_CTRL b) w) rfl ready ?_
    rw [softWrite_brCtrl (s := quietOut s) 8 b w hon, brCtrl_started (s := quietOut s) hstart hstop hst]
    have hcode : ¬brRefusal (quietOut s) b = 0 := href
    rw [if_neg hcode]
    refine ⟨?_, ?_, (settle_prt _).trans (fset_prt ..)⟩
    · exact ((settled_above s _).fget (by unfold PRT_BR_STATUS; omega) _).trans (brAnswered_refusal b (quietOut s))
    · exact (brState_settled ..).trans ((brAnswered_state b (quietOut s)).trans hst)
  · refine completes_run (softWrite 8 (PRT_BR_CTRL b) w) rfl ready ?_
    rw [softWrite_brCtrl (s := quietOut s) 8 b w hon, brCtrl_started (s := quietOut s) hstart hstop hst]
    have hcode : brRefusal (quietOut s) b = 0 := brRefusal_none (s := quietOut s) hx hy hne hrx hry
    have hcfg (f : Fld) : fget (brAnswered b (quietOut s)) (PRT_BR_CFG b) f = fget s (PRT_BR_CFG b) f :=
      fget_congr _ _ _ _ (rd_brAnswered _ (by unfold PRT_BR_CFG PRT_BR_STATUS; omega))
    rw [if_pos hcode]
    obtain ⟨hst', hbr, hfld⟩ := brStartAt_waits (s := brAnswered b (quietOut s)) (get64 s (PRT_BR_START_LO b) (PRT_BR_START_HI b))
      ((congrArg domOf (hcfg _)).trans hx) ((congrArg domOf (hcfg _)).trans hy)
    have hindep (z : Dom) : isIndep (brAnswered b (quietOut s)) z = isIndep s z :=
      isIndep_congr (fset_tim ..) (rd_brAnswered _ (by unfold TIM_DOM_CFG PRT_BR_STATUS; omega)) z
    have hrate : domRate (brAnswered b (quietOut s)) y = domRate s y :=
      domRate_congr (fset_tim ..) (rd_brAnswered _ (by have := domNo_le y; unfold TIM_DOM_CFG PRT_BR_STATUS; omega))
    refine ⟨?_, (brState_settled ..).trans hst', _, (bridge_settled ..).trans hbr, rfl, rfl, ?_, rfl, ?_, rfl⟩
    · refine ((settled_above s _).fget (by unfold PRT_BR_STATUS; omega) _).trans (hfld.trans ((brAnswered_refusal b (quietOut s)).trans hcode))
    · exact congrArg₂ (· || ·) (hindep x) (hindep y)
    · exact congrArg (brLat _) hrate
  · exact completes_brMoved (softWrite 8 (PRT_BR_CTRL b) w) rfl ready (by decide)
      ((softWrite_brCtrl (s := quietOut s) 8 b w hon).trans (brCtrl_stopped (s := quietOut s) hstart hstop hv hst))
  · exact completes_brMoved (doBridgeOutputStart b) rfl ready (by decide) (doBridgeOutputStart_runs (s := quietOut s) hv hsync hwait hdue)
  · exact completes_brMoved (doBridgeRunning b) rfl ready (by decide) (doBridgeRunning_runs (s := quietOut s) hv hasync hwait hcalm)
  · have hv' : bridge (quietOut s) b = some v := hv
    refine completes_run (doBridgeBlock b) rfl ready ?_
    have hblock : doBridgeBlock b (quietOut s) = brBlock b ((genOf s v.outDom).next / 64) (quietOut s) := doBridgeBlock_due hv' hdue
    rw [hblock]
    clear hdue hblock
    generalize (genOf s v.outDom).next / 64 = j
    have hlink (l : Nat) : daxLink (keep s (settle (brBlock b j (quietOut s)))) l = daxLink (blockSent (ratioOwner s) b v j (quietOut s)) l :=
      daxLink_congr ((settle_dax _).trans (brBlock_dax j hv')) l
    refine ⟨blockBegun (ratioOwner s) v j, (bridge_settled ..).trans (bridge_brBlock j hv'), rfl, rfl, blockBegun_r .., rfl, fun ho => ?_, fun ho => ⟨?_, ?_⟩⟩
    · rw [hlink, ho]
      refine ⟨congrArg Bridge.base (servoTaken_owner v), congrArg Bridge.integ (servoTaken_owner v), ?_, fun ht hn => ?_, fun hn => ?_⟩
      · rw [blockBegun_formed, servoTaken_owner]
      · exact blockSent_some b ht hn
      · rw [blockSent_none (s := quietOut s) b (.inr hn)]
        rfl
    · exact ((settled_above s _).rd _ (by unfold PRT_BR_RATIO_LATE; omega)).trans (brBlock_late j hv' ho)
    · rw [hlink, ho, blockSent_none (s := quietOut s) b (.inl rfl)]
      rfl
  · refine completes_runDue rfl ha (List.contains_iff_mem.mp hd) ?_
    exact ⟨(brState_settled ..).trans (brState_setBrState b (by decide) _),
      (bridge_settled ..).trans ((bridge_congr (fset_prt ..) b).trans (bridge_setBridge b none _))⟩

end Sys2Proof.Machine
end

section
/-! PROOF. 10 R305, R308, R325: what a descrambler restores is what the scrambler took, and the blocks of a message carry it. -/

namespace Sys2Proof.Machine

/-! ### The scrambler (10 R305) -/

section
variable (out push : BitVec 58 → Bool → Bool) (w : BitVec 64) (st : BitVec 58)

/-- The first `n` bits of a body through a coder: `out` gives the bit that it delivers, `push` the bit of the line. -/
def codeBits (n : Nat) : BitVec 64 × BitVec 58 :=
  (List.range n).foldl (fun (o, st) i =>
    (o ||| BitVec.ofNat 64 (b2n (out st (w.getLsbD i)) * 2 ^ i), scrPush st (push st (w.getLsbD i)))) (0, st)

theorem codeBits_succ (n : Nat) : codeBits out push w st (n + 1) =
    ((codeBits out push w st n).1 ||| BitVec.ofNat 64 (b2n (out (codeBits out push w st n).2 (w.getLsbD n)) * 2 ^ n),
      scrPush (codeBits out push w st n).2 (push (codeBits out push w st n).2 (w.getLsbD n))) := by
  unfold codeBits
  rw [List.range_succ, List.foldl_append]
  rfl

theorem getLsbD_bitAt (b : Bool) (n : Nat) {i : Nat} (hi : i < 64) : (BitVec.ofNat 64 (b2n b * 2 ^ n)).getLsbD i = (b && decide (i = n)) := by
  cases b
  · simp [b2n]
  · rw [BitVec.getLsbD_ofNat]
    simp [b2n, Nat.testBit_two_pow, hi, eq_comm]

/-- Each bit is delivered once, at its own place. -/
theorem codeBits_bit (n : Nat) {i : Nat} (hi : i < 64) : (codeBits out push w st n).1.getLsbD i =
    (decide (i < n) && out (codeBits out push w st i).2 (w.getLsbD i)) := by
  induction n with
  | zero => simp [codeBits]
  | succ n ih =>
    rw [codeBits_succ, BitVec.getLsbD_or, ih, getLsbD_bitAt _ _ hi]
    by_cases h : i = n
    · subst h
      simp
    · have hlt : i < n + 1 ↔ i < n := by omega
      simp [h, hlt]

end

theorem scramble_eq (st : BitVec 58) (w : BitVec 64) : scramble st w = codeBits scrBit scrBit w st 64 := rfl

theorem descramble_eq (st : BitVec 58) (w : BitVec 64) : descramble st w = codeBits scrBit (fun _ b => b) w st 64 := rfl

theorem scrBit_scrBit (st : BitVec 58) (b : Bool) : scrBit st (scrBit st b) = b := by
  unfold scrBit
  cases b <;> cases st.getLsbD 38 <;> cases st.getLsbD 57 <;> rfl

theorem scramble_bit (st : BitVec 58) (w : BitVec 64) {i : Nat} (hi : i < 64) :
    (scramble st w).1.getLsbD i = scrBit (codeBits scrBit scrBit w st i).2 (w.getLsbD i) := by
  rw [scramble_eq, codeBits_bit _ _ _ _ _ hi, decide_eq_true hi, Bool.true_and]

/-- Sender and receiver have the same bits of the line behind them. -/
theorem descramble_line (st : BitVec 58) (w : BitVec 64) {n : Nat} (hn : n ≤ 64) :
    (codeBits scrBit (fun _ b => b) (scramble st w).1 st n).2 = (codeBits scrBit scrBit w st n).2 := by
  induction n with
  | zero => rfl
  | succ n ih =>
    rw [codeBits_succ, codeBits_succ]
    dsimp only
    rw [ih (by omega), scramble_bit st w (by omega)]

theorem descramble_scramble (st : BitVec 58) (w : BitVec 64) : descramble st (scramble st w).1 = (w, (scramble st w).2) := by
  refine Prod.ext (BitVec.eq_of_getLsbD_eq fun i hi => ?_) (descramble_line st w (Nat.le_refl 64))
  rw [descramble_eq, codeBits_bit _ _ _ _ _ hi, decide_eq_true hi, Bool.true_and, descramble_line st w (Nat.le_of_lt hi),
    scramble_bit st w hi, scrBit_scrBit]

/-- Lane by lane, the descramblers undo the scramblers. -/
theorem codeLanes_descramble (bs : List Block66) : ∀ (p : Nat) (st : List (BitVec 58)),
    (codeLanes descramble p st (codeLanes scramble p st bs).1).1 = bs := by
  induction bs with
  | nil => exact fun _ _ => rfl
  | cons b bs ih =>
    intro p st
    simp only [codeLanes, descramble_scramble, ih]

/-! ### The blocks of a message (10 R308, R325) -/

theorem isCtrl_ctrlBlock {t body : Nat} (ht : t < 256) (hb : body % 256 = 0) : isCtrl t (ctrlBlock t body) = true := by
  have htype : blockType (ctrlBlock t body) = t := by
    simp only [blockType, ctrlBlock, bitsOf, BitVec.toNat_ofNat]
    omega
  unfold isCtrl
  rw [htype, beq_self_eq_true, Bool.and_true]
  rfl

theorem not_isCtrl_dataBlock (t : Nat) (w : BitVec 64) : ¬isCtrl t (dataBlock w) = true := Bool.false_ne_true

theorem isCtrl_msgEnd (l : List (BitVec 64)) : isCtrl btMSG_END (ctrlBlock btMSG_END (endBody l)) = true :=
  isCtrl_ctrlBlock (by decide) (Nat.mul_mod_left ..)

/-- The end block holds the CRC above its type. -/
theorem endBody_crc (l : List (BitVec 64)) :
    BitVec.ofNat 32 (bitsOf (ctrlBlock btMSG_END (endBody l)).body.toNat 8 32) = crc32c (wordBytes l) := by
  have hlt : (crc32c (wordBytes l)).toNat < 2 ^ 32 := (crc32c (wordBytes l)).isLt
  have hbits : bitsOf (ctrlBlock btMSG_END (endBody l)).body.toNat 8 32 = (crc32c (wordBytes l)).toNat := by
    simp only [ctrlBlock, endBody, bitsOf, btMSG_END, BitVec.toNat_ofNat]
    omega
  rw [hbits, BitVec.ofNat_toNat, BitVec.setWidth_eq]

/-- What a start block opens, up to the first end block. -/
theorem unitOf_framed {start fin : Nat} {b e : Block66} {l : List (BitVec 64)} (hb : isCtrl start b = true) (he : isCtrl fin e = true) :
    unitOf start fin (b :: (l.map dataBlock ++ [e])) = some ⟨b.body, l, some (BitVec.ofNat 32 (bitsOf e.body.toNat 8 32))⟩ := by
  have hdata : ∀ a ∈ l.map dataBlock, ¬isCtrl fin a = true := by
    intro a ha
    obtain ⟨w, -, rfl⟩ := List.mem_map.mp ha
    exact not_isCtrl_dataBlock fin w
  have htake : (l.map dataBlock ++ [e]).takeWhile (fun b => !isCtrl fin b) = l.map dataBlock := by
    rw [List.takeWhile_append_of_pos (fun a ha => by simpa using hdata a ha), List.takeWhile_cons_of_neg (by simp [he]), List.append_nil]
  have hfind : (l.map dataBlock ++ [e]).find? (isCtrl fin) = some e := by
    rw [List.find?_append, List.find?_eq_none.mpr hdata, Option.none_or, List.find?_cons_of_pos he]
  have hwords : ((l.map dataBlock).filter (fun b => b.sync == 1)).map (fun b => b.body) = l := by
    have hall : l.filter ((fun b => b.sync == 1) ∘ dataBlock) = l := List.filter_eq_self.mpr fun _ _ => rfl
    rw [List.filter_map, List.map_map, hall]
    exact List.map_id l
  unfold unitOf
  rw [List.dropWhile_cons_of_neg (by simp [hb])]
  dsimp only
  rw [htake, hfind, hwords]
  rfl

theorem unitOf_msgBlocks (m : DaxMsg) : unitOf btMSG_START btMSG_END (msgBlocks m) =
    some ⟨((msgBlocks m).headD idleBlock).body, m.body, some (crc32c (wordBytes m.body))⟩ := by
  unfold msgBlocks
  rw [unitOf_framed (isCtrl_ctrlBlock (by decide) (by omega)) (isCtrl_msgEnd m.body), endBody_crc]
  rfl

end Sys2Proof.Machine
end

section
/-! PROOF. 10 R305, R308, R312, R313: the blocks that a link takes from its line, and the tick frames in them (O43). -/

namespace Sys2Proof.Machine

theorem daxLink_settled (s u : State) (l : Nat) : daxLink (keep s (settle u)) l = daxLink u l := daxLink_congr (settle_dax u) l

theorem daxLink_setDaxLink (s : State) (l : Nat) (v : DaxLink) : daxLink (setDaxLink s l v) l = v := by
  unfold daxLink setDaxLink
  split_ifs <;> rfl

theorem linkLine_congr {s t : State} (h : t.line = s.line) (l : Nat) : linkLine t l = linkLine s l := by
  unfold linkLine
  rw [h]

theorem linkLine_setLinkLine (s : State) (l : Nat) (v : LinkLine) : linkLine (setLinkLine s l v) l = v := by
  unfold linkLine setLinkLine
  split_ifs <;> rfl

/-! ### The blocks taken -/

theorem lineOpen_up {s : State} {l : Nat} (h : linkState s l = lkUP) : lineOpen s l = true := by
  unfold linkState at h
  unfold lineOpen
  rw [h]
  rfl

theorem lineTake_eq (l : Nat) (rx : List Block66) (s : State) : lineTake l rx s =
    cntN (setLinkLine s l { linkLine s l with
        rxPos := (linkLine s l).rxPos + rx.length, rxScr := (codeLanes descramble (linkLine s l).rxPos (linkLine s l).rxScr rx).2 })
      (DAX_BLOCK_ERR l) ((lineBlocks s l rx).filter blockBad).length := rfl

/-- Blocks taken move the line on and count; they touch nothing else. -/
theorem lineTake_frame {β : Type} (p : State → β) (hr : ∀ s r, p { s with regs := r } = p s) (hl : ∀ s v, p { s with line := v } = p s)
    (l : Nat) (rx : List Block66) (s : State) : p (lineTake l rx s) = p s := by
  rw [lineTake_eq]
  unfold cntN
  split_ifs
  · exact hl ..
  · exact (hr ..).trans (hl ..)

theorem rd_lineTake_ne {l k : Nat} (rx : List Block66) (s : State) (h : k ≠ DAX_BLOCK_ERR l) : rd (lineTake l rx s) k = rd s k := by
  rw [lineTake_eq, rd_cntN_ne _ _ _ _ h]
  rfl

theorem rd_lineTake (l : Nat) (rx : List Block66) (s : State) : rd (lineTake l rx s) (DAX_BLOCK_ERR l) =
    rd s (DAX_BLOCK_ERR l) + BitVec.ofNat 32 ((lineBlocks s l rx).filter blockBad).length := by
  rw [lineTake_eq, rd_cntN]
  rfl

theorem linkLine_lineTake (l : Nat) (rx : List Block66) (s : State) :
    (linkLine (lineTake l rx s) l).rxPos = (linkLine s l).rxPos + rx.length := by
  rw [lineTake_eq, linkLine_congr (cntN_line ..), linkLine_setLinkLine]

theorem lineTake_dax (l : Nat) (rx : List Block66) (s : State) : (lineTake l rx s).dax = s.dax :=
  lineTake_frame State.dax (fun _ _ => rfl) (fun _ _ => rfl) l rx s

theorem lineTake_tim (l : Nat) (rx : List Block66) (s : State) : (lineTake l rx s).tim = s.tim :=
  lineTake_frame State.tim (fun _ _ => rfl) (fun _ _ => rfl) l rx s

theorem linkStatus_ne_blockErr (l k : Nat) : DAX_LINK_STATUS l ≠ DAX_BLOCK_ERR k := by
  unfold DAX_LINK_STATUS DAX_BLOCK_ERR
  omega

theorem fget_linkStatus_lineTake (l : Nat) (rx : List Block66) (s : State) (f : Fld) :
    fget (lineTake l rx s) (DAX_LINK_STATUS l) f = fget s (DAX_LINK_STATUS l) f :=
  fget_congr _ _ _ _ (rd_lineTake_ne rx s (linkStatus_ne_blockErr l l))

/-! ### A tick frame accepted (10 R312, R313) -/

theorem doTickFrameReceived_up {s : State} {l : Fin 2} {rx : List Block66} {f : LinkUnit} (hup : linkState s l = lkUP)
    (hf : lineFrame s l rx = some f) : doTickFrameReceived l rx s = frameIn l f (lineTake l rx s) := by
  unfold doTickFrameReceived
  rw [lineOpen_up hup, hf]
  exact if_pos ((fget_linkStatus_lineTake ..).trans hup)

/-- The checks read the generators and the configured rates. -/
theorem frameFail_congr {s t : State} (htim : t.tim = s.tim) (hcfg : ∀ x, rd t (TIM_DOM_CFG (domNo x)) = rd s (TIM_DOM_CFG (domNo x)))
    (f : LinkUnit) : frameFail t f = frameFail s f := by
  have hgen (x : Dom) : genOf t x = genOf s x := genOf_congr htim x
  have hrate (x : Dom) : domRate t x = domRate s x := domRate_congr htim (hcfg x)
  unfold frameFail running nowIdx
  simp only [hgen, hrate]

theorem frameFail_lineTake (l : Nat) (rx : List Block66) (s : State) (f : LinkUnit) : frameFail (lineTake l rx s) f = frameFail s f :=
  frameFail_congr (lineTake_tim ..) (fun x => rd_lineTake_ne rx s (by have := domNo_le x; unfold TIM_DOM_CFG DAX_BLOCK_ERR; omega)) f

/-- The link with a frame held, in place of one for the same tick. -/
def frameHeld (d : DaxLink) (x : Dom) (f : LinkUnit) : DaxLink :=
  { d with frames := d.frames.filter (fun g => !(g.dom == x && g.k == (f.words.headD 0).toNat)) ++
      [⟨x, (f.words.headD 0).toNat, frameWords (f.words.drop 1) (f.words.drop 129)⟩] }

theorem frameIn_held {s : State} {f : LinkUnit} {x : Dom} (l : Nat) (hok : frameFail s f = none)
    (hx : domOf (bitsOf f.header.toNat 12 2) = some x) : frameIn l f s = setDaxLink s l (frameHeld (daxLink s l) x f) := by
  unfold frameIn
  rw [hok, hx]
  rfl

/-! ### A tick frame discarded (10 R312) -/

theorem frameFail_range {s : State} {f : LinkUnit} {c : Nat} (h : frameFail s f = some c) : c = 1 ∨ c = 2 ∨ c = 3 ∨ c = 4 := by
  unfold frameFail at h
  dsimp only at h
  split at h
  · exact .inl (Option.some.inj h).symm
  · split at h
    · exact .inr (.inl (Option.some.inj h).symm)
    · split_ifs at h
      · exact .inr (.inl (Option.some.inj h).symm)
      · exact .inr (.inr (.inl (Option.some.inj h).symm))
      · exact .inr (.inr (.inr (Option.some.inj h).symm))

/-- The counter of a cause. -/
def frameCounter (l c : Nat) : Nat := if c = 1 then DAX_CRC l else if c = 3 then DAX_LATE l else DAX_INDEX l

/-- A frame discarded is counted, and reported. -/
def frameLost (l c : Nat) (s : State) : State := occur (cnt s (frameCounter l c)) 0x280 l [BitVec.ofNat 32 c]

theorem frameIn_lost {s : State} {f : LinkUnit} {c : Nat} (l : Nat) (h : frameFail s f = some c) :
    frameIn l f s = if c = 1 then accuse (frameLost l c s) 4 else frameLost l c s := by
  unfold frameIn
  rw [h]
  rfl

theorem occur_dax (s : State) (code src : Nat) (det : List W32) : (occur s code src det).dax = s.dax := by
  unfold occur ldgSuppress
  dsimp only
  split_ifs <;> rfl

theorem frameLost_dax (l c : Nat) (s : State) : (frameLost l c s).dax = s.dax := (occur_dax ..).trans (cnt_dax ..)

theorem frameIn_reported {s : State} {f : LinkUnit} {c : Nat} (l : Nat) (h : frameFail s f = some c) :
    Reported (cnt s (frameCounter l c)) (frameIn l f s) := by
  have hocc : Reported (cnt s (frameCounter l c)) (frameLost l c s) := occur_reported ..
  rw [frameIn_lost l h]
  exact .ite (hocc.trans (accuse_reported ..)) hocc

/-- Three counters, one of which counts. -/
theorem frameCounted {l c : Nat} (s : State) (h : c = 1 ∨ c = 2 ∨ c = 3 ∨ c = 4) :
    let t := cnt s (frameCounter l c)
    rd t (DAX_CRC l) = rd s (DAX_CRC l) + (if c = 1 then 1 else 0) ∧ rd t (DAX_LATE l) = rd s (DAX_LATE l) + (if c = 3 then 1 else 0) ∧
    rd t (DAX_INDEX l) = rd s (DAX_INDEX l) + (if c = 2 ∨ c = 4 then 1 else 0) := by
  have hcl : DAX_CRC l ≠ DAX_LATE l := by unfold DAX_CRC DAX_LATE; omega
  have hci : DAX_CRC l ≠ DAX_INDEX l := by unfold DAX_CRC DAX_INDEX; omega
  have hli : DAX_LATE l ≠ DAX_INDEX l := by unfold DAX_LATE DAX_INDEX; omega
  rcases h with rfl | rfl | rfl | rfl <;>
    simp [frameCounter, rd_cnt_ne, hcl, hci, hli, hcl.symm, hci.symm, hli.symm]

/-- Neither a report nor an accusation takes frames from a link. -/
theorem daxQueue_frames (s : State) (k l : Nat) (m : DaxMsg) : (daxLink (daxQueue s k m) l).frames = (daxLink s l).frames := by
  unfold daxQueue daxLink
  split_ifs <;> rfl

theorem twinOn_frames {s t : State} (l : Nat) : (daxLink (twinOn s t) l).frames = (daxLink t l).frames := by
  unfold twinOn twinSend
  split_ifs
  · rfl
  · exact daxQueue_frames ..
  · rfl

theorem accused_dax (s : State) (cause : Nat) : (accuse.accused s cause).dax = s.dax := by
  unfold accuse.accused
  extract_lets peer sole s1 s2 s3
  have h3 : s3.dax = s.dax := (occur_dax ..).trans (cnt_dax s TWN_ACCUSE)
  split_ifs <;> exact h3

theorem accuse_frames (s : State) (cause l : Nat) : (daxLink (accuse s cause) l).frames = (daxLink s l).frames := by
  unfold accuse
  split_ifs
  · rw [twinOn_frames, daxLink_congr (accused_dax s cause)]
  · rfl

theorem accuse_alone {s : State} (cause : Nat) (h : isTwin s = false) : accuse s cause = s := if_neg (Bool.eq_false_iff.mp h)

theorem isTwin_congr {s t : State} (h : rd t TWN_CFG = rd s TWN_CFG) : isTwin t = isTwin s := by
  unfold isTwin twnMode
  rw [fget_congr _ _ _ _ h]

theorem isTwin_frameLost (l c : Nat) (s : State) : isTwin (frameLost l c s) = isTwin s := by
  refine isTwin_congr (((occur_reported ..).rd TWN_CFG ?_).trans (rd_cnt_ne _ _ _ ?_))
  · unfold reportKey settleKey LDG_STATUS LDG_SUPPRESSED TWN_CFG TWN_STATUS TWN_ACCUSE CTL_MSIX_PBA PWR_DOM_STATUS
    omega
  · unfold frameCounter TWN_CFG DAX_CRC DAX_LATE DAX_INDEX
    split_ifs <;> omega

theorem frameIn_lost_frames {s : State} {f : LinkUnit} {c : Nat} (l : Nat) (h : frameFail s f = some c) :
    (daxLink (frameIn l f s) l).frames = (daxLink s l).frames := by
  have hlost : (daxLink (frameLost l c s) l).frames = (daxLink s l).frames := by rw [daxLink_congr (frameLost_dax l c s)]
  rw [frameIn_lost l h]
  split_ifs
  · rw [accuse_frames, hlost]
  · exact hlost

theorem frameIn_lost_dax {s : State} {f : LinkUnit} {c : Nat} (l : Nat) (h : frameFail s f = some c) (ht : isTwin s = false) :
    (frameIn l f s).dax = s.dax := by
  rw [frameIn_lost l h, accuse_alone 4 ((isTwin_frameLost l c s).trans ht), ite_self, frameLost_dax]

/-! ### The commands -/

theorem completes_tickFrameReceived {s : State} {l : Fin 2} {rx : List Block66} {f : LinkUnit} {P : State → Prop} (ready : Ready s)
    (hup : linkState s l = lkUP) (hf : lineFrame s l rx = some f) (h : P (keep s (settle (frameIn l f (lineTake l rx (quietOut s)))))) :
    Completes (.tickFrameReceived l rx) s P := by
  refine completes_run (doTickFrameReceived l rx) rfl ready ?_
  rwa [doTickFrameReceived_up (s := quietOut s) hup hf]

theorem completes_tickFrameHeld {s : State} {l : Fin 2} {rx : List Block66} {f : LinkUnit} {x : Dom} (ready : Ready s)
    (hup : linkState s l = lkUP) (hf : lineFrame s l rx = some f) (hok : frameFail s f = none)
    (hx : domOf (bitsOf f.header.toNat 12 2) = some x) : Completes (.tickFrameReceived l rx) s (fun t =>
      ⟨x, (f.words.headD 0).toNat, frameWords (f.words.drop 1) (f.words.drop 129)⟩ ∈ (daxLink t l).frames ∧
      rd t (DAX_BLOCK_ERR l) = rd s (DAX_BLOCK_ERR l) + BitVec.ofNat 32 ((lineBlocks s l rx).filter blockBad).length ∧
      (linkLine t l).rxPos = (linkLine s l).rxPos + rx.length ∧ rd t (DAX_CRC l) = rd s (DAX_CRC l) ∧ t.tim = s.tim) := by
  refine completes_tickFrameReceived ready hup hf ?_
  rw [frameIn_held (s := lineTake l rx (quietOut s)) l ((frameFail_lineTake ..).trans hok) hx]
  refine ⟨?_, ?_, ?_, ?_, (settle_tim _).trans (lineTake_tim ..)⟩
  · rw [daxLink_settled, daxLink_setDaxLink]
    exact List.mem_append_right _ (List.mem_singleton_self _)
  · exact ((settled_above s _).rd _ (by unfold DAX_BLOCK_ERR; omega)).trans (rd_lineTake ..)
  · exact (congrArg LinkLine.rxPos (linkLine_congr (settle_line _) l)).trans (linkLine_lineTake ..)
  · exact ((settled_above s _).rd _ (by unfold DAX_CRC; omega)).trans (rd_lineTake_ne _ _ (by unfold DAX_CRC DAX_BLOCK_ERR; omega))

theorem completes_tickFrameLost {s : State} {l : Fin 2} {rx : List Block66} {f : LinkUnit} {c : Nat} (ready : Ready s)
    (hup : linkState s l = lkUP) (hf : lineFrame s l rx = some f) (hfail : frameFail s f = some c) :
    Completes (.tickFrameReceived l rx) s (fun t => (daxLink t l).frames = (daxLink s l).frames ∧ (isTwin s = false → t.dax = s.dax) ∧
      rd t (DAX_CRC l) = rd s (DAX_CRC l) + (if c = 1 then 1 else 0) ∧ rd t (DAX_LATE l) = rd s (DAX_LATE l) + (if c = 3 then 1 else 0) ∧
      rd t (DAX_INDEX l) = rd s (DAX_INDEX l) + (if c = 2 ∨ c = 4 then 1 else 0)) := by
  have hfail' : frameFail (lineTake l rx (quietOut s)) f = some c := (frameFail_lineTake ..).trans hfail
  have htake : (lineTake l rx (quietOut s)).dax = s.dax := lineTake_dax ..
  have hrd (k : Nat) (hk : 0x280000 ≤ k) (hk' : k < 0x2a0000) :
      rd (keep s (settle (frameIn l f (lineTake l rx (quietOut s))))) k = rd (cnt (lineTake l rx (quietOut s)) (frameCounter l c)) k :=
    ((settled_above s _).rd k (by omega)).trans ((frameIn_reported l hfail').rd k
      (not_reportKey ⟨by omega, by unfold LDG_STATUS; omega, by unfold LDG_SUPPRESSED; omega⟩))
  have hold (k : Nat) (he : k ≠ DAX_BLOCK_ERR l) : rd (lineTake l rx (quietOut s)) k = rd s k := rd_lineTake_ne _ _ he
  obtain ⟨hcrc, hlate, hindex⟩ := frameCounted (l := l) (lineTake l rx (quietOut s)) (frameFail_range hfail)
  refine completes_tickFrameReceived ready hup hf ⟨?_, fun ht => ?_, ?_, ?_, ?_⟩
  · rw [daxLink_settled, frameIn_lost_frames l hfail', daxLink_congr htake]
  · exact (settle_dax _).trans ((frameIn_lost_dax l hfail' ((isTwin_congr (hold _ (by unfold TWN_CFG DAX_BLOCK_ERR; omega))).trans ht)).trans htake)
  · have he : DAX_CRC l ≠ DAX_BLOCK_ERR l := by unfold DAX_CRC DAX_BLOCK_ERR; omega
    rw [hrd _ (by unfold DAX_CRC; omega) (by unfold DAX_CRC; omega), hcrc, hold _ he]
  · have he : DAX_LATE l ≠ DAX_BLOCK_ERR l := by unfold DAX_LATE DAX_BLOCK_ERR; omega
    rw [hrd _ (by unfold DAX_LATE; omega) (by unfold DAX_LATE; omega), hlate, hold _ he]
  · have he : DAX_INDEX l ≠ DAX_BLOCK_ERR l := by unfold DAX_INDEX DAX_BLOCK_ERR; omega
    rw [hrd _ (by unfold DAX_INDEX; omega) (by unfold DAX_INDEX; omega), hindex, hold _ he]

end Sys2Proof.Machine
end

section
/-! PROOF. 10 R305, R311, R325: tick frames and messages that a link sends (O43). -/

namespace Sys2Proof.Machine

/-! ### The line that goes out (10 R305, R306) -/

/-- What the four lanes take of `blocks`. -/
def lanesOf (s : State) (l : Nat) (blocks : List Block66) : Emit :=
  let v := linkLine s l
  let line := withMarkers (daxLink s l).engineId v.pos (List.replicate (Config.idleBlocks l v.bursts) idleBlock ++ blocks)
  .daxLine l ((List.range 4).map (fun lane => laneBlocks v.pos lane (codeLanes scramble v.pos v.scr line).1))

theorem lineSend_out (l : Nat) (blocks : List Block66) (s : State) : (lineSend l blocks s).out = s.out ++ [lanesOf s l blocks] := rfl

theorem lanesOf_congr {s t : State} {l : Nat} (hl : linkLine t l = linkLine s l) (hid : (daxLink t l).engineId = (daxLink s l).engineId)
    (blocks : List Block66) : lanesOf t l blocks = lanesOf s l blocks := by
  unfold lanesOf
  rw [hl, hid]

theorem lineSend_form (l : Nat) (blocks : List Block66) (s : State) : ∃ v o, lineSend l blocks s = { s with line := v, out := o } := ⟨_, _, rfl⟩

/-- Sending moves the line on and leaves an answer. -/
theorem lineSend_frame {β : Type} (p : State → β) (hl : ∀ s v o, p { s with line := v, out := o } = p s) (l : Nat) (blocks : List Block66)
    (s : State) : p (lineSend l blocks s) = p s := by
  obtain ⟨v, o, h⟩ := lineSend_form l blocks s
  rw [h, hl]

theorem msgSend_dax (l : Nat) (m : DaxMsg) (s : State) : (msgSend l m s).dax = s.dax := rfl

theorem msgSend_out (l : Nat) (m : DaxMsg) (s : State) : (msgSend l m s).out = s.out ++ [.daxMsg l m] ++ [lanesOf s l (msgBlocks m)] := rfl

/-! ### The frames that are due go first (10 R311) -/

/-- The frames that are due, in the order in which they go. -/
def frameOrder (due : List DaxDue) : List DaxDue := [Dom.A, .B, .C].flatMap (fun y => due.filter (fun f => f.dom == y))

theorem mem_frameOrder {f : DaxDue} {due : List DaxDue} (h : f ∈ due) : f ∈ frameOrder due := by
  refine List.mem_flatMap.mpr ⟨f.dom, ?_, List.mem_filter.mpr ⟨h, beq_self_eq_true _⟩⟩
  cases f.dom <;> decide

def frameSend (l : Nat) (s : State) (f : DaxDue) : State := lineSend l (frameBlocks f) (emit s (.daxFrame l f.header f.k f.words))

theorem framesFlush_eq (l : Nat) (s : State) : framesFlush l s =
    (frameOrder (daxLink s l).due).foldl (frameSend l) (setDaxLink s l { daxLink s l with due := [] }) := rfl

theorem framesFlush_frame {β : Type} (p : State → β) (hl : ∀ s v o, p { s with line := v, out := o } = p s) (l : Nat) (s : State) :
    p (framesFlush l s) = p (setDaxLink s l { daxLink s l with due := [] }) :=
  foldl_frame p _ (fun _ f => (lineSend_frame p hl l (frameBlocks f) _).trans (hl ..)) _ _

theorem daxLink_framesFlush (l : Nat) (s : State) : daxLink (framesFlush l s) l = { daxLink s l with due := [] } :=
  (framesFlush_frame (daxLink · l) (fun _ _ _ => rfl) l s).trans (daxLink_setDaxLink ..)

theorem linkState_framesFlush (l : Nat) (s : State) : linkState (framesFlush l s) l = linkState s l :=
  framesFlush_frame (linkState · l) (fun _ _ _ => rfl) l s

theorem framesFlush_none {s : State} {l : Nat} (h : (daxLink s l).due = []) : framesFlush l s = setDaxLink s l { daxLink s l with due := [] } := by
  rw [framesFlush_eq, h]
  rfl

/-- Frames go out one after the other; none takes back what has gone. -/
theorem mem_framesSent (l : Nat) (fs : List DaxDue) : ∀ (s : State) (e : Emit),
    (e ∈ s.out ∨ ∃ f ∈ fs, e = .daxFrame l f.header f.k f.words) → e ∈ (fs.foldl (frameSend l) s).out := by
  induction fs with
  | nil => exact fun _ _ h => h.elim id fun ⟨f, hf, _⟩ => absurd hf List.not_mem_nil
  | cons g fs ih =>
    refine fun s e h => ih _ e ?_
    have hout : (frameSend l s g).out = s.out ++ [.daxFrame l g.header g.k g.words] ++ [lanesOf s l (frameBlocks g)] := rfl
    rw [hout]
    rcases h with h | ⟨f, hf, rfl⟩
    · exact .inl (List.mem_append_left _ (List.mem_append_left _ h))
    · rcases List.mem_cons.mp hf with rfl | hf
      · exact .inl (List.mem_append_left _ (List.mem_append_right _ (List.mem_singleton_self _)))
      · exact .inr ⟨f, hf, rfl⟩

theorem mem_framesFlush {s : State} {l : Nat} {f : DaxDue} (h : f ∈ (daxLink s l).due) :
    Emit.daxFrame l f.header f.k f.words ∈ (framesFlush l s).out :=
  mem_framesSent l _ _ _ (.inr ⟨f, mem_frameOrder h, rfl⟩)

/-! ### The message that waits (10 R325) -/

/-- The link's frames are out, and its message `i` has left the queue. -/
def msgTaken (l i : Nat) (s : State) : State :=
  setDaxLink (framesFlush l s) l { daxLink s l with due := [], queue := (daxLink s l).queue.eraseIdx i }

theorem doMessageSend_next {s : State} {l : Fin 2} {i : Nat} {m : DaxMsg} (hup : linkState s l = lkUP)
    (hi : msgNext (daxLink s l).queue = some i) (hm : (daxLink s l).queue[i]? = some m) : doMessageSend l s = msgSend l m (msgTaken l i s) := by
  unfold doMessageSend msgTaken
  dsimp only
  rw [linkState_framesFlush, daxLink_framesFlush, if_neg (not_not.mpr hup)]
  dsimp only
  rw [hi]
  dsimp only
  rw [hm]

theorem daxLink_msgTaken (l i : Nat) (s : State) :
    daxLink (msgTaken l i s) l = { daxLink s l with due := [], queue := (daxLink s l).queue.eraseIdx i } := daxLink_setDaxLink ..

/-- With no frame due, the message finds the line as it was. -/
theorem linkLine_msgTaken {s : State} {l : Nat} (i : Nat) (h : (daxLink s l).due = []) : linkLine (msgTaken l i s) l = linkLine s l := by
  unfold msgTaken
  rw [framesFlush_none h]
  rfl

theorem completes_messageSend {s : State} {l : Fin 2} {i : Nat} {m : DaxMsg} (ready : Ready s) (hup : linkState s l = lkUP)
    (hi : msgNext (daxLink s l).queue = some i) (hm : (daxLink s l).queue[i]? = some m) :
    Completes (.messageSend l) s (fun t => Emit.daxMsg l m ∈ t.out ∧ (daxLink t l).queue = (daxLink s l).queue.eraseIdx i ∧
      (daxLink t l).due = [] ∧ (∀ f ∈ (daxLink s l).due, Emit.daxFrame l f.header f.k f.words ∈ t.out) ∧
      ((daxLink s l).due = [] → lanesOf s l (msgBlocks m) ∈ t.out)) := by
  have hlink : daxLink (msgSend l m (msgTaken l i (quietOut s))) l = daxLink (msgTaken l i (quietOut s)) l := rfl
  refine completes_run (doMessageSend l) rfl ready ?_
  rw [doMessageSend_next (s := quietOut s) hup hi hm]
  refine ⟨mem_out_settled s ?_, ?_, ?_, fun f hf => mem_out_settled s ?_, fun hdue => mem_out_settled s ?_⟩
  · rw [msgSend_out]
    exact List.mem_append_left _ (List.mem_append_right _ (List.mem_singleton_self _))
  · rw [daxLink_settled, hlink, daxLink_msgTaken]
    rfl
  · rw [daxLink_settled, hlink, daxLink_msgTaken]
  · rw [msgSend_out]
    exact List.mem_append_left _ (List.mem_append_left _ (mem_framesFlush (s := quietOut s) hf))
  · rw [msgSend_out]
    have hid : (daxLink (msgTaken l i (quietOut s)) l).engineId = (daxLink s l).engineId := by
      rw [daxLink_msgTaken]
      rfl
    have hlanes : lanesOf (msgTaken l i (quietOut s)) l (msgBlocks m) = lanesOf s l (msgBlocks m) :=
      lanesOf_congr (linkLine_msgTaken (s := quietOut s) i hdue) hid _
    rw [hlanes]
    exact List.mem_append_right _ (List.mem_singleton_self _)

end Sys2Proof.Machine
end

section
/-! PROOF. 10 R325 to R329, 12 R376, R379, 08 R254: the messages that a link takes (O43). -/

namespace Sys2Proof.Machine

/-! ### What a message passes before it acts (10 R325, R326) -/

/-- The CRC of the words is that of the end, and the length is theirs. -/
def msgGood (u : LinkUnit) : Prop :=
  u.crc = some (crc32c (wordBytes u.words)) ∧ bitsOf u.header.toNat 31 7 = u.words.length ∧ 0 < u.words.length ∧ u.words.length ≤ 64

section
variable {s : State} {l want : Nat} {rx : List Block66} {u : LinkUnit} (eff : DaxMsg → State → State)

theorem msgIn_dropped (hup : linkState s l = lkUP) (hm : lineMsg s l rx = some u) (hcrc : u.crc ≠ some (crc32c (wordBytes u.words))) :
    msgIn l want rx eff s = msgDrop l (lineTake l rx s) := by
  have hup' : linkState (lineTake l rx s) l = lkUP := (fget_linkStatus_lineTake ..).trans hup
  unfold msgIn
  rw [lineOpen_up hup, hm]
  dsimp only
  rw [if_neg (by decide), hup', if_neg fun h => h.1 rfl, if_pos (.inl hcrc)]

theorem msgIn_taken (hup : linkState s l = lkUP) (hm : lineMsg s l rx = some u) (hgood : msgGood u)
    (hw : want ∈ msgTypes) (ht : (msgOf u.header u.words).type = want)
    (hsrc : want = 0x10 ∨ (msgOf u.header u.words).src = fget s (DAX_LINK_STATUS l) DAX_LINK_STATUS_peer_seen) :
    msgIn l want rx eff s = eff (msgOf u.header u.words) (lineTake l rx s) := by
  have hup' : linkState (lineTake l rx s) l = lkUP := (fget_linkStatus_lineTake ..).trans hup
  have hsrc' : want = 0x10 ∨
      (msgOf u.header u.words).src = fget (lineTake l rx s) (DAX_LINK_STATUS l) DAX_LINK_STATUS_peer_seen :=
    hsrc.imp_right fun h => h.trans (fget_linkStatus_lineTake ..).symm
  obtain ⟨hcrc, hlen, hpos, hmax⟩ := hgood
  unfold msgIn
  rw [lineOpen_up hup, hm]
  dsimp only
  rw [if_neg (by decide), hup', if_neg fun h => h.1 rfl, ht, hlen, if_neg, if_neg (not_not.mpr rfl), if_neg]
  · rintro ⟨-, hne, hne'⟩
    exact hsrc'.elim hne hne'
  · rintro (h | h | h | h | h)
    · exact h hcrc
    · rw [List.contains_iff_mem.mpr hw] at h
      nomatch h
    · omega
    · omega
    · exact h rfl

end

/-- What a message with a bad CRC leaves. -/
structure Dropped (s : State) (l : Nat) (t : State) : Prop where
  count : rd t (DAX_MSG_DROP l) = rd s (DAX_MSG_DROP l) + 1
  dax : t.dax = s.dax
  prt : t.prt = s.prt
  twn : t.twn = s.twn

theorem msgDrop_dropped (s : State) (l : Nat) (rx : List Block66) : Dropped s l (keep s (settle (msgDrop l (lineTake l rx (quietOut s))))) := by
  have hkeep {β : Type} (p : State → β) (hr : ∀ s r, p { s with regs := r } = p s) (hl : ∀ s v, p { s with line := v } = p s) :
      p (msgDrop l (lineTake l rx (quietOut s))) = p (quietOut s) :=
    (cnt_keeps p hr _ _).trans (lineTake_frame p hr hl ..)
  refine ⟨?_, ?_, ?_, ?_⟩
  · refine ((settled_above s _).rd _ (by unfold DAX_MSG_DROP; omega)).trans ((rd_cnt ..).trans ?_)
    exact congrArg (· + 1) (rd_lineTake_ne rx (quietOut s) (by unfold DAX_MSG_DROP DAX_BLOCK_ERR; omega))
  · exact (settle_dax _).trans (hkeep State.dax (fun _ _ => rfl) fun _ _ => rfl)
  · exact (settle_prt _).trans (hkeep State.prt (fun _ _ => rfl) fun _ _ => rfl)
  · exact (settle_twn _).trans (hkeep State.twn (fun _ _ => rfl) fun _ _ => rfl)

/-- `q` is `s` after its link has taken blocks. -/
structure LineTaken (s : State) (l : Nat) (q : State) : Prop where
  rd : ∀ k, k ≠ DAX_BLOCK_ERR l → rd q k = rd s k
  dax : q.dax = s.dax
  prt : q.prt = s.prt
  twn : q.twn = s.twn
  net : q.net = s.net

theorem lineTake_taken (s : State) (l : Nat) (rx : List Block66) : LineTaken s l (lineTake l rx (quietOut s)) where
  rd _ h := rd_lineTake_ne rx (quietOut s) h
  dax := lineTake_dax ..
  prt := lineTake_frame State.prt (fun _ _ => rfl) (fun _ _ => rfl) ..
  twn := lineTake_frame State.twn (fun _ _ => rfl) (fun _ _ => rfl) ..
  net := lineTake_frame State.net (fun _ _ => rfl) (fun _ _ => rfl) ..

namespace LineTaken
variable {s q : State} {l : Nat} (h : LineTaken s l q)
include h

/-- The twins' registers lie below the links'. -/
theorem rd_twin {k : Nat} (hk : k < 0x280000) : Machine.rd q k = Machine.rd s k := h.rd k (by unfold DAX_BLOCK_ERR; omega)

theorem linkState_eq : linkState q l = linkState s l := fget_congr _ _ _ _ (h.rd _ (linkStatus_ne_blockErr l l))

theorem isTwin_eq : isTwin q = isTwin s := isTwin_congr (h.rd_twin (by decide))

theorem twnMode_eq : twnMode q = twnMode s := fget_congr _ _ _ _ (h.rd_twin (by decide))

end LineTaken

section
variable {i : Instr} {s : State} {l : Fin 2} {rx : List Block66} {u : LinkUnit} {want : Nat} {eff : DaxMsg → State → State}

/-- A command that takes a message, of blocks with a bad CRC. -/
theorem completes_msgDropped (he : exec i s = run (msgIn l want rx eff) s) (ready : Ready s) (hup : linkState s l = lkUP)
    (hm : lineMsg s l rx = some u) (hcrc : u.crc ≠ some (crc32c (wordBytes u.words))) : Completes i s (Dropped s l) := by
  refine completes_run _ he ready ?_
  rw [msgIn_dropped (s := quietOut s) eff hup hm hcrc]
  exact msgDrop_dropped s l rx

/-- A command that takes a message, of blocks that carry one of its type from the link's peer. -/
theorem completes_msgTaken {P : State → Prop} (he : exec i s = run (msgIn l want rx eff) s) (ready : Ready s) (hup : linkState s l = lkUP)
    (hm : lineMsg s l rx = some u) (hgood : msgGood u) (hw : want ∈ msgTypes) (ht : (msgOf u.header u.words).type = want)
    (hsrc : want = 0x10 ∨ (msgOf u.header u.words).src = fget s (DAX_LINK_STATUS l) DAX_LINK_STATUS_peer_seen)
    (h : ∀ q, LineTaken s l q → P (keep s (settle (eff (msgOf u.header u.words) q)))) : Completes i s P := by
  refine completes_run _ he ready ?_
  rw [msgIn_taken (s := quietOut s) eff hup hm hgood hw ht hsrc]
  exact h _ (lineTake_taken s l rx)

end

/-! ### A message for firmware (10 R329) -/

section
variable {β : Type} (p : NetSt → β) (htx : ∀ n m, p { n with txFree := m } = p n) (hcnt : ∀ n m, p { n with counters := m } = p n)
  (hdone : ∀ n m, p { n with mgmtDone := m } = p n) (htick : ∀ n m, p { n with mgmtTickets := m } = p n)
include htx hcnt

theorem netSend_keeps (k : Nat) (b : List Byte) (s : State) : p (netSend k b s).1.net = p s.net := by
  unfold netSend
  split
  · exact (htx ..).trans (hcnt ..)
  · rfl

include hdone htick

/-- Of the network, settling moves the ports' lines, their counts and the answers to management alone. -/
theorem settle_netKeeps (s : State) : p (settle s).net = p s.net := by
  unfold settle settleAwake
  split
  · have hflush (t : State) : p (mgmtFlush t).net = p t.net := by
      unfold mgmtFlush
      refine (foldl_frame (fun u : State => p u.net) _ (fun u e => ?_) _ _).trans (hdone ..)
      dsimp only
      split
      · exact (netSend_keeps p htx hcnt ..).trans (htick ..)
      · rfl
    rw [hflush, timerPend_net, syncKeys_net, intEdges_net]
  · rfl

end

theorem settle_ctlq (s : State) : (settle s).net.ctlq = s.net.ctlq :=
  settle_netKeeps NetSt.ctlq (fun _ _ => rfl) (fun _ _ => rfl) (fun _ _ => rfl) (fun _ _ => rfl) s

theorem firmwareMsg_own {s : State} {m : DaxMsg} (l : Nat) (hb : m.bcast = false) (hd : m.dest = fget s DAX_ID DAX_ID_engine_id) :
    firmwareMsg l m s = ctlPut (16 + l) ((wordBytes m.body).map (·.toNat)) none none s := by
  unfold firmwareMsg
  dsimp only
  rw [hb, decide_eq_true hd]
  simp

/-! ### Provenance words of the peer (12 R376) -/

theorem provMsgIn_none {l : Nat} {body : List (BitVec 64)} {s : State} (h : twnMode s = 0) : provMsgIn l body s = s := if_pos (.inl h)

theorem provMsgIn_one {body : List (BitVec 64)} {s : State} {p : ProvWord} (h : twnMode s ≠ 0) (hp : provEntries body = [p]) :
    provMsgIn 0 body s = provCompare 0 p s := by
  unfold provMsgIn
  rw [if_neg fun hm => hm.elim h fun h1 => absurd h1.1 (by decide), hp]
  exact congrArg (provCompare · p s) (ite_self 0)

/-- The engine's own word equals the one received. -/
def provSame (s : State) (p : ProvWord) : Bool :=
  match findTag s.twn.own p with
  | some o => o.word == p.word
  | none => false

theorem verdict_reported (p : ProvWord) (s : State) : Reported s (verdict p s) := by
  unfold verdict
  extract_lets bad
  exact .ite (.ite (accuse_reported ..) (.refl s)) (.refl s)

theorem not_reportKey_mismatch : ¬reportKey TWN_MISMATCH := by
  unfold reportKey settleKey LDG_STATUS LDG_SUPPRESSED TWN_MISMATCH TWN_STATUS TWN_ACCUSE CTL_MSIX_PBA PWR_DOM_STATUS
  omega

theorem mismatch_ne_status : TWN_MISMATCH ≠ TWN_STATUS := by decide

theorem rd_clearDiverge {k : Nat} (s : State) (h : k ≠ TWN_STATUS) : rd (clearDiverge s) k = rd s k :=
  rd_fset_ne s TWN_STATUS k TWN_STATUS_diverge 0 h

/-- A word that is not the engine's own counts, whatever it raises. -/
theorem rd_provCompare (p : ProvWord) (s : State) :
    rd (provCompare 0 p s) TWN_MISMATCH = rd s TWN_MISMATCH + (if provSame s p then 0 else 1) := by
  have hcount : rd (if provSame s p then s else cnt s TWN_MISMATCH) TWN_MISMATCH = rd s TWN_MISMATCH + (if provSame s p then 0 else 1) := by
    split_ifs
    · exact (BitVec.add_zero _).symm
    · exact rd_cnt ..
  refine Eq.trans ?_ hcount
  unfold provCompare
  extract_lets own same s1 keep seen tw s2 r setRun s3 air twice raised up s3' s4 src s5
  rw [if_neg (by decide)]
  change _ = rd s1 TWN_MISMATCH
  split
  · split
    · exact rd_clearDiverge s3 mismatch_ne_status
    · rfl
  · split
    · calc rd (verdict p s5) TWN_MISMATCH
        _ = rd s5 TWN_MISMATCH := (verdict_reported p s5).rd _ not_reportKey_mismatch
        _ = rd (wr s4 TWN_DIV_AT (BitVec.ofNat 32 src)) TWN_MISMATCH := (occur_reported ..).rd _ not_reportKey_mismatch
        _ = rd s4 TWN_MISMATCH := rd_wr_ne _ _ _ _ (by decide)
        _ = rd s3' TWN_MISMATCH := (rd_cnt_ne _ _ _ (by decide)).trans (rd_fset_ne _ _ _ _ _ mismatch_ne_status)
    · rfl

theorem provSame_count (s : State) (p : ProvWord) : (if provSame s p then 0 else 1 : W32) =
    match findTag s.twn.own p with | some o => if o.word = p.word then 0 else 1 | none => 1 := by
  unfold provSame
  cases findTag s.twn.own p with
  | none => rfl
  | some o => exact if_congr beq_iff_eq rfl rfl

/-! ### The words of a RATIO message (08 R254) -/

theorem ratioOwner_congr {s t : State} (hcfg : rd t TWN_CFG = rd s TWN_CFG) (hst : rd t TWN_STATUS = rd s TWN_STATUS) (htwn : t.twn = s.twn) :
    ratioOwner t = ratioOwner s := by
  unfold ratioOwner isOwner roleB fbit
  rw [isTwin_congr hcfg, fget_congr _ _ _ _ hcfg, fget_congr _ _ _ _ hst, htwn]

/-- The bridge with the word of a block to come. -/
def ratioKnown (v : Bridge) (w : BitVec 64) : Bridge :=
  { v with words := smSet 0 v.words (v.block + (bitsOf w.toNat 52 4 + 16 - v.block % 16) % 16) (bitsOf w.toNat 0 52 + 1) }

theorem ratioMsg_one {s : State} {w : BitVec 64} {v : Bridge} (ht : isTwin s = true) (hup : linkState s 0 = lkUP) (ho : ratioOwner s = false)
    (hv : bridge s (bitsOf w.toNat 56 8) = some v) (ha : v.async = true) (hb : 0 < v.blocks) : ratioMsg 0 [w] s =
      setBridge (bitsOf w.toNat 56 8) (some (ratioKnown v w)) s := by
  unfold linkState at hup
  unfold bridge at hv
  unfold ratioMsg
  rw [if_pos ⟨rfl, ht, hup⟩]
  change ratioWord w s = _
  unfold ratioWord
  dsimp only
  rw [hv]
  dsimp only
  rw [ho, if_pos (by rw [ha]; rfl), if_neg (Nat.ne_of_gt hb)]
  rfl

/-! ### A TWIN message (12 R379) -/

theorem returnDue_twn (s : State) : (returnDue s).twn.peerWord0 = s.twn.peerWord0 ∧ (returnDue s).twn.peerWord1 = s.twn.peerWord1 ∧
    peerState (returnDue s) = peerState s := by
  unfold returnDue
  split_ifs
  · exact ⟨rfl, rfl, rfl⟩
  · exact ⟨rfl, rfl, rfl⟩

theorem clearDiverge_peer (s : State) : peerState (clearDiverge s) = peerState s :=
  fget_fset_other s TWN_STATUS TWN_STATUS_diverge TWN_STATUS_peer 0 (by decide) (by decide)

/-- The peer's condition changes and its words stay. -/
theorem setPeer_peer {v : Nat} (hv : v < 4) (s : State) : peerState (setPeer s v) = v ∧
    (setPeer s v).twn.peerWord0 = s.twn.peerWord0 ∧ (setPeer s v).twn.peerWord1 = s.twn.peerWord1 := by
  unfold setPeer
  extract_lets s1
  have h1 : peerState s1 = v := (fget_fset _ _ _ _ (by decide)).trans (Nat.mod_eq_of_lt hv)
  obtain ⟨hw0, hw1, hp⟩ := returnDue_twn (if v ≠ 1 then clearDiverge s1 else s1)
  rw [hw0, hw1, hp]
  split_ifs
  · exact ⟨(clearDiverge_peer s1).trans h1, rfl, rfl⟩
  · exact ⟨h1, rfl, rfl⟩

theorem twinMsgIn_words {s : State} (w0 w1 : BitVec 64) (ht : isTwin s = true) (hup : linkState s 0 = lkUP) : twinMsgIn 0 [w0, w1] s =
    setPeer { s with twn := { s.twn with peerWord0 := w0, peerWord1 := w1 } } (if w0.getLsbD 0 then 1 else 2) := by
  unfold linkState at hup
  exact if_pos ⟨rfl, ht, hup⟩

/-! ### The commands -/

section
variable {s : State} {u : LinkUnit} {r0 r1 r2 : List Block66} (ready : Ready s) (hgood : msgGood u)
include ready hgood

theorem completes_firmwareOwn {l : Fin 2} (hup : linkState s l = lkUP) (hm : lineMsg s l (r0 ++ r1 ++ r2) = some u)
    (ht : (msgOf u.header u.words).type = 0x10) (hb : (msgOf u.header u.words).bcast = false)
    (hd : (msgOf u.header u.words).dest = fget s DAX_ID DAX_ID_engine_id) : Completes (.firmwareMessage l r0 r1 r2) s (fun t =>
      t.net.ctlq = s.net.ctlq ++ [⟨16 + l, (wordBytes u.words).map (·.toNat), none, none⟩] ∧ t.dax = s.dax) := by
  refine completes_msgTaken (eff := firmwareMsg l) rfl ready hup hm hgood (by decide) ht (.inl rfl) fun q taken => ?_
  have hid : fget q DAX_ID DAX_ID_engine_id = fget s DAX_ID DAX_ID_engine_id :=
    fget_congr _ _ _ _ (taken.rd _ (by unfold DAX_ID DAX_BLOCK_ERR; omega))
  rw [firmwareMsg_own l hb (hd.trans hid.symm)]
  exact ⟨(settle_ctlq _).trans (congrArg (fun n : NetSt => n.ctlq ++ _) taken.net), (settle_dax _).trans taken.dax⟩

theorem completes_provenanceNone {l : Fin 2} (hup : linkState s l = lkUP) (hm : lineMsg s l (r0 ++ r1 ++ r2) = some u)
    (ht : (msgOf u.header u.words).type = 0x20)
    (hsrc : (msgOf u.header u.words).src = fget s (DAX_LINK_STATUS l) DAX_LINK_STATUS_peer_seen) (hmode : twnMode s = 0) :
    Completes (.provenanceMessage l r0 r1 r2) s (fun t => t.twn = s.twn) := by
  refine completes_msgTaken (eff := fun m => provMsgIn l m.body) rfl ready hup hm hgood (by decide) ht (.inr hsrc) fun q taken => ?_
  rw [provMsgIn_none (taken.twnMode_eq.trans hmode)]
  exact (settle_twn q).trans taken.twn

theorem completes_provenanceWord {p : ProvWord} (hup : linkState s 0 = lkUP) (hm : lineMsg s 0 (r0 ++ r1 ++ r2) = some u)
    (ht : (msgOf u.header u.words).type = 0x20)
    (hsrc : (msgOf u.header u.words).src = fget s (DAX_LINK_STATUS 0) DAX_LINK_STATUS_peer_seen) (hmode : twnMode s ≠ 0)
    (hp : provEntries u.words = [p]) : Completes (.provenanceMessage 0 r0 r1 r2) s (fun t =>
      rd t TWN_MISMATCH = rd s TWN_MISMATCH + (if provSame s p then 0 else 1)) := by
  refine completes_msgTaken (l := 0) (eff := fun m => provMsgIn 0 m.body) rfl ready hup hm hgood (by decide) ht (.inr hsrc) fun q taken => ?_
  have hsame : provSame q p = provSame s p := by
    unfold provSame
    rw [taken.twn]
  have hbody : provEntries (msgOf u.header u.words).body = [p] := hp
  have hmode' : twnMode q ≠ 0 := taken.twnMode_eq.symm ▸ hmode
  rw [provMsgIn_one hmode' hbody, (settled_above s _).rd _ (by decide), rd_provCompare, hsame, taken.rd_twin (by decide)]

theorem completes_ratioWord {w : BitVec 64} {v : Bridge} (hup : linkState s 0 = lkUP) (hm : lineMsg s 0 (r0 ++ r1 ++ r2) = some u)
    (ht : (msgOf u.header u.words).type = 0x21)
    (hsrc : (msgOf u.header u.words).src = fget s (DAX_LINK_STATUS 0) DAX_LINK_STATUS_peer_seen) (htwin : isTwin s = true)
    (ho : ratioOwner s = false) (hw : u.words = [w]) (hv : bridge s (bitsOf w.toNat 56 8) = some v) (ha : v.async = true) (hb : 0 < v.blocks) :
    Completes (.ratioMessage 0 r0 r1 r2) s (fun t => bridge t (bitsOf w.toNat 56 8) = some (ratioKnown v w)) := by
  refine completes_msgTaken (l := 0) (eff := fun m => ratioMsg 0 m.body) rfl ready hup hm hgood (by decide) ht (.inr hsrc) fun q taken => ?_
  have howner : ratioOwner q = false := (ratioOwner_congr (taken.rd_twin (by decide)) (taken.rd_twin (by decide)) taken.twn).trans ho
  have hbody : (msgOf u.header u.words).body = [w] := hw
  rw [hbody, ratioMsg_one (taken.isTwin_eq.trans htwin) (taken.linkState_eq.trans hup) howner ((bridge_congr taken.prt _).trans hv) ha hb]
  exact (bridge_settled ..).trans (bridge_setBridge ..)

theorem completes_twinWords {w0 w1 : BitVec 64} (hup : linkState s 0 = lkUP) (hm : lineMsg s 0 (r0 ++ r1 ++ r2) = some u)
    (ht : (msgOf u.header u.words).type = 0x30)
    (hsrc : (msgOf u.header u.words).src = fget s (DAX_LINK_STATUS 0) DAX_LINK_STATUS_peer_seen) (htwin : isTwin s = true)
    (hw : u.words = [w0, w1]) : Completes (.twinMessage 0 r0 r1 r2) s (fun t =>
      peerState t = (if w0.getLsbD 0 then 1 else 2) ∧ t.twn.peerWord0 = w0 ∧ t.twn.peerWord1 = w1) := by
  refine completes_msgTaken (l := 0) (eff := fun m => twinMsgIn 0 m.body) rfl ready hup hm hgood (by decide) ht (.inr hsrc) fun q taken => ?_
  have hbody : (msgOf u.header u.words).body = [w0, w1] := hw
  rw [hbody, twinMsgIn_words _ _ (taken.isTwin_eq.trans htwin) (taken.linkState_eq.trans hup)]
  obtain ⟨hpeer, hw0, hw1⟩ := setPeer_peer (v := if w0.getLsbD 0 then 1 else 2) (by split_ifs <;> decide)
    { q with twn := { q.twn with peerWord0 := w0, peerWord1 := w1 } }
  exact ⟨((settled_above s _).fget (by decide) _).trans hpeer, (congrArg TwnSt.peerWord0 (settle_twn _)).trans hw0,
    (congrArg TwnSt.peerWord1 (settle_twn _)).trans hw1⟩

end

end Sys2Proof.Machine
end

section
/-! PROOF. 10 R317 to R320, R322: the transmit map and the partial-sum table of a link (O43). -/

namespace Sys2Proof.Machine

/-! ### A software write to a register of the links' block (15 R460) -/

/-- The links' registers with an action of their own, and the others. -/
theorem softWrite_link {k : Nat} {s : State} (m : Nat) (v : W32) (h : k / 0x40000 = 10) (hon : regOn s k = true) :
    softWrite m k v s =
      onInst k (DAX_LINK_CFG 0) 0x400 2 (fun l s => linkCfg m l v s)
        (onInst k (DAX_WAKE 0) 0x400 2 (fun l s => wakeCtrl m l v s)
          (onInst k (DAX_TXMAP 0 0) 1 8192 (fun j s => txmapCtrl m 0 j v s)
            (onInst k (DAX_TXMAP 1 0) 1 8192 (fun j s => txmapCtrl m 1 j v s)
              (onInst k (DAX_PS 0 0) 1 4096 (fun j s => psCtrl m 0 j v s)
                (onInst k (DAX_PS 1 0) 1 4096 (fun j s => psCtrl m 1 j v s) (fun s => swWrite s m k v)))))) s := by
  have hctl : ¬k < 6 * 0x40000 := by omega
  have hlink : k < 11 * 0x40000 := by omega
  unfold softWrite regWrite regWriteLink
  rw [if_pos hon, if_neg hctl, if_pos hlink, h]
  rfl

/-- The tables lie above the links' own registers. -/
theorem softWrite_table {k : Nat} {s : State} (m : Nat) (v : W32) (hlo : 0x284000 ≤ k) (hhi : k < 0x2c0000) (hon : regOn s k = true) :
    softWrite m k v s =
      onInst k (DAX_TXMAP 0 0) 1 8192 (fun j s => txmapCtrl m 0 j v s)
        (onInst k (DAX_TXMAP 1 0) 1 8192 (fun j s => txmapCtrl m 1 j v s)
          (onInst k (DAX_PS 0 0) 1 4096 (fun j s => psCtrl m 0 j v s)
            (onInst k (DAX_PS 1 0) 1 4096 (fun j s => psCtrl m 1 j v s) (fun s => swWrite s m k v)))) s := by
  have hcfg : inst k (DAX_LINK_CFG 0) 0x400 2 = none := inst_beyond (by decide) (by unfold DAX_LINK_CFG; omega)
  have hwake : inst k (DAX_WAKE 0) 0x400 2 = none := inst_beyond (by decide) (by unfold DAX_WAKE; omega)
  rw [softWrite_link m v (by omega) hon, onInst_none hcfg, onInst_none hwake]

theorem inst_word (base : Nat) {n j : Nat} (h : j < n) : inst (base + j) base 1 n = some j := by
  have hself := inst_self (base := base) Nat.one_pos h
  rwa [Nat.one_mul] at hself

theorem softWrite_txmap {s : State} (m : Nat) (l : Fin 2) (j : Fin 8192) (w : W32) (hon : regOn s (DAX_TXMAP l j) = true) :
    softWrite m (DAX_TXMAP l j) w s = txmapCtrl m l j w s := by
  have hl : l.val = 0 ∨ l.val = 1 := by omega
  rw [softWrite_table m w (by unfold DAX_TXMAP; omega) (by unfold DAX_TXMAP; omega) hon]
  rcases hl with h | h
  · have hj : inst (DAX_TXMAP 0 j) (DAX_TXMAP 0 0) 1 8192 = some j.val := inst_word (DAX_TXMAP 0 0) j.isLt
    rw [h, onInst_some hj]
  · have h0 : inst (DAX_TXMAP 1 j) (DAX_TXMAP 0 0) 1 8192 = none := inst_beyond (by decide) (by unfold DAX_TXMAP; omega)
    have hj : inst (DAX_TXMAP 1 j) (DAX_TXMAP 1 0) 1 8192 = some j.val := inst_word (DAX_TXMAP 1 0) j.isLt
    rw [h, onInst_none h0, onInst_some hj]

theorem softWrite_ps {s : State} (m : Nat) (l : Fin 2) (j : Fin 4096) (w : W32) (hon : regOn s (DAX_PS l j) = true) :
    softWrite m (DAX_PS l j) w s = psCtrl m l j w s := by
  have hl : l.val = 0 ∨ l.val = 1 := by omega
  have h0 : inst (DAX_PS l j) (DAX_TXMAP 0 0) 1 8192 = none := inst_beyond (by decide) (by unfold DAX_TXMAP DAX_PS; omega)
  have h1 : inst (DAX_PS l j) (DAX_TXMAP 1 0) 1 8192 = none := inst_beyond (by decide) (by unfold DAX_TXMAP DAX_PS; omega)
  rw [softWrite_table m w (by unfold DAX_PS; omega) (by unfold DAX_PS; omega) hon, onInst_none h0, onInst_none h1]
  rcases hl with h | h
  · have hj : inst (DAX_PS 0 j) (DAX_PS 0 0) 1 4096 = some j.val := inst_word (DAX_PS 0 0) j.isLt
    rw [h, onInst_some hj]
  · have h0 : inst (DAX_PS 1 j) (DAX_PS 0 0) 1 4096 = none := inst_beyond (by decide) (by unfold DAX_PS; omega)
    have hj : inst (DAX_PS 1 j) (DAX_PS 1 0) 1 4096 = some j.val := inst_word (DAX_PS 1 0) j.isLt
    rw [h, onInst_none h0, onInst_some hj]

/-! ### An entry written, and one refused (10 R317, R319, R320) -/

theorem swWrite_fields {k : Nat} (s : State) (m : Nat) (w : W32) (hlo : 0x200000 ≤ k) (hhi : k < 0x400000) : swWrite s m k w = fieldsWrite s k w :=
  if_neg (Bool.eq_false_iff.mp (not_isSealed_audio s hlo hhi))

theorem fieldsWrite_quietOut (s : State) (k : Nat) (w : W32) : fieldsWrite (quietOut s) k w = quietOut (fieldsWrite s k w) := by
  unfold fieldsWrite
  split <;> rfl

theorem fieldsWrite_keeps {β : Type} (p : State → β) (hr : ∀ s r, p { s with regs := r } = p s) (s : State) (k : Nat) (w : W32) :
    p (fieldsWrite s k w) = p s := by
  unfold fieldsWrite
  split
  · rfl
  · exact hr ..

section
variable {i : Instr} {s : State} {l k : Nat} {w : W32} (f : State → State)

/-- A write that a table takes. -/
theorem completes_entryWritten (he : exec i s = run f s) (ready : Ready s) (hk : 0x200000 ≤ k)
    (hf : f (quietOut s) = fieldsWrite (quietOut s) k w) :
    Completes i s (fun t => rd t k = rd (fieldsWrite s k w) k ∧ t.dax = s.dax) := by
  refine completes_run f he ready ?_
  rw [hf]
  refine ⟨((settled_above s _).rd k (by omega)).trans ?_, (settle_dax _).trans (fieldsWrite_keeps State.dax (fun _ _ => rfl) ..)⟩
  rw [fieldsWrite_quietOut]
  rfl

/-- A write that a table refuses with its code. -/
theorem completes_entryRefused {c : Nat} (he : exec i s = run f s) (ready : Ready s) (hk : 0x284000 ≤ k) (hl : l < 2) (hc : c < 16)
    (hf : f (quietOut s) = tblRefuse l c (quietOut s)) :
    Completes i s (fun t => fget t (DAX_TBL_STATUS l) DAX_TBL_STATUS_refusal = c ∧ rd t k = rd s k) := by
  refine completes_run f he ready ?_
  rw [hf]
  refine ⟨((settled_above s _).fget (by unfold DAX_TBL_STATUS; omega) _).trans ?_, ((settled_above s _).rd k (by omega)).trans ?_⟩
  · exact (fget_fset _ _ _ _ (by decide)).trans (Nat.mod_eq_of_lt hc)
  · exact rd_fset_ne (quietOut s) _ _ _ _ (by unfold DAX_TBL_STATUS; omega)

end

theorem txmapCtrl_clears {s : State} {m l j : Nat} {w : W32} (h : wbit w DAX_TXMAP_valid = false) :
    txmapCtrl m l j w s = swWrite s m (DAX_TXMAP l j) w := by
  unfold txmapCtrl
  rw [h]
  rfl

/-- Some partial-sum entry of the link takes the channel. -/
def channelTaken (s : State) (l j : Nat) : Bool := (psOthers s l true none).any (fun p => wget p DAX_PS_channel / 2 == j / 2)

theorem txmapCtrl_low {s : State} {m l j : Nat} {w : W32} (h : wbit w DAX_TXMAP_valid = true) (he : wget w DAX_TXMAP_entry < 4256) :
    txmapCtrl m l j w s = tblRefuse l 1 s := by
  unfold txmapCtrl
  rw [h]
  exact if_pos he

theorem txmapCtrl_taken {s : State} {m l j : Nat} {w : W32} (h : wbit w DAX_TXMAP_valid = true) (he : 4256 ≤ wget w DAX_TXMAP_entry)
    (ht : channelTaken s l j = true) : txmapCtrl m l j w s = tblRefuse l 2 s := by
  unfold txmapCtrl
  rw [h]
  exact (if_neg (Nat.not_lt.mpr he)).trans (if_pos ht)

theorem txmapCtrl_fits {s : State} {m l j : Nat} {w : W32} (h : wbit w DAX_TXMAP_valid = true) (he : 4256 ≤ wget w DAX_TXMAP_entry)
    (ht : channelTaken s l j = false) (hf : linkFits l (swWrite s m (DAX_TXMAP l j) w) = true) :
    txmapCtrl m l j w s = swWrite s m (DAX_TXMAP l j) w := by
  unfold txmapCtrl
  rw [h]
  refine (if_neg (Nat.not_lt.mpr he)).trans ((if_neg (Bool.eq_false_iff.mp ht)).trans (if_neg ?_))
  rw [hf]
  decide

/-! ### The partial-sum table (10 R320, R322) -/

theorem psCtrl_clears {s : State} {m l j : Nat} {w : W32} (h : wbit w DAX_PS_valid = false) : psCtrl m l j w s = swWrite s m (DAX_PS l j) w := by
  unfold psCtrl
  rw [h]
  rfl

theorem psCtrl_channel {s : State} {m l j : Nat} {w : W32} (h : wbit w DAX_PS_valid = true)
    (hc : wget w DAX_PS_channel % 2 = 1 ∨ 8190 < wget w DAX_PS_channel) : psCtrl m l j w s = tblRefuse l 1 s := by
  unfold psCtrl
  rw [h]
  exact if_pos hc

theorem psCtrl_fits {s : State} {m l j : Nat} {w : W32} (h : wbit w DAX_PS_valid = true) (heven : wget w DAX_PS_channel % 2 = 0)
    (hmax : wget w DAX_PS_channel ≤ 8190) (hrx : wbit w DAX_PS_tx = false)
    (hsame : ∀ p ∈ psOthers s l false (some j), wget p DAX_PS_d_slot ≠ wget w DAX_PS_d_slot ∧ wget p DAX_PS_channel / 2 ≠ wget w DAX_PS_channel / 2)
    (hother : ∀ p ∈ psOthers s (1 - l) false none, wget p DAX_PS_d_slot ≠ wget w DAX_PS_d_slot)
    (hf : linkFits l (swWrite s m (DAX_PS l j) w) = true) : psCtrl m l j w s = swWrite s m (DAX_PS l j) w := by
  have hslot : (psOthers s l false (some j) ++ psOthers s (1 - l) false none).any (fun p => wget p DAX_PS_d_slot == wget w DAX_PS_d_slot) = false := by
    refine List.any_eq_false.mpr fun p hp => ?_
    rw [beq_iff_eq]
    exact (List.mem_append.mp hp).elim (fun h => (hsame p h).1) (hother p)
  have hchan : (psOthers s l false (some j)).any (fun p => wget p DAX_PS_channel / 2 == wget w DAX_PS_channel / 2) = false := by
    refine List.any_eq_false.mpr fun p hp => ?_
    rw [beq_iff_eq]
    exact (hsame p hp).2
  unfold psCtrl
  dsimp only
  rw [h, hrx, hslot, hchan, hf, if_neg (by decide), if_neg (by omega), if_neg (by simp), if_neg (by decide)]

/-! ### The commands -/

theorem linkFits_quietOut (l : Nat) (s : State) : linkFits l (quietOut s) = linkFits l s := rfl

theorem linkFits_written {k l : Nat} {s : State} {w : W32} (m : Nat) (hlo : 0x200000 ≤ k) (hhi : k < 0x400000) (h : linkFits l (fieldsWrite s k w) = true) :
    linkFits l (swWrite (quietOut s) m k w) = true := by
  rw [swWrite_fields _ _ _ hlo hhi, fieldsWrite_quietOut, linkFits_quietOut, h]

section
variable {s : State} {l : Fin 2} {j : Fin 8192} {w : W32} (ready : Ready s) (hon : regOn s (DAX_TXMAP l j) = true)
include ready hon

/-- A map entry written. -/
theorem completes_txmapPlain (h : txmapCtrl 8 l j w (quietOut s) = swWrite (quietOut s) 8 (DAX_TXMAP l j) w) :
    Completes (.txmapWrite l j w) s (fun t => rd t (DAX_TXMAP l j) = rd (fieldsWrite s (DAX_TXMAP l j) w) (DAX_TXMAP l j) ∧ t.dax = s.dax) := by
  refine completes_entryWritten (softWrite 8 (DAX_TXMAP l j) w) rfl ready (by unfold DAX_TXMAP; omega) ?_
  rw [softWrite_txmap (s := quietOut s) 8 l j w hon, h, swWrite_fields _ _ _ (by unfold DAX_TXMAP; omega) (by unfold DAX_TXMAP; omega)]

/-- A map entry refused. -/
theorem completes_txmapRefused {c : Nat} (hc : c < 16) (h : txmapCtrl 8 l j w (quietOut s) = tblRefuse l c (quietOut s)) :
    Completes (.txmapWrite l j w) s (fun t => fget t (DAX_TBL_STATUS l) DAX_TBL_STATUS_refusal = c ∧ rd t (DAX_TXMAP l j) = rd s (DAX_TXMAP l j)) := by
  refine completes_entryRefused (softWrite 8 (DAX_TXMAP l j) w) rfl ready (by unfold DAX_TXMAP; omega) l.isLt hc ?_
  rw [softWrite_txmap (s := quietOut s) 8 l j w hon, h]

theorem completes_txmapCleared (hv : wbit w DAX_TXMAP_valid = false) :
    Completes (.txmapWrite l j w) s (fun t => rd t (DAX_TXMAP l j) = rd (fieldsWrite s (DAX_TXMAP l j) w) (DAX_TXMAP l j) ∧ t.dax = s.dax) :=
  completes_txmapPlain ready hon (txmapCtrl_clears hv)

theorem completes_txmapLow (hv : wbit w DAX_TXMAP_valid = true) (he : wget w DAX_TXMAP_entry < 4256) :
    Completes (.txmapWrite l j w) s (fun t => fget t (DAX_TBL_STATUS l) DAX_TBL_STATUS_refusal = 1 ∧ rd t (DAX_TXMAP l j) = rd s (DAX_TXMAP l j)) :=
  completes_txmapRefused ready hon (by decide) (txmapCtrl_low hv he)

theorem completes_txmapClash (hv : wbit w DAX_TXMAP_valid = true) (he : 4256 ≤ wget w DAX_TXMAP_entry) (ht : channelTaken s l j = true) :
    Completes (.txmapWrite l j w) s (fun t => fget t (DAX_TBL_STATUS l) DAX_TBL_STATUS_refusal = 2 ∧ rd t (DAX_TXMAP l j) = rd s (DAX_TXMAP l j)) :=
  completes_txmapRefused ready hon (by decide) (txmapCtrl_taken hv he ht)

theorem completes_txmapWritten (hv : wbit w DAX_TXMAP_valid = true) (he : 4256 ≤ wget w DAX_TXMAP_entry) (ht : channelTaken s l j = false)
    (hf : linkFits l (fieldsWrite s (DAX_TXMAP l j) w) = true) :
    Completes (.txmapWrite l j w) s (fun t => rd t (DAX_TXMAP l j) = rd (fieldsWrite s (DAX_TXMAP l j) w) (DAX_TXMAP l j) ∧ t.dax = s.dax) :=
  completes_txmapPlain ready hon (txmapCtrl_fits hv he ht
    (linkFits_written 8 (by unfold DAX_TXMAP; omega) (by unfold DAX_TXMAP; omega) hf))

end

section
variable {s : State} {l : Fin 2} {j : Fin 4096} {w : W32} (ready : Ready s) (hon : regOn s (DAX_PS l j) = true)
include ready hon

/-- A partial-sum entry written. -/
theorem completes_psPlain (h : psCtrl 8 l j w (quietOut s) = swWrite (quietOut s) 8 (DAX_PS l j) w) :
    Completes (.psTableWrite l j w) s (fun t => rd t (DAX_PS l j) = rd (fieldsWrite s (DAX_PS l j) w) (DAX_PS l j) ∧ t.dax = s.dax) := by
  refine completes_entryWritten (softWrite 8 (DAX_PS l j) w) rfl ready (by unfold DAX_PS; omega) ?_
  rw [softWrite_ps (s := quietOut s) 8 l j w hon, h, swWrite_fields _ _ _ (by unfold DAX_PS; omega) (by unfold DAX_PS; omega)]

theorem completes_psCleared (hv : wbit w DAX_PS_valid = false) :
    Completes (.psTableWrite l j w) s (fun t => rd t (DAX_PS l j) = rd (fieldsWrite s (DAX_PS l j) w) (DAX_PS l j) ∧ t.dax = s.dax) :=
  completes_psPlain ready hon (psCtrl_clears hv)

theorem completes_psChannel (hv : wbit w DAX_PS_valid = true) (hc : wget w DAX_PS_channel % 2 = 1 ∨ 8190 < wget w DAX_PS_channel) :
    Completes (.psTableWrite l j w) s (fun t => fget t (DAX_TBL_STATUS l) DAX_TBL_STATUS_refusal = 1 ∧ rd t (DAX_PS l j) = rd s (DAX_PS l j)) := by
  refine completes_entryRefused (softWrite 8 (DAX_PS l j) w) rfl ready (by unfold DAX_PS; omega) l.isLt (by decide) ?_
  rw [softWrite_ps (s := quietOut s) 8 l j w hon, psCtrl_channel hv hc]

theorem completes_psWritten (hv : wbit w DAX_PS_valid = true) (heven : wget w DAX_PS_channel % 2 = 0)
    (hmax : wget w DAX_PS_channel ≤ 8190) (hrx : wbit w DAX_PS_tx = false)
    (hsame : ∀ p ∈ psOthers s l false (some j), wget p DAX_PS_d_slot ≠ wget w DAX_PS_d_slot ∧ wget p DAX_PS_channel / 2 ≠ wget w DAX_PS_channel / 2)
    (hother : ∀ p ∈ psOthers s (1 - l) false none, wget p DAX_PS_d_slot ≠ wget w DAX_PS_d_slot)
    (hf : linkFits l (fieldsWrite s (DAX_PS l j) w) = true) :
    Completes (.psTableWrite l j w) s (fun t => rd t (DAX_PS l j) = rd (fieldsWrite s (DAX_PS l j) w) (DAX_PS l j) ∧ t.dax = s.dax) :=
  completes_psPlain ready hon (psCtrl_fits hv heven hmax hrx hsame hother
    (linkFits_written 8 (by unfold DAX_PS; omega) (by unfold DAX_PS; omega) hf))

end

theorem completes_txmapApply {s : State} (l : Fin 2) (ready : Ready s) : Completes (.txmapApply l) s (fun t => (daxLink t l).txmap =
    (smRange s.regs (DAX_TXMAP l 0) (DAX_TXMAP l 8192)).map (fun (k, w) => (k - DAX_TXMAP l 0, w)) ∧ t.mem = s.mem) := by
  refine completes_run (doTxmapApply l) rfl ready ⟨?_, (settle_mem _).trans rfl⟩
  exact (congrArg DaxLink.txmap ((daxLink_settled ..).trans (daxLink_setDaxLink ..)))

end Sys2Proof.Machine
end

section
/-! PROOF. 10 R305 to R329, 12 R376, R379, 08 R254: what a Daxesh link sends, takes and keeps (O43). -/

namespace Sys2Proof.Machine

/-- Settles O43: the coding is undone by its decoding; frames, messages and table writes act as each of their rules says. -/
theorem linkTraffic : Obligations.LinkTraffic := by
  refine ⟨descramble_scramble, fun p st bs => codeLanes_descramble bs p st, unitOf_msgBlocks, fun s l ready =>
    ⟨fun rx f hup hf => ⟨?_, ?_⟩, fun i m hup hi hm => ?_, fun r0 r1 r2 hdr body crc hup hm => ?_, fun j w hon => ?_, completes_txmapApply l ready, fun j w hon => ?_⟩⟩
  · exact fun x hok hx => completes_tickFrameHeld ready hup hf hok hx
  · exact fun c hfail => completes_tickFrameLost ready hup hf hfail
  · exact completes_messageSend ready hup hi hm
  · intro dropped good fromPeer
    have hdrop {i : Instr} (h : Completes i s (Dropped s l)) : Completes i s dropped := h.mono fun _ d => ⟨d.count, d.dax, d.prt, d.twn⟩
    refine ⟨fun hcrc => ⟨?_, ?_, ?_, ?_⟩, ?_, ?_, ?_, ?_, ?_⟩
    · exact hdrop (completes_msgDropped (want := 0x10) rfl ready hup hm hcrc)
    · exact hdrop (completes_msgDropped (want := 0x20) rfl ready hup hm hcrc)
    · exact hdrop (completes_msgDropped (want := 0x21) rfl ready hup hm hcrc)
    · exact hdrop (completes_msgDropped (want := 0x30) rfl ready hup hm hcrc)
    · exact fun hg ht hb hd => completes_firmwareOwn (u := ⟨hdr, body, crc⟩) ready hg hup hm ht hb hd
    · exact fun hg ht hp hmode => completes_provenanceNone (u := ⟨hdr, body, crc⟩) ready hg hup hm ht hp hmode
    · intro p hg ht hp hl hmode hw
      subst hl
      exact (completes_provenanceWord (u := ⟨hdr, body, crc⟩) ready hg hup hm ht hp hmode hw).mono fun t h =>
        h.trans (congrArg (rd s TWN_MISMATCH + ·) (provSame_count s p))
    · intro b w v hg ht hp hl htwin ho hw hb hv ha hpos
      subst hl hb
      exact completes_ratioWord (u := ⟨hdr, body, crc⟩) ready hg hup hm ht hp htwin ho hw hv ha hpos
    · intro w0 w1 hg ht hp hl htwin hw
      subst hl
      exact completes_twinWords (u := ⟨hdr, body, crc⟩) ready hg hup hm ht hp htwin hw
  · exact ⟨completes_txmapCleared ready hon, completes_txmapLow ready hon, completes_txmapClash ready hon, completes_txmapWritten ready hon⟩
  · exact ⟨completes_psCleared ready hon, completes_psChannel ready hon, completes_psWritten ready hon⟩

end Sys2Proof.Machine
end

section
/-! PROOF. 08 R257, R258, R273, R274: the registers of a port side, its configuration and its mask (O39). -/

namespace Sys2Proof.Machine

/-! ### The places of a side's registers -/

/-- The row of side `i` among the rows of 32 registers. -/
def sideRow (i : Nat) : Nat := if i < 96 then i else i + 32

theorem prtSideBase_div (i : Nat) : prtSideBase i / 4 = 0x20 * sideRow i := by
  unfold prtSideBase sideRow
  split_ifs <;> omega

theorem sideRow_lt {i : Nat} (h : i < 160) : sideRow i < 192 := by
  unfold sideRow
  split_ifs <;> omega

theorem sideRow_injective {i j : Nat} (h : sideRow i = sideRow j) : i = j := by
  unfold sideRow at h
  split_ifs at h <;> omega

/-- Register `r` of side `i`. -/
def sideReg (i r : Nat) : Nat := 0x200000 + prtSideBase i / 4 + r

theorem sideReg_lo (i r : Nat) : 0x200000 ≤ sideReg i r := by
  unfold sideReg
  omega

/-- The sides' registers lie below the bridges'. -/
theorem sideReg_hi {i r : Nat} (hi : i < 160) (hr : r < 0x20) : sideReg i r < 0x201800 := by
  have hrow : sideRow i < 192 := sideRow_lt hi
  unfold sideReg
  rw [prtSideBase_div]
  omega

theorem sideReg_injective {i j r r' : Nat} (hr : r < 0x20) (hr' : r' < 0x20) (h : sideReg i r = sideReg j r') : i = j ∧ r = r' := by
  unfold sideReg at h
  rw [prtSideBase_div, prtSideBase_div] at h
  exact ⟨sideRow_injective (by omega), by omega⟩

theorem sideReg_ne {i r r' : Nat} (h : r ≠ r') : sideReg i r ≠ sideReg i r' := by
  unfold sideReg
  omega

/-- What settles after a command is no register of a side. -/
theorem rd_side_settled (s u : State) (i r : Nat) : rd (keep s (settle u)) (sideReg i r) = rd u (sideReg i r) :=
  (settled_above s u).rd _ (by have := sideReg_lo i r; omega)

theorem fget_side_settled (s u : State) (i r : Nat) (f : Fld) : fget (keep s (settle u)) (sideReg i r) f = fget u (sideReg i r) f :=
  fget_congr _ _ _ _ (rd_side_settled s u i r)

/-! ### Software writes to them (15 R460) -/

theorem sideAction_cfg (m : Nat) (i : Fin 160) (v : W32) (s : State) : sideAction m (PRT_SIDE_CFG i) v s = sideCfg m i v s := by
  have hfind : (List.range 160).find? (fun j => PRT_SIDE_CFG i == PRT_SIDE_CFG j) = some i.val := by
    refine List.find?_range_eq_some.mpr ⟨beq_self_eq_true _, List.mem_range.mpr i.isLt, fun j hj => ?_⟩
    have hne : PRT_SIDE_CFG i ≠ PRT_SIDE_CFG j := fun h => absurd (sideReg_injective (r := 0) (r' := 0) (by decide) (by decide) h).1 (by omega)
    simpa using hne
  unfold sideAction
  rw [hfind]

theorem sideAction_mask (m : Nat) (i : Fin 160) (v : W32) (s : State) :
    sideAction m (PRT_SIDE_MASK i) v s = swWrite s m (PRT_SIDE_MASK i) v := by
  have hfind : (List.range 160).find? (fun j => PRT_SIDE_MASK i == PRT_SIDE_CFG j) = none := by
    refine List.find?_eq_none.mpr fun j _ => ?_
    have hne : PRT_SIDE_MASK i ≠ PRT_SIDE_CFG j := fun h => absurd (sideReg_injective (r := 1) (r' := 0) (by decide) (by decide) h).2 (by decide)
    simpa using hne
  unfold sideAction
  rw [hfind]

/-- A side's register has no action but a side's. -/
theorem softWrite_side {s : State} {r : Nat} (m : Nat) (i : Fin 160) (w : W32) (hr : r < 0x20) (hon : regOn s (sideReg i r) = true) :
    softWrite m (sideReg i r) w s = sideAction m (sideReg i r) w s := by
  have hlo : 0x200000 ≤ sideReg i r := sideReg_lo i r
  have hhi : sideReg i r < 0x201800 := sideReg_hi i.isLt hr
  have hout : sideReg i r ≠ PRT_GP_OUT := by unfold PRT_GP_OUT; omega
  have hclr : sideReg i r ≠ PRT_GP_SENT_CLR := by unfold PRT_GP_SENT_CLR; omega
  have hpin : inst (sideReg i r) (PRT_GP_CFG 0) 4 32 = none := inst_below _ _ (by unfold PRT_GP_CFG; omega)
  have hbr : inst (sideReg i r) (PRT_BR_CTRL 0) 8 256 = none := inst_below _ _ (by unfold PRT_BR_CTRL; omega)
  rw [softWrite_port m w (by omega) hon, if_neg hout, if_neg hclr, onInst_none hpin, onInst_none hbr]

theorem softWrite_sideCfg {s : State} (m : Nat) (i : Fin 160) (w : W32) (hon : regOn s (PRT_SIDE_CFG i) = true) :
    softWrite m (PRT_SIDE_CFG i) w s = sideCfg m i w s := (softWrite_side (r := 0) m i w (by decide) hon).trans (sideAction_cfg ..)

theorem swWrite_side {r : Nat} (m : Nat) (i : Fin 160) (w : W32) (s : State) (hr : r < 0x20) :
    swWrite s m (sideReg i r) w = fieldsWrite s (sideReg i r) w :=
  swWrite_fields s m w (sideReg_lo i r) (by have := sideReg_hi i.isLt hr; omega)

theorem softWrite_sideMask {s : State} (m : Nat) (i : Fin 160) (w : W32) (hon : regOn s (PRT_SIDE_MASK i) = true) :
    softWrite m (PRT_SIDE_MASK i) w s = fieldsWrite s (PRT_SIDE_MASK i) w :=
  (softWrite_side (r := 1) m i w (by decide) hon).trans ((sideAction_mask ..).trans (swWrite_side (r := 1) m i w s (by decide)))

theorem rd_fieldsWrite_ne {k k' : Nat} (s : State) (w : W32) (h : k' ≠ k) : rd (fieldsWrite s k w) k' = rd s k' := by
  unfold fieldsWrite
  split
  · rfl
  · exact rd_wr_ne _ _ _ _ h

/-! ### The sides held -/

theorem side_congr {s t : State} (h : t.prt = s.prt) (j : Nat) : side t j = side s j := by
  unfold side
  rw [h]

theorem side_settled (s u : State) (j : Nat) : side (keep s (settle u)) j = side u j := side_congr (settle_prt u) j

theorem side_setSide (i : Nat) (v : Option Side) (s : State) : side (setSide i v s) i = v := smGet_smSet_same ..

theorem side_setSide_ne {i j : Nat} (v : Option Side) (s : State) (h : j ≠ i) : side (setSide i v s) j = side s j := smGet_smSet_ne _ _ _ _ _ h

theorem maskReg_congr {s t : State} {i : Nat} (h : rd t (PRT_SIDE_MASK i) = rd s (PRT_SIDE_MASK i)) : maskReg t i = maskReg s i := by
  unfold maskReg
  rw [h]

/-! ### Enabling (08 R257, R272) -/

/-- What an enabled side starts with. -/
structure SideStarted (s : State) (i : Nat) (d : Side) (t : State) : Prop where
  side : side t i = some d
  state : sideState t i = stSTARTING
  good : goodFrames t i = 0
  muted : fget t (PRT_SIDE_STATUS i) PRT_SIDE_STATUS_muted = 1
  others : ∀ j, j ≠ i → Machine.side t j = Machine.side s j

theorem sideStart_started (i : Nat) (cfg : W32) (s : State) : SideStarted s i (sideFresh cfg (maskReg s i)) (sideStart i cfg s) where
  side := side_setSide i _ s
  state := (fget_fset_other _ _ _ _ _ (by decide) (by decide)).trans
    ((fget_fset_other _ _ _ _ _ (by decide) (by decide)).trans (fget_fset _ _ _ _ (by decide)))
  good := (fget_fset_other _ _ _ _ _ (by decide) (by decide)).trans (fget_fset _ _ _ _ (by decide))
  muted := fget_fset _ _ _ _ (by decide)
  others _ h := side_setSide_ne _ s h

theorem SideStarted.settled {s t u : State} {i : Nat} {d : Side} (h : SideStarted s i d t) : SideStarted s i d (keep u (settle t)) where
  side := (side_settled ..).trans h.side
  state := (fget_side_settled u t i 2 _).trans h.state
  good := (fget_side_settled u t i 2 _).trans h.good
  muted := (fget_side_settled u t i 2 _).trans h.muted
  others j hj := (side_settled ..).trans (h.others j hj)

theorem completes_sideEnable {s : State} {i : Fin 160} {w : W32} (ready : Ready s) (hon : regOn s (PRT_SIDE_CFG i) = true)
    (hnone : side s i = none) (hw : wbit w PRT_SIDE_CFG_enable = true) : Completes (.sideEnable i w) s
      (SideStarted s i (sideFresh (rd (fieldsWrite s (PRT_SIDE_CFG i) w) (PRT_SIDE_CFG i)) (maskReg s i))) := by
  have hplain : swWrite (quietOut s) 8 (PRT_SIDE_CFG i) w = quietOut (fieldsWrite s (PRT_SIDE_CFG i) w) :=
    (swWrite_side (r := 0) 8 i w _ (by decide)).trans (fieldsWrite_quietOut ..)
  have hcfg : sideCfg 8 i w (quietOut s) = sideStart i (rd (fieldsWrite s (PRT_SIDE_CFG i) w) (PRT_SIDE_CFG i))
      (quietOut (fieldsWrite s (PRT_SIDE_CFG i) w)) := by
    have hnone' : side (quietOut s) i = none := hnone
    unfold sideCfg
    rw [hnone', hplain]
    exact if_pos hw
  have hmask : maskReg (quietOut (fieldsWrite s (PRT_SIDE_CFG i) w)) i = maskReg s i :=
    maskReg_congr (rd_fieldsWrite_ne s w (sideReg_ne (by decide)))
  refine completes_run (softWrite 8 (PRT_SIDE_CFG i) w) rfl ready ?_
  rw [softWrite_sideCfg (s := quietOut s) 8 i w hon, hcfg, ← hmask]
  have started := sideStart_started i (rd (fieldsWrite s (PRT_SIDE_CFG i) w) (PRT_SIDE_CFG i)) (quietOut (fieldsWrite s (PRT_SIDE_CFG i) w))
  have hprt : (quietOut (fieldsWrite s (PRT_SIDE_CFG i) w)).prt = s.prt := fieldsWrite_keeps State.prt (fun _ _ => rfl) ..
  exact { started.settled with others := fun j hj => (started.settled.others j hj).trans (side_congr hprt j) }

/-! ### Disabling (08 R274) -/

/-- A write that clears the enable of a side. -/
theorem completes_sideDisable {s : State} {i : Fin 160} {w : W32} {P : State → Prop} (ready : Ready s) (hon : regOn s (PRT_SIDE_CFG i) = true)
    (h : P (keep s (settle (sideCfg 8 i w (quietOut s))))) : Completes (.sideDisable i w) s P := by
  refine completes_run (softWrite 8 (PRT_SIDE_CFG i) w) rfl ready ?_
  rwa [softWrite_sideCfg (s := quietOut s) 8 i w hon]

section
variable {s : State} {i m : Nat} {d : Side} {w : W32} (hd : side s i = some d) (hw : wbit w PRT_SIDE_CFG_enable = false)
include hd hw

theorem sideCfg_closing {x : Dom} (hx : sideDom s i = some x) (hr : running s x = true) :
    sideCfg m i w s = setSide i (some { d with closing := true, again := none }) (swWrite s m (PRT_SIDE_CFG i) w) := by
  unfold sideCfg
  rw [hd, hw, hx]
  exact if_pos hr

theorem sideCfg_off (hx : ∀ x, sideDom s i = some x → running s x = false) : sideCfg m i w s = sideOff i (swWrite s m (PRT_SIDE_CFG i) w) := by
  unfold sideCfg
  rw [hd, hw]
  cases hdom : sideDom s i with
  | none => rfl
  | some x => exact if_neg (Bool.eq_false_iff.mp (hx x hdom))

end

theorem swWrite_prt (s : State) (m k : Nat) (w : W32) : (swWrite s m k w).prt = s.prt :=
  swWrite_keeps State.prt (fun _ _ => rfl) (fun _ _ => rfl) s m k w

theorem side_sideOff (i : Nat) (s : State) : side (sideOff i s) i = none := side_setSide ..

theorem side_sideOff_ne {i j : Nat} (s : State) (h : j ≠ i) : side (sideOff i s) j = side s j := side_setSide_ne _ _ h

theorem rd_sideOff (i : Nat) (s : State) : rd (sideOff i s) (PRT_SIDE_STATUS i) = regReset (PRT_SIDE_STATUS i) := rd_wr ..

/-! ### The mask (08 R273) -/

theorem completes_sideMaskWrite {s : State} {i : Fin 160} {w : W32} (ready : Ready s) (hon : regOn s (PRT_SIDE_MASK i) = true) :
    Completes (.sideMaskWrite i w) s (fun t =>
      rd t (PRT_SIDE_MASK i) = rd (fieldsWrite s (PRT_SIDE_MASK i) w) (PRT_SIDE_MASK i) ∧ t.prt = s.prt) := by
  refine completes_run (softWrite 8 (PRT_SIDE_MASK i) w) rfl ready ?_
  rw [softWrite_sideMask (s := quietOut s) 8 i w hon, fieldsWrite_quietOut]
  exact ⟨rd_side_settled s _ i 1, (settle_prt _).trans (fieldsWrite_keeps State.prt (fun _ _ => rfl) s _ w)⟩

theorem doMaskApply_out {s : State} {i : Fin 160} {d : Side} (hd : side s i = some d) (h : inFrame s i d = false) :
    doMaskApply i s = setSide i (some { d with mask := maskReg s i }) s := by
  unfold doMaskApply
  rw [hd]
  exact if_neg (Bool.eq_false_iff.mp h)

theorem doMaskApply_in {s : State} {i : Fin 160} {d : Side} (hd : side s i = some d) (h : inFrame s i d = true) : doMaskApply i s = s := by
  unfold doMaskApply
  rw [hd]
  exact if_pos h

end Sys2Proof.Machine
end

section
/-! PROOF. 08 R260 to R263, R266 to R269: the slip monitor, and the frames that a side receives (O39). -/

namespace Sys2Proof.Machine

/-! ### A side's status -/

theorem goodFrames_setGood (i : Nat) {v : Nat} (hv : v < 16) (s : State) : goodFrames (setGood i v s) i = v :=
  (fget_fset _ _ _ _ (by decide)).trans (Nat.mod_eq_of_lt hv)

theorem goodFrames_setSideState (i v : Nat) (s : State) : goodFrames (setSideState i v s) i = goodFrames s i :=
  fget_fset_other _ _ _ _ _ (by decide) (by decide)

theorem goodFrames_setSide (i j : Nat) (v : Option Side) (s : State) : goodFrames (setSide i v s) j = goodFrames s j := rfl

theorem sideState_setSideState (i : Nat) {v : Nat} (hv : v < 8) (s : State) : sideState (setSideState i v s) i = v :=
  (fget_fset _ _ _ _ (by decide)).trans (Nat.mod_eq_of_lt hv)

theorem rd_setGood {i r : Nat} (v : Nat) (s : State) (hr : r ≠ 2) : rd (setGood i v s) (sideReg i r) = rd s (sideReg i r) :=
  rd_fset_ne _ _ _ _ _ (sideReg_ne (r' := 2) hr)

theorem rd_setSideState {i r : Nat} (v : Nat) (s : State) (hr : r ≠ 2) : rd (setSideState i v s) (sideReg i r) = rd s (sideReg i r) :=
  rd_fset_ne _ _ _ _ _ (sideReg_ne (r' := 2) hr)

theorem rd_setSide (i : Nat) (v : Option Side) (s : State) (k : Nat) : rd (setSide i v s) k = rd s k := rfl

/-! ### What the slip monitor moves (08 R266 to R269) -/

/-- The slip monitor moves a side's own marks; its configuration, words, gain and mask stay. -/
structure SideKept (d e : Side) : Prop where
  cfg : e.cfg = d.cfg
  wordL : e.wordL = d.wordL
  wordR : e.wordR = d.wordR
  gain : e.gain = d.gain
  mask : e.mask = d.mask
  frames : e.frames = d.frames
  glitchRun : e.glitchRun = d.glitchRun

theorem SideKept.refl (d : Side) : SideKept d d := ⟨rfl, rfl, rfl, rfl, rfl, rfl, rfl⟩

theorem SideKept.trans {d e f : Side} (h : SideKept d e) (h' : SideKept e f) : SideKept d f :=
  ⟨h'.cfg.trans h.cfg, h'.wordL.trans h.wordL, h'.wordR.trans h.wordR, h'.gain.trans h.gain, h'.mask.trans h.mask, h'.frames.trans h.frames,
    h'.glitchRun.trans h.glitchRun⟩

/-- The registers of a side that a cause writes: its status and the counts of SLIP, MISMATCH and ABSENT. -/
def causeReg (r : Nat) : Prop := r = 2 ∨ r = 10 ∨ r = 12 ∨ r = 14

/-- Those that a frame writes: also RATE and GLITCH. -/
def monitorReg (r : Nat) : Prop := r = 3 ∨ r = 8 ∨ causeReg r

/-- A fault state newly entered counts in the register of its cause. -/
def causeShown (i c : Nat) (counted : Bool) (s : State) : State :=
  if counted then s else if c = stABSENT then cnt s (PRT_SIDE_ABSENT i) else if c = stMISMATCH then cnt s (PRT_SIDE_MISMATCH i) else cnt s (PRT_SIDE_SLIP i)

theorem rd_causeShown {i c r : Nat} (b : Bool) (s : State) (hr : r ≠ 10 ∧ r ≠ 12 ∧ r ≠ 14) :
    rd (causeShown i c b s) (sideReg i r) = rd s (sideReg i r) := by
  unfold causeShown
  split_ifs
  · rfl
  · exact rd_cnt_ne _ _ _ (sideReg_ne (r' := 14) hr.2.2)
  · exact rd_cnt_ne _ _ _ (sideReg_ne (r' := 12) hr.2.1)
  · exact rd_cnt_ne _ _ _ (sideReg_ne (r' := 10) hr.1)

theorem causeShown_prt (i c : Nat) (b : Bool) (s : State) : (causeShown i c b s).prt = s.prt := by
  unfold causeShown
  split_ifs <;> rfl

/-- The side with a cause entered. -/
def causeTaken (c : Nat) (d : Side) : Side := { d with cause := c, lockFrom := none, drift := none, times := if c = stABSENT then [] else d.times }

theorem sideCause_stands {s : State} {i c : Nat} {d : Side} (hd : side s i = some d) (h : d.cause ≠ 0 ∧ d.cause ≤ c) :
    sideCause i c s = setGood i 0 s := by
  unfold sideCause
  rw [hd]
  exact if_pos h

theorem sideCause_enters {s : State} {i c : Nat} {d : Side} (hd : side s i = some d) (h : ¬(d.cause ≠ 0 ∧ d.cause ≤ c)) :
    ∃ b, sideCause i c s = causeShown i c b (setSideState i c (setSide i (some (causeTaken c d)) (setGood i 0 s))) := by
  refine ⟨decide ((match d.lockFrom with | some p => p | none => sideState s i) = c), ?_⟩
  unfold sideCause
  rw [hd]
  refine (if_neg h).trans ?_
  unfold causeShown
  simp only [decide_eq_true_eq]
  rfl

theorem sideCause_side {s : State} {i : Nat} {d : Side} (c : Nat) (hd : side s i = some d) :
    ∃ e, side (sideCause i c s) i = some e ∧ SideKept d e := by
  by_cases h : d.cause ≠ 0 ∧ d.cause ≤ c
  · rw [sideCause_stands hd h]
    exact ⟨d, (side_congr (t := setGood i 0 s) rfl i).trans hd, .refl d⟩
  · obtain ⟨b, hb⟩ := sideCause_enters hd h
    rw [hb, side_congr (causeShown_prt ..)]
    exact ⟨causeTaken c d, side_setSide .., ⟨rfl, rfl, rfl, rfl, rfl, rfl, rfl⟩⟩

theorem rd_sideCause {s : State} {i r : Nat} {d : Side} (c : Nat) (hd : side s i = some d) (hr : ¬causeReg r) :
    rd (sideCause i c s) (sideReg i r) = rd s (sideReg i r) := by
  simp only [causeReg, not_or] at hr
  obtain ⟨h2, hcount⟩ := hr
  by_cases h : d.cause ≠ 0 ∧ d.cause ≤ c
  · rw [sideCause_stands hd h]
    exact rd_setGood 0 s h2
  · obtain ⟨b, hb⟩ := sideCause_enters hd h
    rw [hb, rd_causeShown b _ hcount, rd_setSideState _ _ h2, rd_setSide, rd_setGood 0 s h2]

theorem goodFrames_sideCause {s : State} {i : Nat} {d : Side} (c : Nat) (hd : side s i = some d) : goodFrames (sideCause i c s) i = 0 := by
  by_cases h : d.cause ≠ 0 ∧ d.cause ≤ c
  · rw [sideCause_stands hd h]
    exact goodFrames_setGood i (by decide) s
  · obtain ⟨b, hb⟩ := sideCause_enters hd h
    have hshown (t : State) : goodFrames (causeShown i c b t) i = goodFrames t i := fget_congr _ _ _ _ (rd_causeShown (r := 2) b t (by decide))
    rw [hb, hshown, goodFrames_setSideState, goodFrames_setSide, goodFrames_setGood i (by decide)]

/-- A side without a cause so far in the tick shows the one that it enters. -/
theorem sideState_sideCause {s : State} {i c : Nat} {d : Side} (hd : side s i = some d) (h : d.cause = 0) (hc : c < 8) :
    sideState (sideCause i c s) i = c := by
  obtain ⟨b, hb⟩ := sideCause_enters (c := c) hd fun hc => hc.1 h
  have hshown (t : State) : sideState (causeShown i c b t) i = sideState t i := fget_congr _ _ _ _ (rd_causeShown (r := 2) b t (by decide))
  rw [hb, hshown, sideState_setSideState i hc]

/-! ### A frame that is missing, and a clock that is absent (08 R266, R267) -/

/-- The side after a tick without a frame. -/
def sideMissed (d : Side) : Side := { d with missed := true, glitchRun := d.glitchRun + 1 }

/-- The side and the counts after a tick without a frame. -/
def glitchCounted (i : Nat) (d : Side) (s : State) : State := setGood i 0 (cnt (setSide i (some (sideMissed d)) s) (PRT_SIDE_GLITCH i))

theorem sideMissing_eq {s : State} {i : Nat} {d : Side} (hd : side s i = some d) :
    sideMissing i s = if 3 ≤ d.glitchRun + 1 then sideCause i stABSENT (glitchCounted i d s) else glitchCounted i d s := by
  unfold sideMissing
  rw [hd]
  rfl

theorem side_glitchCounted (i : Nat) (d : Side) (s : State) : side (glitchCounted i d s) i = some (sideMissed d) := side_setSide ..

theorem rd_glitchCounted (i : Nat) (d : Side) (s : State) : rd (glitchCounted i d s) (PRT_SIDE_GLITCH i) = rd s (PRT_SIDE_GLITCH i) + 1 :=
  (rd_setGood (r := 8) 0 _ (by decide)).trans (rd_cnt (setSide i (some (sideMissed d)) s) _)

theorem not_causeReg_glitch : ¬causeReg 8 := by
  unfold causeReg
  decide

/-- A missing frame counts, takes the good frames away and, with two glitches before it, makes the side ABSENT. -/
theorem sideMissing_counts {s : State} {i : Nat} {d : Side} (hd : side s i = some d) :
    rd (sideMissing i s) (PRT_SIDE_GLITCH i) = rd s (PRT_SIDE_GLITCH i) + 1 ∧ goodFrames (sideMissing i s) i = 0 ∧
    (d.cause = 0 → 2 ≤ d.glitchRun → sideState (sideMissing i s) i = stABSENT) := by
  rw [sideMissing_eq hd]
  split_ifs with h
  · have hside := side_glitchCounted i d s
    exact ⟨(rd_sideCause _ hside not_causeReg_glitch).trans (rd_glitchCounted i d s), goodFrames_sideCause _ hside,
      fun hc _ => sideState_sideCause hside hc (by decide)⟩
  · exact ⟨rd_glitchCounted i d s, goodFrames_setGood i (by decide) _, fun _ hrun => absurd hrun (by omega)⟩

theorem sideQuietTick_side {s : State} {i : Nat} {d : Side} (h : sideQuietTick s i = some d) : side s i = some d := by
  unfold sideQuietTick at h
  split at h
  · next e he =>
    dsimp only at h
    split_ifs at h
    rw [he, h]
  · nomatch h

theorem completes_missingFrame {s : State} {i : Fin 160} {d : Side} (ready : Ready s) (h : sideQuietTick s i = some d) (hm : d.missed = false) :
    Completes (.missingFrame i) s (fun t => rd t (PRT_SIDE_GLITCH i) = rd s (PRT_SIDE_GLITCH i) + 1 ∧ goodFrames t i = 0 ∧
      (d.cause = 0 → 2 ≤ d.glitchRun → sideState t i = stABSENT)) := by
  have hmiss : doMissingFrame i (quietOut s) = sideMissing i (quietOut s) := by
    have h' : sideQuietTick (quietOut s) i = some d := h
    unfold doMissingFrame
    rw [h']
    exact if_neg (Bool.eq_false_iff.mp hm)
  obtain ⟨hcount, hgood, habsent⟩ := sideMissing_counts (s := quietOut s) (sideQuietTick_side h)
  refine completes_run (doMissingFrame i) rfl ready ?_
  rw [hmiss]
  exact ⟨(rd_side_settled s _ i 8).trans hcount, (fget_side_settled s _ i 2 _).trans hgood,
    fun hc hrun => (fget_side_settled s _ i 2 _).trans (habsent hc hrun)⟩

theorem completes_clockAbsent {s : State} {i : Fin 160} {d : Side} (ready : Ready s) (h : sideQuietTick s i = some d) (hc : d.cause = 0) :
    Completes (.clockAbsent i) s (fun t => sideState t i = stABSENT ∧ goodFrames t i = 0) := by
  have hab : doClockAbsent i (quietOut s) = sideCause i stABSENT (quietOut s) := by
    have h' : sideQuietTick (quietOut s) i = some d := h
    unfold doClockAbsent
    rw [h']
  have hd : side (quietOut s) i = some d := sideQuietTick_side h
  refine completes_run (doClockAbsent i) rfl ready ?_
  rw [hab]
  exact ⟨(fget_side_settled s _ i 2 _).trans (sideState_sideCause hd hc (by decide)),
    (fget_side_settled s _ i 2 _).trans (goodFrames_sideCause _ hd)⟩

/-! ### A frame at the slip monitor (08 R266 to R269) -/

/-- A side with one more frame in its tick and in the run of its glitches. -/
def sideNoted (good : Bool) (d : Side) : Side := { d with frames := d.frames + 1, glitchRun := if good then 0 else d.glitchRun + 1 }

/-- `u` is `s` with a frame of side `i` noted. -/
structure FrameNoted (s : State) (i : Nat) (good : Bool) (d : Side) (u : State) : Prop where
  side : ∃ e, side u i = some e ∧ SideKept (sideNoted good d) e
  rd : ∀ r, r ≠ 3 → r ≠ 8 → rd u (sideReg i r) = rd s (sideReg i r)
  glitch : good = false → Machine.rd u (PRT_SIDE_GLITCH i) = Machine.rd s (PRT_SIDE_GLITCH i) + 1

/-- RATE shows a mean rate, as far as there is one. -/
def rateShown (i hz : Nat) (rate : Option (Nat × Nat)) (s : State) : State :=
  match rate with
  | some (a, b) => wr s (PRT_SIDE_RATE i) (BitVec.ofNat 32 ((hz * 100 * a + b / 2) / b))
  | none => s

theorem rateShown_prt (i hz : Nat) (rate : Option (Nat × Nat)) (s : State) : (rateShown i hz rate s).prt = s.prt := by
  unfold rateShown
  split <;> rfl

theorem rd_rateShown {i r : Nat} (hz : Nat) (rate : Option (Nat × Nat)) (s : State) (hr : r ≠ 3) :
    rd (rateShown i hz rate s) (sideReg i r) = rd s (sideReg i r) := by
  unfold rateShown
  split
  · exact rd_wr_ne _ _ _ _ (sideReg_ne (r' := 3) hr)
  · rfl

/-- A frame that is not whole counts. -/
def glitchShown (i : Nat) (good : Bool) (s : State) : State := if good then s else cnt s (PRT_SIDE_GLITCH i)

theorem glitchShown_prt (i : Nat) (good : Bool) (s : State) : (glitchShown i good s).prt = s.prt := by
  unfold glitchShown
  rw [ite_prt, cnt_prt, ite_self]

theorem rd_glitchShown {i r : Nat} (good : Bool) (s : State) (hr : r ≠ 8) : rd (glitchShown i good s) (sideReg i r) = rd s (sideReg i r) := by
  unfold glitchShown
  split_ifs
  · rfl
  · exact rd_cnt_ne _ _ _ (sideReg_ne (r' := 8) hr)

theorem rateShown_eq (i hz : Nat) (rate : Option (Nat × Nat)) (s : State) : rateShown i hz rate s = (match rate with
  | some (a, b) => wr s (PRT_SIDE_RATE i) (BitVec.ofNat 32 ((hz * 100 * a + b / 2) / b))
  | none => s) := rfl

theorem sideFrame_noted {s : State} {i : Nat} {d : Side} (good : Bool) (frac : Nat) (hd : side s i = some d) :
    ∃ c g u, sideFrame i good frac s = (if c ≠ 0 then sideCause i c u else setGood i g u) ∧ FrameNoted s i good d u := by
  unfold sideFrame
  split
  next h => nomatch h.symm.trans hd
  next d' h =>
  obtain rfl : d' = d := Option.some.inj (h.symm.trans hd)
  extract_lets +onlyGivenNames x t times run
  split
  next dr slip _ =>
  extract_lets rate bad s1 s2 s3 cause
  have hs3 : s3 = (match rate with
      | some (a, b) => wr s2 (PRT_SIDE_RATE i) (BitVec.ofNat 32 ((domHz s x * 100 * a + b / 2) / b))
      | none => s2) := rfl
  rw [← rateShown_eq] at hs3
  have hside : side s1 i = some { d' with frames := d'.frames + 1, times := times, glitchRun := run, drift := dr } := side_setSide ..
  have hset (k : Nat) : rd s1 k = rd s k := rd_setSide ..
  have hs2 : s2 = glitchShown i good s1 := rfl
  refine ⟨cause, _, s3, rfl, ?_⟩
  clear_value s3 s2 s1
  subst hs3 hs2
  refine ⟨⟨_, (side_congr ((rateShown_prt ..).trans (glitchShown_prt ..)) i).trans hside, rfl, rfl, rfl, rfl, rfl, rfl, rfl⟩, fun r h3 h8 => ?_,
    fun hgood => ?_⟩
  · rw [rd_rateShown _ _ _ h3, rd_glitchShown _ _ h8, hset]
  · subst hgood
    rw [← hset]
    exact (rd_rateShown (r := 8) _ _ _ (by decide)).trans (rd_cnt s1 _)

/-- A frame counts in its tick, and in the run of glitches or ends it. -/
theorem sideFrame_side {s : State} {i : Nat} {d : Side} (good : Bool) (frac : Nat) (hd : side s i = some d) :
    ∃ e, side (sideFrame i good frac s) i = some e ∧
      SideKept (sideNoted good d) e := by
  obtain ⟨c, g, u, h, noted⟩ := sideFrame_noted good frac hd
  obtain ⟨e, he, hk⟩ := noted.side
  rw [h]
  split_ifs
  · obtain ⟨e', he', hk'⟩ := sideCause_side c he
    exact ⟨e', he', hk.trans hk'⟩
  · exact ⟨e, he, hk⟩

theorem rd_sideFrame_after {s : State} {i : Nat} {d : Side} (good : Bool) (frac : Nat) (hd : side s i = some d) :
    ∃ u, FrameNoted s i good d u ∧ ∀ r, ¬causeReg r → rd (sideFrame i good frac s) (sideReg i r) = rd u (sideReg i r) := by
  obtain ⟨c, g, u, h, noted⟩ := sideFrame_noted good frac hd
  obtain ⟨e, he, -⟩ := noted.side
  refine ⟨u, noted, fun r hr => ?_⟩
  rw [h]
  split_ifs
  · exact rd_sideCause c he hr
  · exact rd_setGood g u fun h2 => hr (.inl h2)

theorem rd_sideFrame {s : State} {i r : Nat} {d : Side} (good : Bool) (frac : Nat) (hd : side s i = some d) (hr : ¬monitorReg r) :
    rd (sideFrame i good frac s) (sideReg i r) = rd s (sideReg i r) := by
  simp only [monitorReg, not_or] at hr
  obtain ⟨h3, h8, hcause⟩ := hr
  obtain ⟨u, noted, hu⟩ := rd_sideFrame_after good frac hd
  exact (hu r hcause).trans (noted.rd r h3 h8)

theorem rd_sideFrame_glitch {s : State} {i : Nat} {d : Side} (frac : Nat) (hd : side s i = some d) :
    rd (sideFrame i false frac s) (PRT_SIDE_GLITCH i) = rd s (PRT_SIDE_GLITCH i) + 1 := by
  obtain ⟨u, noted, hu⟩ := rd_sideFrame_after false frac hd
  exact (hu 8 not_causeReg_glitch).trans (noted.glitch rfl)

end Sys2Proof.Machine
end

section
/-! PROOF. 08 R260, R263, R267, R273: a frame is latched at a receive side (O39). -/

namespace Sys2Proof.Machine

/-- The parity errors of a frame. -/
def parityErrors (w : PortWave) : Nat := b2n (waveParity w).1 + b2n (waveParity w).2

/-- A slave side's status shows where in the tick its frame came (08 R268). -/
def phaseShown (i : Nat) (f : RxFrame) (s : State) : State :=
  fset (fset s (PRT_SIDE_STATUS i) PRT_SIDE_STATUS_phase (f.at_.toNat / 2 ^ 24)) (PRT_SIDE_STATUS i) PRT_SIDE_STATUS_marginal
    (b2n (decide (f.at_.toNat < 8 * 2 ^ 24) || decide (248 * 2 ^ 24 < f.at_.toNat)))

/-- The state in which the words of a frame are latched: a slave side has met its slip monitor. -/
def frameMet (i : Nat) (f : RxFrame) (d : Side) (s : State) : State :=
  if sideMaster i d then cntN s (PRT_SIDE_PARITY i) (parityErrors f.wave)
  else phaseShown i f (cntN (sideFrame i (waveGood i d f.wave) f.at_.toNat s) (PRT_SIDE_PARITY i) (parityErrors f.wave))

/-- The side with the frame latched: a channel in error, and a frame that is not whole, leave the word as it was. -/
def frameLatched (i : Nat) (f : RxFrame) (d : Side) (s : State) (e : Side) : Side :=
  { e with
    wordL := if !(waveGood i d f.wave || sideMaster i d) || (waveParity f.wave).1 then e.wordL else slotWord (slotCode i e) (waveWords i d f.wave).1
    wordR := if !(waveGood i d f.wave || sideMaster i d) || (waveParity f.wave).2 then e.wordR else slotWord (slotCode i e) (waveWords i d f.wave).2
    heldMask := e.mask, mask := maskReg s i }

/-- The frame is latched, and a whole one of a slave side feeds its sentinels. -/
def frameDone (i : Nat) (f : RxFrame) (d : Side) (s : State) (e : Side) : State :=
  let n := frameLatched i f d s e
  if (waveGood i d f.wave || sideMaster i d) && !sideMaster i d then sentFeed i n.wordL n.wordR (setSide i (some n) s) else setSide i (some n) s

theorem doPortFrameReceived_done {s : State} {i : Fin 160} {f : RxFrame} {d e : Side} {x : Dom} (hd : side s i = some d)
    (hx : sideDom s i = some x) (hbegan : (genOf s x).last.isSome = true) (hrx : isRx i = true) (hworks : sideWorks s i d = true)
    (hclk : s.pin.absent.contains (sideSupply i) = false) (he : side (frameMet i f d s) i = some e) :
    doPortFrameReceived i f s = frameDone i f d (frameMet i f d s) e := by
  have hopen : ¬(!isRx i || !sideWorks s i d || !(genOf s x).last.isSome || doPortFrameReceived.isAbsent s (sideSupply i)) = true := by
    unfold doPortFrameReceived.isAbsent
    rw [hrx, hworks, hbegan, hclk]
    decide
  unfold doPortFrameReceived
  rw [hd, hx]
  refine (if_neg hopen).trans ?_
  unfold frameMet phaseShown parityErrors at he ⊢
  unfold frameDone frameLatched
  generalize waveParity f.wave = par at he ⊢
  generalize waveWords i d f.wave = words at he ⊢
  generalize sideMaster i d = master at he ⊢
  obtain ⟨parL, parR⟩ := par
  obtain ⟨left, right⟩ := words
  cases master with
  | false =>
    rw [if_neg Bool.false_ne_true] at he ⊢
    dsimp only
    rw [if_neg Bool.false_ne_true, if_neg Bool.false_ne_true, he]
  | true =>
    rw [if_pos rfl] at he ⊢
    dsimp only
    rw [if_pos rfl, if_pos rfl, he]

theorem sentFeed_frame {β : Type} (p : State → β) (hp : ∀ s v, p { s with pwr := v } = p s) (i : Nat) (l r : S64) (s : State) :
    p (sentFeed i l r s) = p s := by
  unfold sentFeed
  refine foldl_frame p _ (fun s n => ?_) _ s
  split
  · exact hp ..
  · rfl

/-! ### What the side holds, and what its registers count, when the words are latched -/

theorem rd_phaseShown {i r : Nat} (f : RxFrame) (s : State) (hr : r ≠ 2) : rd (phaseShown i f s) (sideReg i r) = rd s (sideReg i r) :=
  (rd_fset_ne _ _ _ _ _ (sideReg_ne (r' := 2) hr)).trans (rd_fset_ne s _ _ _ _ (sideReg_ne (r' := 2) hr))

section
variable {s : State} {i : Nat} {d : Side} (f : RxFrame) (hd : side s i = some d)
include hd

theorem side_frameMet : ∃ e, side (frameMet i f d s) i = some e ∧ SideKept (if sideMaster i d then d else sideNoted (waveGood i d f.wave) d) e := by
  unfold frameMet
  split_ifs
  · exact ⟨d, (side_congr (cntN_prt ..) i).trans hd, .refl d⟩
  · obtain ⟨e, he, hk⟩ := sideFrame_side (waveGood i d f.wave) f.at_.toNat hd
    exact ⟨e, (side_congr (cntN_prt ..) i).trans he, hk⟩

theorem rd_frameMet_mask : rd (frameMet i f d s) (PRT_SIDE_MASK i) = rd s (PRT_SIDE_MASK i) := by
  have hne : PRT_SIDE_MASK i ≠ PRT_SIDE_PARITY i := sideReg_ne (r := 1) (r' := 16) (by decide)
  have hreg : ¬monitorReg 1 := by unfold monitorReg causeReg; decide
  unfold frameMet
  split_ifs
  · exact rd_cntN_ne _ _ _ _ hne
  · exact (rd_phaseShown (r := 1) f _ (by decide)).trans ((rd_cntN_ne _ _ _ _ hne).trans (rd_sideFrame (r := 1) _ _ hd hreg))

theorem rd_frameMet_parity : rd (frameMet i f d s) (PRT_SIDE_PARITY i) = rd s (PRT_SIDE_PARITY i) + BitVec.ofNat 32 (parityErrors f.wave) := by
  have hreg : ¬monitorReg 16 := by unfold monitorReg causeReg; decide
  unfold frameMet
  split_ifs
  · exact rd_cntN ..
  · refine (rd_phaseShown (r := 16) f _ (by decide)).trans ((rd_cntN ..).trans ?_)
    exact congrArg (· + BitVec.ofNat 32 (parityErrors f.wave)) (rd_sideFrame (r := 16) _ _ hd hreg)

theorem rd_frameMet_glitch (hm : sideMaster i d = false) (hgood : waveGood i d f.wave = false) :
    rd (frameMet i f d s) (PRT_SIDE_GLITCH i) = rd s (PRT_SIDE_GLITCH i) + 1 := by
  unfold frameMet
  rw [hm, hgood, if_neg Bool.false_ne_true]
  exact (rd_phaseShown (r := 8) f _ (by decide)).trans ((rd_cntN_ne _ _ _ _ (sideReg_ne (r := 8) (r' := 16) (by decide))).trans
    (rd_sideFrame_glitch _ hd))

end

/-! ### The command -/

theorem frameDone_prt (i : Nat) (f : RxFrame) (d : Side) (s : State) (e : Side) :
    (frameDone i f d s e).prt = (setSide i (some (frameLatched i f d s e)) s).prt := by
  unfold frameDone
  dsimp only
  rw [ite_prt, sentFeed_frame State.prt (fun _ _ => rfl), ite_self]

theorem side_frameDone (i : Nat) (f : RxFrame) (d : Side) (s : State) (e : Side) :
    side (frameDone i f d s e) i = some (frameLatched i f d s e) := (side_congr (frameDone_prt ..) i).trans (side_setSide ..)

theorem rd_frameDone (i : Nat) (f : RxFrame) (d : Side) (s : State) (e : Side) (k : Nat) : rd (frameDone i f d s e) k = rd s k := by
  unfold frameDone
  dsimp only
  split_ifs
  · exact (sentFeed_frame (fun s => rd s k) (fun _ _ => rfl) ..).trans (rd_setSide ..)
  · exact rd_setSide ..

section
variable {s : State} {i : Fin 160} {f : RxFrame} {d : Side} {x : Dom} (ready : Ready s) (hd : side s i = some d)
  (hx : sideDom s i = some x) (hbegan : (genOf s x).last.isSome = true) (hrx : isRx i = true) (hworks : sideWorks s i d = true)
  (hclk : s.pin.absent.contains (sideSupply i) = false)
include ready hd hx hbegan hrx hworks hclk

/-- A frame received leaves its side with the frame latched. -/
theorem completes_frameReceived : ∃ e, SideKept (if sideMaster i d then d else sideNoted (waveGood i d f.wave) d) e ∧
    Completes (.portFrameReceived i f) s (fun t =>
      side t i = some (frameLatched i f d (frameMet i f d (quietOut s)) e) ∧ ∀ r, rd t (sideReg i r) = rd (frameMet i f d (quietOut s)) (sideReg i r)) := by
  obtain ⟨e, he, hk⟩ := side_frameMet (s := quietOut s) f hd
  refine ⟨e, hk, completes_run (doPortFrameReceived i f) rfl ready ?_⟩
  rw [doPortFrameReceived_done (s := quietOut s) hd hx hbegan hrx hworks hclk he]
  exact ⟨(side_settled ..).trans (side_frameDone ..), fun r => (rd_side_settled ..).trans (rd_frameDone ..)⟩

theorem completes_frameWhole (hwhole : waveGood i d f.wave = true ∨ sideMaster i d = true) :
    Completes (.portFrameReceived i f) s (fun t => ∃ e, side t i = some e ∧
      e.wordL = (if (waveParity f.wave).1 then d.wordL else slotWord (slotCode i d) (waveWords i d f.wave).1) ∧
      e.wordR = (if (waveParity f.wave).2 then d.wordR else slotWord (slotCode i d) (waveWords i d f.wave).2) ∧ e.gain = d.gain ∧
      e.heldMask = d.mask ∧ e.mask = maskReg s i ∧ rd t (PRT_SIDE_PARITY i) = rd s (PRT_SIDE_PARITY i) +
        BitVec.ofNat 32 (b2n (waveParity f.wave).1 + b2n (waveParity f.wave).2)) := by
  obtain ⟨e, hk, hdone⟩ := completes_frameReceived (f := f) ready hd hx hbegan hrx hworks hclk
  have hkept : e.cfg = d.cfg ∧ e.wordL = d.wordL ∧ e.wordR = d.wordR ∧ e.gain = d.gain ∧ e.mask = d.mask := by
    split_ifs at hk <;> exact ⟨hk.cfg, hk.wordL, hk.wordR, hk.gain, hk.mask⟩
  obtain ⟨hcfg, hwordL, hwordR, hgain, hmask⟩ := hkept
  have hcode : slotCode i e = slotCode i d := by
    unfold slotCode
    rw [hcfg]
  have hall : (!(waveGood i d f.wave || sideMaster i d)) = false := by
    rcases hwhole with h | h <;> simp [h]
  refine hdone.mono fun t ⟨hside, hrd⟩ => ⟨_, hside, ?_, ?_, hgain, hmask, ?_, ?_⟩
  · unfold frameLatched
    dsimp only
    rw [hall, hcode, hwordL, Bool.false_or]
  · unfold frameLatched
    dsimp only
    rw [hall, hcode, hwordR, Bool.false_or]
  · exact maskReg_congr (rd_frameMet_mask (s := quietOut s) f hd)
  · exact (hrd 16).trans (rd_frameMet_parity (s := quietOut s) f hd)

theorem completes_frameGlitch (hgood : waveGood i d f.wave = false) (hm : sideMaster i d = false) :
    Completes (.portFrameReceived i f) s (fun t => rd t (PRT_SIDE_GLITCH i) = rd s (PRT_SIDE_GLITCH i) + 1 ∧
      ∃ e, side t i = some e ∧ e.wordL = d.wordL ∧ e.wordR = d.wordR ∧ e.glitchRun = d.glitchRun + 1) := by
  obtain ⟨e, hk, hdone⟩ := completes_frameReceived (f := f) ready hd hx hbegan hrx hworks hclk
  rw [hm, hgood, if_neg Bool.false_ne_true] at hk
  refine hdone.mono fun t ⟨hside, hrd⟩ => ⟨(hrd 8).trans (rd_frameMet_glitch (s := quietOut s) f hd hm hgood), _, hside, ?_, ?_, hk.glitchRun⟩
  · unfold frameLatched
    dsimp only
    rw [hgood, hm, hk.wordL]
    rfl
  · unfold frameLatched
    dsimp only
    rw [hgood, hm, hk.wordR]
    rfl

end

end Sys2Proof.Machine
end

section
/-! PROOF. 02 R58, 08 R261, R262: the bit clocks of a serial frame and the subframes of AES3 (O39). -/

namespace Sys2Proof.Machine

/-! ### Serial frames (08 R261) -/

theorem msbBits_length (n v : Nat) : (msbBits n v).length = n := by
  unfold msbBits
  rw [List.length_map, List.length_range]

/-- The bits that a frame shifts out. -/
def frameBits (code : Nat) (l r : Int) : List Bool := msbBits (slotBits code) (slotOut code l) ++ msbBits (slotBits code) (slotOut code r)

theorem frameBits_length (code : Nat) (l r : Int) : (frameBits code l r).length = slotBits code + slotBits code := by
  unfold frameBits
  rw [List.length_append, msbBits_length, msbBits_length]

theorem wsShape_length (n : Nat) : (wsShape true n).length = n + n := by
  unfold wsShape
  rw [if_pos rfl, List.length_append, List.length_replicate, List.length_replicate]

theorem serialBits_select (lj : Bool) (code : Nat) (l r : Int) (last : Bool) : (serialBits lj code l r last).map (·.1) =
    if lj then wsShape true (slotBits code) else List.replicate (slotBits code) false ++ List.replicate (slotBits code) true := by
  have hlen := frameBits_length code l r
  cases lj with
  | true => exact List.map_fst_zip (Nat.le_of_eq ((wsShape_length _).trans hlen.symm))
  | false =>
    refine List.map_fst_zip ?_
    have hdata : (last :: frameBits code l r).length = slotBits code + slotBits code + 1 := congrArg (· + 1) hlen
    refine Nat.le_trans (Nat.le_of_eq ?_) (Nat.le_trans (Nat.le_succ _) (Nat.le_of_eq hdata.symm))
    rw [List.length_append, List.length_replicate, List.length_replicate]

theorem zip_take_right {α β : Type} (l : List α) : ∀ r : List β, l.zip (r.take l.length) = l.zip r := by
  induction l with
  | nil => exact fun _ => rfl
  | cons a l ih =>
    intro r
    cases r with
    | nil => rfl
    | cons b r => exact congrArg ((a, b) :: ·) (ih r)

theorem serialBits_data (lj : Bool) (code : Nat) (l r : Int) (last : Bool) : (serialBits lj code l r last).map (·.2) =
    if lj then frameBits code l r else (last :: frameBits code l r).dropLast := by
  have hlen := frameBits_length code l r
  cases lj with
  | true => exact List.map_snd_zip (Nat.le_of_eq (hlen.trans (wsShape_length _).symm))
  | false =>
    have hsel : (List.replicate (slotBits code) false ++ List.replicate (slotBits code) true).length = slotBits code + slotBits code := by
      rw [List.length_append, List.length_replicate, List.length_replicate]
    have hlast : (last :: frameBits code l r).take (slotBits code + slotBits code) = (last :: frameBits code l r).dropLast := by
      rw [List.dropLast_eq_take, List.length_cons, hlen]
      rfl
    have hzip : serialBits false code l r last = (List.replicate (slotBits code) false ++ List.replicate (slotBits code) true).zip
        ((last :: frameBits code l r).dropLast) := by
      rw [← hlast, ← hsel, zip_take_right]
      rfl
    rw [hzip]
    refine List.map_snd_zip (Nat.le_of_eq ?_)
    rw [List.length_dropLast, List.length_cons, hlen, hsel]
    rfl

/-! ### Subframes (08 R262) -/

/-- The parity of the first `n` time slots. -/
def parityTo (s : BitVec 28) (n : Nat) : Bool := (List.range n).foldl (fun p i => p != s.getLsbD i) false

theorem parityTo_succ (s : BitVec 28) (n : Nat) : parityTo s (n + 1) = (parityTo s n != s.getLsbD n) := by
  unfold parityTo
  rw [List.range_succ, List.foldl_append]
  rfl

theorem parityOdd_eq (s : BitVec 28) : parityOdd s = (parityTo s 27 != s.getLsbD 27) := parityTo_succ s 27

theorem parityTo_congr {s t : BitVec 28} {n : Nat} (h : ∀ i, i < n → s.getLsbD i = t.getLsbD i) : parityTo s n = parityTo t n := by
  induction n with
  | zero => rfl
  | succ n ih => rw [parityTo_succ, parityTo_succ, ih fun i hi => h i (by omega), h n (by omega)]

/-- The parity bit alone. -/
theorem getLsbD_parityBit {i : Nat} (h : i < 28) : (0x8000000#28).getLsbD i = decide (i = 27) := by
  interval_cases i <;> rfl

/-- The time slots before their parity bit. -/
def aesRaw (w : Int) (c : Bool) : BitVec 28 := BitVec.ofNat 28 ((BitVec.ofInt 24 w).toNat + b2n c * 2 ^ 26)

theorem aesSlots_eq (w : Int) (c : Bool) : aesSlots w c = if parityOdd (aesRaw w c) then aesRaw w c ||| 0x8000000#28 else aesRaw w c := rfl

theorem aesRaw_toNat (w : Int) (c : Bool) : (aesRaw w c).toNat = (BitVec.ofInt 24 w).toNat + b2n c * 2 ^ 26 := by
  have hw : (BitVec.ofInt 24 w).toNat < 2 ^ 24 := (BitVec.ofInt 24 w).isLt
  have hc : b2n c ≤ 1 := by cases c <;> decide
  unfold aesRaw
  rw [BitVec.toNat_ofNat, Nat.mod_eq_of_lt]
  omega

theorem aesRaw_parityBit (w : Int) (c : Bool) : (aesRaw w c).getLsbD 27 = false := by
  have hw : (BitVec.ofInt 24 w).toNat < 2 ^ 24 := (BitVec.ofInt 24 w).isLt
  have hc : b2n c ≤ 1 := by cases c <;> decide
  refine Nat.testBit_lt_two_pow ?_
  rw [aesRaw_toNat]
  omega

/-- Time slots 4 to 31 have even parity. -/
theorem parityOdd_aesSlots (w : Int) (c : Bool) : parityOdd (aesSlots w c) = false := by
  rw [aesSlots_eq]
  split_ifs with h
  · have hlow : parityTo (aesRaw w c ||| 0x8000000#28) 27 = parityTo (aesRaw w c) 27 := by
      refine parityTo_congr fun i hi => ?_
      rw [BitVec.getLsbD_or, getLsbD_parityBit (by omega), decide_eq_false (by omega), Bool.or_false]
    rw [parityOdd_eq, aesRaw_parityBit] at h
    rw [parityOdd_eq, hlow, BitVec.getLsbD_or, getLsbD_parityBit (by decide)]
    simpa using h
  · exact Bool.eq_false_iff.mpr h

/-- The word stands below the status bit and the parity. -/
theorem aesSlots_word (w : Int) (c : Bool) : (aesSlots w c).setWidth 24 = BitVec.ofInt 24 w := by
  have hraw : (aesRaw w c).setWidth 24 = BitVec.ofInt 24 w := by
    refine BitVec.eq_of_toNat_eq ?_
    have hw : (BitVec.ofInt 24 w).toNat < 2 ^ 24 := (BitVec.ofInt 24 w).isLt
    rw [BitVec.toNat_setWidth, aesRaw_toNat]
    omega
  rw [aesSlots_eq]
  split_ifs
  · rw [BitVec.setWidth_or, hraw]
    exact BitVec.or_zero
  · exact hraw

end Sys2Proof.Machine
end

section
/-! PROOF. 08 R260, R262, R264, R267, R271, R272: the frames that a transmit side sends (O39). -/

namespace Sys2Proof.Machine

/-! ### The step of a gain (08 R271, R272) -/

/-- The gain that a side is to reach. -/
def sideAim (s : State) (i : Nat) : Int := if sideLocked s i && !(s.prt.quiet && !isRx i) then unityG else 0

/-- The side with its fade begun anew when its aim has changed. -/
def sideTurned (aim : Int) (d : Side) : Side := if decide (aim ≠ d.fadeTo) then { d with fadeFrom := d.gain, fadeTo := aim, fadeK := 0 } else d

/-- The side one step further in its fade. -/
def sideFaded (d : Side) : Side :=
  if 64 ≤ d.fadeK then { d with stepped := true }
  else { d with gain := rampGain d.fadeFrom d.fadeTo (d.fadeK + 1) 64, fadeK := d.fadeK + 1, stepped := true }

/-- A step of a fade shows the side muted, and the last one has its end due. -/
def fadeShown (i : Nat) (d : Side) (s : State) : State :=
  if 64 ≤ d.fadeK then s
  else if d.fadeK + 1 = 64 then addDue (fset s (PRT_SIDE_STATUS i) PRT_SIDE_STATUS_muted 1) (.sideFade i)
  else fset s (PRT_SIDE_STATUS i) PRT_SIDE_STATUS_muted 1

theorem fadeShown_faded (i : Nat) (e : Side) (s : State) : fadeShown i e (setSide i (some (sideFaded e)) s) =
    if 64 ≤ e.fadeK then setSide i (some { e with stepped := true }) s
    else
      let k := e.fadeK + 1
      let s1 := setSide i (some { e with gain := rampGain e.fadeFrom e.fadeTo k 64, fadeK := k, stepped := true }) s
      let s2 := fset s1 (PRT_SIDE_STATUS i) PRT_SIDE_STATUS_muted 1
      if k = 64 then addDue s2 (.sideFade i) else s2 := by
  unfold fadeShown sideFaded
  by_cases h : 64 ≤ e.fadeK
  · rw [if_pos h, if_pos h, if_pos h]
  · rw [if_neg h, if_neg h, if_neg h]

theorem sideStep_stays {s : State} {i : Nat} {d : Side} (hd : side s i = some d) (h : (d.stepped && !decide (sideAim s i ≠ d.fadeTo)) = true) :
    sideStep i s = s := by
  unfold sideStep
  rw [hd]
  exact if_pos h

theorem sideStep_moves {s : State} {i : Nat} {d : Side} (hd : side s i = some d) (h : ¬(d.stepped && !decide (sideAim s i ≠ d.fadeTo)) = true) :
    sideStep i s = fadeShown i (sideTurned (sideAim s i) d) (setSide i (some (sideFaded (sideTurned (sideAim s i) d))) s) := by
  unfold sideStep
  rw [hd]
  exact (if_neg h).trans (fadeShown_faded ..).symm

/-- A step moves its side, its side's status and what is due. -/
theorem sideStep_frame {β : Type} (p : State → β) (i : Nat) (hside : ∀ s v, p (setSide i v s) = p s)
    (hstatus : ∀ s f v, p (fset s (PRT_SIDE_STATUS i) f v) = p s) (hdue : ∀ s d, p (addDue s d) = p s) (s : State) : p (sideStep i s) = p s := by
  cases hd : side s i with
  | none =>
    unfold sideStep
    rw [hd]
  | some d =>
    by_cases h : (d.stepped && !decide (sideAim s i ≠ d.fadeTo)) = true
    · rw [sideStep_stays hd h]
    · rw [sideStep_moves hd h]
      unfold fadeShown
      split_ifs
      · exact hside ..
      · exact (hdue ..).trans ((hstatus ..).trans (hside ..))
      · exact (hstatus ..).trans (hside ..)

theorem fadeShown_prt (i : Nat) (d : Side) (s : State) : (fadeShown i d s).prt = s.prt := by
  unfold fadeShown
  split_ifs <;> rfl

theorem fadeShown_quietOut (i : Nat) (d : Side) (s : State) : fadeShown i d (quietOut s) = quietOut (fadeShown i d s) := by
  unfold fadeShown
  split_ifs <;> rfl

theorem sideStep_quietOut (i : Nat) (s : State) : sideStep i (quietOut s) = quietOut (sideStep i s) := by
  have haim : sideAim (quietOut s) i = sideAim s i := rfl
  cases hd : side s i with
  | none =>
    unfold sideStep
    rw [hd, show side (quietOut s) i = none from hd]
  | some d =>
    have hd' : side (quietOut s) i = some d := hd
    by_cases h : (d.stepped && !decide (sideAim s i ≠ d.fadeTo)) = true
    · rw [sideStep_stays hd h, sideStep_stays hd' h]
    · rw [sideStep_moves hd h, sideStep_moves hd' h, haim, ← fadeShown_quietOut]
      rfl

/-- A step of a gain leaves the configuration, and the last bit sent. -/
theorem sideStep_side {s : State} {i : Nat} {d : Side} (hd : side s i = some d) :
    ∃ e, side (sideStep i s) i = some e ∧ e.cfg = d.cfg ∧ e.lastBit = d.lastBit := by
  by_cases h : (d.stepped && !decide (sideAim s i ≠ d.fadeTo)) = true
  · rw [sideStep_stays hd h]
    exact ⟨d, hd, rfl, rfl⟩
  · rw [sideStep_moves hd h, side_congr (fadeShown_prt ..), side_setSide]
    refine ⟨_, rfl, ?_⟩
    unfold sideFaded sideTurned
    split_ifs <;> exact ⟨rfl, rfl⟩

/-! ### A frame that goes out (08 R261, R262, R267) -/

/-- The word of channel `c` of a frame, and whether it saturated: a glitch repeats the last one sent. -/
def wordSent (i c n : Nat) (good : Bool) (d : Side) (v old : S64) (s : State) : Int × Bool :=
  txWord s i c (if good then n else d.sentN) d (if good then v else old)

def leftSent (i n : Nat) (good : Bool) (d : Side) (s : State) : Int × Bool := wordSent i 0 n good d d.wordL d.sentL s
def rightSent (i n : Nat) (good : Bool) (d : Side) (s : State) : Int × Bool := wordSent i 1 n good d d.wordR d.sentR s

/-- The side after a frame. -/
def sideSent (i n : Nat) (good : Bool) (d : Side) (s : State) : Side :=
  { d with
    sentL := if good then d.wordL else d.sentL
    sentR := if good then d.wordR else d.sentR
    sentN := if good then n else d.sentN
    lastBit := bitOf (slotOut (slotCode i d) (rightSent i n good d s).1) 0
    sending := none }

/-- The state after a frame: the words of a whole one that saturated count. -/
def sentCounted (i n : Nat) (good : Bool) (d : Side) (s : State) : State :=
  cntN (setSide i (some (sideSent i n good d s)) s) (PRT_SIDE_SAT i)
    (if good then b2n (leftSent i n good d s).2 + b2n (rightSent i n good d s).2 else 0)

/-- What the pins of the side carry. -/
def waveSent (i n : Nat) (good : Bool) (d : Side) (s : State) : PortWave :=
  let l := (leftSent i n good d s).1
  let r := (rightSent i n good d s).1
  if isAes i then
    let c := bitOf (csByte s (i - 128) (n % 192 / 8)).toNat (n % 8)
    .aes (if n % 192 = 0 then .Z else .X) .Y (aesSlots l c) (aesSlots r c) true
  else .serial (serialBits (wbit d.cfg PRT_SIDE_CFG_format) (slotCode i d) l r d.lastBit)

theorem sideSend_eq {s : State} {i n : Nat} {good : Bool} {d : Side} (hd : side s i = some d) : sideSend i n good s =
    if sideDrives s i then emit (sentCounted i n good d s) (.port i (waveSent i n good d s)) else sentCounted i n good d s := by
  unfold sideSend sentCounted sideSent waveSent leftSent rightSent wordSent
  rw [hd]
  cases sideDrives s i with
  | false => cases good <;> rfl
  | true =>
    cases isAes i with
    | false => cases good <;> rfl
    | true => cases good <;> rfl

theorem side_sideSend {s : State} {i n : Nat} {good : Bool} {d : Side} (hd : side s i = some d) :
    side (sideSend i n good s) i = some (sideSent i n good d s) := by
  have hprt : (sideSend i n good s).prt = (setSide i (some (sideSent i n good d s)) s).prt := by
    rw [sideSend_eq hd, ite_prt, emit_prt, ite_self]
    exact cntN_prt ..
  rw [side_congr hprt, side_setSide]

theorem sideSend_emits {s : State} {i n : Nat} {good : Bool} {d : Side} (hd : side s i = some d) (h : sideDrives s i = true) :
    Emit.port i (waveSent i n good d s) ∈ (sideSend i n good s).out := by
  rw [sideSend_eq hd, if_pos h]
  exact List.mem_append_right _ (List.mem_singleton_self _)

/-! ### What a frame carries does not hang on the step of the gain before it -/

theorem sideDrives_status (s : State) (i : Nat) (f : Fld) (v : Nat) : sideDrives (fset s (PRT_SIDE_STATUS i) f v) i = sideDrives s i := by
  have hlow (k : Nat) (g : Fld) (hk : k < 0x200000) : fget (fset s (PRT_SIDE_STATUS i) f v) k g = fget s k g :=
    fget_fset_ne _ _ _ _ _ _ (by have := sideReg_lo i 2; unfold sideReg at this; unfold PRT_SIDE_STATUS; omega)
  have hopen : outputsOpen (fset s (PRT_SIDE_STATUS i) f v) = outputsOpen s := by
    unfold outputsOpen
    rw [hlow _ _ (by decide)]
  have hmode : twnMode (fset s (PRT_SIDE_STATUS i) f v) = twnMode s := hlow _ _ (by decide)
  have howner : isOwner (fset s (PRT_SIDE_STATUS i) f v) = isOwner s := by
    unfold isOwner fbit
    rw [hlow _ _ (by decide)]
  have hon : prtOn (fset s (PRT_SIDE_STATUS i) f v) = prtOn s := by
    unfold prtOn domOn domState
    rw [hlow _ _ (by decide)]
  unfold sideDrives drivesLocal
  rw [hopen, hmode, howner, hon, fset_twn, fset_pin]

theorem sideDrives_sideStep (i : Nat) (s : State) : sideDrives (sideStep i s) i = sideDrives s i :=
  sideStep_frame (fun s => sideDrives s i) i (fun _ _ => rfl) (fun s f v => sideDrives_status s i f v) (fun _ _ => rfl) s

theorem txWord_sideStep (i c n : Nat) (d : Side) (v : S64) (s : State) : txWord (sideStep i s) i c n d v = txWord s i c n d v := by
  have hrd {r : Nat} (hr : r ≠ 2) : rd (sideStep i s) (sideReg i r) = rd s (sideReg i r) :=
    sideStep_frame (fun s => rd s (sideReg i r)) i (fun _ _ => rfl) (fun s f v => rd_fset_ne s _ _ f v (sideReg_ne (r' := 2) hr)) (fun _ _ => rfl) s
  have hseed : get64 (sideStep i s) (PRT_SIDE_SEED_LO i) (PRT_SIDE_SEED_HI i) = get64 s (PRT_SIDE_SEED_LO i) (PRT_SIDE_SEED_HI i) :=
    congrArg₂ (fun lo hi : W32 => lo.toNat + hi.toNat * 2 ^ 32) (hrd (r := 6) (by decide)) (hrd (r := 7) (by decide))
  unfold txWord
  rw [hseed]

theorem csByte_sideStep (i o k : Nat) (s : State) : csByte (sideStep i s) o k = csByte s o k := by
  unfold csByte
  rw [sideStep_frame (fun s => s.prt.chanStatus) i (fun _ _ => rfl) (fun _ _ _ => rfl) (fun _ _ => rfl) s]

theorem waveSent_sideStep (i n : Nat) (good : Bool) (d : Side) (s : State) : waveSent i n good d (sideStep i s) = waveSent i n good d s := by
  unfold waveSent leftSent rightSent wordSent
  rw [txWord_sideStep, txWord_sideStep, csByte_sideStep]

/-! ### The command (08 R260) -/

/-- The next frame of a slave side begins: one that is being sent is cut off. -/
def frameCut (i n : Nat) (d : Side) (s : State) : State := if d.sending.isSome then sideSend i n false s else s

theorem side_frameCut {s : State} {i : Nat} {d : Side} (n : Nat) (hd : side s i = some d) :
    ∃ e, side (frameCut i n d s) i = some e ∧ e.frames = d.frames := by
  unfold frameCut
  split_ifs
  · exact ⟨_, side_sideSend hd, rfl⟩
  · exact ⟨d, hd, rfl⟩

theorem transmits_open {s : State} {i : Nat} {d : Side} {x : Dom} (hbegan : (genOf s x).last.isSome = true) (hworks : sideWorks s i d = true)
    (hrx : isRx i = false) (hopen : outputsOpen s = true) :
    ¬(isRx i || !sideWorks s i d || (genOf s x).last.isNone || !outputsOpen s) = true := by
  rw [hrx, hworks, hopen, ← Option.not_isSome, hbegan]
  decide

section
variable {s : State} {i : Fin 160} {d : Side} {x : Dom} (hd : side s i = some d) (hx : sideDom s i = some x)
  (hbegan : (genOf s x).last.isSome = true) (hworks : sideWorks s i d = true) (hrx : isRx i = false) (hopen : outputsOpen s = true)
include hd hx hbegan hworks hrx hopen

theorem doPortFrameTransmit_master {g : Bool} (good : Bool) (at_ : BitVec 32) (hm : sideMaster i d = true) (hg : d.sending = some g) :
    doPortFrameTransmit i good at_ s = sideSend i (nowIdx s x) g (sideStep i s) := by
  unfold doPortFrameTransmit
  rw [hd, hx]
  refine (if_neg (transmits_open hbegan hworks hrx hopen)).trans ((if_pos hm).trans ?_)
  rw [hg]

theorem doPortFrameTransmit_slave (good : Bool) (at_ : BitVec 32) (hm : sideMaster i d = false) {e : Side}
    (he : side (sideFrame i good at_.toNat (frameCut i (nowIdx s x) d s)) i = some e) :
    doPortFrameTransmit i good at_ s =
      setSide i (some { e with sending := some good, mask := maskReg s i }) (sideFrame i good at_.toNat (frameCut i (nowIdx s x) d s)) := by
  unfold doPortFrameTransmit
  rw [hd, hx]
  refine (if_neg (transmits_open hbegan hworks hrx hopen)).trans ((if_neg (Bool.eq_false_iff.mp hm)).trans ?_)
  unfold frameCut at he ⊢
  cases hsend : d.sending with
  | none =>
    rw [hsend, Option.isSome_none, if_neg Bool.false_ne_true] at he
    dsimp only
    rw [he]
    rfl
  | some g =>
    rw [hsend, Option.isSome_some, if_pos rfl] at he
    dsimp only
    rw [he]
    rfl

end

section
variable {s : State} {i : Fin 160} {d : Side} {x : Dom} (ready : Ready s) (hd : side s i = some d) (hx : sideDom s i = some x)
  (hbegan : (genOf s x).last.isSome = true) (hworks : sideWorks s i d = true) (hrx : isRx i = false) (hopen : outputsOpen s = true)
include ready hd hx hbegan hworks hrx hopen

/-- A master side sends the frame of its tick. -/
theorem completes_transmitMaster {g : Bool} {e : Side} (good : Bool) (at_ : BitVec 32) (hm : sideMaster i d = true) (hg : d.sending = some g)
    (he : side (sideStep i s) i = some e) (hdrives : sideDrives s i = true) : Completes (.portFrameTransmit i good at_) s (fun t =>
      Emit.port i (waveSent i (nowIdx s x) g e s) ∈ t.out ∧ e.cfg = d.cfg ∧ e.lastBit = d.lastBit) := by
  refine completes_run (doPortFrameTransmit i good at_) rfl ready ?_
  rw [doPortFrameTransmit_master (s := quietOut s) hd hx hbegan hworks hrx hopen good at_ hm hg]
  have he' : side (sideStep i (quietOut s)) i = some e := by
    rw [sideStep_quietOut]
    exact he
  have hsent := sideSend_emits (n := nowIdx (quietOut s) x) (good := g) he' ((sideDrives_sideStep i (quietOut s)).trans hdrives)
  rw [waveSent_sideStep] at hsent
  obtain ⟨e', hstep, hcfg, hlast⟩ := sideStep_side hd
  obtain rfl : e' = e := Option.some.inj (hstep.symm.trans he)
  exact ⟨mem_out_settled s hsent, hcfg, hlast⟩

/-- A slave side begins a frame. -/
theorem completes_transmitSlave (good : Bool) (at_ : BitVec 32) (hm : sideMaster i d = false) :
    Completes (.portFrameTransmit i good at_) s (fun t => ∃ e, side t i = some e ∧ e.sending = some good ∧ e.frames = d.frames + 1 ∧
      e.mask = maskReg s i) := by
  obtain ⟨c, hc, hcut⟩ := side_frameCut (nowIdx s x) (s := quietOut s) hd
  obtain ⟨e, he, hk⟩ := sideFrame_side good at_.toNat hc
  refine completes_run (doPortFrameTransmit i good at_) rfl ready ?_
  rw [doPortFrameTransmit_slave (s := quietOut s) hd hx hbegan hworks hrx hopen good at_ hm he]
  exact ⟨_, (side_settled ..).trans (side_setSide ..), rfl, hk.frames.trans (congrArg (· + 1) hcut), rfl⟩

end

end Sys2Proof.Machine
end

section
/-! PROOF. 16 R486, R487: the order of acceptance, which settling, completing and raising leave, and a recall that is accepted (O39). -/

namespace Sys2Proof.Machine

/-- The next ticket of each issuer, and the commands that wait for one. -/
def ticketOrder (s : State) : SMap Nat × List (Nat × BitVec 512) := (s.ctl.seq, s.ctl.waitq)

theorem ticketOrder_congr {s t : State} (h : t.ctl = s.ctl) : ticketOrder t = ticketOrder s := by
  unfold ticketOrder
  rw [h]

theorem ticketOrder_ite {c : Prop} [Decidable c] {s a b : State} (ha : ticketOrder a = ticketOrder s) (hb : ticketOrder b = ticketOrder s) :
    ticketOrder (if c then a else b) = ticketOrder s := by
  split_ifs
  · exact ha
  · exact hb

/-! ### Settling -/

theorem intEdges_order (s : State) : ticketOrder (intEdges s) = ticketOrder s := by
  have hmsix (s : State) (v : Nat) : (msixSend s v).ctl = s.ctl := by
    unfold msixSend
    dsimp only
    split <;> rfl
  have hsrc (s : State) (i : Nat) : (if bitOf (rd s (CTL_DOC_IRQ i)).toNat 31 then addDue s (.docIrq i) else s).ctl = s.ctl := by
    split <;> rfl
  have hlevels (up src : List Nat) (s : State) : ticketOrder (levelsHold up src s) = ticketOrder s := rfl
  obtain ⟨a, b, c, d, h⟩ := intEdges_form s
  rw [h, hlevels]
  exact ticketOrder_congr ((foldl_frame State.ctl _ hsrc c _).trans (foldl_frame State.ctl _ hmsix d s))

theorem syncKey_ctl (slot d : Nat) (v : Bool) (s : State) : (syncKey slot d v s).ctl = s.ctl := by
  unfold syncKey setKey
  split
  · rfl
  · split <;> rfl

theorem syncKeys_ctl (s : State) : (syncKeys s).ctl = s.ctl := by
  unfold syncKeys
  split
  · rfl
  · simp only [syncFour, syncKey_ctl]

theorem timerPend_order (s : State) : ticketOrder (timerPend s) = ticketOrder s := by
  have hhold (l : List Nat) : ticketOrder (mtipHold l s) = ticketOrder s := rfl
  exact hhold _

theorem netSend_ctl (p : Nat) (l : List Byte) (s : State) : (netSend p l s).1.ctl = s.ctl := by
  obtain h | ⟨m, e, h⟩ := netSend_form p l s <;> rw [h]
  rfl

theorem mgmtFlush_ctl (s : State) : (mgmtFlush s).ctl = s.ctl := by
  unfold mgmtFlush
  refine foldl_frame State.ctl _ (fun t e => ?_) _ _
  dsimp only
  split
  · exact netSend_ctl ..
  · rfl

theorem settle_order (s : State) : ticketOrder (settle s) = ticketOrder s := by
  unfold settle settleAwake
  split
  · exact (ticketOrder_congr (mgmtFlush_ctl _)).trans ((timerPend_order _).trans ((ticketOrder_congr (syncKeys_ctl _)).trans (intEdges_order s)))
  · rfl

theorem settle_seq (s : State) : (settle s).ctl.seq = s.ctl.seq := congrArg Prod.fst (settle_order s)
theorem settle_waitq (s : State) : (settle s).ctl.waitq = s.ctl.waitq := congrArg Prod.snd (settle_order s)

/-! ### Completing and raising -/

theorem docPush_order (s : State) (t : Nat) : ticketOrder (docPush s t) = ticketOrder s := by
  have hfifo (q : List Nat) : ticketOrder { s with ctl := { s.ctl with fifo := q } } = ticketOrder s := rfl
  have hwait (q : List Nat) : ticketOrder { s with ctl := { s.ctl with fifoWait := q } } = ticketOrder s := rfl
  have hshown (u : State) (k : Nat) (f : Fld) (v : Nat) : ticketOrder (fset u k f v) = ticketOrder u := ticketOrder_congr (fset_ctl ..)
  unfold docPush
  dsimp only
  split
  · split
    · rw [hshown, hshown, hfifo]
    · rw [hshown, hfifo]
  · exact hwait _

theorem outstUpdate_order (s : State) (l : List Tkt) : ticketOrder (outstUpdate s l) = ticketOrder s :=
  ticketOrder_congr (s := { s with ctl := { s.ctl with outst := l } }) (fset_ctl ..)

theorem ticketDone_order (s : State) (ticket : Nat) (signal : Option Nat) : ticketOrder (ticketDone s ticket signal) = ticketOrder s := by
  unfold ticketDone
  dsimp only
  split
  · exact (docPush_order ..).trans (outstUpdate_order ..)
  · exact outstUpdate_order ..

theorem memStore_order (s : State) (a n v : Nat) : ticketOrder (memStore s a n v) = ticketOrder s := rfl

theorem recordWrite_order (s : State) (h : Held) : ticketOrder (recordWrite s h) = ticketOrder s := by
  unfold recordWrite
  extract_lets tail ph0 w0 a s1 nt flip s2 _ s3
  have h1 : ticketOrder s1 = ticketOrder s := by simp only [s1, memStore_order]
  have h2 : s2.ctl = s1.ctl := by simp only [s2, ite_ctl, cnt_ctl, fset_ctl, ite_self]
  have h3 : ticketOrder s3 = ticketOrder s2 := by
    simp only [s3]
    split
    · cases h.fw <;> rfl
    · rfl
  exact (ticketDone_order ..).trans (h3.trans ((ticketOrder_congr h2).trans h1))

theorem recordQueue_order (s : State) (h : Held) : ticketOrder (recordQueue s h) = ticketOrder s := by
  have hheld (l : List Held) (k : Nat) (f : Fld) : ticketOrder (fset { s with ctl := { s.ctl with held := l } } k f 1) = ticketOrder s :=
    ticketOrder_congr (s := { s with ctl := { s.ctl with held := l } }) (fset_ctl ..)
  exact ticketOrder_ite (ticketOrder_ite (hheld ..) (hheld ..)) (recordWrite_order s h)

theorem complete_order (s : State) (ticket oc dom result : Nat) : ticketOrder (complete s ticket oc dom result) = ticketOrder s := by
  unfold complete
  split
  · rfl
  · extract_lets w0 tell _ s1
    have h1 : ticketOrder s1 = ticketOrder s := ticketOrder_ite rfl rfl
    exact ticketOrder_ite ((ticketDone_order ..).trans h1) ((recordQueue_order ..).trans h1)

theorem raiseKeyed_order (s : State) : ticketOrder (raiseKeyed s) = ticketOrder s := by
  refine ticketOrder_congr ?_
  unfold raiseKeyed raiseStart setPhase
  simp only [ite_ctl, fset_ctl, ite_self]

/-! ### A recall (04 R131) -/

theorem claim_ctl (x : Dom) (g : Nat) (s : State) : (claim x g s).ctl = s.ctl := by
  unfold claim
  rw [fset_ctl, fset_ctl]

theorem loaderShow_ctl (s : State) : (loaderShow s).ctl = s.ctl := by
  unfold loaderShow
  rw [fset_ctl, fset_ctl]

theorem recallCmd_order (t : Nat) (e : BitVec 512) (s : State) : ticketOrder (recallCmd t e s) = ticketOrder s := by
  have hrefuse (oc at_ : Nat) : ticketOrder (refuse s t oc at_) = ticketOrder s := complete_order ..
  have hrefuseAll (oc : Nat) : ticketOrder (refuseAll s t oc) = ticketOrder s := hrefuse ..
  unfold recallCmd
  extract_lets scene mode flags dom id
  split
  · exact hrefuse ..
  · refine ticketOrder_ite (hrefuse ..) (ticketOrder_ite (hrefuse ..) (ticketOrder_ite (hrefuse ..) (ticketOrder_ite (hrefuse ..)
      (ticketOrder_ite (hrefuseAll _) ?_))))
    split
    · exact hrefuseAll _
    · extract_lets touched tag tgt s1 r
      have hclaimed : s1.ctl = s.ctl := by
        refine foldl_frame State.ctl _ (fun u x => ?_) touched s
        split
        · next g _ => exact claim_ctl x g u
        · rfl
      exact ticketOrder_ite (hrefuseAll _) (ticketOrder_ite (hrefuseAll _) (ticketOrder_congr ((loaderShow_ctl _).trans hclaimed)))

/-! ### Acceptance (16 R486, R487) -/

theorem dispatch_order {e : BitVec 512} (t : Nat) (s : State) (hcode : eByte e 0 2 = 0x0101) : ticketOrder (dispatch t e s) = ticketOrder s := by
  by_cases hcat : catState s = 6
  · have hoff : dispatchCode t e s = refuseAll s t ocDISABLED := by
      unfold dispatchCode
      rw [hcode]
      exact (if_neg (by decide)).trans (if_pos hcat)
    unfold dispatch
    rw [raiseKeyed_order, hoff]
    exact complete_order ..
  · rw [dispatch_recall hcode hcat, raiseKeyed_order, recallCmd_order]

/-- An issuer's next ticket is one further. -/
theorem allot_seq (iss : Nat) (e : BitVec 512) (s : State) :
    (allot iss e s).2.ctl.seq = smSet 0 s.ctl.seq iss ((smGet 0 s.ctl.seq iss + 1) % 65536) :=
  congrArg Prod.fst (outstUpdate_order { s with ctl := { s.ctl with seq := smSet 0 s.ctl.seq iss ((smGet 0 s.ctl.seq iss + 1) % 65536) } } _)

theorem accept_recall_seq {e : BitVec 512} (iss : Nat) (s : State) (hcode : eByte e 0 2 = 0x0101) :
    smGet 0 (accept iss e s).ctl.seq iss = (smGet 0 s.ctl.seq iss + 1) % 65536 := by
  have horder : ticketOrder (accept iss e s) = ticketOrder (allot iss e s).2 := dispatch_order _ _ hcode
  have hseq : (accept iss e s).ctl.seq = (allot iss e s).2.ctl.seq := congrArg Prod.fst horder
  rw [hseq, allot_seq, smGet_smSet_same]

/-! ### A scene pin (08 R275) -/

theorem triggerEntry_code (s : State) (g : Nat) : eByte (triggerEntry s g) 0 2 = 0x0101 := by
  unfold triggerEntry eByte bitsOf
  dsimp only
  rw [BitVec.toNat_ofNat]
  omega

theorem acceptCommand_full {s : State} (iss : Nat) (e : BitVec 512) (h : ticketsFull s = true) :
    acceptCommand iss e s = { s with ctl := { s.ctl with waitq := s.ctl.waitq ++ [(iss, e)] } } := by
  unfold acceptCommand
  rw [h]
  rfl

theorem acceptCommand_now {s : State} (iss : Nat) (e : BitVec 512) (h : ticketsFull s = false) (hw : s.ctl.waitq = []) :
    acceptCommand iss e s = accept iss e s := by
  unfold acceptCommand
  rw [h, hw]
  rfl

section
variable {s : State} {g : Fin 32} (ready : Ready s) (hfun : fget s (PRT_GP_CFG g) PRT_GP_CFG_function = 2)
include ready hfun

theorem completes_trigger {P : State → Prop} (h : P (keep s (settle (acceptCommand 0x21 (triggerEntry s g) (quietOut s))))) :
    Completes (.gpSceneTrigger g) s P := by
  have htrigger : doGpSceneTrigger g (quietOut s) = acceptCommand 0x21 (triggerEntry s g) (quietOut s) := if_pos hfun
  refine completes_run (doGpSceneTrigger g) rfl ready ?_
  rwa [htrigger]

theorem completes_triggerWaits (hfull : ticketsFull s = true) :
    Completes (.gpSceneTrigger g) s (fun t => t.ctl.waitq = s.ctl.waitq ++ [(0x21, triggerEntry s g)]) := by
  refine completes_trigger ready hfun ?_
  rw [acceptCommand_full (s := quietOut s) _ _ hfull, keep_ctl, settle_waitq, quietOut_ctl]

theorem completes_triggerAccepted (hroom : ticketsFull s = false) (hw : s.ctl.waitq = []) :
    Completes (.gpSceneTrigger g) s (fun t => smGet 0 t.ctl.seq 0x21 = (smGet 0 s.ctl.seq 0x21 + 1) % 65536) := by
  refine completes_trigger ready hfun ?_
  rw [acceptCommand_now (s := quietOut s) _ _ hroom hw]
  rw [keep_ctl, settle_seq]
  exact accept_recall_seq 0x21 (quietOut s) (triggerEntry_code s g)

end

end Sys2Proof.Machine
end

section
/-! PROOF. 08 R257 to R275: sides of the local ports, and the general-purpose pins (O39). -/

namespace Sys2Proof.Machine

/-! ### Disabling (08 R274) -/

section
variable {s : State} {i : Fin 160} {d : Side} {w : W32} (ready : Ready s) (hon : regOn s (PRT_SIDE_CFG i) = true) (hd : side s i = some d)
  (hw : wbit w PRT_SIDE_CFG_enable = false)
include ready hon hd hw

theorem completes_sideCloses (h : ∃ x, sideDom s i = some x ∧ running s x = true) : Completes (.sideDisable i w) s (fun t =>
    side t i = some { d with closing := true, again := none } ∧ ∀ j : Fin 160, j ≠ i → side t j = side s j) := by
  obtain ⟨x, hx, hr⟩ := h
  refine completes_sideDisable ready hon ?_
  rw [sideCfg_closing (s := quietOut s) hd hw hx hr]
  exact ⟨(side_settled ..).trans (side_setSide ..), fun j hj => (side_settled ..).trans
    ((side_setSide_ne _ _ (Fin.val_ne_of_ne hj)).trans (side_congr (swWrite_prt (quietOut s) 8 (PRT_SIDE_CFG i) w) j))⟩

theorem completes_sideEnds (h : ∀ x, sideDom s i = some x → running s x = false) : Completes (.sideDisable i w) s (fun t =>
    side t i = none ∧ rd t (PRT_SIDE_STATUS i) = regReset (PRT_SIDE_STATUS i) ∧ ∀ j : Fin 160, j ≠ i → side t j = side s j) := by
  refine completes_sideDisable ready hon ?_
  rw [sideCfg_off (s := quietOut s) hd hw h]
  exact ⟨(side_settled ..).trans (side_sideOff ..), (rd_side_settled s _ i 2).trans (rd_sideOff ..), fun j hj => (side_settled ..).trans
    ((side_sideOff_ne _ (Fin.val_ne_of_ne hj)).trans (side_congr (swWrite_prt (quietOut s) 8 (PRT_SIDE_CFG i) w) j))⟩

end

/-! ### What a side that is due does (08 R269, R271) -/

section
variable {s : State} {i : Fin 160} {d : Side} (ha : awake s = true) (hd : side s i = some d)
include ha hd

theorem completes_sideLocked (hdue : s.due.contains (.sideLock i) = true) (hc : d.cause = 0) (hl : sideState s i ≠ stLOCKED) :
    Completes (.sideLocked i) s (fun t => sideState t i = stLOCKED) := by
  have hlock : dueDo (.sideLock i) (takenDue (.sideLock i) s) = setSideState i stLOCKED
      (setSide i (some { d with lockFrom := some (sideState s i), drift := none }) (takenDue (.sideLock i) s)) := by
    have hd' : side (takenDue (.sideLock i) s) i = some d := hd
    change sideLock i (takenDue (.sideLock i) s) = _
    unfold sideLock
    rw [hd']
    exact if_pos ⟨hc, hl⟩
  refine completes_runDue rfl ha (List.contains_iff_mem.mp hdue) ?_
  rw [hlock]
  exact (fget_side_settled s _ i 2 _).trans (sideState_setSideState i (by decide) _)

theorem completes_sideFadeEnd (hdue : s.due.contains (.sideFade i) = true) : Completes (.sideFadeEnd i) s (fun t =>
    fget t (PRT_SIDE_STATUS i) PRT_SIDE_STATUS_muted = (if d.gain = unityG then 0 else 1) ∧ side t i = some d) := by
  have hend : dueDo (.sideFade i) (takenDue (.sideFade i) s) = fset (takenDue (.sideFade i) s) (PRT_SIDE_STATUS i) PRT_SIDE_STATUS_muted
      (b2n (decide (d.gain ≠ unityG))) := by
    have hd' : side (takenDue (.sideFade i) s) i = some d := hd
    change sideFadeEnd i (takenDue (.sideFade i) s) = _
    unfold sideFadeEnd
    rw [hd']
  refine completes_runDue rfl ha (List.contains_iff_mem.mp hdue) ?_
  rw [hend]
  refine ⟨(fget_side_settled s _ i 2 _).trans ((fget_fset _ _ _ _ (by decide)).trans ?_), (side_settled ..).trans ((side_congr (fset_prt ..) i).trans hd)⟩
  by_cases hg : d.gain = unityG
  · rw [if_pos hg, decide_eq_false (not_not.mpr hg)]
    rfl
  · rw [if_neg hg, decide_eq_true hg]
    rfl

end

/-! ### Masks and pins (08 R273, R275) -/

theorem softWrite_sentClear {s : State} (m : Nat) (w : W32) (hon : regOn s PRT_GP_SENT_CLR = true) :
    softWrite m PRT_GP_SENT_CLR w s = sentClear w s := by
  rw [softWrite_port m w (by decide) hon]
  exact (if_neg (by decide)).trans (if_pos rfl)

section
variable {s : State} (ready : Ready s)
include ready

theorem completes_maskOutside {i : Fin 160} {d : Side} (hd : side s i = some d) (h : inFrame s i d = false) :
    Completes (.maskApply i) s (fun t => side t i = some { d with mask := maskReg s i } ∧ ∀ j : Fin 160, j ≠ i → side t j = side s j) := by
  refine completes_run (doMaskApply i) rfl ready ?_
  rw [doMaskApply_out (s := quietOut s) hd h]
  exact ⟨(side_settled ..).trans (side_setSide ..), fun j hj => (side_settled ..).trans (side_setSide_ne _ (quietOut s) (Fin.val_ne_of_ne hj))⟩

theorem completes_maskInside {i : Fin 160} {d : Side} (hd : side s i = some d) (h : inFrame s i d = true) :
    Completes (.maskApply i) s (fun t => t.prt = s.prt) := by
  refine completes_run (doMaskApply i) rfl ready ?_
  rw [doMaskApply_in (s := quietOut s) hd h]
  exact settle_prt (quietOut s)

theorem completes_sentinelClear {w : W32} (hon : regOn s PRT_GP_SENT_CLR = true) : Completes (.sentinelOutputClear w) s (fun t =>
    t.prt = { s.prt with gpSent := s.prt.gpSent &&& (w.toNat ^^^ 0xFFFF_FFFF) }) := by
  refine completes_run (softWrite 8 PRT_GP_SENT_CLR w) rfl ready ?_
  rw [softWrite_sentClear (s := quietOut s) 8 w hon]
  exact settle_prt (sentClear w (quietOut s))

theorem completes_gpInput (g : Fin 32) (v : Bool) : Completes (.gpInputChange g v) s (fun t =>
    t.prt = { s.prt with gpRaw := putBits s.prt.gpRaw g 1 (b2n v) } ∧ ∀ k, ¬settleKey k → rd t k = rd s k) := by
  have hregs (k : Nat) : rd (doGpInputChange g v (quietOut s)) k = rd s k := rfl
  exact completes_run (doGpInputChange g v) rfl ready
    ⟨settle_prt (doGpInputChange g v (quietOut s)), fun k hk => (rd_settle _ k hk).trans (hregs k)⟩

end

/-! ### The frame of a master side -/

section
variable {s : State} {i : Fin 160} {d : Side} {x : Dom} (ready : Ready s) (hd : side s i = some d) (hx : sideDom s i = some x)
  (hbegan : (genOf s x).last.isSome = true) (hworks : sideWorks s i d = true) (hrx : isRx i = false) (hopen : outputsOpen s = true)
include ready hd hx hbegan hworks hrx hopen

/-- What the pins of the side carry, in the terms of the side as it stood before the step of its gain. -/
theorem completes_transmitWave {g : Bool} {e : Side} (good : Bool) (at_ : BitVec 32) (hm : sideMaster i d = true) (hg : d.sending = some g)
    (he : side (sideStep i s) i = some e) (hdrives : sideDrives s i = true) : Completes (.portFrameTransmit i good at_) s (fun t =>
      let n := nowIdx s x
      let l := (leftSent i n g e s).1
      let r := (rightSent i n g e s).1
      let c := bitOf (csByte s (i - 128) (n % 192 / 8)).toNat (n % 8)
      (isAes i = true → Emit.port i (.aes (if n % 192 = 0 then .Z else .X) .Y (aesSlots l c) (aesSlots r c) true) ∈ t.out) ∧
      (isAes i = false → Emit.port i (.serial (serialBits (wbit d.cfg PRT_SIDE_CFG_format) (slotCode i d) l r d.lastBit)) ∈ t.out)) := by
  refine (completes_transmitMaster ready hd hx hbegan hworks hrx hopen good at_ hm hg he hdrives).mono fun t ⟨hemit, hcfg, hlast⟩ => ?_
  have hcode : slotCode i e = slotCode i d := by
    unfold slotCode
    rw [hcfg]
  unfold waveSent at hemit
  refine ⟨fun haes => ?_, fun haes => ?_⟩
  · rw [haes] at hemit
    exact hemit
  · rw [haes, hcfg, hcode, hlast] at hemit
    exact hemit

end

/-- Settles O39: each clause is the lemma that says what its command does to the side, its registers and its pins. -/
theorem portSides : Obligations.PortSides := by
  unfold Obligations.PortSides
  intro s i w
  refine ⟨fun ready hon => ⟨fun hnone hw => ?_, fun d hd hw => ⟨completes_sideCloses ready hon hd hw, completes_sideEnds ready hon hd hw⟩⟩,
    fun d x ready hd hx hbegan hworks => ⟨fun f hrx hclk => ⟨completes_frameWhole ready hd hx hbegan hrx hworks hclk,
      completes_frameGlitch ready hd hx hbegan hrx hworks hclk⟩, fun good at_ hrx hopen => ⟨fun g e => ?_, ?_⟩⟩,
    fun lj code l r last => ⟨serialBits_select lj code l r last, serialBits_data lj code l r last⟩,
    fun v c => ⟨parityOdd_aesSlots v c, aesSlots_word v c⟩,
    fun d ready hq => ⟨completes_missingFrame ready hq, completes_clockAbsent ready hq⟩,
    fun d ha hd => ⟨completes_sideLocked ha hd, completes_sideFadeEnd ha hd⟩,
    fun ready => ⟨completes_sideMaskWrite ready, fun d => completes_maskOutside ready, fun d => completes_maskInside ready,
      completes_sentinelClear ready, completes_gpInput ready,
      fun g hfun => ⟨completes_triggerWaits ready hfun, completes_triggerAccepted ready hfun⟩⟩⟩
  · exact (completes_sideEnable ready hon hnone hw).mono fun t h =>
      ⟨h.side, h.state, h.good, h.muted, fun j hj => h.others j (Fin.val_ne_of_ne hj)⟩
  · exact completes_transmitWave ready hd hx hbegan hworks hrx hopen good at_
  · exact completes_transmitSlave ready hd hx hbegan hworks hrx hopen good at_

end Sys2Proof.Machine
end
